-- ==== Sys2Proof/Word.lean ====
section
/-! DEFINITION. The words of the YXG-7100: what the manual treats as bits. Registers are 32 or 64 bits wide
(R10), descriptors 64 bytes (R91), and everything is little-endian (R9). Identifiers and counts are `Nat`. -/

namespace Sys2Proof

/-- One byte. -/
abbrev Byte := BitVec 8

/-- A 32-bit register or register half, and the bits of an FP32 value. -/
abbrev Word32 := BitVec 32

/-- A 64-bit register or doorbell. -/
abbrev Word64 := BitVec 64

/-- A 64-byte descriptor or endpoint entry; byte `k` is bits `8*k + 7 .. 8*k` (R9, Table 3.3). -/
abbrev Word512 := BitVec 512

/-- A 16-byte entry (registry entry, Table 10.8; stripe of two 64-bit DATA registers). -/
abbrev Word128 := BitVec 128

end Sys2Proof
end

