-- ==== Sys2Proof/Types.lean ====
section
/-! DEFINITION. The kinds of data the commands carry and the state holds: enumerations of the manual, the
structured blank, Lathe packets, service messages and what the block sends out. Plain data throughout. -/

namespace Sys2Proof

/-- A work-queue slot: queue ID and free-running ring index (R79). It names an admitted command. -/
structure CmdId where
  q : Nat
  idx : Nat
deriving DecidableEq, Repr

/-- A byte offset in BAR0 (the registers) or in BAR2 (the doorbells). -/
inductive BarAddr where
  | bar0 (off : Nat)
  | bar2 (off : Nat)
deriving DecidableEq, Repr

/-- A request of another part: the part and its REQ (Table 10.4). -/
structure PeerReq where
  part : Nat
  req : Nat
deriving DecidableEq, Repr

/-- A cascade claim of this part: the lookup it is for, and the positions that claim in the same cycle (R243). -/
structure CascTry where
  cmd : CmdId
  rivals : List Nat
deriving DecidableEq, Repr

/-- Another part's claim as this part sees it: its position and the REQ of its query, 0 if that is not known yet. -/
structure CascSeen where
  position : Nat
  query : Nat
deriving DecidableEq, Repr

/-- What an uncorrectable HBM error hit: the page it was found in, and the other pages with bad bytes in the pseudo-channel. -/
structure PcLoss where
  pfh : Nat
  bad : List Nat
deriving DecidableEq, Repr

/-- The three objects of CTXW_QSEL.KIND (Table 3.12). -/
inductive QKind where
  | wq | cq | eq
deriving DecidableEq, Repr

/-- How a host-memory or PCIe-peer read ends (R104): data, UR, CA, or a failed ATS translation. -/
inductive HostRead where
  | data (bytes : List Byte)
  | ur | ca | ats
deriving DecidableEq, Repr

/-- Why one copy of a page fails its checks (R318, R323, R526). -/
inductive FailKind where
  | hcrc | tag | check | short | long | hbm
deriving DecidableEq, Repr

/-- The tiers a copy of stored form can occupy on the part. -/
inductive Tier where
  | t0 | t1 | t2
deriving DecidableEq, Repr

/-- How one step of the flash recovery ladder (Table 7.6) ends. -/
inductive LadderEnd where
  /-- LDPC-correct, tag and tile check pass. -/
  | pass
  /-- Not LDPC-correct. -/
  | uncorrectable
  /-- LDPC-correct, but the tag or the tile check fails: the rest of step 2 is skipped (R278). -/
  | badCopy (k : FailKind)
deriving DecidableEq, Repr

/-- Page states of Table 7.2, in code order. -/
inductive PgState where
  | empty | writing | dirtyT1 | cleanT1 | t2Only | promoting | demoting | dropped | poisoned
deriving DecidableEq, Repr

/-- A model profile record (Tables 2.8 and 4.1). -/
structure Profile where
  mprof : Nat
  layers : Nat
  kvHeads : Nat
  qpk : Nat
  hdim : Nat
  kfmt : Nat
  vfmt : Nat
  qfmts : Nat
  block : Nat
  lgrp : Nat
  tset : Nat
  kvar : Nat
  scale : Word32
  softcap : Word32
  slope : Word32
  biasStep : Nat
  winPeriod : Nat
  sink : Nat
  window : Nat
  /-- Nonzero reserved bytes: invalid under R60 and R124. -/
  reservedBad : Bool := false
deriving DecidableEq, Repr

/-- A signed object (R429): its bytes before the signature block, and the 800-byte block of Table 12.1 as the number its
bytes spell, byte 0 least significant. -/
structure Signed where
  body : List Byte
  block : Nat
deriving DecidableEq, Repr

/-- One CONTEXT record of the blank (Table 14.5, type 0x05). -/
structure CtxRec where
  ctx : Nat
  part : Nat
  func : Nat
  tenant : Nat
  retrieval : Bool
  maxBlocks : Nat
  topk : Nat
  recent : Nat
  sinkBlk : Nat
  maxTopk : Nat
  maxC : Nat
  minC : Nat
  weight : Nat
  groups : List Nat
  trigFirst : Nat
  trigCount : Nat
  seqLimit : Nat
  sdom : Nat
  nameable : List Nat
  publish : List Nat
  tableRight : List Nat
  heavy : Bool
deriving DecidableEq, Repr

/-- Placement settings, with the codes of Table 7.4. -/
structure Placement where
  cls : Nat
  wb : Nat
  drop : Nat
deriving DecidableEq, Repr

/-- One PARTITION record of the blank (type 0x02). -/
structure PartRec where
  part : Nat
  cgroups : List Nat
  aeset : Nat
  sgroup : Option Nat
  slice : Nat
  plabel : Nat
  kgen : Nat
  sealSet : Option Nat
  /-- Import partition for pages that a partition of this number on a peer exports (R391). -/
  importPart : Option Nat
  defaults : Placement
  planBuf : Nat
  records : Nat
deriving DecidableEq, Repr

/-- One AESET record: AE islands (R398). -/
structure AeSetRec where
  set : Nat
  islands : List Nat
deriving DecidableEq, Repr

/-- One SGROUP record: ways and members in order (Table 11.10). -/
structure SGroupRec where
  group : Nat
  die : Nat
  wayFirst : Nat
  ways : Nat
  members : List Nat
deriving DecidableEq, Repr

/-- A subscriber or service entry of the egress scheduler (Table 11.17). -/
structure EgsEntry where
  cir : Nat
  pir : Nat
  weight : Nat
  service : Nat
  cbs : Nat
  pbs : Nat
deriving DecidableEq, Repr

/-- A table record as its bytes read (Table 8.3): ID, log2 of the state count, 256 frequencies, RCRC, and whether RCRC matches. -/
structure TableRec where
  tid : Nat
  tlog : Nat
  freq : List Nat
  rcrc : Nat
  reservedBad : Bool
  rcrcOk : Bool
deriving DecidableEq, Repr

/-- A table-set image as its bytes read (Table 8.5). `reservedBad`: reserved bytes that are not zero, or a length that does not
fit the parts. -/
structure TableSetImage where
  tset : Nat
  mprof : Nat
  ngroups : Nat
  ntables : Nat
  len : Nat
  bind : List (Nat × Nat)
  tables : List TableRec
  reservedBad : Bool
deriving DecidableEq, Repr

/-- A wrapped key record as its bytes read (Table 12.4). -/
structure KeyRec where
  kind : Nat
  id : Nat
  target : Nat
  wrapped : Nat
  reservedBad : Bool
deriving DecidableEq, Repr

/-- The DOMAIN section (type 0x0A). -/
structure DomRec where
  tag : Nat
  partId : Nat
  members : List Nat
  voters : List Nat
  /-- Candidate ranks: (part, rank). -/
  ranks : List (Nat × Nat)
  leaseMs : Nat
  skewPpm : Nat
  electGap : Nat
  admitWindow : Nat
deriving DecidableEq, Repr

/-- Cascade settings of the DOMAIN section. -/
structure CascRec where
  position : Nat
  members : Nat
  parts : List Nat
deriving DecidableEq, Repr

/-- MKA settings of one interface, from the KEYS section (R440). -/
structure MkaRec where
  iface : Nat
  ckn : Nat
  cknLen : Nat
  priority : Nat
  rekeyS : Nat
  /-- The CAK is derived from the DSS (part-to-part), not carried in a wrapped record. -/
  fromDss : Bool
deriving DecidableEq, Repr

/-- A blank (R485): its bytes, and beside them what the sections say to whose records the manual gives no byte layout. The
header, the directory and the PROFILE, TSET and key records are read from the bytes; the other sections' bytes are what the
signature covers, and mean the fields below (DESIGN CHOICE, log entry 3). -/
structure Blank where
  obj : Signed
  /-- GLOBAL. -/
  deviceCtx : Nat
  records : Nat
  anchors : Nat
  frames : Nat
  sysGroups : List Nat
  dirLog2 : Nat
  retxStore : Nat
  mapSegments : Nat
  rate : Nat
  depth : Nat
  vfCount : Nat
  bar0Pages : Nat
  bar2Pages : Nat
  partitions : List PartRec
  aesets : List AeSetRec
  sgroups : List SGroupRec
  contexts : List CtxRec
  /-- Kernel variants stored with the PROFILE section: (KVAR, object). -/
  variants : List (Nat × Signed)
  /-- (SDOM, public flag). -/
  sdoms : List (Nat × Bool)
  portModes : List Nat
  macBase : Nat
  svcs : List (Nat × EgsEntry)
  subs : List (Nat × EgsEntry)
  endpoints : List (Nat × Word512)
  node : Nat
  domain : Option DomRec
  cascade : Option CascRec
  shardMap : List Nat
  mka : List MkaRec
  capW : Nat
  capMargin : Nat
  therm : Nat
  /-- A section that is malformed in a way these fields do not show. -/
  malformed : Bool := false
deriving DecidableEq, Repr

/-- A firmware or configuration image staged or held in a bank (R432, R433): its bytes, and beside them what a configuration
image says (no byte layout is given): an optional blank, the least BLANK_SVN, management CA digests with their roles (0
OBSERVE, 1 OPERATE, 2 OWNER), revoked client serials, and the owner digest it enrols (R430). -/
structure BankImage where
  obj : Signed
  minBlankSvn : Nat := 0
  blank : Option Blank := none
  cas : List (Nat × Nat) := []
  revoked : List Nat := []
  ownerDigest : Option Nat := none
deriving DecidableEq, Repr

/-- Lathe packet types (Table 9.4). -/
inductive PktType where
  | write | readReq | readResp | ack | nak | service
deriving DecidableEq, Repr

/-- A Lathe packet: the header of Table 9.3 and its payload. -/
structure Packet where
  typ : PktType
  hasImm : Bool := false
  retx : Bool := false
  ece : Bool := false
  src : Nat
  dst : Nat
  domain : Nat
  status : Nat := 0
  pkt : Nat := 0
  epoch : Nat := 0
  inc : Nat := 0
  msgid : Nat := 0
  low : Nat := 0
  rkey : Word32 := 0
  roff : Nat := 0
  mlen : Nat := 0
  imm : Word32 := 0
  payload : List Byte := []
deriving DecidableEq, Repr

/-- What a sent packet carries below the Lathe header (R329, R332): MAC addresses, the association and packet number of its
SecTAG, IP version and destination, DSCP, ECN, hop limit or TTL, UDP ports. -/
structure NetHdr where
  srcMac : Nat
  dstMac : Nat
  an : Nat
  pn : Nat
  v6 : Bool
  dstIp : Nat
  dscp : Nat
  ecn : Nat
  hops : Nat
  srcPort : Nat
  dstPort : Nat
deriving DecidableEq, Repr

/-- A frame as an interface receives it (R330, R331, R333). -/
structure RxFrame where
  iface : Nat
  /-- Its RS codewords could be corrected. -/
  fecOk : Bool := true
  /-- Association and packet number of its SecTAG; none on an unprotected frame. -/
  sectag : Option (Nat × Nat) := some (0, 1)
  /-- The ICV verifies under the key of that association. -/
  icvOk : Bool := true
  vlan : Bool := false
  /-- A UDP datagram over IPv6 or IPv4 to the IP address of this interface. -/
  udp : Bool := true
  fragment : Bool := false
  dport : Nat := 0x4C7A
  udpSumOk : Bool := true
  /-- The packet arrived marked CE. -/
  ce : Bool := false
  /-- What the datagram carries: the Lathe header and its payload. -/
  bytes : List Byte
deriving DecidableEq, Repr

/-- A hit or match: depth and prefix reference (Table 6.4). -/
structure Match where
  depth : Nat
  ref : Word64
deriving DecidableEq, Repr

/-- One item of an INSERT batch (Table 10.5): digest, depth, anchor, APART. -/
structure InsertItem where
  digest : Nat
  sdom : Nat
  mprof : Nat
  depth : Nat
  anchor : Nat
  apart : Nat
deriving DecidableEq, Repr

/-- An INSERT batch: whether it is part of a refill, and its items. -/
structure InsertBatch where
  fill : Bool
  items : List InsertItem
deriving DecidableEq, Repr

/-- What a LOOKUP_RESP brings: how many of its hits the CAM gave, and the hits. -/
structure LookupHits where
  cam : Nat
  hits : List Match
deriving DecidableEq, Repr

/-- What a RETIRE names (Table 10.5). -/
inductive RetireKey where
  | anchor (anchor apart fromDepth : Nat)
  | domain (sdom mprof : Nat) (anyMprof : Bool)
deriving DecidableEq, Repr

/-- A page of a block row as ROWS_RESP carries it: the anchor part's frame, version and state. -/
structure RowPage where
  lpi : Nat
  layer : Nat
  head : Nat
  pfh : Nat
  version : Nat
  state : PgState
deriving DecidableEq, Repr

/-- What a ROWS_RESP brings: block rows, or the digests that a reference covers. -/
structure RowsBody where
  rows : List RowPage
  digests : List Nat
deriving DecidableEq, Repr

/-- The body of PAGE_DATA (Table 10.7). `data` holds Ldec decoded bytes, or, when sealed, their ciphertext and the GCM tag
(R447). Beside the body travel the sending partition `spart` (R391) and the incarnation and seal counter of the IV, which Table
10.7 does not list (DESIGN CHOICE, log entry 43). -/
structure PageBody where
  spfh : Nat
  tiles : Nat
  version : Nat
  mprof : Nat
  isSealed : Bool
  isExport : Bool
  ldec : Nat
  set : Nat
  checks : List Nat
  data : List Byte
  spart : Nat
  inc : Nat
  sealNo : Nat
deriving DecidableEq, Repr

/-- Service messages (Table 10.5), requests and replies. Beside the bodies of Table 10.5, LOOKUP_RESP counts its hits found in
the CAM, INSERT tells a refill (R386) from a publication, CASC_QUERY carries its REQ, and ROWS_RESP to a request of FORK_LEN 0
brings the digest list in place of rows (DESIGN CHOICE, log entries 41, 97, 98). -/
inductive SvcMsg where
  | leaseReq (epoch rank : Nat)
  | leaseGrant (epoch highest : Nat)
  | heartbeat (epoch rUs mapVer : Nat) (members : List Nat)
  | hbAck (epoch : Nat)
  | join (lastEpoch highest : Nat)
  | admitMsg (epoch : Nat) (members : List Nat)
  | admitReply (epoch : Nat)
  | mapUpdate (ver : Nat) (map : List Nat)
  | regUpdate (eps : List (Nat × Word512)) (regs : List (Nat × Word128))
  | lookupReq (req sdom mprof : Nat) (camOnly : Bool) (items : List (Nat × Nat))
  | lookupResp (req cam : Nat) (hits : List Match)
  | insert (req : Nat) (fill : Bool) (items : List InsertItem)
  | insertReply (req : Nat) (statuses : List Nat) (refs : List Word64)
  | retire (req : Nat) (key : RetireKey)
  | retireReply (req status count : Nat)
  | trim (items : List (Nat × Nat))
  | refill (part : Nat)
  | refillReply (part : Nat)
  | rowsReq (req : Nat) (ref : Word64) (forkLen : Nat)
  | rowsResp (req status mprof sdom : Nat) (rows : List RowPage) (digests : List Nat)
  | rowsDone (req anchor : Nat) (frames : List Nat)
  | pageReq (pfh version : Nat)
  | pageData (body : PageBody)
  | pageAck (spfh newPfh status : Nat)
  | refRelease (frames : List Nat)
  | cascQuery (req sdom mprof limit : Nat) (camOnly : Bool) (items : List (Nat × Nat))
  | cascResult (ref : Word64)
  | lost (part : Nat)
deriving DecidableEq, Repr

/-- A captured page of a walk (Table 4.2, the fields the model uses). -/
structure PageRef where
  lpi : Nat
  layer : Nat
  head : Nat
  pfh : Nat
  version : Nat
  /-- Unavailable at the walk, or become unavailable while a chunk held it: masked (R181). -/
  masked : Bool := false
  /-- The chunk holds a read pin on it (R139). -/
  pinned : Bool := true
  /-- Read from T0: the flag as it stands at placement (R163). -/
  t0 : Bool := false
deriving DecidableEq, Repr

/-- A failure found while a chunk reads a page: which page, which copy, how (R157, R323). -/
structure PageFail where
  lpi : Nat
  tier : Tier
  kind : FailKind
deriving DecidableEq, Repr

/-- What the block sends out of itself, in order. -/
inductive Out where
  /-- Data returned to a register or BAR read of a function. -/
  | regData (func : Nat) (value : Word64)
  /-- A ring read issued by QDB. -/
  | ringRead (c : CmdId) (addr bytes : Nat)
  /-- A host-memory read a command needs. -/
  | hostRead (c : CmdId) (addr bytes : Nat)
  /-- A posted write to host memory (R97, R549). -/
  | hostWrite (func addr : Nat) (bytes : List Byte)
  /-- An MSI-X message. -/
  | msix (func vector : Nat)
  /-- A Lathe packet put on an interface. -/
  | packet (iface : Nat) (net : NetHdr) (bytes : List Byte)
  /-- A service message sent to a part: its 16-byte header and what its body says. -/
  | svc (dst : Nat) (header : List Byte) (m : SvcMsg)
  /-- A posted write or read to a PCIe peer (R363). -/
  | peerWrite (addr : Nat) (bytes : List Byte)
  | peerRead (c : CmdId) (addr bytes : Nat)
  /-- A read of host memory that no command waits for: a host region read by a peer, a control word (R352). -/
  | hostFetch (func addr bytes : Nat)
  /-- A PCIe error message: AER Corrected (false) or Uncorrectable Internal Error, fatal (true). -/
  | aer (fatal : Bool)
  /-- A PMBus command to a rail: OPERATION off, VOUT_COMMAND by millivolts, READ_PIN, STATUS_WORD. -/
  | pmbusOff (rail : Nat)
  | pmbusVout (rail mv : Nat)
  | pmbusRead (rail : Nat)
  /-- A response on a management session: TYPE, REQ, STATUS, body as values. -/
  | mgmt (session typ req status : Nat) (body : List Nat)
  /-- An SPDM response: the request code answered, and measurement or report values. -/
  | spdm (transport code : Nat) (body : List Nat)
  /-- A pulse on SPI_RST_N (R517). -/
  | spiReset
  /-- What the TAP shifts out after IDCODE (R518). -/
  | idcode (v : Nat)
  /-- An MKA frame distributing a fresh SAK on an interface. -/
  | mka (iface sakNo : Nat)
  /-- A pace notice's 32 bytes to a node (Table 10.9) with its immediate. -/
  | pace (node : Nat) (rkey : Word32) (off : Nat) (bytes : List Byte) (imm : Word32)
deriving DecidableEq, Repr

end Sys2Proof
end

