-- ==== Sys2Proof/Syntax.lean ====
section
/-! DEFINITION. The commands of the block: one constructor per row of spec/opcode_table.json, in the table's order.
A row that executes a posted descriptor names it by its `CmdId`; the descriptor itself stands in the state, where
RING_READ_COMPLETE put it. LOWER_HALF_READ carries every read of a register, `bytes` wide, in BAR0, or of a doorbell in BAR2.
A row that reports a happening inside the part or on a pin carries what was observed (a received packet, a reading, which copy
failed). `f` is the PCIe function making an access: 0 is the PF. -/

namespace Sys2Proof

/-- The commands and events of the YXG-7100. -/
inductive Instr where
  -- register and window accesses (chapters 0, 3, 5, 9, 11)
  | expertUnlockWrite (f : Nat) (v : Word32)
  | registerWrite (f off bytes : Nat) (v : Word64)
  | lowerHalfRead (f : Nat) (off : BarAddr) (bytes : Nat)
  | badRegisterAccess (f off bytes : Nat) (isWrite : Bool)
  | doorbellWrite (f off bytes : Nat) (v : Word64)
  | create (f ctx : Nat)
  | destroy (f ctx : Nat)
  | stop (f ctx : Nat)
  | resume (f ctx : Nat)
  | query (f ctx : Nat)
  | queueDrained (q : Nat)
  | cqDoorbellWrite (f ctx n : Nat) (v : Word64)
  | eqDoorbellWrite (f ctx : Nat) (v : Word64)
  | msixHoldExpire (ctx : Nat) (isEq : Bool) (n : Nat)
  | rcpAttrWrite (f ctx : Nat) (v : Word64)
  | trigValWrite (f ctx : Nat) (v : Word32)
  | teardown (f ctx : Nat)
  | bringup (f ctx : Nat)
  | epWrite (f : Nat)
  | epLoad (f : Nat)
  | domRegWrite (f : Nat)
  | domRegLoad (f : Nat)
  | egsSubWrite (f : Nat)
  | egsSubLoad (f : Nat)
  | egsSvcWrite (f : Nat)
  | egsSvcLoad (f : Nat)
  | egsSampleSelect (f : Nat) (v : Word32)
  | calStart (f : Nat) (v : Word32)
  | capWrite (f : Nat) (v : Word32)
  | hbmRetireCmd (f : Nat) (v : Word32)
  | pmTargetWrite (f : Nat) (v : Word32)
  | shardMapWrite (f n : Nat) (v : Word32)
  | portModeWrite (f port : Nat) (v : Word32)
  -- fetch and the commands of work queues (chapters 2 to 9, 14)
  | descriptorFetch
  | ringReadComplete (c : CmdId) (r : HostRead)
  | ringReadTimeout (c : CmdId)
  | hostAccessTimeout (c : CmdId)
  | seqOpen (c : CmdId)
  | seqFork (c : CmdId)
  | seqClose (c : CmdId)
  | seqReferencesRemoved (seq : Nat)
  | spilledRecordRestore (seq : Nat)
  | kvAppend (c : CmdId)
  | kvAppendRefill (c : CmdId)
  | fence (c : CmdId)
  | hintCold (c : CmdId)
  | hintWarm (c : CmdId)
  | hintHeavy (c : CmdId)
  | heavyWindowEnd (ctx : Nat)
  | statsRead (c : CmdId)
  | stepPlan (c : CmdId)
  | planPinExpire (c : CmdId)
  | attend (c : CmdId)
  | profileLoadDone (mprof : Nat)
  | pinWaitResume (pfh : Nat)
  | chunkPlacementRound (set : Nat)
  | chunkComplete (ae cycles : Nat) (fails : List PageFail)
  | leaseExpire (slot : Nat)
  | pagesDeliver (c : CmdId)
  | pagesPlace (c : CmdId)
  | pagesDrop (c : CmdId)
  | prefixLookup (c : CmdId)
  | pxiNext (c : CmdId)
  | prefixPublish (c : CmdId)
  | prefixRetire (c : CmdId)
  | cursorExpire (slot : Nat)
  | tableLoad (c : CmdId) (bad : List (Nat × Bool))
  | regionRegister (c : CmdId)
  | regionRevoke (c : CmdId)
  | revokeDrainComplete (index : Nat)
  | rmaWrite (c : CmdId)
  | rmaWriteImm (c : CmdId)
  | rmaRead (c : CmdId)
  | rmaFlush (c : CmdId)
  | wrArm (c : CmdId)
  | triggerFire (c : CmdId)
  | wrArmTimeout (c : CmdId)
  | blankMount (c : CmdId) (img : Blank)
  | mountStepComplete
  -- the Lathe transport and egress (chapters 9, 11, 12)
  | messageSend (dst msgid : Nat)
  | destCacheLoad (node : Nat)
  | egsPacketSelect (iface : Nat)
  | packetRx (x : RxFrame)
  | readReq (x : RxFrame)
  | readResp (x : RxFrame)
  | ack (x : RxFrame)
  | nak (x : RxFrame)
  | retxTimeout (dst msgid : Nat)
  | busyResend (dst msgid : Nat)
  | busyTimeExpire (dst msgid : Nat)
  | readRetry (dst msgid : Nat)
  | reasmTimeout (src msgid : Nat)
  | ccRateIncrease (node : Nat)
  | mkaRekey (iface : Nat)
  | egsSample
  | paceNoticeSend (plan : CmdId)
  -- the domain (chapter 10)
  | leaseReq (src epoch rank : Nat)
  | leaseGrant (src epoch highest : Nat)
  | electionStart
  | electionRetry
  | voterPromiseLapse
  | voterHoldEnd
  | heartbeatTimer
  | heartbeat (src epoch rUs mapVer : Nat) (members : List Nat)
  | hbAck (src epoch : Nat)
  | managerLeaseEnd
  | attachmentExpire
  | memberLost (part : Nat)
  | join (src lastEpoch highest : Nat)
  | admitMsg (src epoch : Nat) (members : List Nat)
  | admitWindowEnd
  | mapUpdate (src ver : Nat) (map : List Nat)
  | regUpdate (src : Nat) (eps : List (Nat × Word512)) (regs : List (Nat × Word128))
  | lookupReq (src req sdom mprof : Nat) (camOnly : Bool) (items : List (Nat × Nat))
  | lookupResp (src req : Nat) (hits : LookupHits)
  | remoteLookupTimeout (c : CmdId)
  | insert (src req : Nat) (items : InsertBatch)
  | retire (src req : Nat) (key : RetireKey)
  | trim (src : Nat) (items : List (Nat × Nat))
  | refill (src part : Nat)
  | homeRefillDone
  | rowsReq (src req : Nat) (ref : Word64) (forkLen : Nat)
  | rowsResp (src req status mprof sdom : Nat) (rows : RowsBody)
  | rowsDone (src req anchor : Nat) (frames : List Nat)
  | pageReq (src pfh version : Nat)
  | pageData (src : Nat) (body : PageBody)
  | pageAck (src spfh newPfh status : Nat)
  | refRelease (src : Nat) (frames : List Nat)
  | refReleaseRetry (peer : Nat)
  -- cascade search (chapter 6)
  | cascClaim (c : CascTry)
  | cascQuery (src : PeerReq) (sdom mprof limit : Nat) (camOnly : Bool) (items : List (Nat × Nat))
  | cascMemberSearchDone
  | cascArbitration (others : List (Nat × Nat))
  | cascResult (src : Nat) (ref : Word64)
  | cascStrobeTimeout
  | cascRdyTimeout
  | cascStuckClaim
  -- tiers and flash (chapter 7)
  | promotionComplete (pfh : Nat)
  | flashReadComplete (pfh : Nat) (e : LadderEnd)
  | rbTimeout (channel target pfh : Nat)
  | lowerCopyReadComplete (pfh : Nat) (fail : Option FailKind)
  | flashProgramComplete (pfh : Nat)
  | eagerWritebackStart (pfh : Nat)
  | t1Eviction (part : Nat)
  | t1AllocResume (part : Nat)
  | allocWaitExpire (c : CmdId)
  | flashReserveReclaim
  | creditAccrue (us : Nat)
  | hbmUncorrectable (pc : Nat) (loss : PcLoss)
  | journalCommit
  | journalCommitComplete
  -- sharing, faults (chapters 3, 11, 16)
  | sliceEnd (group : Nat)
  | graceExpire (group : Nat)
  | stagingFillDone (group : Nat)
  | contextFaultTeardown (ctx : Nat)
  | teardownReleaseDone (ctx : Nat)
  | flr (func : Nat)
  | aeFence (ae cause : Nat)
  | ccFence (cc cause : Nat)
  | deviceError (cause die : Nat)
  | d2dLinkFailure (die : Nat)
  | sysclkFault
  -- power (chapter 13)
  | capLoopTick (pm ps : Nat)
  | levelFallStep
  | throttleEventGapEnd (ctx : Nat)
  | sensorRead (dies stackTemps : List Int)
  | thermalLoopTick
  | thermalTrip (die : Nat)
  | droopTrip (island : Nat)
  | stretchEnd (island : Nat)
  | droopDecay
  | pwrbrkAssert
  | pwrbrkRelease
  | brkTimeout
  | pmbusPoll (rail mw : Nat) (pecOk : Bool)
  | pmbusPollTimeout (rail : Nat)
  | pmbusAlert (rail statusWord : Nat)
  | calWindowEnd (model telem : List Nat)
  -- bring-up, resets, low power (chapters 14, 15)
  | por (cause straps : Nat)
  | fund
  | hbmTrainingDone
  | pcieLinkUp
  | moduleIdentityRead (module : Nat) (ident : Option (List Byte))
  | idleEntry
  | lowpowerDrainDone
  | lowpowerDrainTimeout
  | wake (cause : Nat)
  | lowpowerExitDone
  -- security and the management port (chapters 12, 15)
  | spdmRequest (transport code param : Nat)
  | lockInterface (vf : Nat)
  | ideKm (stream : Nat) (rid : Option Nat) (go : Bool)
  | debugUnlock (challenge deviceId sig : Nat)
  | tlsHandshake (caDigest serial : Nat) (clientOk : Bool)
  | tlsIdleTimeout (session : Nat)
  | mgmtLinkLoss
  | regRead (session req : Nat) (pairs : List (Nat × Nat))
  | telemetry (session req : Nat)
  | attest (session req nonce : Nat)
  | debugChallenge (session req : Nat)
  | setCap (session req watts : Nat)
  | reset (session req : Nat)
  | stage (session req : Nat) (isCfg : Bool) (off len : Nat) (final : Option BankImage)
  | mount (session req mode pmask : Nat)
  | commitSvn (session req : Nat)
  | debugToken (session req challenge deviceId sig : Nat)
  | decommission (session req : Nat)
  | returnStep (session req : Nat)
  | mi3cStallTimeout
  | spiBusyTimeout
  | jtagInstruction (ir : Nat)
  -- further happenings, in the table's order
  | correctedError (unit source : Nat)
  | ethLinkLoss (iface : Nat)
  | ethLinkUp (iface : Nat)
  | mkaFrame (iface : Nat) (live : Option Nat)
  | pfcFrame (iface : Nat) (pause : List (Nat × Bool))
  | mgmtPhyInt (linkUp : Bool)
  | mgmtPhyPoll (linkUp : Bool)
  | cascClaimObserved (seen : CascSeen)
  | cascClaimReleased
  | hostReadComplete (c : CmdId) (r : HostRead)
  | insertReply (src req : Nat) (statuses : List Nat) (refs : List Word64)
  | retireReply (src req status count : Nat)
  | admitReply (src epoch : Nat)
  | startInterface (vf : Nat)
  | stopInterface (vf : Nat)
  | ideIntegrityFailure (stream : Nat)
  | rampStepEnd (die : Nat)
deriving DecidableEq, Repr

end Sys2Proof
end

