-- ==== Sys2Proof/Config.lean ====
section
/-! DEFINITION. What the manual leaves open: the free values. Each is an opaque constant without a body, so that no
proof can see its value; the state's counter `free` gives each use a fresh argument (log entry 2). -/

namespace Sys2Proof

/-- FREE VALUE. Which of the FP32 values within 2 ulp of the exact one exp2 yields for an argument (R128). -/
opaque Config.exp2 : Word32 → Nat

/-- FREE VALUE. The same for tanh (R128). -/
opaque Config.tanh : Word32 → Nat

/-- FREE VALUE. What the score transforms of a kernel variant other than 0 make of a raw score, as FP32 bits (R136): the
variant, the bytes of the profile, query head, query position, key position, the raw score. -/
opaque Config.kernelScore : Nat → List Byte → Nat → Nat → Nat → Word32 → Word32

/-- FREE VALUE. The place in which a kernel variant other than 0 visits a page of a chunk (R136): the variant, the LPI. -/
opaque Config.kernelOrder : Nat → Nat → Nat

/-- FREE VALUE. A stream the compactor offers for a tile (R315: it may choose any stream that decodes to the tile). -/
opaque Config.codedStream : Nat → List Byte

/-- FREE VALUE. Bytes of output that an ATTEND failing after execution began had written, and how many (R156, R549). -/
opaque Config.partialOutput : Nat → Nat → Byte
opaque Config.partialLen : Nat → Nat

/-- FREE VALUE. How many programs of a journal commit had completed when POR or FUND cut it off (R285, R299). -/
opaque Config.programsDone : Nat → Nat

/-- FREE VALUE. CC cycles a command's decoding and walk take (Table 11.5 charges those actually run). -/
opaque Config.ccCycles : Nat → Nat

/-- FREE VALUE. A nonce, challenge or fresh secret SEC draws from its random source. -/
opaque Config.random : Nat → Nat

/-- FREE VALUE. The domain secret a part uses for its salts when no DSS record is addressed to it (R436 says only that
such a part cannot belong to a domain). -/
opaque Config.noDss : Nat

/-- FREE VALUE. Bytes of host memory that a read outside any command returns (READ_REQ of a host region, the control word
of a notification ring): what host memory holds is the outside world's. -/
opaque Config.hostByte : Nat → Nat → Byte

/-- FREE VALUE. HBM and flash addresses that frame records hold; the manual calls their encoding internal (Table 7.1). -/
opaque Config.internalAddr : Nat → Nat

/-- FREE VALUE. What a byte of an HBM region reads as once its AES-XTS key has changed under it (R434, R451): the number of
the change and the byte's place. -/
opaque Config.rekeyed : Nat → Nat → Byte

/-- FREE VALUE. Energy, in fJ, that a heavy-phase window adds (R472 charges it and states no amount). -/
opaque Config.hintEnergy : Nat → Nat

/-- FREE VALUE. Which structures of the controller have bytes in a pseudo-channel of a system channel group (R533): kind
(0 directory bucket, 1 context's structures), pseudo-channel, object. The manual gives no placement. -/
opaque Config.structIn : Nat → Nat → Nat → Bool

/-- FREE VALUE. The UDP source port of a packet, within the range R332 gives. -/
opaque Config.udpPort : Nat → Nat

/-- FREE VALUE. AE cycles by which CDC_EXP_STALL.RATE advances when an expander stalls (R319 states no number). -/
opaque Config.stallCycles : Nat → Nat

/-- FREE VALUE. Ahnoon's manufacturer code in the IDCODE, which the BSDL file gives (R518); its 11 low bits count. -/
opaque Config.jtagMaker : Nat

end Sys2Proof
end

