-- ==== Sys2Proof/Machine/Regs.lean ====
section
/-! DEFINITION. The register map: every register and field of the manual's register tables, with width, access code
(Table 0.2), reset value, clearing event (Table 0.3) and saturation. A field whose reset entry is not a number
("Blank", "Fuses", "Strap", "From SEC" ...) is listed with 0 and written by the operation that names its source
(log entry 3). `win` fields are offsets in a context window (R119); the others are BAR0 offsets. -/

namespace Sys2Proof.Machine

/-- Access codes of Table 0.2. -/
inductive Acc where
  | ro | rw | w1c | w1s | wo | rwl
deriving DecidableEq, Repr

/-- Clearing events of Table 0.3, least severe last; `noEvent` for fields without one. -/
inductive Clr where
  | never | por | fund | flr | ctx | park | noEvent
deriving DecidableEq, Repr

/-- One field of a register. -/
structure Fld where
  addr : Nat
  stride : Nat
  count : Nat
  lo : Nat
  width : Nat
  acc : Acc
  rst : Nat
  clr : Clr
  sat : Bool
  win : Bool
deriving DecidableEq, Repr

/-- One register (array) of the map. -/
structure RegD where
  name : String
  addr : Nat
  stride : Nat
  count : Nat
  bytes : Nat
  expert : Bool
  win : Bool
  flds : List Fld
deriving DecidableEq, Repr

/-- Context windows: window of context c at BAR0 + 0x1000000 + c * 0x1000 (chapter 3, R85). -/
def windowBase (c : Nat) : Nat := 0x1000000 + c * 0x1000

/-- Address of instance `i` of a field; `c` is the context of a window field. -/
def Fld.at (f : Fld) (i c : Nat) : Nat :=
  (if f.win then windowBase c else 0) + f.addr + i * f.stride

/-- The key under which the register file stores a field instance. -/
def Fld.key (f : Fld) (i c : Nat) : Nat := f.at i c * 64 + f.lo

namespace F
/-! GLB_EXPERT_UNLOCK: Table 0.1, R8. -/
def GLB_EXPERT_UNLOCK_KEY : Fld := ⟨0x40, 0, 1, 16, 16, .wo, 0, .fund, false, false⟩
def GLB_EXPERT_UNLOCK_LOCKED_OUT : Fld := ⟨0x40, 0, 1, 1, 1, .ro, 0, .fund, false, false⟩
def GLB_EXPERT_UNLOCK_UNLOCKED : Fld := ⟨0x40, 0, 1, 0, 1, .rw, 0, .fund, false, false⟩
/-! GLB_FABRIC_CYCLES: Table 1.5, R28. -/
def GLB_FABRIC_CYCLES_COUNT : Fld := ⟨0x8, 0, 1, 0, 64, .ro, 0, .por, false, false⟩
/-! GLB_ID: Table 1.6, R29. -/
def GLB_ID_PART_NUMBER : Fld := ⟨0x0, 0, 1, 16, 16, .ro, 28928, .never, false, false⟩
def GLB_ID_STEPPING : Fld := ⟨0x0, 0, 1, 8, 8, .ro, 0, .never, false, false⟩
def GLB_ID_DIES : Fld := ⟨0x0, 0, 1, 4, 4, .ro, 4, .never, false, false⟩
def GLB_ID_HBM_GROUPS : Fld := ⟨0x0, 0, 1, 0, 4, .ro, 15, .never, false, false⟩
/-! CTXW_INFO: Table 3.10, R119. -/
def CTXW_INFO_CTX : Fld := ⟨0x0, 0, 1, 0, 12, .ro, 0, .fund, false, true⟩
def CTXW_INFO_PART : Fld := ⟨0x0, 0, 1, 12, 6, .ro, 0, .fund, false, true⟩
def CTXW_INFO_FUNC : Fld := ⟨0x0, 0, 1, 18, 8, .ro, 0, .fund, false, true⟩
def CTXW_INFO_CLASS : Fld := ⟨0x0, 0, 1, 26, 1, .ro, 0, .fund, false, true⟩
def CTXW_INFO_DEVCTX : Fld := ⟨0x0, 0, 1, 27, 1, .ro, 0, .fund, false, true⟩
/-! CTXW_INFLIGHT: Table 3.11, R119. -/
def CTXW_INFLIGHT_COUNT : Fld := ⟨0x8, 0, 1, 0, 17, .ro, 0, .ctx, false, true⟩
def CTXW_INFLIGHT_MAX : Fld := ⟨0x8, 0, 1, 32, 17, .ro, 0, .fund, false, true⟩
/-! CTXW_QSEL: Table 3.12, R119. -/
def CTXW_QSEL_ID : Fld := ⟨0x10, 0, 1, 0, 20, .rw, 0, .ctx, false, true⟩
def CTXW_QSEL_KIND : Fld := ⟨0x10, 0, 1, 30, 2, .rw, 0, .ctx, false, true⟩
/-! CTXW_QBASE: Table 3.13, R119. -/
def CTXW_QBASE_SPACE : Fld := ⟨0x18, 0, 1, 0, 1, .rw, 0, .ctx, false, true⟩
def CTXW_QBASE_ADDR : Fld := ⟨0x18, 0, 1, 6, 58, .rw, 0, .ctx, false, true⟩
/-! CTXW_QATTR: Table 3.14, R119. -/
def CTXW_QATTR_ENTRIES : Fld := ⟨0x20, 0, 1, 0, 17, .rw, 0, .ctx, false, true⟩
def CTXW_QATTR_CQID : Fld := ⟨0x20, 0, 1, 24, 18, .rw, 0, .ctx, false, true⟩
def CTXW_QATTR_VECTOR : Fld := ⟨0x20, 0, 1, 42, 11, .rw, 0, .ctx, false, true⟩
def CTXW_QATTR_DB_IMM : Fld := ⟨0x20, 0, 1, 53, 1, .rw, 0, .ctx, false, true⟩
/-! CTXW_QRKEY: Table 3.15, R119. -/
def CTXW_QRKEY_RKEY : Fld := ⟨0x28, 0, 1, 0, 32, .rw, 0, .ctx, false, true⟩
/-! CTXW_QMOD: Table 3.16, R119. -/
def CTXW_QMOD_COUNT : Fld := ⟨0x2C, 0, 1, 0, 16, .rw, 0, .ctx, false, true⟩
def CTXW_QMOD_TIME : Fld := ⟨0x2C, 0, 1, 16, 16, .rw, 0, .ctx, false, true⟩
/-! CTXW_QCMD: Table 3.17, R119. -/
def CTXW_QCMD_OP : Fld := ⟨0x30, 0, 1, 0, 4, .wo, 0, .noEvent, false, true⟩
/-! CTXW_QSTAT: Table 3.17, R119. -/
def CTXW_QSTAT_BUSY : Fld := ⟨0x34, 0, 1, 0, 1, .ro, 0, .ctx, false, true⟩
def CTXW_QSTAT_RESULT : Fld := ⟨0x34, 0, 1, 8, 8, .ro, 0, .ctx, false, true⟩
def CTXW_QSTAT_STATE : Fld := ⟨0x34, 0, 1, 16, 4, .ro, 0, .ctx, false, true⟩
/-! CTXW_CQ_DB: Table 3.18, R119. -/
def CTXW_CQ_DB_CI : Fld := ⟨0x100, 8, 64, 0, 32, .rw, 0, .ctx, false, true⟩
def CTXW_CQ_DB_ARM : Fld := ⟨0x100, 8, 64, 32, 1, .w1s, 0, .ctx, false, true⟩
/-! CTXW_EQ_DB: Table 3.18, R119. -/
def CTXW_EQ_DB_CI : Fld := ⟨0x300, 0, 1, 0, 32, .rw, 0, .ctx, false, true⟩
def CTXW_EQ_DB_ARM : Fld := ⟨0x300, 0, 1, 32, 1, .w1s, 0, .ctx, false, true⟩
/-! CTXW_EQ_STAT: Table 3.19, R119. -/
def CTXW_EQ_STAT_DROPPED : Fld := ⟨0x308, 0, 1, 0, 16, .ro, 0, .ctx, true, true⟩
def CTXW_EQ_STAT_OVF : Fld := ⟨0x308, 0, 1, 16, 1, .w1c, 0, .ctx, false, true⟩
/-! QDB_STAT: Table 3.20, R120. -/
def QDB_STAT_INFLIGHT : Fld := ⟨0x200000, 0, 1, 0, 17, .ro, 0, .fund, false, false⟩
def QDB_STAT_DB_IGNORED : Fld := ⟨0x200000, 0, 1, 32, 32, .ro, 0, .fund, true, false⟩
/-! QDB_FETCH_CFG: Table 3.21, R120. -/
def QDB_FETCH_CFG_BURST : Fld := ⟨0x200010, 0, 1, 0, 4, .rw, 4, .fund, false, false⟩
/-! QDB_QCACHE_STAT: Table 3.22, R120. -/
def QDB_QCACHE_STAT_HITS : Fld := ⟨0x280000, 0, 1, 0, 32, .ro, 0, .fund, false, false⟩
def QDB_QCACHE_STAT_MISSES : Fld := ⟨0x280000, 0, 1, 32, 32, .ro, 0, .fund, false, false⟩
/-! AEC_PLAN_CFG: Table 4.8, R168. -/
def AEC_PLAN_CFG_LOOKAHEAD : Fld := ⟨0x400008, 0, 1, 0, 5, .rw, 4, .fund, false, false⟩
def AEC_PLAN_CFG_TTL : Fld := ⟨0x400008, 0, 1, 8, 24, .rw, 10000, .fund, false, false⟩
/-! AEC_AE_ONLINE: Table 4.9, R168. -/
def AEC_AE_ONLINE_ONLINE : Fld := ⟨0x400100, 8, 4, 0, 64, .ro, 18446744073709551615, .fund, false, false⟩
/-! AEC_CHUNK_COUNT: Table 4.10, R168. -/
def AEC_CHUNK_COUNT_CHUNKS : Fld := ⟨0x400200, 0, 1, 0, 64, .ro, 0, .fund, false, false⟩
/-! AEC_RETRY_COUNT: Table 4.11, R168. -/
def AEC_RETRY_COUNT_RETRIES : Fld := ⟨0x400208, 0, 1, 0, 32, .ro, 0, .fund, true, false⟩
/-! AEC_NONFINITE: Table 4.12, R168. -/
def AEC_NONFINITE_OUTPUTS : Fld := ⟨0x400210, 0, 1, 0, 32, .ro, 0, .fund, true, false⟩
/-! AEC_PLAN_STAT: Table 4.13, R168. -/
def AEC_PLAN_STAT_REUSED : Fld := ⟨0x400220, 0, 1, 0, 32, .ro, 0, .fund, false, false⟩
def AEC_PLAN_STAT_REWALKED : Fld := ⟨0x400220, 0, 1, 32, 32, .ro, 0, .fund, false, false⟩
/-! MRG_STAT: Table 4.14, R168. -/
def MRG_STAT_MERGES : Fld := ⟨0x410000, 0, 1, 0, 48, .ro, 0, .fund, false, false⟩
def MRG_STAT_MAX_CHUNKS : Fld := ⟨0x410000, 0, 1, 48, 16, .ro, 0, .fund, true, false⟩
/-! GRX_STAT: Table 4.15, R168. -/
def GRX_STAT_SCORED : Fld := ⟨0x420000, 0, 1, 0, 32, .ro, 0, .fund, false, false⟩
def GRX_STAT_SELECTED : Fld := ⟨0x420000, 0, 1, 32, 32, .ro, 0, .fund, false, false⟩
/-! AEC_SPLIT_CFG: Table 4.16, R168. -/
def AEC_SPLIT_CFG_MAX_PAGES : Fld := ⟨0x480000, 0, 1, 0, 7, .rw, 64, .fund, false, false⟩
def AEC_SPLIT_CFG_DIE_LOCAL : Fld := ⟨0x480000, 0, 1, 8, 1, .rw, 1, .fund, false, false⟩
/-! AEC_ARRAY_BUSY: Table 4.17, R169. -/
def AEC_ARRAY_BUSY_SCORE : Fld := ⟨0x480010, 0, 1, 0, 32, .ro, 0, .fund, false, false⟩
def AEC_ARRAY_BUSY_VALUE : Fld := ⟨0x480010, 0, 1, 32, 32, .ro, 0, .fund, false, false⟩
/-! CTXW_RCP_BASE: Table 5.5, R199. -/
def CTXW_RCP_BASE_ADDR : Fld := ⟨0x400, 0, 1, 4, 60, .rw, 0, .ctx, false, true⟩
/-! CTXW_RCP_ATTR: Table 5.6, R199. -/
def CTXW_RCP_ATTR_ENTRIES : Fld := ⟨0x408, 0, 1, 0, 17, .rw, 0, .ctx, false, true⟩
def CTXW_RCP_ATTR_ENABLE : Fld := ⟨0x408, 0, 1, 17, 1, .rw, 0, .ctx, false, true⟩
def CTXW_RCP_ATTR_MODE : Fld := ⟨0x408, 0, 1, 18, 2, .rw, 0, .ctx, false, true⟩
def CTXW_RCP_ATTR_LEASE_TIME : Fld := ⟨0x408, 0, 1, 32, 16, .rw, 100, .ctx, false, true⟩
/-! CTXW_RCP_IDX: Table 5.7, R199. -/
def CTXW_RCP_IDX_PI : Fld := ⟨0x410, 0, 1, 0, 32, .ro, 0, .ctx, false, true⟩
def CTXW_RCP_IDX_CI : Fld := ⟨0x410, 0, 1, 32, 32, .rw, 0, .ctx, false, true⟩
/-! CTXW_CLASS_LIMIT: Table 5.8, R199. -/
def CTXW_CLASS_LIMIT_MAX_BLOCKS : Fld := ⟨0x418, 0, 1, 0, 23, .ro, 0, .fund, false, true⟩
/-! CTXW_RET_CFG: Table 5.9, R199. -/
def CTXW_RET_CFG_TOPK : Fld := ⟨0x420, 0, 1, 0, 13, .rw, 0, .ctx, false, true⟩
def CTXW_RET_CFG_RECENT : Fld := ⟨0x420, 0, 1, 16, 13, .rw, 0, .ctx, false, true⟩
def CTXW_RET_CFG_SINK_BLK : Fld := ⟨0x420, 0, 1, 32, 8, .rw, 0, .ctx, false, true⟩
def CTXW_RET_CFG_MAX_TOPK : Fld := ⟨0x420, 0, 1, 48, 13, .ro, 0, .fund, false, true⟩
/-! CTXW_RCP_STAT: Table 5.10, R199. -/
def CTXW_RCP_STAT_LEASES : Fld := ⟨0x428, 0, 1, 0, 16, .ro, 0, .ctx, false, true⟩
def CTXW_RCP_STAT_WAITERS : Fld := ⟨0x428, 0, 1, 16, 16, .ro, 0, .ctx, false, true⟩
def CTXW_RCP_STAT_UNLISTED : Fld := ⟨0x428, 0, 1, 32, 16, .ro, 0, .ctx, true, true⟩
def CTXW_RCP_STAT_EXPIRED : Fld := ⟨0x428, 0, 1, 48, 16, .ro, 0, .ctx, true, true⟩
/-! PXI_CFG: Table 6.12, R253. -/
def PXI_CFG_CURSOR_TTL : Fld := ⟨0x500000, 0, 1, 0, 20, .rw, 10000, .fund, false, false⟩
def PXI_CFG_CAM_FILL : Fld := ⟨0x500000, 0, 1, 20, 1, .rw, 1, .fund, false, false⟩
/-! PXI_PART_ID: Table 6.13, R253. -/
def PXI_PART_ID_PART_ID : Fld := ⟨0x500008, 0, 1, 0, 8, .ro, 0, .fund, false, false⟩
def PXI_PART_ID_IN_DOMAIN : Fld := ⟨0x500008, 0, 1, 8, 1, .ro, 0, .fund, false, false⟩
def PXI_PART_ID_IN_CASCADE : Fld := ⟨0x500008, 0, 1, 9, 1, .ro, 0, .fund, false, false⟩
/-! PXI_STAT_SEARCH: Table 6.14, R253. -/
def PXI_STAT_SEARCH_SEARCHES : Fld := ⟨0x500100, 0, 1, 0, 64, .ro, 0, .fund, false, false⟩
/-! PXI_STAT_HIT: Table 6.15, R253. -/
def PXI_STAT_HIT_CAM_HITS : Fld := ⟨0x500108, 0, 1, 0, 32, .ro, 0, .fund, false, false⟩
def PXI_STAT_HIT_FALSE_HITS : Fld := ⟨0x500108, 0, 1, 32, 32, .ro, 0, .fund, true, false⟩
/-! PXI_STAT_DIR: Table 6.16, R253. -/
def PXI_STAT_DIR_PROBES : Fld := ⟨0x500110, 0, 1, 0, 32, .ro, 0, .fund, false, false⟩
def PXI_STAT_DIR_DIR_HITS : Fld := ⟨0x500110, 0, 1, 32, 32, .ro, 0, .fund, false, false⟩
/-! PXI_CAM_OCC: Table 6.17, R253. -/
def PXI_CAM_OCC_ROWS : Fld := ⟨0x500120, 0, 1, 0, 21, .ro, 0, .park, false, false⟩
/-! PXI_DIR_CFG: Table 6.18, R253. -/
def PXI_DIR_CFG_LOG2_BUCKETS : Fld := ⟨0x500200, 0, 1, 0, 5, .ro, 0, .fund, false, false⟩
/-! PXI_DIR_OCC: Table 6.19, R253. -/
def PXI_DIR_OCC_ENTRIES : Fld := ⟨0x500208, 0, 1, 0, 31, .ro, 0, .fund, false, false⟩
def PXI_DIR_OCC_INSERT_FAILS : Fld := ⟨0x500208, 0, 1, 32, 32, .ro, 0, .fund, true, false⟩
/-! PXI_ANCHOR_OCC: Table 6.20, R253. -/
def PXI_ANCHOR_OCC_LIVE : Fld := ⟨0x500210, 0, 1, 0, 25, .ro, 0, .fund, false, false⟩
def PXI_ANCHOR_OCC_MAX : Fld := ⟨0x500210, 0, 1, 32, 25, .ro, 0, .fund, false, false⟩
/-! PXI_RETIRE_STAT: Table 6.21, R253. -/
def PXI_RETIRE_STAT_RETIRED : Fld := ⟨0x500218, 0, 1, 0, 32, .ro, 0, .fund, false, false⟩
def PXI_RETIRE_STAT_POISON_SCANS : Fld := ⟨0x500218, 0, 1, 32, 32, .ro, 0, .fund, true, false⟩
/-! PXI_SHARD_MAP: Table 6.22, R253. -/
def PXI_SHARD_MAP_HOME_0 : Fld := ⟨0x501000, 4, 1024, 0, 8, .rw, 0, .fund, false, false⟩
def PXI_SHARD_MAP_HOME_1 : Fld := ⟨0x501000, 4, 1024, 8, 8, .rw, 0, .fund, false, false⟩
def PXI_SHARD_MAP_HOME_2 : Fld := ⟨0x501000, 4, 1024, 16, 8, .rw, 0, .fund, false, false⟩
def PXI_SHARD_MAP_HOME_3 : Fld := ⟨0x501000, 4, 1024, 24, 8, .rw, 0, .fund, false, false⟩
/-! PXI_CASC_CFG: Table 6.23, R253. -/
def PXI_CASC_CFG_ENABLE : Fld := ⟨0x500300, 0, 1, 0, 1, .rw, 0, .fund, false, false⟩
def PXI_CASC_CFG_POSITION : Fld := ⟨0x500300, 0, 1, 1, 3, .rw, 0, .fund, false, false⟩
def PXI_CASC_CFG_MEMBERS : Fld := ⟨0x500300, 0, 1, 8, 8, .rw, 0, .fund, false, false⟩
def PXI_CASC_CFG_STB_NS : Fld := ⟨0x500300, 0, 1, 16, 8, .rw, 40, .fund, false, false⟩
def PXI_CASC_CFG_FILTER_NS : Fld := ⟨0x500300, 0, 1, 24, 4, .rw, 4, .fund, false, false⟩
def PXI_CASC_CFG_RDY_TIMEOUT : Fld := ⟨0x500300, 0, 1, 32, 16, .rw, 100, .fund, false, false⟩
def PXI_CASC_CFG_STB_TIMEOUT : Fld := ⟨0x500300, 0, 1, 48, 8, .rw, 20, .fund, false, false⟩
def PXI_CASC_CFG_CLM_IDLE : Fld := ⟨0x500300, 0, 1, 56, 8, .rw, 20, .fund, false, false⟩
/-! PXI_CASC_PARTS: Table 6.24, R253. -/
def PXI_CASC_PARTS_PART_0 : Fld := ⟨0x500308, 0, 1, 0, 8, .rw, 0, .fund, false, false⟩
def PXI_CASC_PARTS_PART_1 : Fld := ⟨0x500308, 0, 1, 8, 8, .rw, 0, .fund, false, false⟩
def PXI_CASC_PARTS_PART_2 : Fld := ⟨0x500308, 0, 1, 16, 8, .rw, 0, .fund, false, false⟩
def PXI_CASC_PARTS_PART_3 : Fld := ⟨0x500308, 0, 1, 24, 8, .rw, 0, .fund, false, false⟩
def PXI_CASC_PARTS_PART_4 : Fld := ⟨0x500308, 0, 1, 32, 8, .rw, 0, .fund, false, false⟩
def PXI_CASC_PARTS_PART_5 : Fld := ⟨0x500308, 0, 1, 40, 8, .rw, 0, .fund, false, false⟩
def PXI_CASC_PARTS_PART_6 : Fld := ⟨0x500308, 0, 1, 48, 8, .rw, 0, .fund, false, false⟩
def PXI_CASC_PARTS_PART_7 : Fld := ⟨0x500308, 0, 1, 56, 8, .rw, 0, .fund, false, false⟩
/-! PXI_CASC_STAT: Table 6.25, R253. -/
def PXI_CASC_STAT_ROUNDS : Fld := ⟨0x500310, 0, 1, 0, 32, .ro, 0, .fund, false, false⟩
def PXI_CASC_STAT_CLAIMS_LOST : Fld := ⟨0x500310, 0, 1, 32, 16, .ro, 0, .fund, true, false⟩
def PXI_CASC_STAT_TIMEOUTS : Fld := ⟨0x500310, 0, 1, 48, 8, .ro, 0, .fund, true, false⟩
def PXI_CASC_STAT_STUCK : Fld := ⟨0x500310, 0, 1, 56, 1, .w1c, 0, .fund, false, false⟩
/-! PXI_CAM_GROUP_OCC: Table 6.26, R254. -/
def PXI_CAM_GROUP_OCC_ROWS : Fld := ⟨0x580000, 4, 16, 0, 17, .ro, 0, .park, false, false⟩
/-! PXI_DIGEST_STAT: Table 6.27, R254. -/
def PXI_DIGEST_STAT_COMPRESSIONS : Fld := ⟨0x580100, 0, 1, 0, 32, .ro, 0, .fund, false, false⟩
def PXI_DIGEST_STAT_CORE_WAITS : Fld := ⟨0x580100, 0, 1, 32, 32, .ro, 0, .fund, true, false⟩
/-! TIER_STATE_CNT: Table 7.13, R297. -/
def TIER_STATE_CNT_FRAMES : Fld := ⟨0x600000, 8, 9, 0, 37, .ro, 0, .fund, false, false⟩
/-! TIER_BURL_CFG: Table 7.14, R297. -/
def TIER_BURL_CFG_THRESHOLD : Fld := ⟨0x600100, 0, 1, 0, 16, .rw, 64, .fund, false, false⟩
def TIER_BURL_CFG_COPY2_EN : Fld := ⟨0x600100, 0, 1, 16, 1, .rw, 1, .fund, false, false⟩
/-! TIER_WB_CFG: Table 7.15, R297. -/
def TIER_WB_CFG_DELAY : Fld := ⟨0x600108, 0, 1, 0, 20, .rw, 1000, .fund, false, false⟩
/-! TIER_T1_WM: Table 7.16, R297. -/
def TIER_T1_WM_LOW : Fld := ⟨0x600110, 0, 1, 0, 8, .rw, 4, .fund, false, false⟩
def TIER_T1_WM_HIGH : Fld := ⟨0x600110, 0, 1, 8, 8, .rw, 8, .fund, false, false⟩
def TIER_T1_WM_ALLOC_WAIT : Fld := ⟨0x600110, 0, 1, 16, 16, .rw, 1000, .fund, false, false⟩
/-! TIER_ENDURANCE_CFG: Table 7.17, R297. -/
def TIER_ENDURANCE_CFG_RATE : Fld := ⟨0x600118, 0, 1, 0, 24, .rw, 0, .fund, false, false⟩
def TIER_ENDURANCE_CFG_DEPTH : Fld := ⟨0x600118, 0, 1, 32, 16, .rw, 0, .fund, false, false⟩
/-! TIER_ENDURANCE_STAT: Table 7.18, R297. -/
def TIER_ENDURANCE_STAT_CREDIT : Fld := ⟨0x600120, 0, 1, 0, 32, .ro, 0, .fund, false, false⟩
def TIER_ENDURANCE_STAT_BUDGET_DROPS : Fld := ⟨0x600120, 0, 1, 32, 32, .ro, 0, .fund, true, false⟩
/-! TIER_MOVE_STAT: Table 7.19, R297. -/
def TIER_MOVE_STAT_PROMOTIONS : Fld := ⟨0x600128, 0, 1, 0, 32, .ro, 0, .fund, false, false⟩
def TIER_MOVE_STAT_DEMOTIONS : Fld := ⟨0x600128, 0, 1, 32, 32, .ro, 0, .fund, false, false⟩
/-! TIER_DROP_STAT: Table 7.20, R297. -/
def TIER_DROP_STAT_CAP_DROPS : Fld := ⟨0x600130, 0, 1, 0, 32, .ro, 0, .fund, true, false⟩
def TIER_DROP_STAT_POISONED : Fld := ⟨0x600130, 0, 1, 32, 32, .ro, 0, .fund, true, false⟩
/-! TIER_SUPERSEDE_WAITS: Table 7.21, R297. -/
def TIER_SUPERSEDE_WAITS_WAITS : Fld := ⟨0x680000, 0, 1, 0, 32, .ro, 0, .fund, true, false⟩
/-! HBM_CG_OWNER: Table 7.22, R298. -/
def HBM_CG_OWNER_PART_0 : Fld := ⟨0x700000, 4, 16, 0, 6, .ro, 0, .fund, false, false⟩
def HBM_CG_OWNER_PART_1 : Fld := ⟨0x700000, 4, 16, 8, 6, .ro, 0, .fund, false, false⟩
def HBM_CG_OWNER_PART_2 : Fld := ⟨0x700000, 4, 16, 16, 6, .ro, 0, .fund, false, false⟩
def HBM_CG_OWNER_PART_3 : Fld := ⟨0x700000, 4, 16, 24, 6, .ro, 0, .fund, false, false⟩
def HBM_CG_OWNER_SYSTEM_0 : Fld := ⟨0x700000, 4, 16, 6, 1, .ro, 0, .fund, false, false⟩
def HBM_CG_OWNER_SYSTEM_1 : Fld := ⟨0x700000, 4, 16, 14, 1, .ro, 0, .fund, false, false⟩
def HBM_CG_OWNER_SYSTEM_2 : Fld := ⟨0x700000, 4, 16, 22, 1, .ro, 0, .fund, false, false⟩
def HBM_CG_OWNER_SYSTEM_3 : Fld := ⟨0x700000, 4, 16, 30, 1, .ro, 0, .fund, false, false⟩
def HBM_CG_OWNER_ASSIGNED_0 : Fld := ⟨0x700000, 4, 16, 7, 1, .ro, 0, .fund, false, false⟩
def HBM_CG_OWNER_ASSIGNED_1 : Fld := ⟨0x700000, 4, 16, 15, 1, .ro, 0, .fund, false, false⟩
def HBM_CG_OWNER_ASSIGNED_2 : Fld := ⟨0x700000, 4, 16, 23, 1, .ro, 0, .fund, false, false⟩
def HBM_CG_OWNER_ASSIGNED_3 : Fld := ⟨0x700000, 4, 16, 31, 1, .ro, 0, .fund, false, false⟩
/-! HBM_PC_RETIRED: Table 7.23, R298. -/
def HBM_PC_RETIRED_RETIRED : Fld := ⟨0x700100, 8, 16, 0, 64, .ro, 0, .por, false, false⟩
/-! HBM_ECC_STAT: Table 7.24, R298. -/
def HBM_ECC_STAT_CORRECTED : Fld := ⟨0x700200, 0, 1, 0, 32, .ro, 0, .fund, true, false⟩
def HBM_ECC_STAT_UNCORRECTED : Fld := ⟨0x700200, 0, 1, 32, 16, .ro, 0, .fund, true, false⟩
def HBM_ECC_STAT_RETIREMENTS : Fld := ⟨0x700200, 0, 1, 48, 10, .ro, 0, .por, false, false⟩
/-! HBM_RETIRE_CFG: Table 7.25, R298. -/
def HBM_RETIRE_CFG_THRESHOLD : Fld := ⟨0x700208, 0, 1, 0, 8, .rw, 1, .fund, false, false⟩
/-! HBM_RETIRE_CMD: Table 7.26, R298. -/
def HBM_RETIRE_CMD_PC : Fld := ⟨0x780000, 0, 1, 0, 10, .wo, 0, .noEvent, false, false⟩
def HBM_RETIRE_CMD_KEY : Fld := ⟨0x780000, 0, 1, 16, 16, .wo, 0, .noEvent, false, false⟩
/-! FLS_CHAN_STAT: Table 7.27, R299. -/
def FLS_CHAN_STAT_ENABLED : Fld := ⟨0x800000, 0, 1, 0, 64, .ro, 0, .fund, false, false⟩
/-! FLS_GROUPS: Table 7.28, R299. -/
def FLS_GROUPS_POPULATED : Fld := ⟨0x800008, 0, 1, 0, 4, .ro, 0, .fund, false, false⟩
def FLS_GROUPS_FAILED : Fld := ⟨0x800008, 0, 1, 4, 4, .ro, 0, .fund, false, false⟩
def FLS_GROUPS_MODULES : Fld := ⟨0x800008, 0, 1, 16, 16, .ro, 0, .fund, false, false⟩
/-! FLS_READ_CFG: Table 7.29, R299. -/
def FLS_READ_CFG_RETRY_MAX : Fld := ⟨0x800010, 0, 1, 0, 4, .rw, 8, .fund, false, false⟩
def FLS_READ_CFG_RB_TIMEOUT : Fld := ⟨0x800010, 0, 1, 16, 16, .rw, 5000, .fund, false, false⟩
/-! FLS_LADDER_STAT: Table 7.30, R299. -/
def FLS_LADDER_STAT_RETRIED : Fld := ⟨0x800100, 0, 1, 0, 16, .ro, 0, .fund, true, false⟩
def FLS_LADDER_STAT_PARITY : Fld := ⟨0x800100, 0, 1, 16, 16, .ro, 0, .fund, true, false⟩
def FLS_LADDER_STAT_COPY2 : Fld := ⟨0x800100, 0, 1, 32, 16, .ro, 0, .fund, true, false⟩
def FLS_LADDER_STAT_EXHAUSTED : Fld := ⟨0x800100, 0, 1, 48, 16, .ro, 0, .fund, true, false⟩
/-! FLS_SPACE: Table 7.31, R299. -/
def FLS_SPACE_FREE_CHUNKS : Fld := ⟨0x800108, 0, 1, 0, 38, .ro, 0, .fund, false, false⟩
/-! FLS_JRNL_CFG: Table 7.32, R299. -/
def FLS_JRNL_CFG_INTERVAL : Fld := ⟨0x800200, 0, 1, 0, 16, .rw, 100, .fund, false, false⟩
/-! FLS_JRNL_STAT: Table 7.32, R299. -/
def FLS_JRNL_STAT_COMMIT_SEQ : Fld := ⟨0x800208, 0, 1, 0, 64, .ro, 0, .never, false, false⟩
/-! FLS_RESTORE_STAT: Table 7.33, R299. -/
def FLS_RESTORE_STAT_ANCHORS : Fld := ⟨0x800210, 0, 1, 0, 25, .ro, 0, .fund, false, false⟩
def FLS_RESTORE_STAT_DONE : Fld := ⟨0x800210, 0, 1, 25, 1, .ro, 0, .fund, false, false⟩
def FLS_RESTORE_STAT_DISCARDED : Fld := ⟨0x800210, 0, 1, 32, 16, .ro, 0, .fund, true, false⟩
def FLS_RESTORE_STAT_BAD_BANKS : Fld := ⟨0x800210, 0, 1, 48, 16, .ro, 0, .fund, true, false⟩
/-! FLS_LDPC_STAT: Table 7.34, R299. -/
def FLS_LDPC_STAT_BITS : Fld := ⟨0x880000, 0, 1, 0, 48, .ro, 0, .fund, false, false⟩
def FLS_LDPC_STAT_SOFT : Fld := ⟨0x880000, 0, 1, 48, 16, .ro, 0, .fund, true, false⟩
/-! CDC_TABLE_OCC: Table 8.8, R326. -/
def CDC_TABLE_OCC_TABLES : Fld := ⟨0x900000, 0, 1, 0, 13, .ro, 0, .never, false, false⟩
def CDC_TABLE_OCC_SETS : Fld := ⟨0x900000, 0, 1, 16, 13, .ro, 0, .fund, false, false⟩
/-! CDC_WRITE_STAT: Table 8.9, R326. -/
def CDC_WRITE_STAT_CODED : Fld := ⟨0x900100, 0, 1, 0, 32, .ro, 0, .fund, false, false⟩
def CDC_WRITE_STAT_RAW : Fld := ⟨0x900100, 0, 1, 32, 32, .ro, 0, .fund, false, false⟩
/-! CDC_BYTES_STAT: Table 8.10, R326. -/
def CDC_BYTES_STAT_LIVE : Fld := ⟨0x900108, 0, 1, 0, 32, .ro, 0, .fund, false, false⟩
def CDC_BYTES_STAT_STORED : Fld := ⟨0x900108, 0, 1, 32, 32, .ro, 0, .fund, false, false⟩
/-! CDC_EXP_STALL: Table 8.11, R326. -/
def CDC_EXP_STALL_RATE : Fld := ⟨0x900110, 0, 1, 0, 32, .ro, 0, .fund, true, false⟩
def CDC_EXP_STALL_STARVE : Fld := ⟨0x900110, 0, 1, 32, 32, .ro, 0, .fund, false, false⟩
/-! TCK_ERR_STAT: Table 8.12, R326. -/
def TCK_ERR_STAT_CHECK_FAIL : Fld := ⟨0x900200, 0, 1, 0, 16, .ro, 0, .fund, true, false⟩
def TCK_ERR_STAT_REPAIRED : Fld := ⟨0x900200, 0, 1, 16, 16, .ro, 0, .fund, true, false⟩
def TCK_ERR_STAT_SHORT : Fld := ⟨0x900200, 0, 1, 32, 16, .ro, 0, .fund, true, false⟩
def TCK_ERR_STAT_LONG : Fld := ⟨0x900200, 0, 1, 48, 16, .ro, 0, .fund, true, false⟩
/-! TCK_HDR_STAT: Table 8.13, R326. -/
def TCK_HDR_STAT_HCRC_FAIL : Fld := ⟨0x900208, 0, 1, 0, 16, .ro, 0, .fund, true, false⟩
def TCK_HDR_STAT_TABLE_CRC : Fld := ⟨0x900208, 0, 1, 16, 16, .ro, 0, .fund, true, false⟩
/-! CDC_CTL: Table 8.14, R327. -/
def CDC_CTL_FORCE_RAW : Fld := ⟨0x980000, 0, 1, 0, 1, .rw, 0, .fund, false, false⟩
/-! CDC_TABLE_PROBE: Table 8.15, R327. -/
def CDC_TABLE_PROBE_TID : Fld := ⟨0x980008, 0, 1, 0, 12, .rw, 0, .fund, false, false⟩
def CDC_TABLE_PROBE_HELD : Fld := ⟨0x980008, 0, 1, 32, 1, .ro, 0, .noEvent, false, false⟩
def CDC_TABLE_PROBE_BOUND : Fld := ⟨0x980008, 0, 1, 33, 1, .ro, 0, .noEvent, false, false⟩
def CDC_TABLE_PROBE_FRAMES : Fld := ⟨0x980008, 0, 1, 34, 30, .ro, 0, .noEvent, true, false⟩
/-! FXT_NODE: Table 9.13, R364. -/
def FXT_NODE_NODE : Fld := ⟨0xA00000, 0, 1, 0, 16, .ro, 0, .fund, false, false⟩
def FXT_NODE_DOMAIN : Fld := ⟨0xA00000, 0, 1, 16, 16, .ro, 0, .fund, false, false⟩
def FXT_NODE_INC : Fld := ⟨0xA00000, 0, 1, 32, 32, .ro, 0, .never, false, false⟩
/-! FXT_NET_CFG: Table 9.14, R364. -/
def FXT_NET_CFG_UDP_PORT : Fld := ⟨0xA00008, 0, 1, 0, 16, .rw, 19578, .fund, false, false⟩
def FXT_NET_CFG_PAYLOAD : Fld := ⟨0xA00008, 0, 1, 16, 2, .rw, 0, .fund, false, false⟩
def FXT_NET_CFG_DSCP : Fld := ⟨0xA00008, 0, 1, 18, 6, .rw, 26, .fund, false, false⟩
/-! FXT_FLOW_CFG: Table 9.15, R364. -/
def FXT_FLOW_CFG_WINDOW : Fld := ⟨0xA00010, 0, 1, 0, 13, .rw, 512, .fund, false, false⟩
def FXT_FLOW_CFG_MSG_LOG2 : Fld := ⟨0xA00010, 0, 1, 16, 5, .rw, 18, .fund, false, false⟩
/-! FXT_RETX_CFG: Table 9.16, R364. -/
def FXT_RETX_CFG_RTO : Fld := ⟨0xA00018, 0, 1, 0, 16, .rw, 100, .fund, false, false⟩
def FXT_RETX_CFG_RETRY_MAX : Fld := ⟨0xA00018, 0, 1, 16, 4, .rw, 7, .fund, false, false⟩
def FXT_RETX_CFG_BUSY_DELAY : Fld := ⟨0xA00018, 0, 1, 32, 16, .rw, 10, .fund, false, false⟩
def FXT_RETX_CFG_BUSY_TIME : Fld := ⟨0xA00018, 0, 1, 48, 16, .rw, 10, .fund, false, false⟩
/-! FXT_RX_CFG: Table 9.17, R364. -/
def FXT_RX_CFG_REASM_TIMEOUT : Fld := ⟨0xA00020, 0, 1, 0, 16, .rw, 1000, .fund, false, false⟩
/-! FXT_TX_STAT: Table 9.18, R364. -/
def FXT_TX_STAT_MESSAGES : Fld := ⟨0xA00100, 0, 1, 0, 32, .ro, 0, .fund, false, false⟩
def FXT_TX_STAT_RETX : Fld := ⟨0xA00100, 0, 1, 32, 16, .ro, 0, .fund, true, false⟩
def FXT_TX_STAT_UNREACHABLE : Fld := ⟨0xA00100, 0, 1, 48, 8, .ro, 0, .fund, true, false⟩
def FXT_TX_STAT_TIMEOUTS : Fld := ⟨0xA00100, 0, 1, 56, 8, .ro, 0, .fund, true, false⟩
/-! FXT_RX_STAT: Table 9.19, R364. -/
def FXT_RX_STAT_MESSAGES : Fld := ⟨0xA00108, 0, 1, 0, 32, .ro, 0, .fund, false, false⟩
def FXT_RX_STAT_REFUSED : Fld := ⟨0xA00108, 0, 1, 32, 16, .ro, 0, .fund, true, false⟩
def FXT_RX_STAT_BUSY_NAKS : Fld := ⟨0xA00108, 0, 1, 48, 16, .ro, 0, .fund, true, false⟩
/-! FXT_DUP_STAT: Table 9.20, R364. -/
def FXT_DUP_STAT_UNRELEASED : Fld := ⟨0xA00110, 0, 1, 0, 17, .ro, 0, .fund, false, false⟩
def FXT_DUP_STAT_DUPLICATES : Fld := ⟨0xA00110, 0, 1, 32, 16, .ro, 0, .fund, true, false⟩
def FXT_DUP_STAT_SUPPRESSED : Fld := ⟨0xA00110, 0, 1, 48, 16, .ro, 0, .fund, true, false⟩
/-! FXT_RX_DROP: Table 9.21, R364. -/
def FXT_RX_DROP_HEADER : Fld := ⟨0xA00118, 0, 1, 0, 16, .ro, 0, .fund, true, false⟩
def FXT_RX_DROP_REASM_FULL : Fld := ⟨0xA00118, 0, 1, 16, 16, .ro, 0, .fund, true, false⟩
/-! FXT_EP_SEL: Table 9.22, R364. -/
def FXT_EP_SEL_NODE : Fld := ⟨0xA00200, 0, 1, 0, 16, .rw, 0, .fund, false, false⟩
/-! FXT_EP_CMD: Table 9.22, R364. -/
def FXT_EP_CMD_OP : Fld := ⟨0xA00204, 0, 1, 0, 2, .wo, 0, .noEvent, false, false⟩
/-! FXT_EP_DATA: Table 9.22, R364. -/
def FXT_EP_DATA_BYTES : Fld := ⟨0xA00208, 8, 8, 0, 64, .rw, 0, .fund, false, false⟩
/-! FXT_CC_CFG: Table 9.23, R364. -/
def FXT_CC_CFG_MD : Fld := ⟨0xA80000, 0, 1, 0, 8, .rw, 64, .fund, false, false⟩
def FXT_CC_CFG_AI : Fld := ⟨0xA80000, 0, 1, 8, 8, .rw, 10, .fund, false, false⟩
def FXT_CC_CFG_DEC_GAP : Fld := ⟨0xA80000, 0, 1, 16, 16, .rw, 8, .fund, false, false⟩
def FXT_CC_CFG_INC_GAP : Fld := ⟨0xA80000, 0, 1, 32, 16, .rw, 8, .fund, false, false⟩
def FXT_CC_CFG_CC_OFF : Fld := ⟨0xA80000, 0, 1, 48, 1, .rw, 0, .fund, false, false⟩
/-! FXT_DEST_STAT: Table 9.24, R365. -/
def FXT_DEST_STAT_HITS : Fld := ⟨0xA80008, 0, 1, 0, 32, .ro, 0, .fund, false, false⟩
def FXT_DEST_STAT_MISSES : Fld := ⟨0xA80008, 0, 1, 32, 32, .ro, 0, .fund, false, false⟩
/-! ETH_PORT_CFG: Table 9.25, R366. -/
def ETH_PORT_CFG_MODE : Fld := ⟨0xB40000, 8, 8, 0, 2, .rw, 0, .fund, false, false⟩
def ETH_PORT_CFG_PFC_EN : Fld := ⟨0xB40000, 8, 8, 2, 1, .rw, 0, .fund, false, false⟩
def ETH_PORT_CFG_PFC_PRIO : Fld := ⟨0xB40000, 8, 8, 3, 8, .rw, 0, .fund, false, false⟩
/-! ETH_MAC_BASE: Table 9.26, R366. -/
def ETH_MAC_BASE_MAC : Fld := ⟨0xB40040, 0, 1, 0, 48, .rw, 0, .fund, false, false⟩
/-! ETH_LINK_STAT: Table 9.27, R366. -/
def ETH_LINK_STAT_UP : Fld := ⟨0xB40100, 8, 64, 0, 1, .ro, 0, .fund, false, false⟩
def ETH_LINK_STAT_SA_LIVE : Fld := ⟨0xB40100, 8, 64, 1, 1, .ro, 0, .fund, false, false⟩
def ETH_LINK_STAT_FLAPS : Fld := ⟨0xB40100, 8, 64, 16, 16, .ro, 0, .fund, true, false⟩
def ETH_LINK_STAT_FEC_UNCORR : Fld := ⟨0xB40100, 8, 64, 32, 32, .ro, 0, .fund, true, false⟩
/-! ETH_MACSEC_CFG: Table 9.28, R366. -/
def ETH_MACSEC_CFG_WINDOW : Fld := ⟨0xB40800, 0, 1, 0, 16, .rw, 0, .fund, false, false⟩
/-! ETH_MACSEC_STAT: Table 9.29, R366. -/
def ETH_MACSEC_STAT_ICV_FAIL : Fld := ⟨0xB40900, 8, 64, 0, 32, .ro, 0, .fund, true, false⟩
def ETH_MACSEC_STAT_UNPROTECTED : Fld := ⟨0xB40900, 8, 64, 32, 32, .ro, 0, .fund, true, false⟩
/-! CTXW_TRIG_RANGE: Table 9.30, R367. -/
def CTXW_TRIG_RANGE_FIRST : Fld := ⟨0x500, 0, 1, 0, 16, .ro, 0, .fund, false, true⟩
def CTXW_TRIG_RANGE_COUNT : Fld := ⟨0x500, 0, 1, 16, 16, .ro, 0, .fund, false, true⟩
/-! CTXW_TRIG_SEL: Table 9.31, R367. -/
def CTXW_TRIG_SEL_TRIG : Fld := ⟨0x508, 0, 1, 0, 16, .rw, 0, .ctx, false, true⟩
/-! CTXW_TRIG_VAL: Table 9.31, R367. -/
def CTXW_TRIG_VAL_VALUE : Fld := ⟨0x50C, 0, 1, 0, 32, .rw, 0, .ctx, false, true⟩
/-! CTXW_FXT_FAIL: Table 9.32, R367. -/
def CTXW_FXT_FAIL_COUNT : Fld := ⟨0x510, 0, 1, 0, 32, .ro, 0, .ctx, true, true⟩
def CTXW_FXT_FAIL_LAST : Fld := ⟨0x510, 0, 1, 32, 8, .ro, 0, .ctx, false, true⟩
def CTXW_FXT_FAIL_NODE : Fld := ⟨0x510, 0, 1, 40, 16, .ro, 0, .ctx, false, true⟩
/-! FXT_DOM_CFG: Table 10.10, R395. -/
def FXT_DOM_CFG_LEASE_MS : Fld := ⟨0xA00400, 0, 1, 0, 16, .ro, 0, .fund, false, false⟩
def FXT_DOM_CFG_SKEW_PPM : Fld := ⟨0xA00400, 0, 1, 16, 16, .ro, 0, .fund, false, false⟩
def FXT_DOM_CFG_ELECT_GAP : Fld := ⟨0xA00400, 0, 1, 32, 16, .ro, 0, .fund, false, false⟩
def FXT_DOM_CFG_ADMIT_WINDOW : Fld := ⟨0xA00400, 0, 1, 48, 16, .ro, 0, .fund, false, false⟩
/-! FXT_DOM_CFG2: Table 10.11, R395. -/
def FXT_DOM_CFG2_PACE_GAP : Fld := ⟨0xA00408, 0, 1, 0, 16, .rw, 100, .fund, false, false⟩
def FXT_DOM_CFG2_REMOTE_TIMEOUT : Fld := ⟨0xA00408, 0, 1, 16, 16, .rw, 200, .fund, false, false⟩
/-! FXT_DOM_ROLE: Table 10.12, R395. -/
def FXT_DOM_ROLE_VOTER : Fld := ⟨0xA0040C, 0, 1, 0, 1, .ro, 0, .fund, false, false⟩
def FXT_DOM_ROLE_RANK : Fld := ⟨0xA0040C, 0, 1, 1, 3, .ro, 0, .fund, false, false⟩
def FXT_DOM_ROLE_CANDIDATE : Fld := ⟨0xA0040C, 0, 1, 4, 1, .ro, 0, .fund, false, false⟩
def FXT_DOM_ROLE_VOTERS : Fld := ⟨0xA0040C, 0, 1, 8, 9, .ro, 0, .fund, false, false⟩
def FXT_DOM_ROLE_QUORUM : Fld := ⟨0xA0040C, 0, 1, 17, 9, .ro, 0, .fund, false, false⟩
/-! FXT_DOM_STAT: Table 10.13, R395. -/
def FXT_DOM_STAT_STATE : Fld := ⟨0xA00410, 0, 1, 0, 3, .ro, 0, .fund, false, false⟩
def FXT_DOM_STAT_ADMITTING : Fld := ⟨0xA00410, 0, 1, 3, 1, .ro, 0, .fund, false, false⟩
def FXT_DOM_STAT_REFILL : Fld := ⟨0xA00410, 0, 1, 4, 1, .ro, 0, .fund, false, false⟩
def FXT_DOM_STAT_MANAGER : Fld := ⟨0xA00410, 0, 1, 8, 8, .ro, 0, .fund, false, false⟩
def FXT_DOM_STAT_COUNT : Fld := ⟨0xA00410, 0, 1, 16, 9, .ro, 0, .fund, false, false⟩
def FXT_DOM_STAT_EPOCH : Fld := ⟨0xA00410, 0, 1, 32, 32, .ro, 0, .never, false, false⟩
/-! FXT_DOM_MEMBERS: Table 10.14, R395. -/
def FXT_DOM_MEMBERS_SET : Fld := ⟨0xA00420, 8, 4, 0, 64, .ro, 0, .fund, false, false⟩
/-! FXT_DOM_EVENTS: Table 10.15, R395. -/
def FXT_DOM_EVENTS_ELECTIONS : Fld := ⟨0xA00440, 0, 1, 0, 16, .ro, 0, .fund, true, false⟩
def FXT_DOM_EVENTS_EPOCHS : Fld := ⟨0xA00440, 0, 1, 16, 16, .ro, 0, .fund, true, false⟩
def FXT_DOM_EVENTS_DETACHES : Fld := ⟨0xA00440, 0, 1, 32, 16, .ro, 0, .fund, true, false⟩
def FXT_DOM_EVENTS_PACE_FAIL : Fld := ⟨0xA00440, 0, 1, 48, 16, .ro, 0, .fund, true, false⟩
/-! FXT_DOM_REG_SEL: Table 10.16, R395. -/
def FXT_DOM_REG_SEL_ENTRY : Fld := ⟨0xA00448, 0, 1, 0, 12, .rw, 0, .fund, false, false⟩
/-! FXT_DOM_REG_CMD: Table 10.16, R395. -/
def FXT_DOM_REG_CMD_OP : Fld := ⟨0xA0044C, 0, 1, 0, 2, .wo, 0, .noEvent, false, false⟩
/-! FXT_DOM_REG_DATA: Table 10.16, R395. -/
def FXT_DOM_REG_DATA_BYTES : Fld := ⟨0xA00450, 8, 2, 0, 64, .rw, 0, .fund, false, false⟩
/-! CTXW_DOM_STAT: Table 10.17, R396. -/
def CTXW_DOM_STAT_STATE : Fld := ⟨0x600, 0, 1, 0, 3, .ro, 0, .fund, false, true⟩
def CTXW_DOM_STAT_EPOCH : Fld := ⟨0x600, 0, 1, 32, 32, .ro, 0, .never, false, true⟩
/-! SCH_AESET: Table 11.8, R425. -/
def SCH_AESET_ISLANDS : Fld := ⟨0x300100, 8, 32, 0, 32, .ro, 0, .fund, false, false⟩
def SCH_AESET_USERS : Fld := ⟨0x300100, 8, 32, 32, 7, .ro, 0, .fund, false, false⟩
/-! SCH_PART: Table 11.9, R425. -/
def SCH_PART_AESET : Fld := ⟨0x300400, 8, 64, 0, 5, .ro, 0, .fund, false, false⟩
def SCH_PART_DEFINED : Fld := ⟨0x300400, 8, 64, 5, 1, .ro, 0, .fund, false, false⟩
def SCH_PART_SGROUP : Fld := ⟨0x300400, 8, 64, 6, 4, .ro, 0, .fund, false, false⟩
def SCH_PART_HAS_SG : Fld := ⟨0x300400, 8, 64, 10, 1, .ro, 0, .fund, false, false⟩
def SCH_PART_SLICE : Fld := ⟨0x300400, 8, 64, 32, 20, .ro, 0, .fund, false, false⟩
/-! SCH_SGROUP: Table 11.10, R425. -/
def SCH_SGROUP_DIE : Fld := ⟨0x300800, 8, 16, 0, 1, .ro, 0, .fund, false, false⟩
def SCH_SGROUP_WAY_FIRST : Fld := ⟨0x300800, 8, 16, 1, 7, .ro, 0, .fund, false, false⟩
def SCH_SGROUP_WAYS : Fld := ⟨0x300800, 8, 16, 8, 6, .ro, 0, .fund, false, false⟩
def SCH_SGROUP_HOLDER : Fld := ⟨0x300800, 8, 16, 16, 6, .ro, 0, .park, false, false⟩
def SCH_SGROUP_PHASE : Fld := ⟨0x300800, 8, 16, 22, 2, .ro, 0, .park, false, false⟩
/-! SCH_SLICE_CFG: Table 11.11, R425. -/
def SCH_SLICE_CFG_GRACE : Fld := ⟨0x300900, 0, 1, 0, 16, .rw, 50, .fund, false, false⟩
/-! SCH_CTX_CMD: Table 11.12, R425. -/
def SCH_CTX_CMD_CTX : Fld := ⟨0x300A00, 0, 1, 0, 12, .wo, 0, .noEvent, false, false⟩
def SCH_CTX_CMD_OP : Fld := ⟨0x300A00, 0, 1, 12, 4, .wo, 0, .noEvent, false, false⟩
/-! SCH_CTX_STAT: Table 11.12, R425. -/
def SCH_CTX_STAT_BUSY : Fld := ⟨0x300A04, 0, 1, 0, 1, .ro, 0, .fund, false, false⟩
def SCH_CTX_STAT_STATE : Fld := ⟨0x300A04, 0, 1, 1, 2, .ro, 0, .fund, false, false⟩
/-! SCH_SET_STAT: Table 11.13, R425. -/
def SCH_SET_STAT_BUSY : Fld := ⟨0x301000, 8, 32, 0, 48, .ro, 0, .fund, false, false⟩
def SCH_SET_STAT_ACTIVE : Fld := ⟨0x301000, 8, 32, 48, 16, .ro, 0, .fund, false, false⟩
/-! SCH_SHARE_SEL: Table 11.14, R425. -/
def SCH_SHARE_SEL_CTX : Fld := ⟨0x380000, 0, 1, 0, 12, .rw, 0, .fund, false, false⟩
/-! SCH_SHARE_DATA: Table 11.14, R425. -/
def SCH_SHARE_DATA_WEIGHT : Fld := ⟨0x380008, 0, 1, 0, 16, .rw, 0, .fund, false, false⟩
def SCH_SHARE_DATA_VT : Fld := ⟨0x380008, 0, 1, 16, 48, .ro, 0, .ctx, false, false⟩
/-! CTXW_SHARE: Table 11.15, R426. -/
def CTXW_SHARE_WEIGHT : Fld := ⟨0x700, 0, 1, 0, 16, .ro, 0, .fund, false, true⟩
def CTXW_SHARE_TENANT : Fld := ⟨0x700, 0, 1, 16, 16, .ro, 0, .fund, false, true⟩
/-! EGS_CFG: Table 11.16, R427. -/
def EGS_CFG_PERIOD : Fld := ⟨0xB00000, 0, 1, 0, 16, .rw, 10, .fund, false, false⟩
/-! EGS_SUB_SEL: Table 11.17, R427. -/
def EGS_SUB_SEL_SUB : Fld := ⟨0xB00100, 0, 1, 0, 12, .rw, 0, .fund, false, false⟩
/-! EGS_SUB_CMD: Table 11.17, R427. -/
def EGS_SUB_CMD_OP : Fld := ⟨0xB00104, 0, 1, 0, 2, .wo, 0, .noEvent, false, false⟩
/-! EGS_SUB_DATA0: Table 11.17, R427. -/
def EGS_SUB_DATA0_CIR : Fld := ⟨0xB00108, 0, 1, 0, 20, .rw, 0, .fund, false, false⟩
def EGS_SUB_DATA0_PIR : Fld := ⟨0xB00108, 0, 1, 20, 20, .rw, 0, .fund, false, false⟩
def EGS_SUB_DATA0_WEIGHT : Fld := ⟨0xB00108, 0, 1, 40, 16, .rw, 0, .fund, false, false⟩
def EGS_SUB_DATA0_SERVICE : Fld := ⟨0xB00108, 0, 1, 56, 3, .rw, 0, .fund, false, false⟩
/-! EGS_SUB_DATA1: Table 11.17, R427. -/
def EGS_SUB_DATA1_CBS : Fld := ⟨0xB00110, 0, 1, 0, 16, .rw, 0, .fund, false, false⟩
def EGS_SUB_DATA1_PBS : Fld := ⟨0xB00110, 0, 1, 16, 16, .rw, 0, .fund, false, false⟩
/-! EGS_SVC_SEL: Table 11.18, R427. -/
def EGS_SVC_SEL_SVC : Fld := ⟨0xB00200, 0, 1, 0, 9, .rw, 0, .fund, false, false⟩
/-! EGS_SVC_CMD: Table 11.18, R427. -/
def EGS_SVC_CMD_OP : Fld := ⟨0xB00204, 0, 1, 0, 2, .wo, 0, .noEvent, false, false⟩
/-! EGS_SVC_DATA0: Table 11.18, R427. -/
def EGS_SVC_DATA0_CIR : Fld := ⟨0xB00208, 0, 1, 0, 20, .rw, 0, .fund, false, false⟩
def EGS_SVC_DATA0_PIR : Fld := ⟨0xB00208, 0, 1, 20, 20, .rw, 0, .fund, false, false⟩
def EGS_SVC_DATA0_WEIGHT : Fld := ⟨0xB00208, 0, 1, 40, 16, .rw, 0, .fund, false, false⟩
/-! EGS_SVC_DATA1: Table 11.18, R427. -/
def EGS_SVC_DATA1_CBS : Fld := ⟨0xB00210, 0, 1, 0, 16, .rw, 0, .fund, false, false⟩
def EGS_SVC_DATA1_PBS : Fld := ⟨0xB00210, 0, 1, 16, 16, .rw, 0, .fund, false, false⟩
/-! EGS_SAMPLE_SEL: Table 11.19, R427. -/
def EGS_SAMPLE_SEL_INDEX : Fld := ⟨0xB00300, 0, 1, 0, 12, .rw, 0, .fund, false, false⟩
def EGS_SAMPLE_SEL_KIND : Fld := ⟨0xB00300, 0, 1, 12, 1, .rw, 0, .fund, false, false⟩
def EGS_SAMPLE_SEL_CLEAR : Fld := ⟨0xB00300, 0, 1, 13, 1, .w1s, 0, .noEvent, false, false⟩
/-! EGS_SAMPLE_DATA0: Table 11.19, R427. -/
def EGS_SAMPLE_DATA0_DEPTH_MAX : Fld := ⟨0xB00308, 0, 1, 0, 32, .ro, 0, .fund, false, false⟩
def EGS_SAMPLE_DATA0_DELAY_MAX : Fld := ⟨0xB00308, 0, 1, 32, 32, .ro, 0, .fund, false, false⟩
/-! EGS_SAMPLE_DATA1: Table 11.19, R427. -/
def EGS_SAMPLE_DATA1_DELAY_SUM : Fld := ⟨0xB00310, 0, 1, 0, 40, .ro, 0, .fund, true, false⟩
def EGS_SAMPLE_DATA1_SAMPLES : Fld := ⟨0xB00310, 0, 1, 40, 24, .ro, 0, .fund, true, false⟩
/-! SCH_SGROUP_OWED: Table 11.20, R428. -/
def SCH_SGROUP_OWED_OWED_0 : Fld := ⟨0x300880, 8, 16, 0, 8, .ro, 0, .park, true, false⟩
def SCH_SGROUP_OWED_OWED_1 : Fld := ⟨0x300880, 8, 16, 8, 8, .ro, 0, .park, true, false⟩
def SCH_SGROUP_OWED_OWED_2 : Fld := ⟨0x300880, 8, 16, 16, 8, .ro, 0, .park, true, false⟩
def SCH_SGROUP_OWED_OWED_3 : Fld := ⟨0x300880, 8, 16, 24, 8, .ro, 0, .park, true, false⟩
def SCH_SGROUP_OWED_OWED_4 : Fld := ⟨0x300880, 8, 16, 32, 8, .ro, 0, .park, true, false⟩
def SCH_SGROUP_OWED_OWED_5 : Fld := ⟨0x300880, 8, 16, 40, 8, .ro, 0, .park, true, false⟩
def SCH_SGROUP_OWED_OWED_6 : Fld := ⟨0x300880, 8, 16, 48, 8, .ro, 0, .park, true, false⟩
def SCH_SGROUP_OWED_OWED_7 : Fld := ⟨0x300880, 8, 16, 56, 8, .ro, 0, .park, true, false⟩
/-! SEC_STATUS: Table 12.14, R456. -/
def SEC_STATUS_LIFECYCLE : Fld := ⟨0xC00000, 0, 1, 0, 2, .ro, 0, .never, false, false⟩
def SEC_STATUS_DEBUG : Fld := ⟨0xC00000, 0, 1, 2, 1, .ro, 0, .por, false, false⟩
def SEC_STATUS_JTAG : Fld := ⟨0xC00000, 0, 1, 3, 1, .ro, 0, .por, false, false⟩
def SEC_STATUS_FW_BANK : Fld := ⟨0xC00000, 0, 1, 4, 1, .ro, 0, .fund, false, false⟩
def SEC_STATUS_CFG_BANK : Fld := ⟨0xC00000, 0, 1, 5, 1, .ro, 0, .fund, false, false⟩
def SEC_STATUS_RECOVERY : Fld := ⟨0xC00000, 0, 1, 6, 1, .ro, 0, .fund, false, false⟩
def SEC_STATUS_OWNER_SLOT : Fld := ⟨0xC00000, 0, 1, 7, 2, .ro, 0, .never, false, false⟩
def SEC_STATUS_EPOCH_LEFT : Fld := ⟨0xC00000, 0, 1, 9, 6, .ro, 0, .never, false, false⟩
/-! SEC_FW: Table 12.15, R456. -/
def SEC_FW_FW_SVN : Fld := ⟨0xC00008, 0, 1, 0, 32, .ro, 0, .fund, false, false⟩
def SEC_FW_FW_MIN_SVN : Fld := ⟨0xC00008, 0, 1, 32, 32, .ro, 0, .never, false, false⟩
/-! SEC_DEVICE_ID: Table 12.16, R456. -/
def SEC_DEVICE_ID_DIGEST : Fld := ⟨0xC00040, 8, 4, 0, 64, .ro, 0, .never, false, false⟩
/-! SEC_AUTH_STAT: Table 12.17, R456. -/
def SEC_AUTH_STAT_SIG_FAIL : Fld := ⟨0xC00100, 0, 1, 0, 16, .ro, 0, .fund, true, false⟩
def SEC_AUTH_STAT_TAG_FAIL : Fld := ⟨0xC00100, 0, 1, 16, 16, .ro, 0, .fund, true, false⟩
def SEC_AUTH_STAT_SEAL_AUTH : Fld := ⟨0xC00100, 0, 1, 32, 16, .ro, 0, .fund, true, false⟩
def SEC_AUTH_STAT_SEAL_MISMATCH : Fld := ⟨0xC00100, 0, 1, 48, 16, .ro, 0, .fund, true, false⟩
/-! SEC_TDI_STATE: Table 12.18, R456. -/
def SEC_TDI_STATE_STATE : Fld := ⟨0xC00200, 4, 256, 0, 2, .ro, 0, .flr, false, false⟩
def SEC_TDI_STATE_STREAM : Fld := ⟨0xC00200, 4, 256, 2, 5, .ro, 0, .flr, false, false⟩
def SEC_TDI_STATE_BOUND : Fld := ⟨0xC00200, 4, 256, 7, 1, .ro, 0, .flr, false, false⟩
/-! PWR_CAP: Table 13.5, R479. -/
def PWR_CAP_CAP_W : Fld := ⟨0xD00000, 0, 1, 0, 11, .rw, 0, .fund, false, false⟩
def PWR_CAP_CAP_MARGIN : Fld := ⟨0xD00000, 0, 1, 16, 8, .rw, 2, .fund, false, false⟩
/-! PWR_STATUS: Table 13.6, R479. -/
def PWR_STATUS_LEVEL : Fld := ⟨0xD00008, 0, 1, 0, 4, .ro, 0, .fund, false, false⟩
def PWR_STATUS_L_CAP : Fld := ⟨0xD00008, 0, 1, 4, 4, .ro, 0, .fund, false, false⟩
def PWR_STATUS_L_THERM : Fld := ⟨0xD00008, 0, 1, 8, 4, .ro, 0, .fund, false, false⟩
def PWR_STATUS_L_DROOP : Fld := ⟨0xD00008, 0, 1, 12, 4, .ro, 0, .fund, false, false⟩
def PWR_STATUS_L_BRK : Fld := ⟨0xD00008, 0, 1, 16, 4, .ro, 0, .fund, false, false⟩
def PWR_STATUS_PKG_LEVEL : Fld := ⟨0xD00008, 0, 1, 20, 2, .ro, 0, .fund, false, false⟩
def PWR_STATUS_TELEM_STALE : Fld := ⟨0xD00008, 0, 1, 22, 1, .ro, 0, .fund, false, false⟩
def PWR_STATUS_BRK_STUCK : Fld := ⟨0xD00008, 0, 1, 23, 1, .w1c, 0, .fund, false, false⟩
def PWR_STATUS_SENSOR_FAIL : Fld := ⟨0xD00008, 0, 1, 24, 1, .w1c, 0, .fund, false, false⟩
def PWR_STATUS_MODEL_W : Fld := ⟨0xD00008, 0, 1, 32, 16, .ro, 0, .fund, false, false⟩
def PWR_STATUS_TELEM_W : Fld := ⟨0xD00008, 0, 1, 48, 16, .ro, 0, .fund, false, false⟩
/-! PWR_LOOP_CFG: Table 13.7, R479. -/
def PWR_LOOP_CFG_PERIOD : Fld := ⟨0xD00010, 0, 1, 0, 16, .rw, 100, .fund, false, false⟩
def PWR_LOOP_CFG_FALL_US : Fld := ⟨0xD00010, 0, 1, 16, 16, .rw, 1000, .fund, false, false⟩
def PWR_LOOP_CFG_EVENT_GAP : Fld := ⟨0xD00010, 0, 1, 32, 16, .rw, 1000, .fund, false, false⟩
def PWR_LOOP_CFG_THERM_PERIOD : Fld := ⟨0xD00010, 0, 1, 48, 16, .rw, 1000, .fund, false, false⟩
/-! PWR_THERM_CFG: Table 13.8, R479. -/
def PWR_THERM_CFG_WARN : Fld := ⟨0xD00018, 0, 1, 0, 8, .rw, 95, .fund, false, false⟩
def PWR_THERM_CFG_CRIT : Fld := ⟨0xD00018, 0, 1, 8, 8, .rw, 105, .fund, false, false⟩
def PWR_THERM_CFG_HBM_HOT : Fld := ⟨0xD00018, 0, 1, 16, 8, .rw, 95, .fund, false, false⟩
def PWR_THERM_CFG_HBM_CRIT : Fld := ⟨0xD00018, 0, 1, 24, 8, .rw, 105, .fund, false, false⟩
/-! PWR_TEMP: Table 13.8, R479. -/
def PWR_TEMP_DIE_MAX : Fld := ⟨0xD00020, 0, 1, 0, 8, .ro, 0, .fund, false, false⟩
def PWR_TEMP_HBM_MAX : Fld := ⟨0xD00020, 0, 1, 8, 8, .ro, 0, .fund, false, false⟩
def PWR_TEMP_PEAK : Fld := ⟨0xD00020, 0, 1, 16, 8, .ro, 0, .fund, false, false⟩
def PWR_TEMP_FAILED : Fld := ⟨0xD00020, 0, 1, 24, 8, .ro, 0, .fund, true, false⟩
/-! PWR_PMBUS_CFG: Table 13.9, R480. -/
def PWR_PMBUS_CFG_POLL : Fld := ⟨0xD00028, 0, 1, 0, 16, .rw, 500, .fund, false, false⟩
def PWR_PMBUS_CFG_TIMEOUT : Fld := ⟨0xD00028, 0, 1, 16, 16, .rw, 1000, .fund, false, false⟩
/-! PWR_BRK_CFG: Table 13.10, R480. -/
def PWR_BRK_CFG_BRK_LEVEL : Fld := ⟨0xD00030, 0, 1, 0, 4, .rw, 8, .fund, false, false⟩
def PWR_BRK_CFG_BRK_TIMEOUT : Fld := ⟨0xD00030, 0, 1, 16, 16, .rw, 1000, .fund, false, false⟩
/-! PWR_HINT_CFG: Table 13.10, R480. -/
def PWR_HINT_CFG_HINT_MAX : Fld := ⟨0xD00034, 0, 1, 0, 16, .rw, 10000, .fund, false, false⟩
def PWR_HINT_CFG_HINT_MV : Fld := ⟨0xD00034, 0, 1, 16, 8, .rw, 10, .fund, false, false⟩
/-! PWR_PKG_ENERGY: Table 13.11, R480. -/
def PWR_PKG_ENERGY_UJ : Fld := ⟨0xD00040, 0, 1, 0, 64, .ro, 0, .fund, false, false⟩
/-! PWR_SYS_ENERGY: Table 13.11, R480. -/
def PWR_SYS_ENERGY_UJ : Fld := ⟨0xD00048, 0, 1, 0, 64, .ro, 0, .fund, false, false⟩
/-! PWR_PART_ENERGY: Table 13.11, R480. -/
def PWR_PART_ENERGY_UJ : Fld := ⟨0xD01000, 8, 64, 0, 64, .ro, 0, .fund, false, false⟩
/-! PWR_DROOP_STAT: Table 13.12, R480. -/
def PWR_DROOP_STAT_STRETCHES : Fld := ⟨0xD00050, 0, 1, 0, 48, .ro, 0, .fund, false, false⟩
def PWR_DROOP_STAT_ESCALATIONS : Fld := ⟨0xD00050, 0, 1, 48, 16, .ro, 0, .fund, true, false⟩
/-! PWR_CAL_CMD: Table 13.13, R480. -/
def PWR_CAL_CMD_START : Fld := ⟨0xD00100, 0, 1, 0, 1, .wo, 0, .noEvent, false, false⟩
def PWR_CAL_CMD_WINDOWS : Fld := ⟨0xD00100, 0, 1, 8, 8, .wo, 0, .noEvent, false, false⟩
/-! PWR_CAL_STAT: Table 13.13, R480. -/
def PWR_CAL_STAT_BUSY : Fld := ⟨0xD00108, 0, 1, 0, 1, .ro, 0, .fund, false, false⟩
def PWR_CAL_STAT_FAILED : Fld := ⟨0xD00108, 0, 1, 1, 8, .ro, 0, .fund, false, false⟩
def PWR_CAL_STAT_ERR : Fld := ⟨0xD00108, 0, 1, 16, 16, .ro, 0, .fund, false, false⟩
def PWR_CAL_STAT_RUNS : Fld := ⟨0xD00108, 0, 1, 32, 32, .ro, 0, .fund, false, false⟩
/-! PWR_FLOOR: Table 13.14, R480. -/
def PWR_FLOOR_L_FLOOR : Fld := ⟨0xD80000, 0, 1, 0, 4, .rw, 0, .fund, false, false⟩
/-! PWR_DROOP_CFG: Table 13.15, R481. -/
def PWR_DROOP_CFG_DROOP_MV : Fld := ⟨0xD80010, 0, 1, 0, 8, .rw, 45, .fund, false, false⟩
def PWR_DROOP_CFG_DROOP_HOLD : Fld := ⟨0xD80010, 0, 1, 8, 8, .rw, 100, .fund, false, false⟩
def PWR_DROOP_CFG_DROOP_ESC : Fld := ⟨0xD80010, 0, 1, 16, 8, .rw, 16, .fund, false, false⟩
def PWR_DROOP_CFG_RAMP_ISL : Fld := ⟨0xD80010, 0, 1, 24, 4, .rw, 2, .fund, false, false⟩
def PWR_DROOP_CFG_RAMP_NS : Fld := ⟨0xD80010, 0, 1, 32, 16, .rw, 100, .fund, false, false⟩
/-! PWR_COEF_SEL: Table 13.16, R481. -/
def PWR_COEF_SEL_KIND : Fld := ⟨0xD80020, 0, 1, 0, 4, .rw, 0, .fund, false, false⟩
/-! PWR_COEF_DATA: Table 13.16, R481. -/
def PWR_COEF_DATA_VALUE : Fld := ⟨0xD80028, 0, 1, 0, 32, .rw, 0, .fund, false, false⟩
def PWR_COEF_DATA_SCALE : Fld := ⟨0xD80028, 0, 1, 32, 16, .ro, 1024, .fund, false, false⟩
/-! GLB_STRAPS: Table 14.11, R500. -/
def GLB_STRAPS_BOOT_MOUNT : Fld := ⟨0x10, 0, 1, 0, 1, .ro, 0, .por, false, false⟩
def GLB_STRAPS_LANES : Fld := ⟨0x10, 0, 1, 1, 2, .ro, 0, .por, false, false⟩
def GLB_STRAPS_MGMT_EN : Fld := ⟨0x10, 0, 1, 3, 1, .ro, 0, .por, false, false⟩
/-! GLB_RESET_CAUSE: Table 14.12, R500. -/
def GLB_RESET_CAUSE_RAIL : Fld := ⟨0x20, 0, 1, 0, 1, .w1c, 0, .por, false, false⟩
def GLB_RESET_CAUSE_PIN : Fld := ⟨0x20, 0, 1, 1, 1, .w1c, 0, .por, false, false⟩
def GLB_RESET_CAUSE_THERM : Fld := ⟨0x20, 0, 1, 2, 1, .w1c, 0, .por, false, false⟩
def GLB_RESET_CAUSE_PERST : Fld := ⟨0x20, 0, 1, 3, 1, .w1c, 0, .por, false, false⟩
def GLB_RESET_CAUSE_MGMT : Fld := ⟨0x20, 0, 1, 4, 1, .w1c, 0, .por, false, false⟩
/-! GLB_BOOT_STAT: Table 14.13, R500. -/
def GLB_BOOT_STAT_PHASE : Fld := ⟨0x30, 0, 1, 0, 4, .ro, 0, .fund, false, false⟩
def GLB_BOOT_STAT_READY_AT : Fld := ⟨0x30, 0, 1, 32, 32, .ro, 0, .fund, false, false⟩
/-! GLB_PM_CTL: Table 14.14, R500. -/
def GLB_PM_CTL_TARGET : Fld := ⟨0x100, 0, 1, 0, 2, .rw, 0, .fund, false, false⟩
def GLB_PM_CTL_AUTO_IDLE : Fld := ⟨0x100, 0, 1, 2, 1, .rw, 1, .fund, false, false⟩
def GLB_PM_CTL_WAKE_DB : Fld := ⟨0x100, 0, 1, 3, 1, .rw, 1, .fund, false, false⟩
def GLB_PM_CTL_WAKE_FABRIC : Fld := ⟨0x100, 0, 1, 4, 1, .rw, 1, .fund, false, false⟩
def GLB_PM_CTL_IDLE_US : Fld := ⟨0x100, 0, 1, 8, 16, .rw, 10, .fund, false, false⟩
/-! GLB_PM_CFG: Table 14.14, R500. -/
def GLB_PM_CFG_DRAIN : Fld := ⟨0x104, 0, 1, 0, 16, .rw, 100, .fund, false, false⟩
/-! GLB_PM_STAT: Table 14.15, R500. -/
def GLB_PM_STAT_STATE : Fld := ⟨0x108, 0, 1, 0, 3, .ro, 0, .fund, false, false⟩
def GLB_PM_STAT_RESULT : Fld := ⟨0x108, 0, 1, 8, 8, .ro, 0, .fund, false, false⟩
def GLB_PM_STAT_WAKE : Fld := ⟨0x108, 0, 1, 16, 4, .ro, 0, .fund, false, false⟩
def GLB_PM_STAT_ENTRIES : Fld := ⟨0x108, 0, 1, 32, 32, .ro, 0, .fund, false, false⟩
/-! GLB_MOUNT_STAT: Table 14.16, R500. -/
def GLB_MOUNT_STAT_MOUNTED : Fld := ⟨0x200, 0, 1, 0, 1, .ro, 0, .fund, false, false⟩
def GLB_MOUNT_STAT_BUSY : Fld := ⟨0x200, 0, 1, 1, 1, .ro, 0, .fund, false, false⟩
def GLB_MOUNT_STAT_RESTORED : Fld := ⟨0x200, 0, 1, 2, 1, .ro, 0, .fund, false, false⟩
def GLB_MOUNT_STAT_CALIBRATED : Fld := ⟨0x200, 0, 1, 3, 1, .ro, 0, .fund, false, false⟩
def GLB_MOUNT_STAT_RESULT : Fld := ⟨0x200, 0, 1, 8, 8, .ro, 0, .fund, false, false⟩
def GLB_MOUNT_STAT_SOURCE : Fld := ⟨0x200, 0, 1, 16, 2, .ro, 0, .fund, false, false⟩
/-! GLB_BLANK_DIGEST: Table 14.16, R500. -/
def GLB_BLANK_DIGEST_DIGEST : Fld := ⟨0x210, 8, 4, 0, 64, .ro, 0, .fund, false, false⟩
/-! MGT_I3C_CFG: Table 14.17, R500. -/
def MGT_I3C_CFG_TIMEOUT : Fld := ⟨0xE00100, 0, 1, 0, 16, .rw, 1000, .fund, false, false⟩
def MGT_I3C_CFG_RETRIES : Fld := ⟨0xE00100, 0, 1, 16, 4, .rw, 3, .fund, false, false⟩
/-! MGT_MODULE_STAT: Table 14.17, R500. -/
def MGT_MODULE_STAT_PRESENT : Fld := ⟨0xE00108, 0, 1, 0, 16, .ro, 0, .fund, false, false⟩
def MGT_MODULE_STAT_REJECTED : Fld := ⟨0xE00108, 0, 1, 16, 16, .ro, 0, .fund, false, false⟩
/-! MGT_IO_CFG: Table 15.10, R524. -/
def MGT_IO_CFG_LINK_LOSS : Fld := ⟨0xE00200, 0, 1, 0, 16, .rw, 2000, .fund, false, false⟩
def MGT_IO_CFG_SPI_BUSY : Fld := ⟨0xE00200, 0, 1, 16, 16, .rw, 5000, .fund, false, false⟩
def MGT_IO_CFG_MI3C_STALL : Fld := ⟨0xE00200, 0, 1, 32, 16, .rw, 10000, .fund, false, false⟩
def MGT_IO_CFG_PHY_ADDR : Fld := ⟨0xE00200, 0, 1, 48, 5, .rw, 0, .fund, false, false⟩
def MGT_IO_CFG_RX_DELAY : Fld := ⟨0xE00200, 0, 1, 53, 1, .rw, 0, .fund, false, false⟩
/-! MGT_IO_STAT: Table 15.11, R524. -/
def MGT_IO_STAT_LINK_UP : Fld := ⟨0xE00208, 0, 1, 0, 1, .ro, 0, .fund, false, false⟩
def MGT_IO_STAT_SYSCLK_FAULT : Fld := ⟨0xE00208, 0, 1, 1, 1, .w1c, 0, .por, false, false⟩
def MGT_IO_STAT_LINK_LOSSES : Fld := ⟨0xE00208, 0, 1, 16, 16, .ro, 0, .fund, true, false⟩
def MGT_IO_STAT_SPI_TIMEOUTS : Fld := ⟨0xE00208, 0, 1, 32, 16, .ro, 0, .fund, true, false⟩
def MGT_IO_STAT_MI3C_ABORTS : Fld := ⟨0xE00208, 0, 1, 48, 16, .ro, 0, .fund, true, false⟩
/-! TST_QFETCH_DELAY: Table 16.8, R537. -/
def TST_QFETCH_DELAY_DELAY : Fld := ⟨0xF01000, 0, 1, 0, 16, .rw, 0, .por, false, false⟩
def TST_QFETCH_DELAY_CTX : Fld := ⟨0xF01000, 0, 1, 16, 12, .rw, 0, .por, false, false⟩
def TST_QFETCH_DELAY_ALL : Fld := ⟨0xF01000, 0, 1, 28, 1, .rw, 0, .por, false, false⟩
/-! TST_AE_BACKPRESSURE: Table 16.9, R537. -/
def TST_AE_BACKPRESSURE_AE : Fld := ⟨0xF01008, 0, 1, 0, 8, .rw, 0, .por, false, false⟩
def TST_AE_BACKPRESSURE_ALL : Fld := ⟨0xF01008, 0, 1, 8, 1, .rw, 0, .por, false, false⟩
def TST_AE_BACKPRESSURE_DUTY : Fld := ⟨0xF01008, 0, 1, 12, 4, .rw, 0, .por, false, false⟩
/-! TST_FAB_PERTURB: Table 16.10, R537. -/
def TST_FAB_PERTURB_DROP : Fld := ⟨0xF01010, 0, 1, 0, 16, .rw, 0, .por, false, false⟩
def TST_FAB_PERTURB_REORDER : Fld := ⟨0xF01010, 0, 1, 16, 16, .rw, 0, .por, false, false⟩
def TST_FAB_PERTURB_TX : Fld := ⟨0xF01010, 0, 1, 32, 1, .rw, 0, .por, false, false⟩
/-! TST_FAB_IFMASK: Table 16.11, R537. -/
def TST_FAB_IFMASK_IF : Fld := ⟨0xF01018, 0, 1, 0, 64, .rw, 0, .por, false, false⟩
/-! TST_TILE_FAIL: Table 16.12, R537. -/
def TST_TILE_FAIL_MODE : Fld := ⟨0xF01020, 0, 1, 0, 3, .rw, 0, .por, false, false⟩
def TST_TILE_FAIL_TIERS : Fld := ⟨0xF01020, 0, 1, 3, 3, .rw, 0, .por, false, false⟩
def TST_TILE_FAIL_COUNT : Fld := ⟨0xF01020, 0, 1, 8, 16, .rw, 0, .por, false, false⟩
def TST_TILE_FAIL_PART : Fld := ⟨0xF01020, 0, 1, 24, 6, .rw, 0, .por, false, false⟩
/-! TST_FLASH_FAIL: Table 16.13, R537. -/
def TST_FLASH_FAIL_DEPTH : Fld := ⟨0xF01028, 0, 1, 0, 3, .rw, 0, .por, false, false⟩
def TST_FLASH_FAIL_COUNT : Fld := ⟨0xF01028, 0, 1, 8, 16, .rw, 0, .por, false, false⟩
def TST_FLASH_FAIL_CHANNEL : Fld := ⟨0xF01028, 0, 1, 24, 6, .rw, 0, .por, false, false⟩
def TST_FLASH_FAIL_ALLCH : Fld := ⟨0xF01028, 0, 1, 30, 1, .rw, 0, .por, false, false⟩
/-! TST_CASC_DROOP: Table 16.14, R537. -/
def TST_CASC_DROOP_STRETCH : Fld := ⟨0xF01030, 0, 1, 0, 16, .rw, 0, .por, false, false⟩
def TST_CASC_DROOP_HOLD_RDY : Fld := ⟨0xF01030, 0, 1, 16, 1, .rw, 0, .por, false, false⟩
def TST_CASC_DROOP_ISLAND : Fld := ⟨0xF01030, 0, 1, 24, 6, .rw, 0, .por, false, false⟩
def TST_CASC_DROOP_ALLISL : Fld := ⟨0xF01030, 0, 1, 30, 1, .rw, 0, .por, false, false⟩
def TST_CASC_DROOP_TRIP_US : Fld := ⟨0xF01030, 0, 1, 32, 16, .rw, 0, .por, false, false⟩
/-! TST_TRACE_CTL: Table 16.15, R538. -/
def TST_TRACE_CTL_ENABLE : Fld := ⟨0xF02000, 0, 1, 0, 1, .rw, 0, .por, false, false⟩
def TST_TRACE_CTL_KIND : Fld := ⟨0xF02000, 0, 1, 1, 1, .rw, 0, .por, false, false⟩
def TST_TRACE_CTL_ALLCTX : Fld := ⟨0xF02000, 0, 1, 2, 1, .rw, 0, .por, false, false⟩
def TST_TRACE_CTL_CTX : Fld := ⟨0xF02000, 0, 1, 16, 12, .rw, 0, .por, false, false⟩
def TST_TRACE_CTL_LOG2_KIB : Fld := ⟨0xF02000, 0, 1, 28, 4, .rw, 0, .por, false, false⟩
def TST_TRACE_CTL_LOST : Fld := ⟨0xF02000, 0, 1, 32, 32, .ro, 0, .por, true, false⟩
/-! TST_TRACE_BASE: Table 16.15, R538. -/
def TST_TRACE_BASE_ADDR : Fld := ⟨0xF02008, 0, 1, 12, 52, .rw, 0, .por, false, false⟩
/-! TST_TRACE_IDX: Table 16.15, R538. -/
def TST_TRACE_IDX_PI : Fld := ⟨0xF02010, 0, 1, 0, 32, .ro, 0, .por, false, false⟩
def TST_TRACE_IDX_CI : Fld := ⟨0xF02010, 0, 1, 32, 32, .rw, 0, .por, false, false⟩
/-! RAS_ERR_CNT: Table 16.16, R539. -/
def RAS_ERR_CNT_CORRECTED : Fld := ⟨0xF00000, 0, 1, 0, 32, .ro, 0, .fund, false, false⟩
def RAS_ERR_CNT_CORE : Fld := ⟨0xF00000, 0, 1, 32, 16, .ro, 0, .fund, true, false⟩
def RAS_ERR_CNT_CONTEXT : Fld := ⟨0xF00000, 0, 1, 48, 16, .ro, 0, .fund, true, false⟩
/-! RAS_ACCESS_ERR: Table 16.17, R539. -/
def RAS_ACCESS_ERR_MISALIGNED : Fld := ⟨0xF00008, 0, 1, 0, 16, .ro, 0, .fund, true, false⟩
def RAS_ACCESS_ERR_NARROW : Fld := ⟨0xF00008, 0, 1, 16, 16, .ro, 0, .fund, true, false⟩
/-! RAS_CC_ONLINE: Table 16.18, R539. -/
def RAS_CC_ONLINE_ONLINE : Fld := ⟨0xF00010, 8, 2, 0, 64, .ro, 18446744073709551615, .fund, false, false⟩
/-! RAS_CFG: Table 16.19, R539. -/
def RAS_CFG_CE_FENCE : Fld := ⟨0xF00020, 0, 1, 0, 8, .rw, 16, .fund, false, false⟩
def RAS_CFG_CE_WINDOW : Fld := ⟨0xF00020, 0, 1, 8, 8, .rw, 100, .fund, false, false⟩
def RAS_CFG_CC_WDOG : Fld := ⟨0xF00020, 0, 1, 16, 16, .rw, 1000, .fund, false, false⟩
/-! RAS_FENCE_LOG: Table 16.20, R539. -/
def RAS_FENCE_LOG_UNIT : Fld := ⟨0xF00028, 0, 1, 0, 9, .ro, 0, .fund, false, false⟩
def RAS_FENCE_LOG_CAUSE : Fld := ⟨0xF00028, 0, 1, 9, 3, .ro, 0, .fund, false, false⟩
def RAS_FENCE_LOG_TIME : Fld := ⟨0xF00028, 0, 1, 32, 32, .ro, 0, .fund, false, false⟩
/-! RAS_DEVICE_ERR: Table 16.20, R539. -/
def RAS_DEVICE_ERR_CAUSE : Fld := ⟨0xF00030, 0, 1, 0, 8, .ro, 0, .por, false, false⟩
def RAS_DEVICE_ERR_DIE : Fld := ⟨0xF00030, 0, 1, 8, 2, .ro, 0, .por, false, false⟩
def RAS_DEVICE_ERR_TIME : Fld := ⟨0xF00030, 0, 1, 32, 32, .ro, 0, .por, false, false⟩
end F

namespace R
def GLB_EXPERT_UNLOCK : RegD := ⟨"GLB_EXPERT_UNLOCK", 0x40, 0, 1, 4, false, false, [F.GLB_EXPERT_UNLOCK_KEY, F.GLB_EXPERT_UNLOCK_LOCKED_OUT, F.GLB_EXPERT_UNLOCK_UNLOCKED]⟩
def GLB_FABRIC_CYCLES : RegD := ⟨"GLB_FABRIC_CYCLES", 0x8, 0, 1, 8, false, false, [F.GLB_FABRIC_CYCLES_COUNT]⟩
def GLB_ID : RegD := ⟨"GLB_ID", 0x0, 0, 1, 4, false, false, [F.GLB_ID_PART_NUMBER, F.GLB_ID_STEPPING, F.GLB_ID_DIES, F.GLB_ID_HBM_GROUPS]⟩
def GLB_STRAPS : RegD := ⟨"GLB_STRAPS", 0x10, 0, 1, 4, false, false, [F.GLB_STRAPS_BOOT_MOUNT, F.GLB_STRAPS_LANES, F.GLB_STRAPS_MGMT_EN]⟩
def GLB_RESET_CAUSE : RegD := ⟨"GLB_RESET_CAUSE", 0x20, 0, 1, 4, false, false, [F.GLB_RESET_CAUSE_RAIL, F.GLB_RESET_CAUSE_PIN, F.GLB_RESET_CAUSE_THERM, F.GLB_RESET_CAUSE_PERST, F.GLB_RESET_CAUSE_MGMT]⟩
def GLB_BOOT_STAT : RegD := ⟨"GLB_BOOT_STAT", 0x30, 0, 1, 8, false, false, [F.GLB_BOOT_STAT_PHASE, F.GLB_BOOT_STAT_READY_AT]⟩
def GLB_PM_CTL : RegD := ⟨"GLB_PM_CTL", 0x100, 0, 1, 4, false, false, [F.GLB_PM_CTL_TARGET, F.GLB_PM_CTL_AUTO_IDLE, F.GLB_PM_CTL_WAKE_DB, F.GLB_PM_CTL_WAKE_FABRIC, F.GLB_PM_CTL_IDLE_US]⟩
def GLB_PM_CFG : RegD := ⟨"GLB_PM_CFG", 0x104, 0, 1, 4, false, false, [F.GLB_PM_CFG_DRAIN]⟩
def GLB_PM_STAT : RegD := ⟨"GLB_PM_STAT", 0x108, 0, 1, 8, false, false, [F.GLB_PM_STAT_STATE, F.GLB_PM_STAT_RESULT, F.GLB_PM_STAT_WAKE, F.GLB_PM_STAT_ENTRIES]⟩
def GLB_MOUNT_STAT : RegD := ⟨"GLB_MOUNT_STAT", 0x200, 0, 1, 8, false, false, [F.GLB_MOUNT_STAT_MOUNTED, F.GLB_MOUNT_STAT_BUSY, F.GLB_MOUNT_STAT_RESTORED, F.GLB_MOUNT_STAT_CALIBRATED, F.GLB_MOUNT_STAT_RESULT, F.GLB_MOUNT_STAT_SOURCE]⟩
def GLB_BLANK_DIGEST : RegD := ⟨"GLB_BLANK_DIGEST", 0x210, 8, 4, 8, false, false, [F.GLB_BLANK_DIGEST_DIGEST]⟩

/-- Registers of block GLB. -/
def glbRegs : List RegD := [R.GLB_EXPERT_UNLOCK, R.GLB_FABRIC_CYCLES, R.GLB_ID, R.GLB_STRAPS, R.GLB_RESET_CAUSE, R.GLB_BOOT_STAT, R.GLB_PM_CTL, R.GLB_PM_CFG, R.GLB_PM_STAT, R.GLB_MOUNT_STAT, R.GLB_BLANK_DIGEST]

def CTXW_INFO : RegD := ⟨"CTXW_INFO", 0x0, 0, 1, 4, false, true, [F.CTXW_INFO_CTX, F.CTXW_INFO_PART, F.CTXW_INFO_FUNC, F.CTXW_INFO_CLASS, F.CTXW_INFO_DEVCTX]⟩
def CTXW_INFLIGHT : RegD := ⟨"CTXW_INFLIGHT", 0x8, 0, 1, 8, false, true, [F.CTXW_INFLIGHT_COUNT, F.CTXW_INFLIGHT_MAX]⟩
def CTXW_QSEL : RegD := ⟨"CTXW_QSEL", 0x10, 0, 1, 4, false, true, [F.CTXW_QSEL_ID, F.CTXW_QSEL_KIND]⟩
def CTXW_QBASE : RegD := ⟨"CTXW_QBASE", 0x18, 0, 1, 8, false, true, [F.CTXW_QBASE_SPACE, F.CTXW_QBASE_ADDR]⟩
def CTXW_QATTR : RegD := ⟨"CTXW_QATTR", 0x20, 0, 1, 8, false, true, [F.CTXW_QATTR_ENTRIES, F.CTXW_QATTR_CQID, F.CTXW_QATTR_VECTOR, F.CTXW_QATTR_DB_IMM]⟩
def CTXW_QRKEY : RegD := ⟨"CTXW_QRKEY", 0x28, 0, 1, 4, false, true, [F.CTXW_QRKEY_RKEY]⟩
def CTXW_QMOD : RegD := ⟨"CTXW_QMOD", 0x2C, 0, 1, 4, false, true, [F.CTXW_QMOD_COUNT, F.CTXW_QMOD_TIME]⟩
def CTXW_QCMD : RegD := ⟨"CTXW_QCMD", 0x30, 0, 1, 4, false, true, [F.CTXW_QCMD_OP]⟩
def CTXW_QSTAT : RegD := ⟨"CTXW_QSTAT", 0x34, 0, 1, 4, false, true, [F.CTXW_QSTAT_BUSY, F.CTXW_QSTAT_RESULT, F.CTXW_QSTAT_STATE]⟩
def CTXW_CQ_DB : RegD := ⟨"CTXW_CQ_DB", 0x100, 8, 64, 8, false, true, [F.CTXW_CQ_DB_CI, F.CTXW_CQ_DB_ARM]⟩
def CTXW_EQ_DB : RegD := ⟨"CTXW_EQ_DB", 0x300, 0, 1, 8, false, true, [F.CTXW_EQ_DB_CI, F.CTXW_EQ_DB_ARM]⟩
def CTXW_EQ_STAT : RegD := ⟨"CTXW_EQ_STAT", 0x308, 0, 1, 4, false, true, [F.CTXW_EQ_STAT_DROPPED, F.CTXW_EQ_STAT_OVF]⟩
def CTXW_RCP_BASE : RegD := ⟨"CTXW_RCP_BASE", 0x400, 0, 1, 8, false, true, [F.CTXW_RCP_BASE_ADDR]⟩
def CTXW_RCP_ATTR : RegD := ⟨"CTXW_RCP_ATTR", 0x408, 0, 1, 8, false, true, [F.CTXW_RCP_ATTR_ENTRIES, F.CTXW_RCP_ATTR_ENABLE, F.CTXW_RCP_ATTR_MODE, F.CTXW_RCP_ATTR_LEASE_TIME]⟩
def CTXW_RCP_IDX : RegD := ⟨"CTXW_RCP_IDX", 0x410, 0, 1, 8, false, true, [F.CTXW_RCP_IDX_PI, F.CTXW_RCP_IDX_CI]⟩
def CTXW_CLASS_LIMIT : RegD := ⟨"CTXW_CLASS_LIMIT", 0x418, 0, 1, 4, false, true, [F.CTXW_CLASS_LIMIT_MAX_BLOCKS]⟩
def CTXW_RET_CFG : RegD := ⟨"CTXW_RET_CFG", 0x420, 0, 1, 8, false, true, [F.CTXW_RET_CFG_TOPK, F.CTXW_RET_CFG_RECENT, F.CTXW_RET_CFG_SINK_BLK, F.CTXW_RET_CFG_MAX_TOPK]⟩
def CTXW_RCP_STAT : RegD := ⟨"CTXW_RCP_STAT", 0x428, 0, 1, 8, false, true, [F.CTXW_RCP_STAT_LEASES, F.CTXW_RCP_STAT_WAITERS, F.CTXW_RCP_STAT_UNLISTED, F.CTXW_RCP_STAT_EXPIRED]⟩
def CTXW_TRIG_RANGE : RegD := ⟨"CTXW_TRIG_RANGE", 0x500, 0, 1, 4, false, true, [F.CTXW_TRIG_RANGE_FIRST, F.CTXW_TRIG_RANGE_COUNT]⟩
def CTXW_TRIG_SEL : RegD := ⟨"CTXW_TRIG_SEL", 0x508, 0, 1, 4, false, true, [F.CTXW_TRIG_SEL_TRIG]⟩
def CTXW_TRIG_VAL : RegD := ⟨"CTXW_TRIG_VAL", 0x50C, 0, 1, 4, false, true, [F.CTXW_TRIG_VAL_VALUE]⟩
def CTXW_FXT_FAIL : RegD := ⟨"CTXW_FXT_FAIL", 0x510, 0, 1, 8, false, true, [F.CTXW_FXT_FAIL_COUNT, F.CTXW_FXT_FAIL_LAST, F.CTXW_FXT_FAIL_NODE]⟩
def CTXW_DOM_STAT : RegD := ⟨"CTXW_DOM_STAT", 0x600, 0, 1, 8, false, true, [F.CTXW_DOM_STAT_STATE, F.CTXW_DOM_STAT_EPOCH]⟩
def CTXW_SHARE : RegD := ⟨"CTXW_SHARE", 0x700, 0, 1, 4, false, true, [F.CTXW_SHARE_WEIGHT, F.CTXW_SHARE_TENANT]⟩

/-- Registers of the context window. -/
def windowRegs : List RegD := [R.CTXW_INFO, R.CTXW_INFLIGHT, R.CTXW_QSEL, R.CTXW_QBASE, R.CTXW_QATTR, R.CTXW_QRKEY, R.CTXW_QMOD, R.CTXW_QCMD, R.CTXW_QSTAT, R.CTXW_CQ_DB, R.CTXW_EQ_DB, R.CTXW_EQ_STAT, R.CTXW_RCP_BASE, R.CTXW_RCP_ATTR, R.CTXW_RCP_IDX, R.CTXW_CLASS_LIMIT, R.CTXW_RET_CFG, R.CTXW_RCP_STAT, R.CTXW_TRIG_RANGE, R.CTXW_TRIG_SEL, R.CTXW_TRIG_VAL, R.CTXW_FXT_FAIL, R.CTXW_DOM_STAT, R.CTXW_SHARE]

def QDB_STAT : RegD := ⟨"QDB_STAT", 0x200000, 0, 1, 8, false, false, [F.QDB_STAT_INFLIGHT, F.QDB_STAT_DB_IGNORED]⟩
def QDB_FETCH_CFG : RegD := ⟨"QDB_FETCH_CFG", 0x200010, 0, 1, 4, false, false, [F.QDB_FETCH_CFG_BURST]⟩
def QDB_QCACHE_STAT : RegD := ⟨"QDB_QCACHE_STAT", 0x280000, 0, 1, 8, true, false, [F.QDB_QCACHE_STAT_HITS, F.QDB_QCACHE_STAT_MISSES]⟩

/-- Registers of block QDB. -/
def qdbRegs : List RegD := [R.QDB_STAT, R.QDB_FETCH_CFG, R.QDB_QCACHE_STAT]

def AEC_PLAN_CFG : RegD := ⟨"AEC_PLAN_CFG", 0x400008, 0, 1, 4, false, false, [F.AEC_PLAN_CFG_LOOKAHEAD, F.AEC_PLAN_CFG_TTL]⟩
def AEC_AE_ONLINE : RegD := ⟨"AEC_AE_ONLINE", 0x400100, 8, 4, 8, false, false, [F.AEC_AE_ONLINE_ONLINE]⟩
def AEC_CHUNK_COUNT : RegD := ⟨"AEC_CHUNK_COUNT", 0x400200, 0, 1, 8, false, false, [F.AEC_CHUNK_COUNT_CHUNKS]⟩
def AEC_RETRY_COUNT : RegD := ⟨"AEC_RETRY_COUNT", 0x400208, 0, 1, 4, false, false, [F.AEC_RETRY_COUNT_RETRIES]⟩
def AEC_NONFINITE : RegD := ⟨"AEC_NONFINITE", 0x400210, 0, 1, 4, false, false, [F.AEC_NONFINITE_OUTPUTS]⟩
def AEC_PLAN_STAT : RegD := ⟨"AEC_PLAN_STAT", 0x400220, 0, 1, 8, false, false, [F.AEC_PLAN_STAT_REUSED, F.AEC_PLAN_STAT_REWALKED]⟩
def MRG_STAT : RegD := ⟨"MRG_STAT", 0x410000, 0, 1, 8, false, false, [F.MRG_STAT_MERGES, F.MRG_STAT_MAX_CHUNKS]⟩
def GRX_STAT : RegD := ⟨"GRX_STAT", 0x420000, 0, 1, 8, false, false, [F.GRX_STAT_SCORED, F.GRX_STAT_SELECTED]⟩
def AEC_SPLIT_CFG : RegD := ⟨"AEC_SPLIT_CFG", 0x480000, 0, 1, 4, true, false, [F.AEC_SPLIT_CFG_MAX_PAGES, F.AEC_SPLIT_CFG_DIE_LOCAL]⟩
def AEC_ARRAY_BUSY : RegD := ⟨"AEC_ARRAY_BUSY", 0x480010, 0, 1, 8, true, false, [F.AEC_ARRAY_BUSY_SCORE, F.AEC_ARRAY_BUSY_VALUE]⟩

/-- Registers of block AEC. -/
def aecRegs : List RegD := [R.AEC_PLAN_CFG, R.AEC_AE_ONLINE, R.AEC_CHUNK_COUNT, R.AEC_RETRY_COUNT, R.AEC_NONFINITE, R.AEC_PLAN_STAT, R.MRG_STAT, R.GRX_STAT, R.AEC_SPLIT_CFG, R.AEC_ARRAY_BUSY]

def PXI_CFG : RegD := ⟨"PXI_CFG", 0x500000, 0, 1, 4, false, false, [F.PXI_CFG_CURSOR_TTL, F.PXI_CFG_CAM_FILL]⟩
def PXI_PART_ID : RegD := ⟨"PXI_PART_ID", 0x500008, 0, 1, 4, false, false, [F.PXI_PART_ID_PART_ID, F.PXI_PART_ID_IN_DOMAIN, F.PXI_PART_ID_IN_CASCADE]⟩
def PXI_STAT_SEARCH : RegD := ⟨"PXI_STAT_SEARCH", 0x500100, 0, 1, 8, false, false, [F.PXI_STAT_SEARCH_SEARCHES]⟩
def PXI_STAT_HIT : RegD := ⟨"PXI_STAT_HIT", 0x500108, 0, 1, 8, false, false, [F.PXI_STAT_HIT_CAM_HITS, F.PXI_STAT_HIT_FALSE_HITS]⟩
def PXI_STAT_DIR : RegD := ⟨"PXI_STAT_DIR", 0x500110, 0, 1, 8, false, false, [F.PXI_STAT_DIR_PROBES, F.PXI_STAT_DIR_DIR_HITS]⟩
def PXI_CAM_OCC : RegD := ⟨"PXI_CAM_OCC", 0x500120, 0, 1, 4, false, false, [F.PXI_CAM_OCC_ROWS]⟩
def PXI_DIR_CFG : RegD := ⟨"PXI_DIR_CFG", 0x500200, 0, 1, 4, false, false, [F.PXI_DIR_CFG_LOG2_BUCKETS]⟩
def PXI_DIR_OCC : RegD := ⟨"PXI_DIR_OCC", 0x500208, 0, 1, 8, false, false, [F.PXI_DIR_OCC_ENTRIES, F.PXI_DIR_OCC_INSERT_FAILS]⟩
def PXI_ANCHOR_OCC : RegD := ⟨"PXI_ANCHOR_OCC", 0x500210, 0, 1, 8, false, false, [F.PXI_ANCHOR_OCC_LIVE, F.PXI_ANCHOR_OCC_MAX]⟩
def PXI_RETIRE_STAT : RegD := ⟨"PXI_RETIRE_STAT", 0x500218, 0, 1, 8, false, false, [F.PXI_RETIRE_STAT_RETIRED, F.PXI_RETIRE_STAT_POISON_SCANS]⟩
def PXI_SHARD_MAP : RegD := ⟨"PXI_SHARD_MAP", 0x501000, 4, 1024, 4, false, false, [F.PXI_SHARD_MAP_HOME_0, F.PXI_SHARD_MAP_HOME_1, F.PXI_SHARD_MAP_HOME_2, F.PXI_SHARD_MAP_HOME_3]⟩
def PXI_CASC_CFG : RegD := ⟨"PXI_CASC_CFG", 0x500300, 0, 1, 8, false, false, [F.PXI_CASC_CFG_ENABLE, F.PXI_CASC_CFG_POSITION, F.PXI_CASC_CFG_MEMBERS, F.PXI_CASC_CFG_STB_NS, F.PXI_CASC_CFG_FILTER_NS, F.PXI_CASC_CFG_RDY_TIMEOUT, F.PXI_CASC_CFG_STB_TIMEOUT, F.PXI_CASC_CFG_CLM_IDLE]⟩
def PXI_CASC_PARTS : RegD := ⟨"PXI_CASC_PARTS", 0x500308, 0, 1, 8, false, false, [F.PXI_CASC_PARTS_PART_0, F.PXI_CASC_PARTS_PART_1, F.PXI_CASC_PARTS_PART_2, F.PXI_CASC_PARTS_PART_3, F.PXI_CASC_PARTS_PART_4, F.PXI_CASC_PARTS_PART_5, F.PXI_CASC_PARTS_PART_6, F.PXI_CASC_PARTS_PART_7]⟩
def PXI_CASC_STAT : RegD := ⟨"PXI_CASC_STAT", 0x500310, 0, 1, 8, false, false, [F.PXI_CASC_STAT_ROUNDS, F.PXI_CASC_STAT_CLAIMS_LOST, F.PXI_CASC_STAT_TIMEOUTS, F.PXI_CASC_STAT_STUCK]⟩
def PXI_CAM_GROUP_OCC : RegD := ⟨"PXI_CAM_GROUP_OCC", 0x580000, 4, 16, 4, true, false, [F.PXI_CAM_GROUP_OCC_ROWS]⟩
def PXI_DIGEST_STAT : RegD := ⟨"PXI_DIGEST_STAT", 0x580100, 0, 1, 8, true, false, [F.PXI_DIGEST_STAT_COMPRESSIONS, F.PXI_DIGEST_STAT_CORE_WAITS]⟩

/-- Registers of block PXI. -/
def pxiRegs : List RegD := [R.PXI_CFG, R.PXI_PART_ID, R.PXI_STAT_SEARCH, R.PXI_STAT_HIT, R.PXI_STAT_DIR, R.PXI_CAM_OCC, R.PXI_DIR_CFG, R.PXI_DIR_OCC, R.PXI_ANCHOR_OCC, R.PXI_RETIRE_STAT, R.PXI_SHARD_MAP, R.PXI_CASC_CFG, R.PXI_CASC_PARTS, R.PXI_CASC_STAT, R.PXI_CAM_GROUP_OCC, R.PXI_DIGEST_STAT]

def TIER_STATE_CNT : RegD := ⟨"TIER_STATE_CNT", 0x600000, 8, 9, 8, false, false, [F.TIER_STATE_CNT_FRAMES]⟩
def TIER_BURL_CFG : RegD := ⟨"TIER_BURL_CFG", 0x600100, 0, 1, 4, false, false, [F.TIER_BURL_CFG_THRESHOLD, F.TIER_BURL_CFG_COPY2_EN]⟩
def TIER_WB_CFG : RegD := ⟨"TIER_WB_CFG", 0x600108, 0, 1, 4, false, false, [F.TIER_WB_CFG_DELAY]⟩
def TIER_T1_WM : RegD := ⟨"TIER_T1_WM", 0x600110, 0, 1, 4, false, false, [F.TIER_T1_WM_LOW, F.TIER_T1_WM_HIGH, F.TIER_T1_WM_ALLOC_WAIT]⟩
def TIER_ENDURANCE_CFG : RegD := ⟨"TIER_ENDURANCE_CFG", 0x600118, 0, 1, 8, false, false, [F.TIER_ENDURANCE_CFG_RATE, F.TIER_ENDURANCE_CFG_DEPTH]⟩
def TIER_ENDURANCE_STAT : RegD := ⟨"TIER_ENDURANCE_STAT", 0x600120, 0, 1, 8, false, false, [F.TIER_ENDURANCE_STAT_CREDIT, F.TIER_ENDURANCE_STAT_BUDGET_DROPS]⟩
def TIER_MOVE_STAT : RegD := ⟨"TIER_MOVE_STAT", 0x600128, 0, 1, 8, false, false, [F.TIER_MOVE_STAT_PROMOTIONS, F.TIER_MOVE_STAT_DEMOTIONS]⟩
def TIER_DROP_STAT : RegD := ⟨"TIER_DROP_STAT", 0x600130, 0, 1, 8, false, false, [F.TIER_DROP_STAT_CAP_DROPS, F.TIER_DROP_STAT_POISONED]⟩
def TIER_SUPERSEDE_WAITS : RegD := ⟨"TIER_SUPERSEDE_WAITS", 0x680000, 0, 1, 4, true, false, [F.TIER_SUPERSEDE_WAITS_WAITS]⟩

/-- Registers of block TIER. -/
def tierRegs : List RegD := [R.TIER_STATE_CNT, R.TIER_BURL_CFG, R.TIER_WB_CFG, R.TIER_T1_WM, R.TIER_ENDURANCE_CFG, R.TIER_ENDURANCE_STAT, R.TIER_MOVE_STAT, R.TIER_DROP_STAT, R.TIER_SUPERSEDE_WAITS]

def HBM_CG_OWNER : RegD := ⟨"HBM_CG_OWNER", 0x700000, 4, 16, 4, false, false, [F.HBM_CG_OWNER_PART_0, F.HBM_CG_OWNER_PART_1, F.HBM_CG_OWNER_PART_2, F.HBM_CG_OWNER_PART_3, F.HBM_CG_OWNER_SYSTEM_0, F.HBM_CG_OWNER_SYSTEM_1, F.HBM_CG_OWNER_SYSTEM_2, F.HBM_CG_OWNER_SYSTEM_3, F.HBM_CG_OWNER_ASSIGNED_0, F.HBM_CG_OWNER_ASSIGNED_1, F.HBM_CG_OWNER_ASSIGNED_2, F.HBM_CG_OWNER_ASSIGNED_3]⟩
def HBM_PC_RETIRED : RegD := ⟨"HBM_PC_RETIRED", 0x700100, 8, 16, 8, false, false, [F.HBM_PC_RETIRED_RETIRED]⟩
def HBM_ECC_STAT : RegD := ⟨"HBM_ECC_STAT", 0x700200, 0, 1, 8, false, false, [F.HBM_ECC_STAT_CORRECTED, F.HBM_ECC_STAT_UNCORRECTED, F.HBM_ECC_STAT_RETIREMENTS]⟩
def HBM_RETIRE_CFG : RegD := ⟨"HBM_RETIRE_CFG", 0x700208, 0, 1, 4, false, false, [F.HBM_RETIRE_CFG_THRESHOLD]⟩
def HBM_RETIRE_CMD : RegD := ⟨"HBM_RETIRE_CMD", 0x780000, 0, 1, 4, true, false, [F.HBM_RETIRE_CMD_PC, F.HBM_RETIRE_CMD_KEY]⟩

/-- Registers of block HBM. -/
def hbmRegs : List RegD := [R.HBM_CG_OWNER, R.HBM_PC_RETIRED, R.HBM_ECC_STAT, R.HBM_RETIRE_CFG, R.HBM_RETIRE_CMD]

def FLS_CHAN_STAT : RegD := ⟨"FLS_CHAN_STAT", 0x800000, 0, 1, 8, false, false, [F.FLS_CHAN_STAT_ENABLED]⟩
def FLS_GROUPS : RegD := ⟨"FLS_GROUPS", 0x800008, 0, 1, 4, false, false, [F.FLS_GROUPS_POPULATED, F.FLS_GROUPS_FAILED, F.FLS_GROUPS_MODULES]⟩
def FLS_READ_CFG : RegD := ⟨"FLS_READ_CFG", 0x800010, 0, 1, 4, false, false, [F.FLS_READ_CFG_RETRY_MAX, F.FLS_READ_CFG_RB_TIMEOUT]⟩
def FLS_LADDER_STAT : RegD := ⟨"FLS_LADDER_STAT", 0x800100, 0, 1, 8, false, false, [F.FLS_LADDER_STAT_RETRIED, F.FLS_LADDER_STAT_PARITY, F.FLS_LADDER_STAT_COPY2, F.FLS_LADDER_STAT_EXHAUSTED]⟩
def FLS_SPACE : RegD := ⟨"FLS_SPACE", 0x800108, 0, 1, 8, false, false, [F.FLS_SPACE_FREE_CHUNKS]⟩
def FLS_JRNL_CFG : RegD := ⟨"FLS_JRNL_CFG", 0x800200, 0, 1, 4, false, false, [F.FLS_JRNL_CFG_INTERVAL]⟩
def FLS_JRNL_STAT : RegD := ⟨"FLS_JRNL_STAT", 0x800208, 0, 1, 8, false, false, [F.FLS_JRNL_STAT_COMMIT_SEQ]⟩
def FLS_RESTORE_STAT : RegD := ⟨"FLS_RESTORE_STAT", 0x800210, 0, 1, 8, false, false, [F.FLS_RESTORE_STAT_ANCHORS, F.FLS_RESTORE_STAT_DONE, F.FLS_RESTORE_STAT_DISCARDED, F.FLS_RESTORE_STAT_BAD_BANKS]⟩
def FLS_LDPC_STAT : RegD := ⟨"FLS_LDPC_STAT", 0x880000, 0, 1, 8, true, false, [F.FLS_LDPC_STAT_BITS, F.FLS_LDPC_STAT_SOFT]⟩

/-- Registers of block FLS. -/
def flsRegs : List RegD := [R.FLS_CHAN_STAT, R.FLS_GROUPS, R.FLS_READ_CFG, R.FLS_LADDER_STAT, R.FLS_SPACE, R.FLS_JRNL_CFG, R.FLS_JRNL_STAT, R.FLS_RESTORE_STAT, R.FLS_LDPC_STAT]

def CDC_TABLE_OCC : RegD := ⟨"CDC_TABLE_OCC", 0x900000, 0, 1, 4, false, false, [F.CDC_TABLE_OCC_TABLES, F.CDC_TABLE_OCC_SETS]⟩
def CDC_WRITE_STAT : RegD := ⟨"CDC_WRITE_STAT", 0x900100, 0, 1, 8, false, false, [F.CDC_WRITE_STAT_CODED, F.CDC_WRITE_STAT_RAW]⟩
def CDC_BYTES_STAT : RegD := ⟨"CDC_BYTES_STAT", 0x900108, 0, 1, 8, false, false, [F.CDC_BYTES_STAT_LIVE, F.CDC_BYTES_STAT_STORED]⟩
def CDC_EXP_STALL : RegD := ⟨"CDC_EXP_STALL", 0x900110, 0, 1, 8, false, false, [F.CDC_EXP_STALL_RATE, F.CDC_EXP_STALL_STARVE]⟩
def TCK_ERR_STAT : RegD := ⟨"TCK_ERR_STAT", 0x900200, 0, 1, 8, false, false, [F.TCK_ERR_STAT_CHECK_FAIL, F.TCK_ERR_STAT_REPAIRED, F.TCK_ERR_STAT_SHORT, F.TCK_ERR_STAT_LONG]⟩
def TCK_HDR_STAT : RegD := ⟨"TCK_HDR_STAT", 0x900208, 0, 1, 4, false, false, [F.TCK_HDR_STAT_HCRC_FAIL, F.TCK_HDR_STAT_TABLE_CRC]⟩
def CDC_CTL : RegD := ⟨"CDC_CTL", 0x980000, 0, 1, 4, true, false, [F.CDC_CTL_FORCE_RAW]⟩
def CDC_TABLE_PROBE : RegD := ⟨"CDC_TABLE_PROBE", 0x980008, 0, 1, 8, true, false, [F.CDC_TABLE_PROBE_TID, F.CDC_TABLE_PROBE_HELD, F.CDC_TABLE_PROBE_BOUND, F.CDC_TABLE_PROBE_FRAMES]⟩

/-- Registers of block CDC. -/
def cdcRegs : List RegD := [R.CDC_TABLE_OCC, R.CDC_WRITE_STAT, R.CDC_BYTES_STAT, R.CDC_EXP_STALL, R.TCK_ERR_STAT, R.TCK_HDR_STAT, R.CDC_CTL, R.CDC_TABLE_PROBE]

def FXT_NODE : RegD := ⟨"FXT_NODE", 0xA00000, 0, 1, 8, false, false, [F.FXT_NODE_NODE, F.FXT_NODE_DOMAIN, F.FXT_NODE_INC]⟩
def FXT_NET_CFG : RegD := ⟨"FXT_NET_CFG", 0xA00008, 0, 1, 4, false, false, [F.FXT_NET_CFG_UDP_PORT, F.FXT_NET_CFG_PAYLOAD, F.FXT_NET_CFG_DSCP]⟩
def FXT_FLOW_CFG : RegD := ⟨"FXT_FLOW_CFG", 0xA00010, 0, 1, 4, false, false, [F.FXT_FLOW_CFG_WINDOW, F.FXT_FLOW_CFG_MSG_LOG2]⟩
def FXT_RETX_CFG : RegD := ⟨"FXT_RETX_CFG", 0xA00018, 0, 1, 8, false, false, [F.FXT_RETX_CFG_RTO, F.FXT_RETX_CFG_RETRY_MAX, F.FXT_RETX_CFG_BUSY_DELAY, F.FXT_RETX_CFG_BUSY_TIME]⟩
def FXT_RX_CFG : RegD := ⟨"FXT_RX_CFG", 0xA00020, 0, 1, 4, false, false, [F.FXT_RX_CFG_REASM_TIMEOUT]⟩
def FXT_TX_STAT : RegD := ⟨"FXT_TX_STAT", 0xA00100, 0, 1, 8, false, false, [F.FXT_TX_STAT_MESSAGES, F.FXT_TX_STAT_RETX, F.FXT_TX_STAT_UNREACHABLE, F.FXT_TX_STAT_TIMEOUTS]⟩
def FXT_RX_STAT : RegD := ⟨"FXT_RX_STAT", 0xA00108, 0, 1, 8, false, false, [F.FXT_RX_STAT_MESSAGES, F.FXT_RX_STAT_REFUSED, F.FXT_RX_STAT_BUSY_NAKS]⟩
def FXT_DUP_STAT : RegD := ⟨"FXT_DUP_STAT", 0xA00110, 0, 1, 8, false, false, [F.FXT_DUP_STAT_UNRELEASED, F.FXT_DUP_STAT_DUPLICATES, F.FXT_DUP_STAT_SUPPRESSED]⟩
def FXT_RX_DROP : RegD := ⟨"FXT_RX_DROP", 0xA00118, 0, 1, 4, false, false, [F.FXT_RX_DROP_HEADER, F.FXT_RX_DROP_REASM_FULL]⟩
def FXT_EP_SEL : RegD := ⟨"FXT_EP_SEL", 0xA00200, 0, 1, 4, false, false, [F.FXT_EP_SEL_NODE]⟩
def FXT_EP_CMD : RegD := ⟨"FXT_EP_CMD", 0xA00204, 0, 1, 4, false, false, [F.FXT_EP_CMD_OP]⟩
def FXT_EP_DATA : RegD := ⟨"FXT_EP_DATA", 0xA00208, 8, 8, 8, false, false, [F.FXT_EP_DATA_BYTES]⟩
def FXT_CC_CFG : RegD := ⟨"FXT_CC_CFG", 0xA80000, 0, 1, 8, true, false, [F.FXT_CC_CFG_MD, F.FXT_CC_CFG_AI, F.FXT_CC_CFG_DEC_GAP, F.FXT_CC_CFG_INC_GAP, F.FXT_CC_CFG_CC_OFF]⟩
def FXT_DEST_STAT : RegD := ⟨"FXT_DEST_STAT", 0xA80008, 0, 1, 8, true, false, [F.FXT_DEST_STAT_HITS, F.FXT_DEST_STAT_MISSES]⟩
def FXT_DOM_CFG : RegD := ⟨"FXT_DOM_CFG", 0xA00400, 0, 1, 8, false, false, [F.FXT_DOM_CFG_LEASE_MS, F.FXT_DOM_CFG_SKEW_PPM, F.FXT_DOM_CFG_ELECT_GAP, F.FXT_DOM_CFG_ADMIT_WINDOW]⟩
def FXT_DOM_CFG2 : RegD := ⟨"FXT_DOM_CFG2", 0xA00408, 0, 1, 4, false, false, [F.FXT_DOM_CFG2_PACE_GAP, F.FXT_DOM_CFG2_REMOTE_TIMEOUT]⟩
def FXT_DOM_ROLE : RegD := ⟨"FXT_DOM_ROLE", 0xA0040C, 0, 1, 4, false, false, [F.FXT_DOM_ROLE_VOTER, F.FXT_DOM_ROLE_RANK, F.FXT_DOM_ROLE_CANDIDATE, F.FXT_DOM_ROLE_VOTERS, F.FXT_DOM_ROLE_QUORUM]⟩
def FXT_DOM_STAT : RegD := ⟨"FXT_DOM_STAT", 0xA00410, 0, 1, 8, false, false, [F.FXT_DOM_STAT_STATE, F.FXT_DOM_STAT_ADMITTING, F.FXT_DOM_STAT_REFILL, F.FXT_DOM_STAT_MANAGER, F.FXT_DOM_STAT_COUNT, F.FXT_DOM_STAT_EPOCH]⟩
def FXT_DOM_MEMBERS : RegD := ⟨"FXT_DOM_MEMBERS", 0xA00420, 8, 4, 8, false, false, [F.FXT_DOM_MEMBERS_SET]⟩
def FXT_DOM_EVENTS : RegD := ⟨"FXT_DOM_EVENTS", 0xA00440, 0, 1, 8, false, false, [F.FXT_DOM_EVENTS_ELECTIONS, F.FXT_DOM_EVENTS_EPOCHS, F.FXT_DOM_EVENTS_DETACHES, F.FXT_DOM_EVENTS_PACE_FAIL]⟩
def FXT_DOM_REG_SEL : RegD := ⟨"FXT_DOM_REG_SEL", 0xA00448, 0, 1, 4, false, false, [F.FXT_DOM_REG_SEL_ENTRY]⟩
def FXT_DOM_REG_CMD : RegD := ⟨"FXT_DOM_REG_CMD", 0xA0044C, 0, 1, 4, false, false, [F.FXT_DOM_REG_CMD_OP]⟩
def FXT_DOM_REG_DATA : RegD := ⟨"FXT_DOM_REG_DATA", 0xA00450, 8, 2, 8, false, false, [F.FXT_DOM_REG_DATA_BYTES]⟩

/-- Registers of block FXT. -/
def fxtRegs : List RegD := [R.FXT_NODE, R.FXT_NET_CFG, R.FXT_FLOW_CFG, R.FXT_RETX_CFG, R.FXT_RX_CFG, R.FXT_TX_STAT, R.FXT_RX_STAT, R.FXT_DUP_STAT, R.FXT_RX_DROP, R.FXT_EP_SEL, R.FXT_EP_CMD, R.FXT_EP_DATA, R.FXT_CC_CFG, R.FXT_DEST_STAT, R.FXT_DOM_CFG, R.FXT_DOM_CFG2, R.FXT_DOM_ROLE, R.FXT_DOM_STAT, R.FXT_DOM_MEMBERS, R.FXT_DOM_EVENTS, R.FXT_DOM_REG_SEL, R.FXT_DOM_REG_CMD, R.FXT_DOM_REG_DATA]

def ETH_PORT_CFG : RegD := ⟨"ETH_PORT_CFG", 0xB40000, 8, 8, 4, false, false, [F.ETH_PORT_CFG_MODE, F.ETH_PORT_CFG_PFC_EN, F.ETH_PORT_CFG_PFC_PRIO]⟩
def ETH_MAC_BASE : RegD := ⟨"ETH_MAC_BASE", 0xB40040, 0, 1, 8, false, false, [F.ETH_MAC_BASE_MAC]⟩
def ETH_LINK_STAT : RegD := ⟨"ETH_LINK_STAT", 0xB40100, 8, 64, 8, false, false, [F.ETH_LINK_STAT_UP, F.ETH_LINK_STAT_SA_LIVE, F.ETH_LINK_STAT_FLAPS, F.ETH_LINK_STAT_FEC_UNCORR]⟩
def ETH_MACSEC_CFG : RegD := ⟨"ETH_MACSEC_CFG", 0xB40800, 0, 1, 4, false, false, [F.ETH_MACSEC_CFG_WINDOW]⟩
def ETH_MACSEC_STAT : RegD := ⟨"ETH_MACSEC_STAT", 0xB40900, 8, 64, 8, false, false, [F.ETH_MACSEC_STAT_ICV_FAIL, F.ETH_MACSEC_STAT_UNPROTECTED]⟩
def EGS_CFG : RegD := ⟨"EGS_CFG", 0xB00000, 0, 1, 4, false, false, [F.EGS_CFG_PERIOD]⟩
def EGS_SUB_SEL : RegD := ⟨"EGS_SUB_SEL", 0xB00100, 0, 1, 4, false, false, [F.EGS_SUB_SEL_SUB]⟩
def EGS_SUB_CMD : RegD := ⟨"EGS_SUB_CMD", 0xB00104, 0, 1, 4, false, false, [F.EGS_SUB_CMD_OP]⟩
def EGS_SUB_DATA0 : RegD := ⟨"EGS_SUB_DATA0", 0xB00108, 0, 1, 8, false, false, [F.EGS_SUB_DATA0_CIR, F.EGS_SUB_DATA0_PIR, F.EGS_SUB_DATA0_WEIGHT, F.EGS_SUB_DATA0_SERVICE]⟩
def EGS_SUB_DATA1 : RegD := ⟨"EGS_SUB_DATA1", 0xB00110, 0, 1, 8, false, false, [F.EGS_SUB_DATA1_CBS, F.EGS_SUB_DATA1_PBS]⟩
def EGS_SVC_SEL : RegD := ⟨"EGS_SVC_SEL", 0xB00200, 0, 1, 4, false, false, [F.EGS_SVC_SEL_SVC]⟩
def EGS_SVC_CMD : RegD := ⟨"EGS_SVC_CMD", 0xB00204, 0, 1, 4, false, false, [F.EGS_SVC_CMD_OP]⟩
def EGS_SVC_DATA0 : RegD := ⟨"EGS_SVC_DATA0", 0xB00208, 0, 1, 8, false, false, [F.EGS_SVC_DATA0_CIR, F.EGS_SVC_DATA0_PIR, F.EGS_SVC_DATA0_WEIGHT]⟩
def EGS_SVC_DATA1 : RegD := ⟨"EGS_SVC_DATA1", 0xB00210, 0, 1, 8, false, false, [F.EGS_SVC_DATA1_CBS, F.EGS_SVC_DATA1_PBS]⟩
def EGS_SAMPLE_SEL : RegD := ⟨"EGS_SAMPLE_SEL", 0xB00300, 0, 1, 4, false, false, [F.EGS_SAMPLE_SEL_INDEX, F.EGS_SAMPLE_SEL_KIND, F.EGS_SAMPLE_SEL_CLEAR]⟩
def EGS_SAMPLE_DATA0 : RegD := ⟨"EGS_SAMPLE_DATA0", 0xB00308, 0, 1, 8, false, false, [F.EGS_SAMPLE_DATA0_DEPTH_MAX, F.EGS_SAMPLE_DATA0_DELAY_MAX]⟩
def EGS_SAMPLE_DATA1 : RegD := ⟨"EGS_SAMPLE_DATA1", 0xB00310, 0, 1, 8, false, false, [F.EGS_SAMPLE_DATA1_DELAY_SUM, F.EGS_SAMPLE_DATA1_SAMPLES]⟩

/-- Registers of block EGS. -/
def egsRegs : List RegD := [R.ETH_PORT_CFG, R.ETH_MAC_BASE, R.ETH_LINK_STAT, R.ETH_MACSEC_CFG, R.ETH_MACSEC_STAT, R.EGS_CFG, R.EGS_SUB_SEL, R.EGS_SUB_CMD, R.EGS_SUB_DATA0, R.EGS_SUB_DATA1, R.EGS_SVC_SEL, R.EGS_SVC_CMD, R.EGS_SVC_DATA0, R.EGS_SVC_DATA1, R.EGS_SAMPLE_SEL, R.EGS_SAMPLE_DATA0, R.EGS_SAMPLE_DATA1]

def SCH_AESET : RegD := ⟨"SCH_AESET", 0x300100, 8, 32, 8, false, false, [F.SCH_AESET_ISLANDS, F.SCH_AESET_USERS]⟩
def SCH_PART : RegD := ⟨"SCH_PART", 0x300400, 8, 64, 8, false, false, [F.SCH_PART_AESET, F.SCH_PART_DEFINED, F.SCH_PART_SGROUP, F.SCH_PART_HAS_SG, F.SCH_PART_SLICE]⟩
def SCH_SGROUP : RegD := ⟨"SCH_SGROUP", 0x300800, 8, 16, 8, false, false, [F.SCH_SGROUP_DIE, F.SCH_SGROUP_WAY_FIRST, F.SCH_SGROUP_WAYS, F.SCH_SGROUP_HOLDER, F.SCH_SGROUP_PHASE]⟩
def SCH_SLICE_CFG : RegD := ⟨"SCH_SLICE_CFG", 0x300900, 0, 1, 4, false, false, [F.SCH_SLICE_CFG_GRACE]⟩
def SCH_CTX_CMD : RegD := ⟨"SCH_CTX_CMD", 0x300A00, 0, 1, 4, false, false, [F.SCH_CTX_CMD_CTX, F.SCH_CTX_CMD_OP]⟩
def SCH_CTX_STAT : RegD := ⟨"SCH_CTX_STAT", 0x300A04, 0, 1, 4, false, false, [F.SCH_CTX_STAT_BUSY, F.SCH_CTX_STAT_STATE]⟩
def SCH_SET_STAT : RegD := ⟨"SCH_SET_STAT", 0x301000, 8, 32, 8, false, false, [F.SCH_SET_STAT_BUSY, F.SCH_SET_STAT_ACTIVE]⟩
def SCH_SHARE_SEL : RegD := ⟨"SCH_SHARE_SEL", 0x380000, 0, 1, 4, true, false, [F.SCH_SHARE_SEL_CTX]⟩
def SCH_SHARE_DATA : RegD := ⟨"SCH_SHARE_DATA", 0x380008, 0, 1, 8, true, false, [F.SCH_SHARE_DATA_WEIGHT, F.SCH_SHARE_DATA_VT]⟩
def SCH_SGROUP_OWED : RegD := ⟨"SCH_SGROUP_OWED", 0x300880, 8, 16, 8, false, false, [F.SCH_SGROUP_OWED_OWED_0, F.SCH_SGROUP_OWED_OWED_1, F.SCH_SGROUP_OWED_OWED_2, F.SCH_SGROUP_OWED_OWED_3, F.SCH_SGROUP_OWED_OWED_4, F.SCH_SGROUP_OWED_OWED_5, F.SCH_SGROUP_OWED_OWED_6, F.SCH_SGROUP_OWED_OWED_7]⟩

/-- Registers of block SCH. -/
def schRegs : List RegD := [R.SCH_AESET, R.SCH_PART, R.SCH_SGROUP, R.SCH_SLICE_CFG, R.SCH_CTX_CMD, R.SCH_CTX_STAT, R.SCH_SET_STAT, R.SCH_SHARE_SEL, R.SCH_SHARE_DATA, R.SCH_SGROUP_OWED]

def SEC_STATUS : RegD := ⟨"SEC_STATUS", 0xC00000, 0, 1, 4, false, false, [F.SEC_STATUS_LIFECYCLE, F.SEC_STATUS_DEBUG, F.SEC_STATUS_JTAG, F.SEC_STATUS_FW_BANK, F.SEC_STATUS_CFG_BANK, F.SEC_STATUS_RECOVERY, F.SEC_STATUS_OWNER_SLOT, F.SEC_STATUS_EPOCH_LEFT]⟩
def SEC_FW : RegD := ⟨"SEC_FW", 0xC00008, 0, 1, 8, false, false, [F.SEC_FW_FW_SVN, F.SEC_FW_FW_MIN_SVN]⟩
def SEC_DEVICE_ID : RegD := ⟨"SEC_DEVICE_ID", 0xC00040, 8, 4, 8, false, false, [F.SEC_DEVICE_ID_DIGEST]⟩
def SEC_AUTH_STAT : RegD := ⟨"SEC_AUTH_STAT", 0xC00100, 0, 1, 8, false, false, [F.SEC_AUTH_STAT_SIG_FAIL, F.SEC_AUTH_STAT_TAG_FAIL, F.SEC_AUTH_STAT_SEAL_AUTH, F.SEC_AUTH_STAT_SEAL_MISMATCH]⟩
def SEC_TDI_STATE : RegD := ⟨"SEC_TDI_STATE", 0xC00200, 4, 256, 4, false, false, [F.SEC_TDI_STATE_STATE, F.SEC_TDI_STATE_STREAM, F.SEC_TDI_STATE_BOUND]⟩

/-- Registers of block SEC. -/
def secRegs : List RegD := [R.SEC_STATUS, R.SEC_FW, R.SEC_DEVICE_ID, R.SEC_AUTH_STAT, R.SEC_TDI_STATE]

def PWR_CAP : RegD := ⟨"PWR_CAP", 0xD00000, 0, 1, 4, false, false, [F.PWR_CAP_CAP_W, F.PWR_CAP_CAP_MARGIN]⟩
def PWR_STATUS : RegD := ⟨"PWR_STATUS", 0xD00008, 0, 1, 8, false, false, [F.PWR_STATUS_LEVEL, F.PWR_STATUS_L_CAP, F.PWR_STATUS_L_THERM, F.PWR_STATUS_L_DROOP, F.PWR_STATUS_L_BRK, F.PWR_STATUS_PKG_LEVEL, F.PWR_STATUS_TELEM_STALE, F.PWR_STATUS_BRK_STUCK, F.PWR_STATUS_SENSOR_FAIL, F.PWR_STATUS_MODEL_W, F.PWR_STATUS_TELEM_W]⟩
def PWR_LOOP_CFG : RegD := ⟨"PWR_LOOP_CFG", 0xD00010, 0, 1, 8, false, false, [F.PWR_LOOP_CFG_PERIOD, F.PWR_LOOP_CFG_FALL_US, F.PWR_LOOP_CFG_EVENT_GAP, F.PWR_LOOP_CFG_THERM_PERIOD]⟩
def PWR_THERM_CFG : RegD := ⟨"PWR_THERM_CFG", 0xD00018, 0, 1, 4, false, false, [F.PWR_THERM_CFG_WARN, F.PWR_THERM_CFG_CRIT, F.PWR_THERM_CFG_HBM_HOT, F.PWR_THERM_CFG_HBM_CRIT]⟩
def PWR_TEMP : RegD := ⟨"PWR_TEMP", 0xD00020, 0, 1, 4, false, false, [F.PWR_TEMP_DIE_MAX, F.PWR_TEMP_HBM_MAX, F.PWR_TEMP_PEAK, F.PWR_TEMP_FAILED]⟩
def PWR_PMBUS_CFG : RegD := ⟨"PWR_PMBUS_CFG", 0xD00028, 0, 1, 4, false, false, [F.PWR_PMBUS_CFG_POLL, F.PWR_PMBUS_CFG_TIMEOUT]⟩
def PWR_BRK_CFG : RegD := ⟨"PWR_BRK_CFG", 0xD00030, 0, 1, 4, false, false, [F.PWR_BRK_CFG_BRK_LEVEL, F.PWR_BRK_CFG_BRK_TIMEOUT]⟩
def PWR_HINT_CFG : RegD := ⟨"PWR_HINT_CFG", 0xD00034, 0, 1, 4, false, false, [F.PWR_HINT_CFG_HINT_MAX, F.PWR_HINT_CFG_HINT_MV]⟩
def PWR_PKG_ENERGY : RegD := ⟨"PWR_PKG_ENERGY", 0xD00040, 0, 1, 8, false, false, [F.PWR_PKG_ENERGY_UJ]⟩
def PWR_SYS_ENERGY : RegD := ⟨"PWR_SYS_ENERGY", 0xD00048, 0, 1, 8, false, false, [F.PWR_SYS_ENERGY_UJ]⟩
def PWR_PART_ENERGY : RegD := ⟨"PWR_PART_ENERGY", 0xD01000, 8, 64, 8, false, false, [F.PWR_PART_ENERGY_UJ]⟩
def PWR_DROOP_STAT : RegD := ⟨"PWR_DROOP_STAT", 0xD00050, 0, 1, 8, false, false, [F.PWR_DROOP_STAT_STRETCHES, F.PWR_DROOP_STAT_ESCALATIONS]⟩
def PWR_CAL_CMD : RegD := ⟨"PWR_CAL_CMD", 0xD00100, 0, 1, 4, false, false, [F.PWR_CAL_CMD_START, F.PWR_CAL_CMD_WINDOWS]⟩
def PWR_CAL_STAT : RegD := ⟨"PWR_CAL_STAT", 0xD00108, 0, 1, 8, false, false, [F.PWR_CAL_STAT_BUSY, F.PWR_CAL_STAT_FAILED, F.PWR_CAL_STAT_ERR, F.PWR_CAL_STAT_RUNS]⟩
def PWR_FLOOR : RegD := ⟨"PWR_FLOOR", 0xD80000, 0, 1, 4, true, false, [F.PWR_FLOOR_L_FLOOR]⟩
def PWR_DROOP_CFG : RegD := ⟨"PWR_DROOP_CFG", 0xD80010, 0, 1, 8, true, false, [F.PWR_DROOP_CFG_DROOP_MV, F.PWR_DROOP_CFG_DROOP_HOLD, F.PWR_DROOP_CFG_DROOP_ESC, F.PWR_DROOP_CFG_RAMP_ISL, F.PWR_DROOP_CFG_RAMP_NS]⟩
def PWR_COEF_SEL : RegD := ⟨"PWR_COEF_SEL", 0xD80020, 0, 1, 4, true, false, [F.PWR_COEF_SEL_KIND]⟩
def PWR_COEF_DATA : RegD := ⟨"PWR_COEF_DATA", 0xD80028, 0, 1, 8, true, false, [F.PWR_COEF_DATA_VALUE, F.PWR_COEF_DATA_SCALE]⟩

/-- Registers of block PWR. -/
def pwrRegs : List RegD := [R.PWR_CAP, R.PWR_STATUS, R.PWR_LOOP_CFG, R.PWR_THERM_CFG, R.PWR_TEMP, R.PWR_PMBUS_CFG, R.PWR_BRK_CFG, R.PWR_HINT_CFG, R.PWR_PKG_ENERGY, R.PWR_SYS_ENERGY, R.PWR_PART_ENERGY, R.PWR_DROOP_STAT, R.PWR_CAL_CMD, R.PWR_CAL_STAT, R.PWR_FLOOR, R.PWR_DROOP_CFG, R.PWR_COEF_SEL, R.PWR_COEF_DATA]

def MGT_I3C_CFG : RegD := ⟨"MGT_I3C_CFG", 0xE00100, 0, 1, 4, false, false, [F.MGT_I3C_CFG_TIMEOUT, F.MGT_I3C_CFG_RETRIES]⟩
def MGT_MODULE_STAT : RegD := ⟨"MGT_MODULE_STAT", 0xE00108, 0, 1, 8, false, false, [F.MGT_MODULE_STAT_PRESENT, F.MGT_MODULE_STAT_REJECTED]⟩
def MGT_IO_CFG : RegD := ⟨"MGT_IO_CFG", 0xE00200, 0, 1, 8, false, false, [F.MGT_IO_CFG_LINK_LOSS, F.MGT_IO_CFG_SPI_BUSY, F.MGT_IO_CFG_MI3C_STALL, F.MGT_IO_CFG_PHY_ADDR, F.MGT_IO_CFG_RX_DELAY]⟩
def MGT_IO_STAT : RegD := ⟨"MGT_IO_STAT", 0xE00208, 0, 1, 8, false, false, [F.MGT_IO_STAT_LINK_UP, F.MGT_IO_STAT_SYSCLK_FAULT, F.MGT_IO_STAT_LINK_LOSSES, F.MGT_IO_STAT_SPI_TIMEOUTS, F.MGT_IO_STAT_MI3C_ABORTS]⟩

/-- Registers of block MGT. -/
def mgtRegs : List RegD := [R.MGT_I3C_CFG, R.MGT_MODULE_STAT, R.MGT_IO_CFG, R.MGT_IO_STAT]

def TST_QFETCH_DELAY : RegD := ⟨"TST_QFETCH_DELAY", 0xF01000, 0, 1, 4, false, false, [F.TST_QFETCH_DELAY_DELAY, F.TST_QFETCH_DELAY_CTX, F.TST_QFETCH_DELAY_ALL]⟩
def TST_AE_BACKPRESSURE : RegD := ⟨"TST_AE_BACKPRESSURE", 0xF01008, 0, 1, 4, false, false, [F.TST_AE_BACKPRESSURE_AE, F.TST_AE_BACKPRESSURE_ALL, F.TST_AE_BACKPRESSURE_DUTY]⟩
def TST_FAB_PERTURB : RegD := ⟨"TST_FAB_PERTURB", 0xF01010, 0, 1, 8, false, false, [F.TST_FAB_PERTURB_DROP, F.TST_FAB_PERTURB_REORDER, F.TST_FAB_PERTURB_TX]⟩
def TST_FAB_IFMASK : RegD := ⟨"TST_FAB_IFMASK", 0xF01018, 0, 1, 8, false, false, [F.TST_FAB_IFMASK_IF]⟩
def TST_TILE_FAIL : RegD := ⟨"TST_TILE_FAIL", 0xF01020, 0, 1, 8, false, false, [F.TST_TILE_FAIL_MODE, F.TST_TILE_FAIL_TIERS, F.TST_TILE_FAIL_COUNT, F.TST_TILE_FAIL_PART]⟩
def TST_FLASH_FAIL : RegD := ⟨"TST_FLASH_FAIL", 0xF01028, 0, 1, 8, false, false, [F.TST_FLASH_FAIL_DEPTH, F.TST_FLASH_FAIL_COUNT, F.TST_FLASH_FAIL_CHANNEL, F.TST_FLASH_FAIL_ALLCH]⟩
def TST_CASC_DROOP : RegD := ⟨"TST_CASC_DROOP", 0xF01030, 0, 1, 8, false, false, [F.TST_CASC_DROOP_STRETCH, F.TST_CASC_DROOP_HOLD_RDY, F.TST_CASC_DROOP_ISLAND, F.TST_CASC_DROOP_ALLISL, F.TST_CASC_DROOP_TRIP_US]⟩
def TST_TRACE_CTL : RegD := ⟨"TST_TRACE_CTL", 0xF02000, 0, 1, 8, false, false, [F.TST_TRACE_CTL_ENABLE, F.TST_TRACE_CTL_KIND, F.TST_TRACE_CTL_ALLCTX, F.TST_TRACE_CTL_CTX, F.TST_TRACE_CTL_LOG2_KIB, F.TST_TRACE_CTL_LOST]⟩
def TST_TRACE_BASE : RegD := ⟨"TST_TRACE_BASE", 0xF02008, 0, 1, 8, false, false, [F.TST_TRACE_BASE_ADDR]⟩
def TST_TRACE_IDX : RegD := ⟨"TST_TRACE_IDX", 0xF02010, 0, 1, 8, false, false, [F.TST_TRACE_IDX_PI, F.TST_TRACE_IDX_CI]⟩
def RAS_ERR_CNT : RegD := ⟨"RAS_ERR_CNT", 0xF00000, 0, 1, 8, false, false, [F.RAS_ERR_CNT_CORRECTED, F.RAS_ERR_CNT_CORE, F.RAS_ERR_CNT_CONTEXT]⟩
def RAS_ACCESS_ERR : RegD := ⟨"RAS_ACCESS_ERR", 0xF00008, 0, 1, 4, false, false, [F.RAS_ACCESS_ERR_MISALIGNED, F.RAS_ACCESS_ERR_NARROW]⟩
def RAS_CC_ONLINE : RegD := ⟨"RAS_CC_ONLINE", 0xF00010, 8, 2, 8, false, false, [F.RAS_CC_ONLINE_ONLINE]⟩
def RAS_CFG : RegD := ⟨"RAS_CFG", 0xF00020, 0, 1, 4, false, false, [F.RAS_CFG_CE_FENCE, F.RAS_CFG_CE_WINDOW, F.RAS_CFG_CC_WDOG]⟩
def RAS_FENCE_LOG : RegD := ⟨"RAS_FENCE_LOG", 0xF00028, 0, 1, 8, false, false, [F.RAS_FENCE_LOG_UNIT, F.RAS_FENCE_LOG_CAUSE, F.RAS_FENCE_LOG_TIME]⟩
def RAS_DEVICE_ERR : RegD := ⟨"RAS_DEVICE_ERR", 0xF00030, 0, 1, 8, false, false, [F.RAS_DEVICE_ERR_CAUSE, F.RAS_DEVICE_ERR_DIE, F.RAS_DEVICE_ERR_TIME]⟩

/-- Registers of block TST. -/
def tstRegs : List RegD := [R.TST_QFETCH_DELAY, R.TST_AE_BACKPRESSURE, R.TST_FAB_PERTURB, R.TST_FAB_IFMASK, R.TST_TILE_FAIL, R.TST_FLASH_FAIL, R.TST_CASC_DROOP, R.TST_TRACE_CTL, R.TST_TRACE_BASE, R.TST_TRACE_IDX, R.RAS_ERR_CNT, R.RAS_ACCESS_ERR, R.RAS_CC_ONLINE, R.RAS_CFG, R.RAS_FENCE_LOG, R.RAS_DEVICE_ERR]

end R

/-- The registers of the blocks, at fixed BAR0 offsets. -/
def blockRegs : List RegD := R.glbRegs ++ R.qdbRegs ++ R.aecRegs ++ R.pxiRegs ++ R.tierRegs ++ R.hbmRegs ++ R.flsRegs ++ R.cdcRegs ++ R.fxtRegs ++ R.egsRegs ++ R.schRegs ++ R.secRegs ++ R.pwrRegs ++ R.mgtRegs ++ R.tstRegs

/-- Does instance address `a` (window already removed) fall on register `r`, and as which index? -/
def RegD.hit (r : RegD) (a : Nat) : Option Nat :=
  if r.stride = 0 then (if a = r.addr then some 0 else none)
  else if r.addr ≤ a ∧ a < r.addr + r.stride * r.count ∧ (a - r.addr) % r.stride = 0 then
    some ((a - r.addr) / r.stride) else none

/-- The register whose first byte stands at `a` in a list, with the instance index. -/
def regAt (l : List RegD) (a : Nat) : Option (RegD × Nat) :=
  l.findSome? fun r => (r.hit a).map fun i => (r, i)

/-- A register of the whole map by BAR0 offset: the register, its index and the context of its window. -/
def findReg (a : Nat) : Option (RegD × Nat × Nat) :=
  if 0x1000000 ≤ a then
    let c := (a - 0x1000000) / 0x1000
    if c < 4096 then (regAt R.windowRegs ((a - 0x1000000) % 0x1000)).map fun p => (p.1, p.2, c) else none
  else (regAt blockRegs a).map fun p => (p.1, p.2, 0)

/-- The field stored under a key. -/
def fldOfKey (k : Nat) : Option (Fld × Nat) :=
  (findReg (k / 64)).bind fun p => (p.1.flds.find? (fun f => f.lo = k % 64)).map fun f => (f, p.2.2)

/-- Severity of a clearing event in the order of Table 0.3 (R17). -/
def Clr.rank : Clr → Nat
  | .never => 1 | .por => 2 | .fund => 3 | .flr => 4 | .ctx => 5 | .park => 6 | .noEvent => 7

end Sys2Proof.Machine
end

