-- ==== Sys2Proof/Machine/State.lean ====
section
/-! DEFINITION. The state of the block: every register, queue, table, buffer, counter, mode and pin the manual
gives the YXG-7100, as plain data, and the queue of waiting commands. A register whose value is derived from
another piece of state (an occupancy, an in-flight count) is computed where it is read and has its one home here. -/

namespace Sys2Proof.Machine

/-! ## Work, completion and event queues (chapter 3) -/

/-- States of a work queue that exists (Table 3.2); ABSENT queues are not listed. -/
inductive WqSt where
  | enabled | stopped | draining
deriving DecidableEq, Repr

/-- A work queue (R78, R85): its configuration and the accepted and fetch indices. -/
structure Wq where
  q : Nat
  ctx : Nat
  st : WqSt
  region : Bool
  base : Nat
  entries : Nat
  cqid : Nat
  rkey : Nat
  dbImm : Bool
  pi : Nat
  fi : Nat
deriving DecidableEq, Repr

/-- A completion queue: write and consumer indices, ARM, and the pending records of R98. -/
structure Cq where
  id : Nat
  base : Nat
  entries : Nat
  vector : Nat
  count : Nat
  time : Nat
  wi : Nat
  ci : Nat
  arm : Bool
  pend : Nat
  first : Nat
deriving DecidableEq, Repr

/-- The event queue of a context; `ovf` is the OVF mark owed to the next record (R115). -/
structure Eq where
  ctx : Nat
  base : Nat
  entries : Nat
  vector : Nat
  count : Nat
  time : Nat
  wi : Nat
  ci : Nat
  arm : Bool
  pend : Nat
  first : Nat
  ovf : Bool
deriving DecidableEq, Repr

/-- An unavailable page a command met (R181): where it stands, and its frame. -/
structure MetPage where
  seq : Nat
  lpi : Nat
  layer : Nat
  head : Nat
  pfh : Nat
  /-- A superseded version was lost: the page is listed without lease or waiter (R324). -/
  old : Bool := false
deriving DecidableEq, Repr

/-- A page write that has begun: its place, the frame of the PTE (0: none), the frame it writes, and the table IDs it
captured (R308). -/
structure PgBegun where
  lpi : Nat
  layer : Nat
  head : Nat
  src : Nat
  dst : Nat
  tids : Nat × Nat
deriving DecidableEq, Repr

/-- A live prefix reference as the part that holds its anchor reports it: domain, profile, digests of its depths. -/
structure RefInfo where
  sdom : Nat
  mprof : Nat
  digests : List Nat
deriving DecidableEq, Repr

/-- Life of an admitted command: its ring read is out, it waits to start, it has started. -/
inductive CmdSt where
  | fetching | waiting | running
deriving DecidableEq, Repr

/-- A command in flight. `adm` is its admission number; `reads` holds the data of the host or peer reads that have
returned, oldest first, and `owed` counts those still out. `armed` is the second descriptor of a WR_ARM pair. -/
structure Cmd where
  id : CmdId
  ctx : Nat
  adm : Nat
  st : CmdSt
  desc : Word512
  armed : Option Word512
  reads : List (List Byte)
  owed : Nat
  /-- Highest throttle level in force while it ran (TLVL, THR). -/
  tlvl : Nat
  ae : Nat
  bytes : Nat
  /-- Leases granted and entries written: the RESULT of R189, once RCP is set. -/
  rcp : Option (Nat × Nat × Bool)
  /-- Whether its result was decided by a failing write or read; the record is then written when the row runs. -/
  fail : Option Nat
  /-- Internal progress of a command of several steps: pages or messages still to be handled, and counts. -/
  todo : List Nat
  count : Nat
  mark : Nat
  /-- Waiting for T1 space since this cycle (R272). -/
  alloc : Option Nat
  /-- Frames it holds residency pins on (R258, PAGES_PLACE). -/
  pinned : List Nat
  /-- Unavailable pages met so far (R181). -/
  met : List MetPage
  /-- Since when a WR_ARM pair waits for its firing (R361). -/
  since : Nat
  /-- First failure of its messages (R342). -/
  err : Option Nat
  /-- Place of a WR_ARM pair in the order of arming, from 1; 0 before it is armed. -/
  armNo : Nat
  /-- Pages whose write this command has begun (R308, R551), and whether its wait under R258 has been counted. -/
  writes : List PgBegun
  waited : Bool
  /-- The read pin it holds on a page: frame and version (R258, R259). -/
  readPin : Option (Nat × Nat)
  /-- What another part reported of the live reference the command names (R217). -/
  refInfo : Option RefInfo
deriving DecidableEq, Repr

/-! ## Contexts (chapters 3, 11) -/

inductive CtxSt where
  | down | up | tearing
deriving DecidableEq, Repr

/-- The counters of Table 11.6. -/
structure Stats where
  ae : Nat := 0
  cc : Nat := 0
  host : Nat := 0
  ftx : Nat := 0
  frx : Nat := 0
  tier : Nat := 0
  energy : Nat := 0
  commands : Nat := 0
  chunks : Nat := 0
  stageMiss : Nat := 0
  profMiss : Nat := 0
  /-- Sum over AE cycles of the throttle level: THR_AVG is this divided by `ae`. -/
  thrSum : Nat := 0
  since : Nat := 0
  grx : Nat := 0
  /-- Egress samples, in a final snapshot: depth, largest and mean delay. -/
  egs : Nat × Nat × Nat := (0, 0, 0)
deriving DecidableEq, Repr

/-- A context the blank (or the bootstrap) defines. -/
structure Ctx where
  r : CtxRec
  st : CtxSt
  /-- The release ends in UP (FLR) instead of DOWN. -/
  byFlr : Bool := false
  /-- Cause status of the teardown under way. -/
  cause : Nat := 0
  stats : Stats := {}
  snap : Option Stats := none
  /-- Virtual time of SCH (R404), in units of AE cycles × 2^16 ÷ weight. -/
  vt : Nat := 0
  /-- End of the last THROTTLE_CHANGED gap, and whether a change is owed when it ends (R474). -/
  thrGap : Nat := 0
  thrOwed : Bool := false
  thrLast : Nat := 0
  /-- SCH saw it active (ready, or with a chunk running) at the last round (R405). -/
  active : Bool := false
  /-- Virtual time for walks on the CCs (R407). -/
  vtCc : Nat := 0
  /-- End of its heavy-phase window (R472). -/
  heavyEnd : Option Nat := none
deriving DecidableEq, Repr

/-! ## Sequences and page tables (chapter 2) -/

/-- A grain record (Table 2.5). The bound lists are E4M3 bytes, one per dimension group. -/
structure Grain where
  tokens : Nat
  version : Nat
  gsize : Nat
  sink : Bool
  gscale : Word32
  knorm : Word32
  gmin : List Byte
  gmax : List Byte
  gmean : List Byte
deriving DecidableEq, Repr

/-- A valid page-table entry (Table 2.3) with its place in the table and the grain behind it. -/
structure Pte where
  lpi : Nat
  layer : Nat
  head : Nat
  pfh : Nat
  ver : Nat
  s : Bool
  g : Bool
  grain : Option Grain
deriving DecidableEq, Repr

/-- An open append round (R42): tokens and the layers its mask holds. -/
structure Round where
  ntok : Nat
  layers : List Nat
deriving DecidableEq, Repr

inductive SeqSt where
  | opn | closing
deriving DecidableEq, Repr

/-- A sequence record that is not FREE (Table 2.1). -/
structure SeqRec where
  idx : Nat
  gen : Nat
  ctx : Nat
  part : Nat
  st : SeqSt
  mprof : Nat
  sdom : Nat
  retrieval : Bool
  /-- Nodes of the page table per level, the lowest first (R45); node `i` of a level serves the 256 children from 256i on. -/
  nodes : List Nat
  len : Nat
  round : Option Round
  defaults : Placement
  /-- Spilled to the flash record area (R38). -/
  spilled : Bool
  ptes : List Pte
  stats : Stats
deriving DecidableEq, Repr

/-- A partition: its blank record, the ranges (first, count) of record indices never issued yet, and the free ones that have
been issued, in the order they were freed, each with the generation it is next issued under (R39). -/
structure Part where
  r : PartRec
  fresh : List (Nat × Nat)
  freed : List (Nat × Nat)
  /-- Next T1 chunk to interleave over the pseudo-channels (R271). -/
  nextPc : Nat
deriving DecidableEq, Repr

/-! ## Stored form, frames and flash (chapters 7 and 8) -/

/-- A tile entry of a frame header (Table 8.2). -/
structure TileEnt where
  off16 : Nat
  slen : Nat
  raw : Bool
  check : Nat
  tag : Nat
deriving DecidableEq, Repr

/-- A frame header (Table 8.1). `chunk` lists the CHUNKS entries in use: numbers of T1 or STG chunks, or slots of the stripe
of a T2 copy (R304). -/
structure Hdr where
  pfh : Nat
  tiles : Nat
  ver : Nat
  mprof : Nat
  tidK : Nat
  tidV : Nat
  chunks : Nat
  ldec : Nat
  payload : Nat
  hcrc : Nat
  chunk : List Nat
  ents : List TileEnt
deriving DecidableEq, Repr

/-- A copy in T0 or T1 (R300): its header, and the payload its chunks hold, as ciphertext. -/
structure Copy where
  hdr : Hdr
  bytes : List Byte
deriving DecidableEq, Repr

/-- A T2 copy: its header, programmed into the stripe that holds its chunks, and that stripe's group and number (R275,
R304). -/
structure FlashCopy where
  hdr : Hdr
  group : Nat
  stripe : Nat
deriving DecidableEq, Repr

/-- What a flash program is for (R277): a write-back that keeps the T1 copy, a demotion, the second copy of a burl, or the
rewriting of the first or the second copy into another stripe (repair, R279; the cleaner, R273). -/
inductive PgmKind where
  | writeBack | demote | second | moveFirst | moveSecond
deriving DecidableEq, Repr

/-- A flash program in flight: the version it was started on and where it writes. -/
structure Program where
  kind : PgmKind
  ver : Nat
  dest : FlashCopy
deriving DecidableEq, Repr

/-- A stripe with programmed chunks (R275): 15 flash pages of data hold 60 chunks, of which the first `next` have been
programmed since its erase blocks were erased; `data` is their content (key: slot × 4,096 + byte) and `parity` the XOR of
the 15 data pages (key: byte of the 16 KiB page). -/
structure Stripe where
  group : Nat
  num : Nat
  next : Nat
  data : List (Nat × Byte)
  parity : List (Nat × Byte)
deriving DecidableEq, Repr

/-- An accepted flash module (Table 14.2): its slot, the chunks of its enabled channels, pages per erase block, erase blocks
per target. -/
structure FlashMod where
  slot : Nat
  chunks : Nat
  blockPages : Nat
  blocks : Nat
deriving DecidableEq, Repr

/-- A frame record (Table 7.1) with the copies it names: `t1` the T1 copy of the current version, `stg` its T0 copy, `t2`
and `t2b` the T2 copies, `prev` the superseded version. CHUNKS, T0, T2V, COPY2, OLD and PGM of Table 7.1 show them. -/
structure Frame where
  pfh : Nat
  st : PgState
  burl : Bool
  persist : Bool
  prom : Bool
  set : Placement
  part : Nat
  refs : Nat
  pins : Nat
  rpins : Nat
  oldPins : Nat
  ver : Nat
  sdom : Nat
  mprof : Nat
  lastUse : Nat
  /-- Cycle of the last read, by which T0 copies are replaced (R260). -/
  lastRead : Nat
  lastWrite : Nat
  tiles : Nat
  t1 : Option Copy
  stg : Option Copy
  t2 : Option FlashCopy
  t2b : Option FlashCopy
  prev : Option Copy
  /-- T1 chunks taken for the promotion in flight. -/
  fill : List Nat
  /-- The state the page was in when the write in WRITING began. -/
  before : PgState
  /-- The program in flight, and those that wait for it or for space (R273, R276, R279). -/
  prog : Option Program
  wants : List PgmKind
  /-- Payload that step 3 or 4 of Table 7.6 yielded, until it has been used (R279). -/
  fixed : Option (List Byte)
  /-- Context and sequence index that wrote the current version (Table 11.5). -/
  writer : Nat × Nat
  /-- Step of the recovery ladder a read in flight has reached (Table 7.6), and a failure kept on the way. -/
  ladder : Nat
  ladderFail : Option FailKind
  /-- The command whose own read or promotion is in flight (R281). -/
  reader : Option CmdId
  /-- A flash read in place for `reader` has passed (PAGES_DELIVER without PROMOTE). -/
  readOk : Bool
  /-- Proxy frames: peer part and the peer's frame handle (PEER). -/
  peer : Option (Nat × Nat)
  /-- Proxy frames: the import frame; import frames: a proxy holds it. -/
  imp : Option Nat
  /-- The copy being re-read after a check failure above it (R157, R323). -/
  reread : Option Tier
  /-- References held by peer parts: (part, count) (R388, R393). -/
  remote : List (Nat × Nat)
  /-- Steps of Table 7.6 that TST_FLASH_FAIL fails of the read in flight (Table 16.13); none before its first step. -/
  forced : Option Nat
deriving DecidableEq, Repr

/-! ## Attention (chapter 4) -/

/-- A running state of one group member: maximum, sum and accumulator (R128, R129). -/
structure MState where
  m : Word32
  l : Word32
  acc : List Word32
deriving DecidableEq, Repr

/-- One batch entry of an ATTEND in execution: captured visible length, queries, and whether its span is empty. -/
structure AttEnt where
  seq : Nat
  v : Nat
  queries : List Byte
  empty : Bool
deriving DecidableEq, Repr

/-- A merged state of (entry, KV head, member). -/
structure MergeSt where
  ent : Nat
  head : Nat
  member : Nat
  st : MState
deriving DecidableEq, Repr

/-- An ATTEND in execution. `walk` holds the (entry, KV head, LPI) places still to be walked, `cur` the chunk being
built for (`curEnt`, `curHead`), whose index is `curIdx`; `left` counts chunks not yet handed to MRG. -/
structure Att where
  id : CmdId
  ctx : Nat
  adm : Nat
  mprof : Nat
  layer : Nat
  ents : List AttEnt
  walk : List (Nat × Nat × Nat)
  cur : List PageRef
  curEnt : Nat
  curHead : Nat
  curIdx : Nat
  left : Nat
  merged : List MergeSt
  /-- Chunk states merged per (entry, KV head). -/
  counts : List (Nat × Nat × Nat)
  /-- (entry, KV head) pairs that need an unavailable page (R182). -/
  hit : List (Nat × Nat)
deriving DecidableEq, Repr

/-- Where a chunk stands: waiting in SCH, or running on an AE. -/
inductive ChunkSt where
  | waiting | running (ae : Nat)
deriving DecidableEq, Repr

/-- A chunk of an ATTEND (R140). -/
structure Chunk where
  att : CmdId
  ctx : Nat
  adm : Nat
  seq : Nat
  mprof : Nat
  layer : Nat
  v : Nat
  nq : Nat
  ent : Nat
  head : Nat
  idx : Nat
  pages : List PageRef
  st : ChunkSt
  /-- Counted as a staging miss (R34). -/
  missed : Bool
  /-- AE errors met so far (R530). -/
  errors : Nat
  /-- Cycle of placement. -/
  placed : Nat
  /-- The forced failures of its reads have been taken (R537). -/
  checked : Bool
  /-- est(k) as its placement took it (R404). -/
  est : Nat
deriving DecidableEq, Repr

/-- A page a plan stages: its place and frame (R162, R164). -/
structure PlanPage where
  layer : Nat
  lpi : Nat
  head : Nat
  pfh : Nat
deriving DecidableEq, Repr

/-- One accepted entry of a step plan (R162, R164), with its place in the plan list. -/
structure PlanEnt where
  plan : CmdId
  no : Nat
  ctx : Nat
  seq : Nat
  layerFirst : Nat
  layerEnd : Nat
  look : Nat
  len : Nat
  firstLpi : Nat
  hot : Bool
  /-- Lowest layer not yet staged. -/
  staged : Nat
  /-- Layers attended since acceptance. -/
  done : List Nat
  /-- Residency pins. -/
  pins : List PlanPage
  /-- Pages whose staging waits for a T1 chunk, and frames left unstaged (R166). -/
  stuck : List PlanPage
  skip : List Nat
  /-- Page descriptors kept (R163): (layer, LPI, head, frame, version). -/
  descs : List (Nat × Nat × Nat × Nat × Nat)
deriving DecidableEq, Repr

/-- A live plan: completion time, pace target and what the last notice reported. -/
structure Plan where
  id : CmdId
  ctx : Nat
  doneAt : Option Nat
  ttl : Nat
  pace : Bool
  pacePart : Nat
  paceRkey : Word32
  paceOff : Nat
  lastLevel : Nat
  lastSent : Option Nat
  paceSeq : Nat
  /-- Accepted entries. -/
  nseq : Nat
deriving DecidableEq, Repr

/-- A hot-set slot (R61): slope and variant are derived from the profile. -/
structure HotSlot where
  slot : Nat
  mprof : Nat
  lastUse : Nat
deriving DecidableEq, Repr

/-! ## Leases (chapter 5) -/

/-- A page a lease covers: its frame, or its place when PFH is 0 (R190); `filled` once refilled, `lost` once its last
reference is gone. -/
structure LeasePage where
  seq : Nat
  lpi : Nat
  layer : Nat
  head : Nat
  pfh : Nat
  filled : Bool
  lost : Bool
deriving DecidableEq, Repr

/-- A waiter registration (R192): the waiting sequence and the lease's run as that sequence sees it. -/
structure Waiter where
  ctx : Nat
  seq : Nat
  lpiFirst : Nat
  lpiCount : Nat
deriving DecidableEq, Repr

/-- A live recompute lease. -/
structure Lease where
  slot : Nat
  gen : Nat
  ctx : Nat
  seq : Nat
  expires : Nat
  pages : List LeasePage
  waiters : List Waiter
deriving DecidableEq, Repr

/-! ## Table store (chapter 8) -/

/-- A loaded table record: its ID, state count and frequencies. -/
structure Table where
  tid : Nat
  tlog : Nat
  freq : List Nat
  rcrc : Nat
deriving DecidableEq, Repr

/-- A loaded table set: the profile it was loaded for and its bindings (K ID, V ID) per layer group. -/
structure TableSet where
  tset : Nat
  mprof : Nat
  bind : List (Nat × Nat)
  digest : Nat
  svn : Nat
deriving DecidableEq, Repr


/-! ## Fabric (chapter 9) -/

/-- A registered region (R350). Offsets of an HBM region hold bytes of `Fabric.mem`. -/
structure Region where
  index : Nat
  gen : Nat
  ctx : Nat
  part : Nat
  hostMem : Bool
  access : Nat
  trig : Nat
  len : Nat
  addr : Nat
  nqAddr : Nat
  nqEntries : Nat
  nqVector : Nat
  nqPi : Nat
  nqCi : Nat
  /-- The REGION_REVOKE whose drain is awaited (R353); its FREE bit. -/
  draining : Option CmdId
  freeing : Bool
  /-- T1 chunks of an HBM region. -/
  chunks : List Nat
deriving DecidableEq, Repr

/-! ## Scheduling (chapter 11) -/

/-- A staging group (R408): its blank record, the holder's place in the member list, phase of Table 11.10, start and
granted length of the slice, debts, and what a switch under way still needs. -/
structure SGroup where
  r : SGroupRec
  holder : Nat
  phase : Nat
  start : Nat
  len : Nat
  /-- Debt of each member partition in µs (R412). -/
  owed : List (Nat × Nat)
  /-- Nominal end of the slice just ended, and the outgoing partition. -/
  out : Option (Nat × Nat)
  /-- Overrun of that slice in µs so far. -/
  overrun : Nat
  /-- Frames whose flash program the outgoing holder started under its priority (R409). -/
  prio : List (Nat × Nat)
deriving DecidableEq, Repr

/-- SCH. `lastVt` is the virtual time of the last context to go inactive, per AE set; `ramp` holds the changes of islands from
idle to busy that may lie within the last RAMP_NS, as (die, cycle) (R470). -/
structure Sched where
  groups : List SGroup
  lastVt : List (Nat × Nat)
  ramp : List (Nat × Nat)
deriving DecidableEq, Repr

/-! ## Power (chapter 13) -/

/-- A window of the calibration (R478): model and telemetry energy per rail, in µJ. -/
structure CalWin where
  model : List Nat
  telem : List Nat
deriving DecidableEq, Repr

/-- A calibration run: windows still to come, when it began, the windows recorded, whether TELEM_STALE was set during it, and
whether it is the run of a mount (step 10 of Table 14.6); when the running window began, and the model's dynamic energy before
scaling and the telemetry energy of each rail in it, in fJ. -/
structure CalRun where
  left : Nat
  start : Nat
  wins : List CalWin
  stale : Bool
  ofMount : Bool
  since : Nat
  model : List Nat
  telem : List Nat
deriving DecidableEq, Repr

/-- A die sensor (R465): last reading, how often it has been unchanged while its rail's power changed, failed. -/
structure Sensor where
  last : Int
  same : Nat
  failed : Bool
deriving DecidableEq, Repr

/-- PWR. `coef` and `stat` are the coefficients (fJ) of Table 13.4 and the static terms (mW) of Table 13.2, `scale` the
calibrated k_r in 1/1,024. Energies are kept in fJ; `statAt` is the cycle up to which static energy has been shared out. -/
structure Pwr where
  coef : List Nat
  /-- Writes of PWR_COEF_DATA since the last period: (KIND, VALUE), the last one for a KIND last. -/
  coefNew : List (Nat × Nat)
  stat : List Nat
  scale : List Nat
  partFj : List (Nat × Nat)
  sysFj : Nat
  pkgFj : Nat
  statAt : Nat
  /-- Dynamic energy of each rail since the last run of the cap loop, in fJ. -/
  railFj : List Nat
  /-- Readings of the die sensors, in order: 16 of CD0, 16 of CD1, 4 of HFD, 4 of FLD. -/
  sensors : List Sensor
  tDie : Int
  tHbm : Int
  /-- Stacks that run at a doubled refresh rate. -/
  hotRefresh : List Nat
  /-- Last valid poll of each rail: (rail, mW, cycle). -/
  polls : List (Nat × Nat × Nat)
  /-- Rails polled since TELEM_STALE was set. -/
  fresh : List Nat
  /-- Power of the rails at the previous sensor read. -/
  lastRail : List Nat
  /-- PWRBRK_N as accepted by the filter: since when, and whether BRK_STUCK has been reported. -/
  brk : Option (Nat × Bool)
  /-- Cycle at which every demand went below the level (R458). -/
  fallFrom : Option Nat
  /-- Last runs of the cap loop and of the thermal loop. -/
  tickAt : Nat
  thermAt : Nat
  /-- Estimates P of the last ms: (cycle, mW). -/
  recent : List (Nat × Nat)
  /-- Sums of the running second for PWR_CAL_STAT.ERR: its start, model, telemetry. -/
  errAcc : Nat × Nat × Nat
  /-- Droop trips of each island in its running 100 µs window: (island, window start, trips). -/
  trips : List (Nat × Nat × Nat)
  /-- Islands whose clock is stretched: (island, cycle of the trip). -/
  stretched : List (Nat × Nat)
  /-- Cycle of the last escalating window. -/
  lastEsc : Nat
  cal : Option CalRun
  /-- Rails turned off by a thermal trip; THERMTRIP_N. -/
  railsOff : Bool
  thermtrip : Bool
  /-- Setpoint raise in force on the AE rails, in mV, per die. -/
  raise : List (Nat × Nat)
  /-- PKG_LEVEL: since when the average has been below the lower edge of the level shown. -/
  pkgBelow : Option Nat
  /-- Last read of the sensors (R465), and last trip that TST_CASC_DROOP.TRIP_US has forced. -/
  sensedAt : Nat
  forcedAt : Nat
deriving DecidableEq, Repr

/-! ## Prefix index and cascade (chapter 6) -/

/-- A valid CAM row (R207): place, key, depth, the directory entry it names, and the cycle of its last hit. Every row is
written with every bit cared. -/
structure CamRow where
  die : Nat
  row : Nat
  fp : Nat
  sdom : Nat
  mprof : Nat
  pf : Nat
  depth : Nat
  dir : Nat
  hit : Nat
deriving DecidableEq, Repr

/-- A valid directory entry (Table 6.3) and its bucket and place in it. -/
structure DirEnt where
  bucket : Nat
  slot : Nat
  digest : Nat
  sdom : Nat
  mprof : Nat
  depth : Nat
  anchor : Nat
  apart : Nat
  epoch : Nat
  cam : Option (Nat × Nat)
  last : Nat
  hits : Nat
deriving DecidableEq, Repr

/-- An anchor (R215): page table, digest list, live depth; `forks` counts forks reading it, `trim` is its pending trim
(R385), `remote` holds the depths of its entries at other homes with the home's part ID. -/
structure Anchor where
  idx : Nat
  gen : Nat
  sdom : Nat
  mprof : Nat
  part : Nat
  ptes : List Pte
  digests : List Nat
  live : Nat
  forks : Nat
  trim : Option Nat
  remote : List (Nat × Nat)
  /-- Epoch its directory entries carry (Table 6.3). -/
  epoch : Nat
deriving DecidableEq, Repr

/-- A cursor (R226): the matches still to be returned; for a cascade cursor, its query and the depth limit of its next
round. -/
structure Cursor where
  slot : Nat
  gen : Nat
  ctx : Nat
  list : List Match
  casc : Option (Nat × Nat)
  until_ : Nat
deriving DecidableEq, Repr

/-- A lookup in progress: its digests as (digest, depth), verified hits and counts, the requests still unanswered with the
digests asked for, and whether it waits for a cascade round; `round` is the REQ of its CASC_QUERY. -/
structure Lookup where
  id : CmdId
  hits : List Match
  searched : Nat
  cam : Nat
  dir : Nat
  incomplete : Bool
  wait : List (Nat × Nat)
  query : List (Nat × Nat)
  casc : Bool
  round : Nat
  doneAt : Nat
deriving DecidableEq, Repr

/-- A publication in progress: its anchor, the (depth, digest) pairs still to insert, the deepest reference found in the
directory, the count created, and the batch that awaits its reply. -/
structure Publish where
  id : CmdId
  anchor : Nat
  depth : Nat
  todo : List (Nat × Nat)
  last : Option Match
  created : Nat
  batch : Option (Nat × Nat × List (Nat × Nat))
deriving DecidableEq, Repr

/-- A retirement that awaits the replies of other parts: (request, part). -/
structure Retiring where
  id : CmdId
  key : RetireKey
  wait : List (Nat × Nat)
  count : Nat
deriving DecidableEq, Repr

/-- Matches a member keeps for a query of another part (R245): sender, REQ, the depth limit of the next round, and until
when. -/
structure Kept where
  src : Nat
  req : Nat
  lim : Nat
  hits : List Match
  until_ : Nat
deriving DecidableEq, Repr

/-- The cascade port (R241 to R246): the position that holds PXC_CLM, the command this part runs a round for, whether this
part asserts PXC_RDY, the query of the running round (0: not yet known), the matches kept for other parts' queries, the
observed winner whose reference is awaited, and whether the claim is stuck. -/
structure Casc where
  owner : Option Nat
  cmd : Option CmdId
  rdy : Bool
  round : Nat
  kept : List Kept
  await : Bool
  stuck : Bool
  /-- Cycle at which PXC_CLM was last asserted or released. -/
  since : Nat
deriving DecidableEq, Repr

/-- PXI: the CAM with its multiple-match flag (R208), directory, anchors, cursors, the commands under way; `scans` holds the
retirements of poison scans that await a reply, as (request, anchor, home, depth), `fills` the INSERTs of home refills that do,
as (request, anchor, home, depths), and `cores` the times at which digest cores in use come free (R205). -/
structure Pxi where
  cam : List CamRow
  multi : Bool
  dir : List DirEnt
  anchors : List Anchor
  freshAnchor : Nat
  freedAnchors : List (Nat × Nat)
  cursors : List Cursor
  cursorGen : List (Nat × Nat)
  lookups : List Lookup
  pubs : List Publish
  retires : List Retiring
  scans : List (Nat × Nat × Nat × Nat)
  fills : List (Nat × Nat × Nat × List Nat)
  cores : List Nat
  nextReq : Nat
  casc : Casc
deriving DecidableEq, Repr

/-! ## Domain (chapter 10) -/

/-- A voter's promise: candidate, its rank, local time at which it ends. -/
structure Promise where
  cand : Nat
  until_ : Nat
deriving DecidableEq, Repr

/-- An election request this part has out: epoch, when sent, who granted, the highest epoch reported. -/
structure Election where
  epoch : Nat
  sentAt : Nat
  grants : List Nat
  highest : Nat
deriving DecidableEq, Repr

/-- An admission round (R376): its epoch, when it began, the members that confirmed it; those declared lost while it runs, which
its set leaves out (R377); whether the manager itself is admitted by it. -/
structure Admission where
  epoch : Nat
  start : Nat
  confirmed : List Nat
  lost : List Nat := []
  first : Bool := false
deriving DecidableEq, Repr

/-- A ROWS_REQ this part has out: for the rows of a fork from another part's anchor (R388), or, with `ask`, to learn what a
reference names (R217). -/
structure RowsReq where
  id : CmdId
  req : Nat
  ask : Bool
deriving DecidableEq, Repr

/-- A page being exported (R391): command, sequence and place of the PTE, local frame and version, receiving part. -/
structure Export where
  id : CmdId
  seq : Nat
  lpi : Nat
  layer : Nat
  head : Nat
  pfh : Nat
  ver : Nat
  peer : Nat
deriving DecidableEq, Repr

/-- The domain state beside the FXT_DOM registers. Times are always-on cycles of this part. -/
structure Dom where
  members : List Nat
  /-- Since when the part has been in its domain state. -/
  since : Nat
  attachedUntil : Nat
  leaseEnd : Nat
  promise : Option Promise
  /-- SEC's monotonic store (R375): highest epoch granted, per candidate; 256 stands for a candidate forgotten at reset. -/
  grants : List (Nat × Nat)
  /-- Requests held while a promise binds: (part, epoch, rank). -/
  held : List (Nat × Nat × Nat)
  /-- Highest epoch seen. -/
  seen : Nat
  election : Option Election
  /-- A voter grants nothing until then after POR or FUND. -/
  holdUntil : Nat
  /-- Sending time of the last heartbeat, and the voters that acknowledged it. -/
  hbAt : Nat
  hbAcks : List Nat
  /-- Last acknowledgement of each member. -/
  acked : List (Nat × Nat)
  admission : Option Admission
  /-- JOINs that wait for a round: (part, highest epoch reported). -/
  joins : List (Nat × Nat)
  mapVer : Nat
  /-- Registry entries that are not zero: (entry, bytes). -/
  registry : List (Nat × Nat)
  /-- Rows exchanges of forks in flight. -/
  rows : List RowsReq
  exports : List Export
  /-- Anchors pinned for a peer's fork: (peer, request, anchor handle). -/
  rowPins : List (Nat × Nat × Nat)
deriving DecidableEq, Repr

/-! ## Map journal (chapter 7) -/

/-- Content of a segment of the persistent map: anchors with their rows and digests, the frame records of the PERSIST frames
they name, bytes 2 to 15 of their profiles and the key inputs of their partitions (R287, R288: partition, PLABEL, KGEN,
K_set), as of the commit, and the inputs of the K_map it is encrypted under (Table 12.5). -/
structure MapSeg where
  anchors : List Anchor
  frames : List Frame
  profs : List Profile
  keys : List (Nat × Nat × Nat × Option Nat)
  kmap : Nat × Nat
  /-- The records of the table area (R309), in its segment. -/
  tables : List Table
deriving DecidableEq, Repr

/-- A bank of a segment with the trailer of Table 7.7. -/
structure MapBank where
  body : MapSeg
  seq : Nat
  length : Nat
  crc : Nat
deriving DecidableEq, Repr

/-- A bank of the root record: it holds the inputs of K_map and the number of segments. -/
structure RootBank where
  kmap : Nat × Nat
  segs : Nat
  seq : Nat
  length : Nat
  crc : Nat
deriving DecidableEq, Repr

/-- A commit under way (R284): its number and the segments it writes, each with the bank it goes to. -/
structure Commit where
  num : Nat
  segs : List (Nat × Nat × MapSeg)
deriving DecidableEq, Repr

/-- The persistent map on flash (R283 to R286): the banks of the segments, as (segment, bank, content), those of the root
record, as (bank, content), and the commit under way. A bank not listed has never been written. -/
structure Journal where
  banks : List (Nat × Nat × MapBank)
  roots : List (Nat × RootBank)
  busy : Option Commit
  /-- Cycle of the last JOURNAL_COMMIT. -/
  lastAt : Nat
deriving DecidableEq, Repr

/-! ## Lathe (chapter 9) and egress (chapter 11) -/

/-- What a message carries: data for a region with an immediate, a read request with the local place of the answer
(region or host memory, key, address), or a service message. -/
inductive Carry where
  | data (rkey : Word32) (off : Nat) (bytes : List Byte) (imm : Option Word32)
  | read (rkey : Word32) (off len : Nat) (isRegion : Bool) (lkey laddr : Nat)
  | svc (m : SvcMsg)
deriving DecidableEq, Repr

/-- A message that has not been acknowledged or failed (R337 to R342). `ctx` is its subscriber; `cmd` the command it is
of, with its admission number and firing; `hold` marks the final message of an RMA_WRITE_IMM; `left` counts packets that
have not left an interface. -/
structure TxMsg where
  dst : Nat
  msgid : Nat
  ctx : Nat
  cmd : Option CmdId
  adm : Nat
  firing : Nat
  hold : Bool
  pace : Bool
  carry : Carry
  sent : Bool
  left : Nat
  sentAt : Nat
  tries : Nat
  /-- First and latest BUSY_RETRY answer. -/
  busy : Option (Nat × Nat)
  /-- The RMA_FLUSH that covers it. -/
  cover : Option CmdId
  /-- Read requests: (offset, length) received. -/
  got : List (Nat × Nat)
deriving DecidableEq, Repr

/-- A destination-table entry (R339, R362): next MSGID, rate in kb/s (none: the starting rate), times of the last
decrease, of the last ECE or increase, turn over the interfaces, and the time at which the rate admits a further packet. -/
structure Dest where
  node : Nat
  next : Nat
  rate : Option Nat
  decAt : Nat
  quiet : Nat
  turn : Nat
  freeAt : Nat
deriving DecidableEq, Repr

/-- A duplicate-filter entry (R345). -/
structure DupEnt where
  src : Nat
  msgid : Nat
  st : Nat
  status : Nat
deriving DecidableEq, Repr

/-- A reassembly record (R346): (packet, bytes) placed, a CE mark seen, time of the last packet, first region offset. -/
structure Reasm where
  src : Nat
  msgid : Nat
  got : List (Nat × Nat)
  ece : Bool
  last : Nat
  first : Nat
deriving DecidableEq, Repr

/-- What EGS sends: a packet, or a service message to a part. -/
inductive EgsBody where
  | pkt (p : Packet)
  | svc (m : SvcMsg)
deriving DecidableEq, Repr

/-- A queued shaped packet: interface, subscriber, wire length, time it was queued, and the message it is of. -/
structure QPkt where
  iface : Nat
  sub : Nat
  len : Nat
  at_ : Nat
  dst : Nat
  msgid : Nat
  body : EgsBody
deriving DecidableEq, Repr

/-- Committed and peak buckets, in 1/1,500 byte, as of a cycle. -/
structure Bucket where
  c : Nat
  p : Nat
  upd : Nat
deriving DecidableEq, Repr

/-- Samples of a subscriber or service (R424). -/
structure Sample where
  depth : Nat
  delay : Nat
  sum : Nat
  count : Nat
deriving DecidableEq, Repr

/-- EGS. Buckets, deficits and turns are keyed by (interface, service or subscriber). -/
structure Egs where
  queue : List QPkt
  subs : List (Nat × EgsEntry)
  svcs : List (Nat × EgsEntry)
  subBk : List ((Nat × Nat) × Bucket)
  svcBk : List ((Nat × Nat) × Bucket)
  subDef : List ((Nat × Nat) × Nat)
  svcDef : List ((Nat × Nat) × Nat)
  subTurn : List ((Nat × Nat) × Nat)
  svcTurn : List (Nat × Nat)
  subSmp : List (Nat × Sample)
  svcSmp : List (Nat × Sample)
  /-- Cycle of the last samples. -/
  sampledAt : Nat
deriving DecidableEq, Repr

/-! ## Security (chapter 12) -/

/-- A bank of the SPI NOR: its image and the trailer of Table 7.7 (R432). -/
structure Bank where
  img : BankImage
  seq : Nat
  length : Nat
  crc : Nat
deriving DecidableEq, Repr

/-- The fuses (R430, R434, R449, R450): UDS (all ones once burned), the DeviceID key's modulus and private exponent (kept
encrypted under UDS), serial number, owner slots as (digest, enabled, revoked), revoked Ahnoon slots, STORAGE_EPOCH steps used. LIFECYCLE, JTAG, OWNER_SLOT, EPOCH_LEFT and
FW_MIN_SVN have their homes in the SEC registers. -/
structure Fuses where
  uds : Nat
  devN : Nat
  devD : Nat
  serial : Nat
  owners : List (Nat × Bool × Bool)
  ahnoonRevoked : List Nat
  epoch : Nat
deriving DecidableEq, Repr

/-- A TLS session on the management port (R452, R453): role 0 OBSERVE, 1 OPERATE, 2 OWNER; time of the last message. -/
structure Session where
  id : Nat
  role : Nat
  lastAt : Nat
deriving DecidableEq, Repr

/-- A bank write under way (R433): configuration or firmware. -/
structure Staging where
  isCfg : Bool
  written : Nat
deriving DecidableEq, Repr

/-- A receive secure association: its number, and the highest packet number accepted on it. -/
structure RxSa where
  an : Nat
  pn : Nat
deriving DecidableEq, Repr

/-- MACsec of an interface: its CAK, its MKA_REKEY in s, the number of the newest SAK this part distributed and when, the
transmit association and the last packet number sent on it, the live receive associations, newest last. -/
structure MacSec where
  iface : Nat
  cak : Nat
  rekeyS : Nat
  no : Nat
  at_ : Nat
  txAn : Nat
  txPn : Nat
  rx : List RxSa
deriving DecidableEq, Repr

/-- SEC. `ksets` are the device-set keys SEC opened at the mount: (set, key). `sealCtr` is the seal counter of this
incarnation (R447). -/
structure Sec where
  ksets : List (Nat × Nat)
  sealCtr : Nat
  fuses : Fuses
  /-- Boot ROM: Ahnoon root digests of slots 0 to 3 (R430) and the ROM's own digest. A digest is the number its bytes spell,
  byte 0 least significant. -/
  romRoots : List Nat
  romDigest : Nat
  /-- Banks A and B of firmware and of configuration (Table 15.7). -/
  fw : Option Bank × Option Bank
  cfg : Option Bank × Option Bank
  /-- A good configuration bank was chosen at boot (R432); SEC_STATUS.CFG_BANK says which. -/
  cfgOk : Bool
  /-- SEC has finished step 2 of Table 14.1. -/
  booted : Bool
  /-- Number of the alias key, K_sys and fresh secrets: advances at each POR and FUND (Table 12.3). -/
  keyNo : Nat
  /-- The current debug challenge (R451), and debug unlocked since POR. -/
  challenge : Nat
  debugSeen : Bool
  sessions : List Session
  /-- Handshakes in the running second: (start, count). -/
  hands : Nat × Nat
  /-- SPDM sessions by transport (R443). -/
  spdm : List Nat
  /-- IDE streams whose keys are set, with the bound requester ID (R441). -/
  ide : List (Nat × Option Nat)
  staging : Option Staging
  /-- MACsec of the interfaces that have a CAK (R330, R440). -/
  mka : List MacSec
  /-- Kernel variants whose signature has verified on a load (Table 12.11). -/
  verified : List Nat
  /-- Mounts and re-mounts since POR (Table 12.9). -/
  mounts : Nat
  /-- Management link seen down since. -/
  linkDown : Option Nat
  /-- Last poll of the management PHY. -/
  phyAt : Nat
deriving DecidableEq, Repr

/-! ## Bring-up and low power (chapter 14) -/

/-- A mount under way (Table 14.6): the BLANK_MOUNT or the management request (session, REQ) it completes, if any; the
blank; whether it is a re-mount, of which partitions; the step in progress; contexts that its step 8 brings UP. -/
structure Mount where
  cmd : Option CmdId
  mgmt : Option (Nat × Nat)
  img : Blank
  remount : Bool
  pmask : Nat
  step : Nat
  ups : List Nat
deriving DecidableEq, Repr

/-- Boot: HBM trained since POR, module identities read, the mount, requests that wait for its end (R442, R494). -/
structure Boot where
  trained : Bool
  linkUp : Bool
  modsRead : List Nat
  mount : Option Mount
  /-- Step 9 or 10 of Table 14.6, still owed by the last mount that completed. -/
  tail : Option Nat
  waitFlr : List Nat
  waitLock : List Nat
deriving DecidableEq, Repr

/-- Low-power entry and exit (R495, R496): the state being entered and since when; the state to enter after the exit under
way; the last TARGET written meanwhile; window and context operations deferred to the end of the exit as
(operation, function, context). -/
structure Pm where
  entering : Option (Nat × Nat)
  after : Option Nat
  held : Option Nat
  deferred : List (Nat × Nat × Nat)
  /-- READ_REQ packets that are answered after the exit (R497). -/
  reqs : List RxFrame
deriving DecidableEq, Repr

/-- Correctable errors of a core in its running window (R528): core, window start, count. -/
structure CoreErr where
  unit : Nat
  start : Nat
  count : Nat
deriving DecidableEq, Repr


/-! ## The groups of the state -/

/-- The host interface: half-access latches (R12), what has been sent, and the host-memory ranges whose ATS
translation fails (the outside world's, fixed by no command; R549). -/
structure HostIf where
  /-- (function, address of the upper half, latched value). -/
  latches : List (Nat × Nat × Word32)
  /-- (function, address of the lower half, held value). -/
  held : List (Nat × Nat × Word32)
  out : List Out
  /-- Writes of GLB_EXPERT_UNLOCK with a wrong KEY since FUND (R8). -/
  wrongKeys : Nat
  /-- (function, first address, last address). -/
  xlatFail : List (Nat × Nat × Nat)
  /-- A JTAG pin-control instruction has taken the pins, until POR (R518). -/
  pinsTaken : Bool
deriving DecidableEq, Repr

/-- QDB: queues, round-robin positions (R112) and the admission counter. -/
structure Qdb where
  wqs : List Wq
  cqs : List Cq
  eqs : List Eq
  rrCtx : Nat
  /-- Last queue served, per context. -/
  rrQ : List (Nat × Nat)
  admitted : Nat
  /-- Work queues whose context is held in the on-chip cache, most recent first (R113). -/
  qcache : List Nat
deriving DecidableEq, Repr

/-- Sequences, partitions and profiles. `top` is the first record index that no partition has had yet; `pool` holds indices
given back by partitions, with the generations they are next issued under, and `spare` ranges given back unissued. -/
structure Seqs where
  recs : List SeqRec
  parts : List Part
  profiles : List Profile
  top : Nat
  pool : List (Nat × Nat)
  spare : List (Nat × Nat)
deriving DecidableEq, Repr

/-- TIER, HBM and FLS. `credit` counts 1/(15 × 10^6) bytes (R277). -/
structure Tiers where
  frames : List Frame
  credit : Int
  /-- Uncorrectable errors per pseudo-channel since POR (R282). -/
  pcErrors : List (Nat × Nat)
  /-- Programs that run on for frames already freed (R265), by frame handle. -/
  zombie : List (Nat × FlashCopy)
  modules : List FlashMod
  /-- Stripes with programmed chunks, and the (group, erase block) pairs marked for the cleaner (R273, R279). -/
  stripes : List Stripe
  marked : List (Nat × Nat)
  /-- Failed ONFI targets (channel, target) (R280). -/
  failedTargets : List (Nat × Nat)
  /-- References to give back to peer parts, until acknowledged: (part, frames) (R265, R393). -/
  owed : List (Nat × List Nat)
deriving DecidableEq, Repr

/-- Attention: executing ATTENDs and chunks, plans, the hot set and the lease table. -/
structure Attn where
  atts : List Att
  chunks : List Chunk
  ents : List PlanEnt
  plans : List Plan
  hot : List HotSlot
  /-- Profiles whose hot-set load is under way. -/
  loading : List Nat
  leases : List Lease
  /-- Generation a lease slot takes when next issued: (slot, generation). -/
  leaseGen : List (Nat × Nat)
deriving DecidableEq, Repr

/-- The table store: two copies of its records in different system channel groups, the loaded sets, and the IDs of the decode
tables each AE's expander holds (R309, R310). The flash table area is a segment of the journal. -/
structure Tables where
  tables : List Table
  copyB : List Table
  sets : List TableSet
  expander : List (Nat × List Nat)
deriving DecidableEq, Repr

/-- FXT: regions and their HBM bytes (key: index × 2^32 + offset; unlisted bytes are zero, R350), trigger counters. -/
structure Fabric where
  regions : List Region
  mem : List (Nat × Byte)
  /-- Region indices never issued start here; freed ones with the generation they are next issued under (R351). -/
  freshRegion : Nat
  freedRegions : List (Nat × Nat)
  /-- Trigger counters that are not 0: (number, value) (R360). -/
  trig : List (Nat × Nat)
  /-- The endpoint table: entries that are not zero (R335). -/
  eps : List (Nat × Word512)
  msgs : List TxMsg
  dests : List Dest
  /-- Destinations in the cache, most recent first (R339). -/
  cached : List Nat
  /-- Source table: (node, INC, LOW_seen) (R344). -/
  sources : List (Nat × Nat × Nat)
  /-- Duplicate filter, oldest first. -/
  filter : List DupEnt
  reasm : List Reasm
  /-- First failure of uncovered writes: (queue, node, status) (R342, R359). -/
  lost : List (Nat × Nat × Nat)
  /-- Priorities paused by PFC: (interface, priority). -/
  paused : List (Nat × Nat)
  /-- Test perturbation (R537): packets seen per direction, and the packet held back. -/
  tstRx : Nat
  tstTx : Nat
  tstHeld : Option RxFrame
  tstOut : Option (Nat × Packet)
  /-- WR_ARM pairs armed so far. -/
  armCount : Nat
deriving DecidableEq, Repr


/-- The state of the block. -/
structure State where
  /-- Commands waiting, first in, first out. -/
  pending : List Instr
  /-- GLB_FABRIC_CYCLES: always-on cycles since POR (R28). -/
  cycles : Nat
  /-- Register fields that do not hold their reset value: (key of the field instance, value), keys rising. -/
  regs : List (Nat × Nat)
  /-- MODEL'S OWN: argument of the next free value (log entry 2). -/
  free : Nat
  /-- A device-level error has stopped the part: no command is accepted until FUND (R24, R534). -/
  dead : Bool
  host : HostIf
  qdb : Qdb
  cmds : List Cmd
  ctxs : List Ctx
  seq : Seqs
  tier : Tiers
  att : Attn
  tab : Tables
  fxt : Fabric
  /-- Remainders of counters that are kept in units: (key of the field, count below one unit). -/
  rem : List (Nat × Nat)
  /-- The blank in force, if one is mounted (chapter 14). -/
  blank : Option Blank
  sch : Sched
  pwr : Pwr
  pxi : Pxi
  dom : Dom
  /-- The domain secret SEC opened at the mount (Table 12.3). -/
  dss : Option Nat
  jrnl : Journal
  egs : Egs
  sec : Sec
  boot : Boot
  pm : Pm
  ras : List CoreErr
deriving DecidableEq, Repr

/-- MODEL. Every happening the manual describes has an effect on the state, and an error it describes is that effect (a
status, an event, a stopped queue, a part that takes no further command). No meaning raises this fault; a step answers it
never. Safe. -/
inductive Fault where
  | none
deriving DecidableEq, Repr

/-- Reasons for which a command has no meaning. -/
inductive Refusal where
  /-- Raised by the dispatch alone, for a command whose meaning is not written. Safe. -/
  | notModelled (mnemonic : String)
deriving DecidableEq, Repr

/-! ## The state after reset

Groups at their reset values. POR and FUND build on them too (chapter 14); what they carry over is said there. -/

def HostIf.reset : HostIf :=
  { latches := [], held := [], out := [], wrongKeys := 0, xlatFail := [], pinsTaken := false }

def Qdb.reset : Qdb := { wqs := [], cqs := [], eqs := [], rrCtx := 0, rrQ := [], admitted := 0, qcache := [] }

def Seqs.reset : Seqs := { recs := [], parts := [], profiles := [], top := 1, pool := [], spare := [] }

def Tiers.reset : Tiers :=
  { frames := [], credit := 0, pcErrors := [], zombie := [], modules := [], stripes := [], marked := [],
    failedTargets := [], owed := [] }

def Attn.reset : Attn :=
  { atts := [], chunks := [], ents := [], plans := [], hot := [], loading := [], leases := [], leaseGen := [] }

def Tables.reset : Tables := { tables := [], copyB := [], sets := [], expander := [] }

def Fabric.reset : Fabric :=
  { regions := [], mem := [], freshRegion := 1, freedRegions := [], trig := [], eps := [], msgs := [], dests := [],
    cached := [], sources := [], filter := [], reasm := [], lost := [], paused := [], tstRx := 0, tstTx := 0,
    tstHeld := none, tstOut := none, armCount := 0 }

def Sched.reset : Sched := { groups := [], lastVt := [], ramp := [] }

/-- PWR at cycle `now`: coefficients of Table 13.4; the static terms have no reset value in the manual and are zero
(DESIGN CHOICE, log entry 3). -/
def Pwr.reset (now : Nat) : Pwr :=
  { coef := [312000, 195000, 12500, 1800, 90000, 5000, 4000], coefNew := [], stat := List.replicate 8 0, scale := List.replicate 8 1024,
    partFj := [], sysFj := 0, pkgFj := 0, statAt := now, railFj := List.replicate 8 0,
    sensors := List.replicate 40 { last := 0, same := 0, failed := false },
    tDie := 0, tHbm := 0, hotRefresh := [], polls := (List.range 8).map fun r => (r, 0, now), fresh := [],
    lastRail := List.replicate 8 0, brk := none, fallFrom := none, tickAt := now, thermAt := now, recent := [],
    errAcc := (now, 0, 0), trips := [], stretched := [], lastEsc := now, cal := none, railsOff := false,
    thermtrip := false, raise := [], pkgBelow := none, sensedAt := now, forcedAt := now }

def Casc.reset : Casc :=
  { owner := none, cmd := none, rdy := false, round := 0, kept := [], await := false, stuck := false, since := 0 }

def Pxi.reset : Pxi :=
  { cam := [], multi := false, dir := [], anchors := [], freshAnchor := 1, freedAnchors := [], cursors := [],
    cursorGen := [], lookups := [], pubs := [], retires := [], scans := [], fills := [], cores := [], nextReq := 1, casc := Casc.reset }

/-- The domain state at cycle `now`, with SEC's monotonic store. -/
def Dom.reset (now : Nat) (grants : List (Nat × Nat)) : Dom :=
  { members := [], since := now, attachedUntil := 0, leaseEnd := 0, promise := none, grants := grants, held := [],
    seen := 0, election := none, holdUntil := 0, hbAt := now, hbAcks := [], acked := [], admission := none, joins := [],
    mapVer := 0, registry := [], rows := [], exports := [], rowPins := [] }

def Journal.reset : Journal :=
  { banks := [], roots := [], busy := none, lastAt := 0 }

def Egs.reset : Egs :=
  { queue := [], subs := [], svcs := [], subBk := [], svcBk := [], subDef := [], svcDef := [], subTurn := [],
    svcTurn := [], subSmp := [], svcSmp := [], sampledAt := 0 }

/-- Numbers written in parts of 800 bits, the most significant first. -/
def joinParts (l : List Nat) : Nat := l.foldl (fun a p => a * 2 ^ 800 + p) 0

/-- Modulus of the DeviceID key a part is made with (DESIGN CHOICE, log entry 3). -/
def deviceModulus : Nat := joinParts [
  0xde3a7b119dd69cb72308058217334c147267e69527d38045f82ef80e9cbaeedc0cf1898271729a4f25927eb03ef9193cb567c630ecdd35c72c002f87ed76b073d5e8ff0ede446f539725ac7246a80359694fd4d9,
  0xfe373a4a16274f2876d1abae2287e6c1501786620715a696ac9725aa6e4cdd1368eb5fd872eee237d5de82c3b163e1d3e0ac5ab457072bb160cf6dfa4383cbb4ea1ac534776c58b2fd20b9f981dd329836b369c8618cdeb2f7cc044667c7efa70e0a388c,
  0xd5e2eec2ab434281f480dbc52eec24b5c67409bef680893c2818002087b56de09d963d423c56fe525e5435e4575ac6b4e1ac3381dbe4418759973eeba3afb079478572ce2f444d46bc656ab6706b2ec1b1ddcaaca825ba5756a37c88a9e7cb921a24ed8b,
  0x750e9711e34cc0b29b78c32df08f32b360023313e6b2d118d6d4344ec1e3c88ec134b407808f602130eb403cd41140668921451b3f7e8867c66b8f668ee2ef001761519d5e335823e69f7a76b2b4be20804911ad22d6b6d535c6a687bc5415452cc55d69]

/-- Its private exponent. -/
def deviceExponent : Nat := joinParts [
  0xa9b5dd80919a70ea070dbc2f220aa1c247b0834e4b30e1180e35c868585705ccf4f18c831aa25ba7afd8d579414e3870bd54b7ed6b2670485f98f0b38cac848aa1c4a2ec36dfea68dad8017eefe8a54e25f7ba64,
  0x941897223712e407d1ddc38f637d87c2ffa8478f1b3bf491c2d2570875ddab43846fa42d877059402ccb15efdecb998d9659e99729932751f9cdcf7e3d0b2c8947f313c142a67282967ee4a7dffe0e02625bd7a018a75cf72df81717b16fe5dc1d03bf36,
  0x6ad9c8afc018c8a87522185f50f37fbf81e8113a9c4384d2cb1052535d50eac2bb7fb7ab952a827779da87b640d5b306983e9e8f16b88f977e9078fca7a2bd00908bba1eb5125ffc6f41f9f5d505ad982eb69cf14205510623d77d5143bdb2c69b1193f,
  0x298ac4688539773b72c9cd7ddf93a87ca249a20a866260f7e2f4141d586936a602580c751911c55f559a57b7cbeadc9675e88860fca2cd3b26248ccb7c3d38b81f80fef01a1368f441d19de9bf5fae4aa7c506c0ef64bba408b995462901a0ce511de745]

/-- Signature block of the firmware a part is delivered with (DESIGN CHOICE, log entry 3). -/
def deliveredBlock : Nat := joinParts [
  0xd8d8cc4093bff9dc69de927035049409cc4c6c1ab415323429eae3804384b291d7cd7209022602dad9f1367fc2862dbf66ff2e3ff84e12ddeec79008e32fd2e51670f4998bbf5fb7fb6101670207b87bf6c8b890d2a96d87904dfd51ad674911c9b8bf6f,
  0x8933da83584f045ce8a98b95bf6968173b9d99f38660963595fc411914adc2d92536ccb2795ea1c3713bcdf1bc4112298a039e6810156069e1898a88bd25c85ef70106dc8040752ffa5f79c0d52f62a9f329a93c25a58d92f78510ce05d5d22d354be69a,
  0xf09d06ebdba91e0d413506c9eea097a0d23a1c5f826423496d31e783e008303e5cfc644468846c599411921f8e25efe5e74d40284fd24145bc4ddfac71056bf2054aa145579b0e2b937bf311593d8b8a0c193cf4e5d1c82a85391e9b44cc7cfb2b23bafb,
  0x52f93a1e5ebf302664be41730893a439316205b2715b16bd2e5e359cf9aa369c1f381aff77f3b831e9263b9a00f50958430ebee7aa4e39634effd9a9712b3c0b45ace43ac4105a72cc14bf10e73249ab81d1386e00000000000000000000000001000100,
  0x1ff8469e1d0a754a21d4c09166a9798d3ff9f293c107172a4631daf0776e38d55217bad6662f065073857566dc62dcec7c345d1eabee827cbed46c411dc74e2594576c9af68413e6c27f9c05859f84f4a065bb3de11459036b5c35121406727cb9449e7c,
  0xfb04dc643c8d3ac2bf7b2611ee0849e7d0725b7aab6956248a12c1b673b46a4427ed016ee6141a26343d253f118378665278cdcec5e9f54b873bd9b1459f11d33b3c651b86ac58efc33f9d40734c833a403e4fbbbf42d4c9d935b43a622edc991ddb75df,
  0x44f9e739c3a423edb75168d7b55c5d39612880ef9dab481b1e7f966dc31c736b5673a5a03a23504f816828b233f535cd4ab14eed41b98d327e40f3fbb242a0612864fc5ff3938c43edeb4d377b9c77d2f28ecc9a2993029ec799a6670580945d139c6eb9,
  0x43c1151836df9bec87c68d441a4c459b3fa4c4f59b820afbe6a365f7e88029b68023d500bb6509f3b3d4ec428c6d26836df6249a6201f1c821a02b1c2398a54760213883d57bcc73e62e24e14a5ef6f3033350a900000000000000000000000000000001]

/-- Fuses as provisioned: owner slot 0 enabled. Their contents are not in the manual (DESIGN CHOICE, log entry 3). -/
def Fuses.reset : Fuses :=
  { uds := 0, devN := deviceModulus, devD := deviceExponent, serial := 0,
    owners := [(0xea15ba3c1232342213fd90040660ca4d4ac856cc360e052788ad2a5114236fc5, true, false), (0, false, false),
      (0, false, false), (0, false, false)],
    ahnoonRevoked := [], epoch := 0 }

/-- The firmware image the part is delivered with: 17 bytes, signed by Ahnoon (DESIGN CHOICE, log entry 3). -/
def deliveredFw : BankImage :=
  { obj := ⟨[89, 88, 71, 45, 55, 49, 48, 48, 32, 102, 105, 114, 109, 119, 97, 114, 101], deliveredBlock⟩ }

/-- CRC-32C of that image and of its bank's SEQ 1 and LENGTH. -/
def deliveredCrc : Nat := 0x205b46c9

/-- SEC before boot: SPI NOR holds firmware in bank A and no configuration. -/
def Sec.reset : Sec :=
  { ksets := [], sealCtr := 0, fuses := Fuses.reset
    romRoots := [0x4b1cd8faecaf82076aba57baa471121d5f1f5decef49bada424c54f5bcf564d8, 0, 0, 0], romDigest := 0
    fw := (some ⟨deliveredFw, 1, 817, deliveredCrc⟩, none), cfg := (none, none), cfgOk := false,
    booted := false, keyNo := 0, challenge := 0, debugSeen := false, sessions := [], hands := (0, 0), spdm := [], ide := [],
    staging := none, mka := [], verified := [], mounts := 0, linkDown := none, phyAt := 0 }

def Boot.reset : Boot :=
  { trained := false, linkUp := false, modsRead := [], mount := none, tail := none, waitFlr := [], waitLock := [] }

def Pm.reset : Pm := { entering := none, after := none, held := none, deferred := [], reqs := [] }

/-- The part held in POR: every register at its reset value, nothing booted. EPOCH_LEFT shows the 32 unused fuse steps
(R450). POR releases it. -/
def State.reset : State :=
  { pending := [], cycles := 0, regs := [(F.SEC_STATUS_EPOCH_LEFT.key 0 0, 32)], free := 0, dead := false,
    host := HostIf.reset, qdb := Qdb.reset, cmds := [], ctxs := [], seq := Seqs.reset, tier := Tiers.reset,
    att := Attn.reset, tab := Tables.reset, fxt := Fabric.reset, rem := [], blank := none,
    sch := Sched.reset, pwr := Pwr.reset 0, pxi := Pxi.reset, dom := Dom.reset 0 [], dss := none, jrnl := Journal.reset,
    egs := Egs.reset, sec := Sec.reset, boot := Boot.reset, pm := Pm.reset, ras := [] }

end Sys2Proof.Machine
end

