-- ==== Sys2Proof/Machine/Flags.lean ====
section
/-! DEFINITION. Codes and flags: the status codes of Table 3.6, page states, event types, and the PHASE bit of a
ring (R80). -/

namespace Sys2Proof.Machine

/-! Status codes (R99, Table 3.6). -/
def St.ok : Nat := 0x00
def St.okPartial : Nat := 0x01
def St.okEmpty : Nat := 0x02
def St.badOpcode : Nat := 0x20
def St.badField : Nat := 0x21
def St.badHandle : Nat := 0x22
def St.lengthLimit : Nat := 0x23
def St.accessDenied : Nat := 0x24
def St.nonfinite : Nat := 0x25
def St.recomputeRequired : Nat := 0x40
def St.recomputePending : Nat := 0x41
def St.noSpace : Nat := 0x42
def St.busyRetry : Nat := 0x43
def St.regionRevoked : Nat := 0x44
def St.peerUnreachable : Nat := 0x45
def St.domainReadOnly : Nat := 0x46
def St.timeout : Nat := 0x47
def St.cancelled : Nat := 0x48
def St.tileCheckFail : Nat := 0x60
def St.tileShort : Nat := 0x61
def St.tileLong : Nat := 0x62
def St.mediaUncorrectable : Nat := 0x63
def St.memoryAuthFail : Nat := 0x64
def St.sealMismatch : Nat := 0x65
def St.contextFaulted : Nat := 0x80
def St.signatureInvalid : Nat := 0x81
def St.deviceError : Nat := 0xF0

/-- A status of the class in which a trigger advances (R158): 0x00 to 0x1F. -/
def St.isOk (st : Nat) : Bool := st ≤ 0x1F

/-! ## Opcodes (Table 3.4) -/

def Op.seqOpen : Nat := 0x01
def Op.seqFork : Nat := 0x02
def Op.seqClose : Nat := 0x03
def Op.kvAppend : Nat := 0x04
def Op.fence : Nat := 0x05
def Op.hint : Nat := 0x06
def Op.statsRead : Nat := 0x07
def Op.stepPlan : Nat := 0x10
def Op.attend : Nat := 0x11
def Op.pagesDeliver : Nat := 0x18
def Op.pagesPlace : Nat := 0x19
def Op.pagesDrop : Nat := 0x1A
def Op.prefixLookup : Nat := 0x20
def Op.pxiNext : Nat := 0x21
def Op.prefixPublish : Nat := 0x22
def Op.prefixRetire : Nat := 0x23
def Op.tableLoad : Nat := 0x28
def Op.regionRegister : Nat := 0x30
def Op.regionRevoke : Nat := 0x31
def Op.rmaWrite : Nat := 0x32
def Op.rmaWriteImm : Nat := 0x33
def Op.rmaRead : Nat := 0x34
def Op.rmaFlush : Nat := 0x35
def Op.wrArm : Nat := 0x36
def Op.blankMount : Nat := 0x3F

/-! Event types (Table 3.9). -/
def Ev.queueStopped : Nat := 1
def Ev.contextTornDown : Nat := 2
def Ev.pageRepublished : Nat := 3
def Ev.throttleChanged : Nat := 4
def Ev.domainState : Nat := 5
def Ev.stagingSlice : Nat := 6
def Ev.deviceEvent : Nat := 7

/-- The PHASE bit of the record at free-running index `wi` of a ring of `entries`: 1 in the first pass, then
alternating (R80). -/
def phaseBit (wi entries : Nat) : Nat := if (wi / entries) % 2 = 0 then 1 else 0

/-- Modulus of free-running ring indices (R79). -/
def two32 : Nat := 4294967296

/-- Code of a page state (Table 7.2). -/
def pgCode : PgState → Nat
  | .empty => 0 | .writing => 1 | .dirtyT1 => 2 | .cleanT1 => 3 | .t2Only => 4
  | .promoting => 5 | .demoting => 6 | .dropped => 7 | .poisoned => 8

/-- A page is unavailable when DROPPED or POISONED (chapter 5). -/
def pgUnavailable : PgState → Bool
  | .dropped => true | .poisoned => true
  | .empty => false | .writing => false | .dirtyT1 => false | .cleanT1 => false
  | .t2Only => false | .promoting => false | .demoting => false

/-- Status a page's failed copy gives the command whose own read found it (R325). -/
def failStatus : FailKind → Nat
  | .hcrc => St.tileCheckFail | .tag => St.memoryAuthFail | .check => St.tileCheckFail
  | .short => St.tileShort | .long => St.tileLong | .hbm => St.memoryAuthFail

end Sys2Proof.Machine
end

