-- ==== Sys2Proof/Machine/Ops.lean ====
section
/-! DEFINITION. The named operations over the state: sparse data, register fields, memory, completion records, events,
messages, command life. Every meaning is written over these. -/

namespace Sys2Proof.Machine

/-! ## Sparse data in canonical form -/

/-- The value at key `k`; an unlisted key holds `d`. -/
def spGet {α : Type} (d : α) : List (Nat × α) → Nat → α
  | [], _ => d
  | (a, v) :: t, k => if a = k then v else spGet d t k

/-- Put an entry in its place by key. -/
def spIns {α : Type} (k : Nat) (v : α) : List (Nat × α) → List (Nat × α)
  | [] => [(k, v)]
  | p :: t => if k < p.1 then (k, v) :: p :: t else p :: spIns k v t

/-- Store `v` at key `k`, keys rising; storing the unlisted value `d` removes the entry. -/
def spSet {α : Type} [DecidableEq α] (d : α) (l : List (Nat × α)) (k : Nat) (v : α) : List (Nat × α) :=
  let r := l.filter fun p => p.1 != k
  if v = d then r else spIns k v r

/-- Every key of the list is above `b`. -/
def spAbove {α : Type} (b : Nat) (l : List (Nat × α)) : Bool := l.all fun p => b < p.1

/-- Canonical form: keys strictly rising, no entry equal to the unlisted value. -/
def spWf {α : Type} [DecidableEq α] (d : α) : List (Nat × α) → Bool
  | [] => true
  | (a, v) :: t => (v ≠ d) && spAbove a t && spWf d t

/-- Write bytes from offset `a` on. -/
def memWrite (m : List (Nat × Byte)) (a : Nat) : List Byte → List (Nat × Byte)
  | [] => m
  | b :: t => memWrite (spSet 0 m a b) (a + 1) t

/-- Read `n` bytes from offset `a` on. -/
def memRead (m : List (Nat × Byte)) (a n : Nat) : List Byte :=
  (List.range n).map fun i => spGet 0 m (a + i)

/-- Zero the bytes at offsets that satisfy `p`. -/
def memZero (m : List (Nat × Byte)) (p : Nat → Bool) : List (Nat × Byte) := m.filter fun c => !p c.1

/-- Apply `f` to the entries that satisfy `p`. -/
def updIf {α : Type} (l : List α) (p : α → Bool) (f : α → α) : List α :=
  l.map fun x => if p x then f x else x

/-- The smallest number from 1 that is not in `used`. -/
def firstUnused (used : List Nat) : Nat :=
  ((List.range (used.length + 1)).map (· + 1)).find? (fun n => !used.contains n) |>.getD 1

/-- A number as `n` little-endian bytes (R9). -/
def leBytes : Nat → Nat → List Byte
  | 0, _ => []
  | n + 1, v => BitVec.ofNat 8 v :: leBytes n (v / 256)

/-- The little-endian number of a list of bytes. -/
def leNat : List Byte → Nat
  | [] => 0
  | b :: t => b.toNat + 256 * leNat t

/-- Bytes `off .. off + n - 1` of a list; missing bytes are zero. -/
def bytesAt (l : List Byte) (off n : Nat) : List Byte :=
  let t := (l.drop off).take n
  t ++ List.replicate (n - t.length) 0

/-- Little-endian field of `n` bytes at `off`. -/
def leAt (l : List Byte) (off n : Nat) : Nat := leNat (bytesAt l off n)

/-! ## Register fields -/

/-- Current value of field `f`, instance `i`, context `c` (window fields). -/
def State.fld (s : State) (f : Fld) (i : Nat := 0) (c : Nat := 0) : Nat := spGet f.rst s.regs (f.key i c)

/-- Set field `f` to `v` (its low bits). -/
def State.setFld (s : State) (f : Fld) (v : Nat) (i : Nat := 0) (c : Nat := 0) : State :=
  { s with regs := spSet f.rst s.regs (f.key i c) (v % 2 ^ f.width) }

/-- Add `n` to a counter field: it saturates or wraps as its table says. -/
def State.bump (s : State) (f : Fld) (n : Nat := 1) (i : Nat := 0) (c : Nat := 0) : State :=
  let v := s.fld f i c + n
  s.setFld f (if f.sat then min v (2 ^ f.width - 1) else v) i c

/-- Add `n` to a counter kept in units of `u`, holding the remainder. -/
def State.bumpUnits (s : State) (f : Fld) (u n : Nat) : State :=
  let r := spGet 0 s.rem (f.key 0 0) + n
  { (s.bump f (r / u)) with rem := spSet 0 s.rem (f.key 0 0) (r % u) }

/-- Return every field that `keep` does not protect to its reset value. -/
def State.clearFields (s : State) (keep : Fld → Nat → Bool) : State :=
  { s with regs := s.regs.filter fun p => match fldOfKey p.1 with
      | some (f, c) => keep f c
      | none => true }

/-! ## Time -/

/-- Always-on cycles per microsecond (R28: 1.5 GHz). -/
def cyclesPerUs : Nat := 1500

/-- Always-on cycles of n ns, rounded up. -/
def nsToCycles (n : Nat) : Nat := (3 * n + 1) / 2

/-- A timed happening: the clock stands at least at its deadline (log entry 5). -/
def State.reach (s : State) (t : Nat) : State := { s with cycles := max s.cycles t }

/-- The argument of the next free value. -/
def State.nextFree (s : State) : State := { s with free := s.free + 1 }

/-- Throttle level in force (Table 13.6). -/
def State.level (s : State) : Nat := s.fld F.PWR_STATUS_LEVEL

/-! ## Low-power states as others see them (R495 to R498) -/

/-- Resting in HOLD or PARK, or leaving a low-power state. -/
def State.asleep (s : State) : Bool :=
  let t := s.fld F.GLB_PM_STAT_STATE
  t == 2 || t == 3 || t == 5

/-- A wake event: an exit starts from IDLE, HOLD or PARK and its cause is recorded (R498). -/
def State.wakeUp (s : State) (bit : Nat) : State :=
  let t := s.fld F.GLB_PM_STAT_STATE
  if t = 1 ∨ t = 2 ∨ t = 3 then
    { ((s.setFld F.GLB_PM_STAT_STATE 5).setFld F.GLB_PM_STAT_WAKE (2 ^ bit)) with pm := { s.pm with after := none } }
  else s

/-- A doorbell or context-window queue write ends IDLE, and HOLD or PARK while WAKE_DB is 1. -/
def State.wakeDb (s : State) : State :=
  if s.fld F.GLB_PM_STAT_STATE = 1 ∨ s.fld F.GLB_PM_CTL_WAKE_DB = 1 then s.wakeUp 0 else s

/-- A fabric arrival ends IDLE; a refused message ends HOLD or PARK while WAKE_FABRIC is 1. -/
def State.wakeFab (s : State) : State :=
  if s.fld F.GLB_PM_STAT_STATE = 1 ∨ s.fld F.GLB_PM_CTL_WAKE_FABRIC = 1 then s.wakeUp 1 else s

/-- An entry to a low-power state waits for a mount or a staging switch before fetching stops. -/
def State.entryWaits (s : State) : Bool := s.boot.mount.isSome || s.sch.groups.any fun g => g.phase != 0

/-! ## What leaves the block -/

def State.setHost (s : State) (f : HostIf → HostIf) : State := { s with host := f s.host }

/-- A 64-bit access of function `f` to the register at `a` discards what was latched or held for it there (R12). -/
def State.dropHalves (s : State) (f a : Nat) : State :=
  s.setHost fun h => { h with latches := h.latches.filter (fun l => l.1 != f || l.2.1 != a + 4),
                              held := h.held.filter fun l => l.1 != f || l.2.1 != a }

/-- R13: count a misaligned or narrow access. -/
def State.badAccess (s : State) (off bytes : Nat) : State :=
  let s := if bytes < 4 then s.bump F.RAS_ACCESS_ERR_NARROW else s
  if bytes ≠ 0 ∧ off % bytes ≠ 0 then s.bump F.RAS_ACCESS_ERR_MISALIGNED else s

/-- Is an access well formed (R10, R13)? -/
def accessOk (off bytes : Nat) : Bool := (bytes == 4 || bytes == 8) && off % bytes == 0


def State.emit (s : State) (o : Out) : State := { s with host := { s.host with out := s.host.out ++ [o] } }

/-- Does the ATS translation of `len` bytes at `a` of function `f` succeed? (R104, R549) -/
def State.xlatOk (s : State) (f a len : Nat) : Bool :=
  !(s.host.xlatFail.any fun r => r.1 == f && decide (r.2.1 < a + len) && decide (a ≤ r.2.2))

/-! ## Look-up -/

def State.ctx? (s : State) (c : Nat) : Option Ctx := s.ctxs.find? fun x => x.r.ctx == c
def State.cmd? (s : State) (c : CmdId) : Option Cmd := s.cmds.find? fun x => x.id == c
def State.wq? (s : State) (q : Nat) : Option Wq := s.qdb.wqs.find? fun x => x.q == q
def State.cq? (s : State) (i : Nat) : Option Cq := s.qdb.cqs.find? fun x => x.id == i
def State.eq? (s : State) (c : Nat) : Option Eq := s.qdb.eqs.find? fun x => x.ctx == c
def State.prof? (s : State) (m : Nat) : Option Profile := s.seq.profiles.find? fun x => x.mprof == m
def State.part? (s : State) (p : Nat) : Option Part := s.seq.parts.find? fun x => x.r.part == p
def State.frame? (s : State) (p : Nat) : Option Frame := s.tier.frames.find? fun x => x.pfh == p
def State.funcOf (s : State) (c : Nat) : Nat := ((s.ctx? c).map (·.r.func)).getD 0

/-- A handle's number: index and generation (R37). -/
def SeqRec.handle (r : SeqRec) : Nat := r.idx + r.gen * 268435456

/-- The record a handle names: its index not FREE and its generation current (R39). -/
def State.seqOf? (s : State) (h : Nat) : Option SeqRec :=
  s.seq.recs.find? fun r => r.idx == h % 268435456 && r.gen == h / 268435456 % 16

def State.setCmd (s : State) (c : CmdId) (f : Cmd → Cmd) : State :=
  { s with cmds := updIf s.cmds (fun x => x.id == c) f }
def State.setCtx (s : State) (c : Nat) (f : Ctx → Ctx) : State :=
  { s with ctxs := updIf s.ctxs (fun x => x.r.ctx == c) f }
def State.setStats (s : State) (c : Nat) (f : Stats → Stats) : State :=
  s.setCtx c fun x => { x with stats := f x.stats }
def State.setWq (s : State) (q : Nat) (f : Wq → Wq) : State :=
  { s with qdb := { s.qdb with wqs := updIf s.qdb.wqs (fun x => x.q == q) f } }
def State.setCq (s : State) (i : Nat) (f : Cq → Cq) : State :=
  { s with qdb := { s.qdb with cqs := updIf s.qdb.cqs (fun x => x.id == i) f } }
def State.setEq (s : State) (c : Nat) (f : Eq → Eq) : State :=
  { s with qdb := { s.qdb with eqs := updIf s.qdb.eqs (fun x => x.ctx == c) f } }
def State.setSeq (s : State) (idx : Nat) (f : SeqRec → SeqRec) : State :=
  { s with seq := { s.seq with recs := updIf s.seq.recs (fun x => x.idx == idx) f } }
def State.setPart (s : State) (p : Nat) (f : Part → Part) : State :=
  { s with seq := { s.seq with parts := updIf s.seq.parts (fun x => x.r.part == p) f } }
def State.setFrame (s : State) (p : Nat) (f : Frame → Frame) : State :=
  { s with tier := { s.tier with frames := updIf s.tier.frames (fun x => x.pfh == p) f } }

/-! ## Saturating statistics (Table 11.6: every counter but INTERVAL saturates) -/

def sat64 (n : Nat) : Nat := min n (2 ^ 64 - 1)
def sat32 (n : Nat) : Nat := min n (2 ^ 32 - 1)

/-- Energy of `n` activities of kind `kind` on rail `rail`, in fJ (R476). -/
def State.energyOf (s : State) (kind rail n : Nat) : Nat := s.pwr.coef.getD kind 0 * n * s.pwr.scale.getD rail 1024 / 1024

/-- Charge energy to a context and to its partition's counter; what belongs to no context accrues to the system's (R476, R477). -/
def State.addEnergy (s : State) (c fj : Nat) : State :=
  match s.ctx? c with
  | none => { s with pwr := { s.pwr with sysFj := s.pwr.sysFj + fj } }
  | some x => { (s.setStats c fun y => { y with energy := y.energy + fj }) with
      pwr := { s.pwr with partFj := spSet 0 s.pwr.partFj x.r.part (spGet 0 s.pwr.partFj x.r.part + fj) } }

/-- Add to one rail of a list. -/
def addRail (l : List Nat) (rail n : Nat) : List Nat := l.set rail (l.getD rail 0 + n)

/-- The activity model counts energy on a rail: for the cap loop as scaled, for a calibration before scaling (R462, R478). -/
def Pwr.count (p : Pwr) (rail fj raw : Nat) : Pwr :=
  { p with railFj := addRail p.railFj rail fj, cal := p.cal.map fun c => { c with model := addRail c.model rail raw } }

/-- `n` activities of kind `kind` on rail `rail`, charged to context `c`. -/
def State.activity (s : State) (c kind rail n : Nat) : State :=
  let t := s.addEnergy c (s.energyOf kind rail n)
  { t with pwr := t.pwr.count rail (s.energyOf kind rail n) (s.pwr.coef.getD kind 0 * n) }

/-- Rails of Table 13.2. -/
def Rail.ae (die : Nat) : Nat := die
def Rail.core (die : Nat) : Nat := 2 + die
def Rail.hbm : Nat := 4
def Rail.serdes : Nat := 6
def Rail.fld : Nat := 7

/-- Charge host bytes to a context (Table 11.5). -/
def State.chargeHost (s : State) (c n : Nat) : State :=
  (s.setStats c fun x => { x with host := sat64 (x.host + n) }).activity c 6 Rail.serdes n

/-- Charge CC cycles. -/
def State.chargeCc (s : State) (c n : Nat) : State :=
  (s.setStats c fun x => { x with cc := sat64 (x.cc + n) }).activity c 1 (Rail.core 0) n

/-- Charge AE cycles run on a die; the throttle level in force weighs into THR_AVG. -/
def State.chargeAe (s : State) (c die n : Nat) : State :=
  (s.setStats c fun x => { x with ae := sat64 (x.ae + n), thrSum := x.thrSum + n * s.level }).activity c 0
    (Rail.ae die) n

/-- Charge bytes read or written in T1, and in T0. -/
def State.t1Bytes (s : State) (c n : Nat) : State := s.activity c 2 Rail.hbm n
def State.t0Bytes (s : State) (c n : Nat) : State := s.activity c 3 (Rail.core 0) n

/-- Charge fabric bytes: `tx` sent, else placed. -/
def State.chargeFab (s : State) (c n : Nat) (tx : Bool) : State :=
  (s.setStats c fun x => if tx then { x with ftx := sat64 (x.ftx + n) } else { x with frx := sat64 (x.frx + n) }).activity
    c 5 Rail.serdes n

/-- Charge stored bytes moved between T1 and T2 to a context and to one of its sequences. -/
def State.chargeTier (s : State) (c seq n : Nat) : State :=
  (((s.setStats c fun x => { x with tier := sat64 (x.tier + n) }).setSeq seq
    fun q => { q with stats := { q.stats with tier := sat64 (q.stats.tier + n) } }).activity c 2 Rail.hbm n).activity c
    4 Rail.fld n

/-- Charge host bytes moved by a command, counted in its BYTES too (R415). -/
def State.cmdHost (s : State) (k : CmdId) (c n : Nat) : State :=
  (s.chargeHost c n).setCmd k fun x => { x with bytes := x.bytes + n }

/-- Charge tier bytes of a command, counted in its BYTES. -/
def State.cmdTier (s : State) (k : CmdId) (c seq n : Nat) : State :=
  (s.chargeTier c seq n).setCmd k fun x => { x with bytes := x.bytes + n }

/-! ## Messages and records -/

/-- R98: `pend` records are pending, the first written at cycle `first`; does COUNT or TIME ask for a message now? -/
def State.announces (s : State) (count time pend first : Nat) : Bool :=
  decide (max 1 count ≤ pend) || (decide (1 ≤ pend) && decide (first + time * cyclesPerUs ≤ s.cycles))

/-- MSI-X of a completion queue when its condition holds (R98). -/
def State.cqMsix (s : State) (i : Nat) : State :=
  match s.cq? i with
  | none => s
  | some q =>
    if q.arm && s.announces q.count q.time q.pend q.first then
      (s.setCq i fun x => { x with arm := false, pend := 0 }).emit (.msix (s.funcOf (i / 64)) q.vector)
    else s

/-- MSI-X of an event queue when its condition holds (R98). -/
def State.eqMsix (s : State) (c : Nat) : State :=
  match s.eq? c with
  | none => s
  | some q =>
    if q.arm && s.announces q.count q.time q.pend q.first then
      (s.setEq c fun x => { x with arm := false, pend := 0 }).emit (.msix (s.funcOf c) q.vector)
    else s

/-- An event is discarded (R115, R549). -/
def State.dropEvent (s : State) (c : Nat) : State :=
  ((s.setEq c fun x => { x with ovf := true }).bump F.CTXW_EQ_STAT_DROPPED 1 0 c).setFld F.CTXW_EQ_STAT_OVF 1 0 c

/-- The 32 bytes of an event record (Table 3.8). -/
def eventRecord (typ : Nat) (phase : Nat) (ovf : Bool) (obj time : Nat) (detail : List Byte) : List Byte :=
  leBytes 1 typ ++ leBytes 1 (phase + if ovf then 2 else 0) ++ leBytes 2 0 ++ leBytes 4 obj ++ leBytes 8 time ++
    bytesAt detail 0 16

/-- Post an event to the queue of context `c` (R114, R115). A context without an event queue drops it (R88). -/
def State.postEvent (s : State) (c typ obj : Nat) (detail : List Byte) : State :=
  match s.eq? c with
  | none => s
  | some q =>
    let f := s.funcOf c
    let a := q.base + 32 * (q.wi % q.entries)
    if (q.wi + two32 - q.ci) % two32 ≥ q.entries then s.dropEvent c
    else if !s.xlatOk f a 32 then s.dropEvent c
    else
      ((((s.emit (.hostWrite f a (eventRecord typ (phaseBit q.wi q.entries) q.ovf obj s.cycles detail))).setEq c
        fun x => { x with wi := (x.wi + 1) % two32, pend := x.pend + 1, ovf := false,
                          first := if x.pend = 0 then s.cycles else x.first }).chargeHost c 32).eqMsix c)

/-- The device context (R116), if it is mounted. -/
def State.deviceCtx (s : State) : Nat := ((s.blank).map (·.deviceCtx)).getD 0

/-- Device event detail (Table 16.2). -/
def devDetail (code unit info : Nat) : List Byte := leBytes 1 code ++ leBytes 1 0 ++ leBytes 2 unit ++ leBytes 8 info ++ leBytes 4 0

/-- A DEVICE_EVENT to the device context. -/
def State.deviceEvent (s : State) (detail : List Byte) : State := s.postEvent s.deviceCtx Ev.deviceEvent 0 detail

/-- A work queue enters STOPPED and QUEUE_STOPPED is posted (R90). Only an ENABLED queue stops. -/
def State.stopQueue (s : State) (q reason : Nat) : State :=
  match s.wq? q with
  | none => s
  | some w => if w.st = .enabled then
      (s.setWq q fun x => { x with st := .stopped }).postEvent w.ctx Ev.queueStopped q (leBytes 1 reason)
    else s

/-- Post the write failure of a completion record (R549): a QUEUE_STOPPED event for every queue naming the completion queue,
of which the ENABLED ones enter STOPPED (Table 3.2 has no way there from DRAINING; log 45). -/
def State.stopNaming (s : State) (cq : Nat) : List Wq → State
  | [] => s
  | w :: t =>
    if w.cqid = cq then
      ((s.setWq w.q fun x => if x.st = .enabled then { x with st := .stopped } else x).postEvent w.ctx Ev.queueStopped w.q
        (leBytes 1 St.accessDenied)).stopNaming cq t
    else s.stopNaming cq t

/-! ## Descriptor fields (Table 3.3; R9) -/

/-- Little-endian field of `n` bytes at byte `off` of a descriptor. -/
def dF (d : Word512) (off n : Nat) : Nat := d.toNat / 2 ^ (8 * off) % 2 ^ (8 * n)
/-- Bit `b` of byte `off`. -/
def dBit (d : Word512) (off b : Nat) : Bool := d.toNat / 2 ^ (8 * off + b) % 2 = 1
def dOp (d : Word512) : Nat := dF d 0 1
def dOrd (d : Word512) : Bool := dBit d 1 0
def dSuppress (d : Word512) : Bool := dBit d 1 1
def dTag (d : Word512) : Nat := dF d 2 2
def dHandle (d : Word512) : Nat := dF d 4 4

/-! ## Trace (R538) -/

/-- Is the trace facility copying records of `kind` (0 page descriptors, 1 frame records) for context `c`? -/
def State.tracing (s : State) (kind c : Nat) : Bool :=
  s.fld F.SEC_STATUS_DEBUG == 1 && s.fld F.TST_TRACE_CTL_ENABLE == 1 && s.fld F.TST_TRACE_CTL_KIND == kind &&
    (s.fld F.TST_TRACE_CTL_ALLCTX == 1 || s.fld F.TST_TRACE_CTL_CTX == c)

/-- Copy one record into the trace ring, or count it as lost when the ring is full. -/
def State.traceRec (s : State) (kind c : Nat) (bytes : List Byte) : State :=
  if !s.tracing kind c then s
  else
    let n := 2 ^ s.fld F.TST_TRACE_CTL_LOG2_KIB * 1024 / bytes.length
    let pi := s.fld F.TST_TRACE_IDX_PI
    if (pi + two32 - s.fld F.TST_TRACE_IDX_CI) % two32 ≥ n then s.bump F.TST_TRACE_CTL_LOST
    else
      let a := s.fld F.TST_TRACE_BASE_ADDR * 4096 + bytes.length * (pi % n)
      ((s.emit (.hostWrite 0 a bytes)).setFld F.TST_TRACE_IDX_PI (pi + 1))

/-! ## Completion (R93, R94, R97) -/

/-- What a completion reports beside its status. -/
structure Fin where
  part : Bool := false
  rcp : Bool := false
  rlen : Nat := 0
  result : Nat := 0
deriving DecidableEq, Repr

/-- The 32 bytes of a completion record (Table 3.5). An OK_EMPTY completion carries no AE cycles and no bytes (R102). -/
def completionRecord (status phase : Nat) (k : Cmd) (r : Fin) : List Byte :=
  let e := status = St.okEmpty
  leBytes 1 status ++
    leBytes 1 (phase + (if k.tlvl > 0 then 2 else 0) + (if r.part then 4 else 0) + (if r.rcp then 8 else 0) +
      16 * k.tlvl) ++
    leBytes 2 (dTag k.desc) ++ leBytes 4 k.id.q ++ leBytes 4 r.rlen ++
    leBytes 4 (if e then 0 else sat32 k.ae) ++ leBytes 8 r.result ++ leBytes 8 (if e then 0 else k.bytes)

/-- Take the command out of the in-flight table and count its completion (COMMANDS of Table 11.6). -/
def State.retireCmd (s : State) (k : Cmd) : State :=
  ({ s with cmds := s.cmds.filter fun x => x.id ≠ k.id }).setStats k.ctx fun x =>
    { x with commands := sat64 (x.commands + 1) }

/-- Write the record of a completing command, or drop it where R94 says none is written. -/
def State.writeRecord (s : State) (k : Cmd) (status : Nat) (r : Fin) : State :=
  match s.wq? k.id.q with
  | none => s
  | some w => match s.cq? w.cqid with
    | none => s
    | some q =>
      let f := s.funcOf (w.cqid / 64)
      let a := q.base + 32 * (q.wi % q.entries)
      if !s.xlatOk f a 32 then s.stopNaming w.cqid s.qdb.wqs
      else
        ((((s.emit (.hostWrite f a (completionRecord status (phaseBit q.wi q.entries) k r))).setCq w.cqid
          fun x => { x with wi := (x.wi + 1) % two32, pend := x.pend + 1,
                            first := if x.pend = 0 then s.cycles else x.first }).chargeHost k.ctx 32).cqMsix w.cqid)

/-- Is the context being torn down? What its commands still put out is discarded (Table 11.2). -/
def State.tearing (s : State) (c : Nat) : Bool := (s.ctx? c).any fun x => x.st == .tearing

/-- A WR_ARM pair that waits for a firing counts as not started: a destruction cancels it (R361). -/
def armWaiting (k : Cmd) : Bool := dOp k.desc == Op.wrArm && k.mark == 0

/-- A command that had started when its context's teardown on request began: no record is written of it (R94, step 1 of
Table 11.2). -/
def State.unrecorded (s : State) (k : Cmd) : Bool :=
  k.st == .running && !armWaiting k && (s.ctx? k.ctx).any fun x => x.st == .tearing && x.cause == St.ok

/-- A command completes: its record, then any MSI-X message, are written and its slot is released (R95, R97). -/
def State.complete (s : State) (c : CmdId) (status : Nat) (r : Fin := {}) : State :=
  match s.cmd? c with
  | none => s
  | some k =>
    let t := s.retireCmd k
    if s.unrecorded k || (dSuppress k.desc && (status == St.ok || status == St.okEmpty)) then t
    else t.writeRecord k status r

/-- Output bytes of a command to host memory of function `f`; `none` when the write fails translation (R549). -/
def State.writeHost (s : State) (c : CmdId) (ctx f a : Nat) (bytes : List Byte) : Option State :=
  if bytes.isEmpty || s.tearing ctx then some s
  else if s.xlatOk f a bytes.length then some ((s.emit (.hostWrite f a bytes)).cmdHost c ctx bytes.length) else none

/-- The command asks for `n` bytes at `a` of host memory of its function and waits (R104). -/
def State.readHost (s : State) (c : CmdId) (a n : Nat) : State :=
  (s.emit (.hostRead c a n)).setCmd c fun x => { x with owed := x.owed + 1 }

/-! ## Regions as seen by local commands (R350, R353) -/

def Region.rkey (r : Region) : Nat := r.index * 4096 + r.gen % 4096

/-- The live region of context `c` an RKEY names locally. -/
def State.region? (s : State) (c rkey : Nat) : Option Region :=
  s.fxt.regions.find? fun r => r.rkey == rkey && r.ctx == c && !r.freeing

/-- Key of a byte of an HBM region. -/
def regionKey (index off : Nat) : Nat := index * 2 ^ 32 + off

def Region.canRead (r : Region) : Bool := r.access % 2 = 1
def Region.canWrite (r : Region) : Bool := r.access / 2 % 2 = 1
def Region.remWrite (r : Region) : Bool := r.access / 4 % 2 = 1
def Region.remRead (r : Region) : Bool := r.access / 8 % 2 = 1

/-- Store bytes into an HBM region. -/
def State.regionStore (s : State) (r : Region) (off : Nat) (bytes : List Byte) : State :=
  { s with fxt := { s.fxt with mem := memWrite s.fxt.mem (regionKey r.index off) bytes } }

/-- Bytes of an HBM region. -/
def State.regionLoad (s : State) (r : Region) (off n : Nat) : List Byte :=
  memRead s.fxt.mem (regionKey r.index off) n

/-- Where a command's operand or output lies: host memory of its function, or a region of its context. -/
inductive Space where
  | host (addr : Nat)
  | region (rkey off : Nat)
deriving DecidableEq, Repr

/-- Steps 4 to 6 for one operand range of `len` bytes: its key names a live region of the context (BAD_HANDLE), the
region grants the access (ACCESS_DENIED), a host range ends below 2^64 (R548). Length is checked by `spaceLong`. -/
def State.spaceCheck (s : State) (ctx : Nat) (sp : Space) (write : Bool) (len : Nat) : Option Nat :=
  match sp with
  | .host a => if len ≠ 0 ∧ a + len > 2 ^ 64 then some St.accessDenied else none
  | .region k _ => match s.region? ctx k with
    | none => some St.badHandle
    | some r => if (if write then r.canWrite else r.canRead) then none else some St.accessDenied

/-- Is a region operand long enough? -/
def State.spaceLong (s : State) (ctx : Nat) (sp : Space) (len : Nat) : Bool :=
  match sp with
  | .host _ => true
  | .region k off => match s.region? ctx k with
    | none => false
    | some r => decide (off + len ≤ r.len)

/-- Issue the read of an operand: an HBM region is read at once, host memory through a host read. -/
def State.spaceRead (s : State) (c : CmdId) (ctx : Nat) (sp : Space) (len : Nat) : State :=
  match sp with
  | .host a => s.readHost c a len
  | .region k off => match s.region? ctx k with
    | none => s.setCmd c fun x => { x with fail := some St.regionRevoked }
    | some r => if r.hostMem then s.readHost c (r.addr + off) len
      else s.setCmd c fun x => { x with reads := x.reads ++ [s.regionLoad r off len] }

/-- Write output: `Except` gives the status of a failure (R155, R549). -/
def State.spaceWrite (s : State) (c : CmdId) (ctx : Nat) (sp : Space) (bytes : List Byte) : Except Nat State :=
  let f := s.funcOf ctx
  match sp with
  | .host a => match s.writeHost c ctx f a bytes with
    | some s => .ok s
    | none => .error St.accessDenied
  | .region k off => match s.region? ctx k with
    | none => .error St.regionRevoked
    | some r => if r.hostMem then
        match s.writeHost c ctx f (r.addr + off) bytes with
        | some s => .ok s
        | none => .error St.accessDenied
      else .ok (if s.tearing ctx then s else s.regionStore r off bytes)

/-- Value of trigger counter `n` (R360). -/
def State.trigVal (s : State) (n : Nat) : Nat := spGet 0 s.fxt.trig n

def State.setTrig (s : State) (n v : Nat) : State :=
  { s with fxt := { s.fxt with trig := spSet 0 s.fxt.trig n (v % two32) } }

/-- Is the trigger one of a context that is being torn down (Table 11.2)? -/
def State.trigTearing (s : State) (n : Nat) : Bool :=
  s.ctxs.any fun x => x.st == .tearing && decide (x.r.trigFirst ≤ n) && decide (n < x.r.trigFirst + x.r.trigCount)

/-- Advance a trigger counter by one (R158, R360); 0 names none. -/
def State.advanceTrig (s : State) (n : Nat) : State :=
  if n = 0 ∨ s.trigTearing n then s else s.setTrig n (s.trigVal n + 1)

/-- May context `c` name trigger `n`? (R360) -/
def State.trigOwned (s : State) (c n : Nat) : Bool :=
  match s.ctx? c with
  | none => false
  | some x => decide (x.r.trigFirst ≤ n) && decide (n < x.r.trigFirst + x.r.trigCount)

/-! ## Posting messages (R337, R419) -/

/-- The destination-table entry of a node; one never used starts from zero. -/
def State.dest (s : State) (node : Nat) : Dest :=
  (s.fxt.dests.find? fun d => d.node == node).getD ⟨node, 0, none, 0, 0, 0, 0⟩

def State.setDest (s : State) (d : Dest) : State :=
  { s with fxt := { s.fxt with dests := s.fxt.dests.filter (fun x => x.node ≠ d.node) ++ [d] } }

/-- A message that waits to be sent. -/
def newMsg (dst ctx : Nat) (c : Carry) : TxMsg :=
  { dst := dst, msgid := 0, ctx := ctx, cmd := none, adm := 0, firing := 0, hold := false, pace := false, carry := c
    sent := false, left := 0, sentAt := 0, tries := 0, busy := none, cover := none, got := [] }

/-- Queue a message under the next MSGID of its destination. -/
def State.post (s : State) (m : TxMsg) : State :=
  let d := s.dest m.dst
  let s := s.setDest { d with next := (d.next + 1) % two32 }
  { s with fxt := { s.fxt with msgs := s.fxt.msgs ++ [{ m with msgid := d.next }] } }

/-- A service message to a part, for a subscriber: the context whose command caused it, else the device context. -/
def State.svcFor (s : State) (ctx dst : Nat) (m : SvcMsg) : State := s.post (newMsg dst ctx (.svc m))
def State.svc (s : State) (dst : Nat) (m : SvcMsg) : State := s.svcFor s.deviceCtx dst m

end Sys2Proof.Machine
end

