-- ==== Sys2Proof/Machine/Sha.lean ====
section
/-! DEFINITION. SHA-256 (FIPS 180-4) and HMAC-SHA-256, which the block digests (R201) and the key derivations of chapter
12 name. Words are numbers below 2^32, most significant byte first. -/

namespace Sys2Proof.Machine

/-- The round constants: the first 32 bits of the fractional parts of the cube roots of the first 64 primes. -/
def shaK : List Nat :=
  [0x428A2F98, 0x71374491, 0xB5C0FBCF, 0xE9B5DBA5, 0x3956C25B, 0x59F111F1, 0x923F82A4, 0xAB1C5ED5,
   0xD807AA98, 0x12835B01, 0x243185BE, 0x550C7DC3, 0x72BE5D74, 0x80DEB1FE, 0x9BDC06A7, 0xC19BF174,
   0xE49B69C1, 0xEFBE4786, 0x0FC19DC6, 0x240CA1CC, 0x2DE92C6F, 0x4A7484AA, 0x5CB0A9DC, 0x76F988DA,
   0x983E5152, 0xA831C66D, 0xB00327C8, 0xBF597FC7, 0xC6E00BF3, 0xD5A79147, 0x06CA6351, 0x14292967,
   0x27B70A85, 0x2E1B2138, 0x4D2C6DFC, 0x53380D13, 0x650A7354, 0x766A0ABB, 0x81C2C92E, 0x92722C85,
   0xA2BFE8A1, 0xA81A664B, 0xC24B8B70, 0xC76C51A3, 0xD192E819, 0xD6990624, 0xF40E3585, 0x106AA070,
   0x19A4C116, 0x1E376C08, 0x2748774C, 0x34B0BCB5, 0x391C0CB3, 0x4ED8AA4A, 0x5B9CCA4F, 0x682E6FF3,
   0x748F82EE, 0x78A5636F, 0x84C87814, 0x8CC70208, 0x90BEFFFA, 0xA4506CEB, 0xBEF9A3F7, 0xC67178F2]

/-- The initial hash value. -/
def shaInit : List Nat :=
  [0x6A09E667, 0xBB67AE85, 0x3C6EF372, 0xA54FF53A, 0x510E527F, 0x9B05688C, 0x1F83D9AB, 0x5BE0CD19]

/-- The eight working variables. -/
structure ShaState where
  a : Nat
  b : Nat
  c : Nat
  d : Nat
  e : Nat
  f : Nat
  g : Nat
  h : Nat
deriving DecidableEq, Repr

def ShaState.ofList (l : List Nat) : ShaState :=
  ⟨l.getD 0 0, l.getD 1 0, l.getD 2 0, l.getD 3 0, l.getD 4 0, l.getD 5 0, l.getD 6 0, l.getD 7 0⟩
def ShaState.toList (s : ShaState) : List Nat := [s.a, s.b, s.c, s.d, s.e, s.f, s.g, s.h]

/-- ROTR of a 32-bit word. -/
def rotr (n x : Nat) : Nat := Nat.lor (x >>> n) (x <<< (32 - n) % two32)

def xor3 (a b c : Nat) : Nat := Nat.xor a (Nat.xor b c)

/-- One round with constant `k` and schedule word `w`. -/
def shaRound (s : ShaState) (k w : Nat) : ShaState :=
  let ch := Nat.xor (Nat.land s.e s.f) (Nat.land (Nat.xor s.e 0xFFFFFFFF) s.g)
  let t1 := s.h + xor3 (rotr 6 s.e) (rotr 11 s.e) (rotr 25 s.e) + ch + k + w
  let maj := xor3 (Nat.land s.a s.b) (Nat.land s.a s.c) (Nat.land s.b s.c)
  ⟨(t1 + xor3 (rotr 2 s.a) (rotr 13 s.a) (rotr 22 s.a) + maj) % two32, s.a, s.b, s.c, (s.d + t1) % two32, s.e, s.f, s.g⟩

/-- The next schedule word from a window of sixteen. -/
def shaNext (w : List Nat) : Nat :=
  let x := w.getD 1 0
  let y := w.getD 14 0
  (w.getD 0 0 + xor3 (rotr 7 x) (rotr 18 x) (x >>> 3) + w.getD 9 0 + xor3 (rotr 17 y) (rotr 19 y) (y >>> 10)) % two32

/-- All rounds of one block. -/
def shaRounds : List Nat → List Nat → ShaState → ShaState
  | [], _, s => s
  | k :: t, w, s => shaRounds t (w.drop 1 ++ [shaNext w]) (shaRound s k (w.headD 0))

/-- Big-endian number of bytes. -/
def beNat (l : List Byte) : Nat := l.foldl (fun a b => a * 256 + b.toNat) 0

/-- A number as `n` big-endian bytes. -/
def beBytes (n v : Nat) : List Byte := (leBytes n v).reverse

/-- The sixteen words of a 64-byte block. -/
def shaWords (blk : List Byte) : List Nat := (List.range 16).map fun i => beNat (bytesAt blk (4 * i) 4)

def shaBlock (h : List Nat) (blk : List Byte) : List Nat :=
  List.zipWith (fun x y => (x + y) % two32) h (shaRounds shaK (shaWords blk) (ShaState.ofList h)).toList

/-- The message with its padding. -/
def shaPad (m : List Byte) : List Byte :=
  m ++ [0x80] ++ List.replicate ((119 - m.length % 64) % 64) 0 ++ beBytes 8 (8 * m.length)

/-- SHA-256 of a message, as 32 bytes. -/
def sha256 (m : List Byte) : List Byte :=
  let p := shaPad m
  ((List.range (p.length / 64)).foldl (fun h i => shaBlock h (bytesAt p (64 * i) 64)) shaInit).flatMap (beBytes 4)

/-- Compressions a message of `n` bytes takes (Table 6.1). -/
def shaBlocks (n : Nat) : Nat := (n + 9 + 63) / 64

/-- HMAC-SHA-256 with a key of at most 64 bytes. -/
def hmac256 (key m : List Byte) : List Byte :=
  let k := bytesAt key 0 64
  sha256 ((k.map fun b => b ^^^ 0x5C) ++ sha256 ((k.map fun b => b ^^^ 0x36) ++ m))

/-- The bytes of an ASCII label. -/
def asciiBytes (s : String) : List Byte := s.toList.map fun c => BitVec.ofNat 8 c.toNat

/-- The KDF of chapter 12 with L = 256: HMAC over a counter, the label, a zero byte, the context and L. -/
def kdf256 (key : Nat) (label : String) (ctx : List Byte) : List Byte :=
  hmac256 (beBytes 32 key) ([0, 0, 0, 1] ++ asciiBytes label ++ [0] ++ ctx ++ [0, 0, 1, 0])

end Sys2Proof.Machine
end

