-- ==== Sys2Proof/Machine/Aes.lean ====
section
/-! DEFINITION. AES-256 (FIPS 197) with the modes chapter 12 names: counter mode (SP 800-38A), GMAC and GCM (SP 800-38D).
Bytes are naturals below 256 inside the cipher; a block is sixteen of them in the order in which they are sent. -/

namespace Sys2Proof.Machine

/-! ## The block cipher -/

/-- Bytes 0 to 63 of the S-box, the first least significant. -/
def sboxRow0 : Nat :=
  0x75B227EBE28012079A059618C323C7041531D871F1E5A534CCF73F362693FDB7C072A49CAFA2D4ADF04759FA7DC982CA76ABD7FE2B670130C56F6BF27B777C63

/-- Bytes 64 to 127 of the S-box, the first least significant. -/
def sboxRow1 : Nat :=
  0xD2F3FF1021DAB6BCF5389D928F40A351A89F3C507F02F94585334D43FBAAEFD0CF584C4A39BECB6A5BB1FC20ED00D153842FE329B3D63B52A05A6E1B1A2C8309

/-- Bytes 128 to 191 of the S-box, the first least significant. -/
def sboxRow2 : Nat :=
  0x08AE7A65EAF4566CA94ED58D6D37C8E779E4959162ACD3C25C2406490A3A32E0DB0B5EDE14B8EE4688902A22DC4F816073195D643D7EA7C41744975FEC130CCD

/-- Bytes 192 to 255 of the S-box, the first least significant. -/
def sboxRow3 : Nat :=
  0x16BB54B00F2D99416842E6BF0D89A18CDF2855CEE9871E9B948ED9691198F8E19E1DC186B95735610EF6034866B53E708A8BBD4B1F74DDE8C6B4A61C2E2578BA

/-- SubBytes of one byte. -/
def sbox (b : Nat) : Nat :=
  (if b < 64 then sboxRow0 else if b < 128 then sboxRow1 else if b < 192 then sboxRow2 else sboxRow3) / 256 ^ (b % 64) % 256

/-- XOR of two byte strings given as numbers. -/
def xorNats (a b : List Nat) : List Nat := List.zipWith Nat.xor a b

/-- Multiplication by x in GF(2^8). -/
def xtime (b : Nat) : Nat := if b < 128 then 2 * b else Nat.xor (2 * b) 0x11B

/-- What goes into word `i` of the key schedule from the word before it. -/
def keyCore (i : Nat) (w : List Nat) : List Nat :=
  if i % 8 = 0 then xorNats ((w.drop 1 ++ w.take 1).map sbox) [2 ^ (i / 8 - 1), 0, 0, 0]
  else if i % 8 = 4 then w.map sbox else w

/-- Words `i` on of the schedule, from a window of the eight words before; `n` words. -/
def keyWords : Nat → Nat → List (List Nat) → List (List Nat)
  | 0, _, _ => []
  | n + 1, i, win =>
    let w := xorNats (win.headD []) (keyCore i (win.getD 7 []))
    w :: keyWords n (i + 1) (win.drop 1 ++ [w])

/-- The fifteen round keys of a 32-byte key. -/
def roundKeys (key : List Byte) : List (List Nat) :=
  let k := (bytesAt key 0 32).map BitVec.toNat
  let win := (List.range 8).map fun i => (k.drop (4 * i)).take 4
  let ws := win ++ keyWords 52 8 win
  (List.range 15).map fun r => ((ws.drop (4 * r)).take 4).flatMap id

/-- SubBytes and ShiftRows. -/
def subShift (s : List Nat) : List Nat := (List.range 16).map fun i => sbox (s.getD ((i + 4 * (i % 4)) % 16) 0)

/-- MixColumns. -/
def mixColumns (s : List Nat) : List Nat :=
  (List.range 16).map fun i =>
    let at_ (k : Nat) : Nat := s.getD (4 * (i / 4) + (i + k) % 4) 0
    Nat.xor (Nat.xor (xtime (at_ 0)) (Nat.xor (xtime (at_ 1)) (at_ 1))) (Nat.xor (at_ 2) (at_ 3))

/-- The rounds after the first key addition; the last one mixes no columns. -/
def aesRounds : List (List Nat) → List Nat → List Nat
  | [], s => s
  | [k], s => xorNats (subShift s) k
  | k :: t, s => aesRounds t (xorNats (mixColumns (subShift s)) k)

/-- AES-256 of one block under a key schedule. -/
def aesWith (keys : List (List Nat)) (blk : List Byte) : List Byte :=
  match keys with
  | [] => []
  | k :: t => (aesRounds t (xorNats ((bytesAt blk 0 16).map BitVec.toNat) k)).map (BitVec.ofNat 8)

/-- AES-256 of one block under a 32-byte key. -/
def aesBlock (key blk : List Byte) : List Byte := aesWith (roundKeys key) blk

/-- XOR of two byte strings. -/
def xorBytes (a b : List Byte) : List Byte := List.zipWith (fun x y => x ^^^ y) a b

/-- Counter mode: blocks `iv` (12 bytes) followed by a 32-bit big-endian count from `j` on. -/
def aesCtr (key iv : List Byte) (j : Nat) (b : List Byte) : List Byte :=
  let ks := roundKeys key
  xorBytes b ((List.range ((b.length + 15) / 16)).flatMap fun i => aesWith ks (iv ++ beBytes 4 (j + i)))

/-! ## GHASH, GMAC and GCM -/

/-- One bit of a product in GF(2^128): the sum so far, and the multiplicand shifted; the leading bit comes first. -/
def gfStep (x : Nat) (zv : Nat × Nat) (i : Nat) : Nat × Nat :=
  (if x / 2 ^ (127 - i) % 2 = 1 then Nat.xor zv.1 zv.2 else zv.1,
   if zv.2 % 2 = 1 then Nat.xor (zv.2 / 2) 0xE1000000000000000000000000000000 else zv.2 / 2)

/-- Product in the field of GHASH. -/
def gfMul (x y : Nat) : Nat := ((List.range 128).foldl (gfStep x) (0, y)).1

/-- A byte string as the 16-byte blocks of GHASH, the last one filled with zeros. -/
def ghashBlocks (b : List Byte) : List Nat := (List.range ((b.length + 15) / 16)).map fun i => beNat (bytesAt b (16 * i) 16)

/-- GHASH under the hash key `h` of additional data and ciphertext. -/
def ghash (h : Nat) (aad c : List Byte) : Nat :=
  (ghashBlocks aad ++ ghashBlocks c ++ [8 * aad.length * 2 ^ 64 + 8 * c.length]).foldl (fun y b => gfMul (Nat.xor y b) h) 0

/-- The 16-byte tag of GCM for a 12-byte IV; GMAC is the tag of an empty ciphertext. -/
def gcmTag (key iv aad c : List Byte) : List Byte :=
  let h := beNat (aesBlock key (List.replicate 16 0))
  xorBytes (aesBlock key (iv ++ [0, 0, 0, 1])) (beBytes 16 (ghash h aad c))

/-- GCM encryption, and decryption, of the text itself. -/
def gcmCrypt (key iv b : List Byte) : List Byte := aesCtr key iv 2 b

end Sys2Proof.Machine
end

