-- ==== Sys2Proof/Machine/Num.lean ====
section
/-! DEFINITION. The arithmetic of the controller: the element encodings of Table 2.7 decoded exactly, and FP32 with one
rounding per operation (R122 to R132). A value is a sign, a natural mantissa and a power of two, so every product and
sum is exact until it is rounded. -/

namespace Sys2Proof.Machine

/-- An exact value: NaN, an infinity, or ± m × 2^e. -/
inductive FV where
  | nan
  | inf (neg : Bool)
  | fin (neg : Bool) (m : Nat) (e : Int)
deriving DecidableEq, Repr

/-- Rounding: to nearest with ties to even, toward +∞, toward −∞. -/
inductive Rnd where
  | near | up | down
deriving DecidableEq, Repr

def FV.zero : FV := .fin false 0 0

/-- Quotient of `m` by 2^k, rounded; `sticky` says that bits below were already lost. -/
def roundShift (r : Rnd) (neg : Bool) (m k : Nat) : Nat :=
  let q := m / 2 ^ k
  let rem := m % 2 ^ k
  match r with
  | .near => if 2 * rem > 2 ^ k ∨ (2 * rem = 2 ^ k ∧ q % 2 = 1) then q + 1 else q
  | .up => if !neg && rem ≠ 0 then q + 1 else q
  | .down => if neg && rem ≠ 0 then q + 1 else q

/-- Round to a binary format with `p` significant bits (hidden one included), least exponent `emin` of the last place,
and `ebits` exponent bits, all-ones exponent for infinities: FP32 is (24, -149, 8), FP16 (11, -24, 5), BF16 (8, -133, 8). -/
def roundFmt (p : Nat) (emin : Int) (ebits : Nat) (r : Rnd) (x : FV) : Nat :=
  let sign (neg : Bool) : Nat := if neg then 2 ^ (ebits + p - 1) else 0
  let infBits : Nat := (2 ^ ebits - 1) * 2 ^ (p - 1)
  match x with
  | .nan => infBits + 2 ^ (p - 2)
  | .inf neg => sign neg + infBits
  | .fin neg m e =>
    if m = 0 then sign neg
    else
      let top : Int := e + Nat.log2 m
      let q : Int := max (top - (p - 1 : Nat)) emin
      let n := if q ≤ e then m * 2 ^ (e - q).toNat else roundShift r neg m (q - e).toNat
      let bits := (q - emin).toNat * 2 ^ (p - 1) + n
      if bits ≥ infBits then
        match r with
        | .near => sign neg + infBits
        | .up => if neg then sign neg + infBits - 1 else infBits
        | .down => if neg then sign neg + infBits else infBits - 1
      else sign neg + bits

/-- Magnitude bits of a finite value rounded to a format without infinities, as E4M3 holds the bounds of R53; the
caller keeps the value within the largest finite one. -/
def roundRaw (p : Nat) (emin : Int) (r : Rnd) (x : FV) : Nat :=
  match x with
  | .nan => 0
  | .inf _ => 0
  | .fin neg m e =>
    if m = 0 then 0
    else
      let q : Int := max (e + Nat.log2 m - (p - 1 : Nat)) emin
      let n := if q ≤ e then m * 2 ^ (e - q).toNat else roundShift r neg m (q - e).toNat
      (q - emin).toNat * 2 ^ (p - 1) + n

/-- E4M3 byte of a finite value of magnitude at most 448. -/
def toE4M3 (r : Rnd) (x : FV) : Nat :=
  match x with
  | .nan => 127
  | .inf neg => if neg then 255 else 127
  | .fin neg _ _ => (if neg then 128 else 0) + roundRaw 4 (-9) r x

/-- Decode a binary format with `p - 1` mantissa bits and `ebits` exponent bits whose least place is 2^emin. -/
def decodeFmt (p : Nat) (emin : Int) (ebits : Nat) (ieee : Bool) (w : Nat) : FV :=
  let neg := w / 2 ^ (ebits + p - 1) % 2 = 1
  let ex := w / 2 ^ (p - 1) % 2 ^ ebits
  let man := w % 2 ^ (p - 1)
  if ieee && ex = 2 ^ ebits - 1 then (if man = 0 then .inf neg else .nan)
  else if ex = 0 then .fin neg man emin
  else .fin neg (man + 2 ^ (p - 1)) (emin + (ex - 1 : Nat))

def f32Of (w : Nat) : FV := decodeFmt 24 (-149) 8 true w
def f16Of (w : Nat) : FV := decodeFmt 11 (-24) 5 true w
def bf16Of (w : Nat) : FV := decodeFmt 8 (-133) 8 true w
/-- E4M3: S.1111.111 is NaN, no infinity (Table 2.7). -/
def e4m3Of (w : Nat) : FV := if w % 128 = 127 then .nan else decodeFmt 4 (-9) 4 false w
def e5m2Of (w : Nat) : FV := decodeFmt 3 (-16) 5 true w
def e3m2Of (w : Nat) : FV := decodeFmt 3 (-4) 3 false w
def e2m3Of (w : Nat) : FV := decodeFmt 4 (-3) 2 false w
def e2m1Of (w : Nat) : FV := decodeFmt 2 (-1) 2 false w
/-- E8M0 scale: 2^(w - 127), 0xFF is NaN. -/
def e8m0Of (w : Nat) : FV := if w = 255 then .nan else .fin false 1 ((w : Int) - 127)
def int8Of (w : Nat) : FV := if w < 128 then .fin false w 0 else .fin true (256 - w) 0

/-- FP32 bits of a value, rounded to nearest even. -/
def toF32 (x : FV) : Nat := roundFmt 24 (-149) 8 .near x
/-- Round to FP32 and back: one operation of the arithmetic. -/
def rn (x : FV) : FV := f32Of (toF32 x)
def rUp (x : FV) : FV := f32Of (roundFmt 24 (-149) 8 .up x)
def rDown (x : FV) : FV := f32Of (roundFmt 24 (-149) 8 .down x)

def FV.neg : FV → FV
  | .nan => .nan
  | .inf n => .inf (!n)
  | .fin n m e => .fin (!n) m e

/-- Exact product. -/
def FV.mul : FV → FV → FV
  | .nan, _ => .nan
  | _, .nan => .nan
  | .inf a, .inf b => .inf (a != b)
  | .inf a, .fin b m _ => if m = 0 then .nan else .inf (a != b)
  | .fin a m _, .inf b => if m = 0 then .nan else .inf (a != b)
  | .fin a m e, .fin b n f => .fin (a != b) (m * n) (e + f)

/-- Signed integer of a mantissa at exponent `e0 ≤ e`. -/
def alignInt (neg : Bool) (m : Nat) (e e0 : Int) : Int :=
  let v : Int := ((m * 2 ^ (e - e0).toNat : Nat) : Int)
  if neg then -v else v

/-- Exact sum; an exact zero from opposite signs is +0. -/
def FV.add : FV → FV → FV
  | .nan, _ => .nan
  | _, .nan => .nan
  | .inf a, .inf b => if a = b then .inf a else .nan
  | .inf a, .fin _ _ _ => .inf a
  | .fin _ _ _, .inf b => .inf b
  | .fin a m e, .fin b n f =>
    if m = 0 then (if n = 0 then .fin (a && b) 0 0 else .fin b n f)
    else if n = 0 then .fin a m e
    else
      let e0 := min e f
      let v := alignInt a m e e0 + alignInt b n f e0
      .fin (decide (v < 0)) v.natAbs e0

def FV.sub (a b : FV) : FV := a.add b.neg

/-- a < b on ordered values; NaN is unordered. -/
def FV.lt : FV → FV → Bool
  | .nan, _ => false
  | _, .nan => false
  | .inf a, .inf b => a && !b
  | .inf a, .fin _ _ _ => a
  | .fin _ _ _, .inf b => !b
  | .fin a m e, .fin b n f =>
    let e0 := min e f
    decide (alignInt a m e e0 < alignInt b n f e0)

def FV.isNan : FV → Bool
  | .nan => true
  | .inf _ => false
  | .fin _ _ _ => false

def FV.isFin : FV → Bool
  | .nan => false
  | .inf _ => false
  | .fin _ _ _ => true

def FV.isZero : FV → Bool
  | .nan => false
  | .inf _ => false
  | .fin _ m _ => m = 0

/-- Quotient to FP32, to nearest: the quotient is carried to 60 bits with a sticky bit, then rounded once. -/
def FV.divF32 : FV → FV → FV
  | .nan, _ => .nan
  | _, .nan => .nan
  | .inf _, .inf _ => .nan
  | .inf a, .fin b _ _ => .inf (a != b)
  | .fin a _ _, .inf b => .fin (a != b) 0 0
  | .fin a m e, .fin b n f =>
    if n = 0 then (if m = 0 then .nan else .inf (a != b))
    else if m = 0 then .fin (a != b) 0 0
    else
      let k := 64 + Nat.log2 n
      let num := m * 2 ^ k
      let q := num / n
      let q := if num % n = 0 then 2 * q else 2 * q + 1
      rn (.fin (a != b) q (e - f - k - 1))

/-- Square root to FP32, to nearest. -/
def FV.sqrtF32 : FV → FV
  | .fin _ 0 _ => .zero
  | .fin false m e =>
    let k : Nat := 2 * 64 + (if e % 2 = 0 then 0 else 1)
    let v := m * 2 ^ k
    let r := Nat.sqrt v
    let r := if r * r = v then 2 * r else 2 * r + 1
    rn (.fin false r ((e - k) / 2 - 1))
  | .fin true _ _ => .nan
  | .inf a => if a then .nan else .inf false
  | .nan => .nan

/-! ## exp2, tanh and log2 (R128, R131)

R128 holds exp2 and tanh to within 2 ulp of the exact result. The exact result is carried in fixed point far beyond FP32; its
neighbours within 2 ulp are the admitted values, and a free value says which of them the part yields. -/

/-- The FP32 value `n` steps along the magnitudes from that with bits `b`. -/
def stepMag (b : Nat) (n : Int) : FV := f32Of ((b : Int) + n).toNat

/-- A value within 2 ulp of an exact positive one: `lo` holds the bits of the largest FP32 value not above it, `exact` that it
is that value; `pick` selects. -/
def near2 (lo : Nat) (exact : Bool) (pick : Nat) : FV :=
  if exact then stepMag lo ((pick % 5 : Nat) - 2) else stepMag lo ((pick % 4 : Nat) - 1)

/-- Bits of the largest FP32 value not above `m × 2^e`. -/
def floorF32 (m : Nat) (e : Int) : Nat := roundFmt 24 (-149) 8 .down (.fin false m e)

/-- Fraction bits of the fixed point in which exact results are carried. -/
def fixBits : Nat := 256

/-- 2^(f ÷ 2^160) for a fraction `f` below 2^160: `root` is 2^(2^-i) in fixed point, taken bit by bit; fuel: bits left. -/
def pow2Frac (f : Nat) : Nat → Nat → Nat → Nat
  | 0, _, a => a
  | k + 1, root, a =>
    let r := Nat.sqrt (root * 2 ^ fixBits)
    pow2Frac f k r (if f / 2 ^ k % 2 = 1 then a * r / 2 ^ fixBits else a)

/-- exp2 of an FP32 value (R128): exact at −∞ and at 0. Arguments are never positive: a maximum is subtracted first. -/
def exp2F (x : FV) : FV :=
  match x with
  | .nan => .nan
  | .inf n => if n then .zero else .inf false
  | .fin n m e =>
    if m = 0 then .fin false 1 0
    else
      let v := alignInt n m (e + 160) 0
      let w := v / 2 ^ 160
      let f := (v % 2 ^ 160).toNat
      if 128 ≤ w then .inf false
      else if w < -400 then near2 0 false (Config.exp2 (BitVec.ofNat 32 (toF32 x)))
      else near2 (floorF32 (pow2Frac f 160 (2 ^ (fixBits + 1)) (2 ^ fixBits)) (w - fixBits)) (f == 0)
        (Config.exp2 (BitVec.ofNat 32 (toF32 x)))

/-- e^(r ÷ 2^256) for a small r, by `k` terms of its series in fixed point; `t` is the term of index `i`. -/
def expSeries (r : Nat) : Nat → Nat → Nat → Nat
  | 0, _, _ => 0
  | k + 1, i, t => t + expSeries r k (i + 1) (t * r / 2 ^ fixBits / (i + 1))

/-- The square of a fixed-point number, `k` times over. -/
def squareFix : Nat → Nat → Nat
  | 0, a => a
  | k + 1, a => squareFix k (a * a / 2 ^ fixBits)

/-- Bits of the largest FP32 value below tanh of a positive value `m × 2^e`. Below 2^-13 that is the value before the argument,
from 16 on the value before 1. -/
def tanhLow (m : Nat) (e : Int) : Nat :=
  let top : Int := e + Nat.log2 m
  if top < -13 then toF32 (.fin false m e) - 1
  else if 4 ≤ top then toF32 (.fin false 1 0) - 1
  else
    let x := (alignInt false m (e + fixBits + 1) 0).toNat
    let g := squareFix 8 (expSeries (x / 256) 60 0 (2 ^ fixBits))
    floorF32 ((g - 2 ^ fixBits) * 2 ^ fixBits / (g + 2 ^ fixBits)) (-(fixBits : Nat))

/-- tanh of an FP32 value (R128). -/
def tanhF (x : FV) : FV :=
  match x with
  | .nan => .nan
  | .inf n => .fin n 1 0
  | .fin n m e =>
    if m = 0 then .fin n 0 0
    else
      let v := near2 (tanhLow m e) false (Config.tanh (BitVec.ofNat 32 (toF32 x)))
      if n then v.neg else v

/-- The first `k` fraction bits of log2 of a number in [1, 2) given in fixed point, as an integer. -/
def log2Bits : Nat → Nat → Nat
  | 0, _ => 0
  | k + 1, a =>
    let q := a * a / 2 ^ (2 * fixBits)
    if q / 2 ^ (2 * fixBits + 1) = 0 then log2Bits k q else 2 ^ k + log2Bits k (q / 2)

/-- log2 of an FP32 value, rounded to nearest like every other operation of the arithmetic (R131; log entry 25). -/
def log2F (x : FV) : FV :=
  match x with
  | .nan => .nan
  | .inf n => if n then .nan else .inf false
  | .fin n m e =>
    if m = 0 then .inf true
    else if n then .nan
    else
      let p := Nat.log2 m
      let w : Int := e + p
      if m = 2 ^ p then .fin (decide (w < 0)) w.natAbs 0
      else
        let v : Int := 2 * (w * 2 ^ 160 + (log2Bits 160 (m * 2 ^ (2 * fixBits - p)) : Nat)) + 1
        rn (.fin (decide (v < 0)) v.natAbs (-161))

/-- Largest 24-bit-or-shorter mantissa `q` with q^8 ≤ v, searched bit by bit from 2^k down. -/
def root8 (v : Nat) : Nat → Nat → Nat
  | 0, q => if (q + 1) ^ 8 ≤ v then q + 1 else q
  | k + 1, q => if (q + 2 ^ (k + 1)) ^ 8 ≤ v then root8 v k (q + 2 ^ (k + 1)) else root8 v k q

/-- base × 2^(−n ÷ 8), the FP32 value nearest to it, ties to even (R125): the eighth root is taken exactly. -/
def slopeF (base : FV) (n : Nat) : FV :=
  match base with
  | .nan => .nan
  | .inf s => .inf s
  | .fin s m e =>
    if m = 0 then .fin s 0 0
    else
      -- x = m * 2^e * 2^(-n/8); x^8 = m^8 * 2^(8e - n). Scale by 2^64 to keep 64 fraction bits and a sticky bit.
      let up := 8 * (64 + n)
      let v := m ^ 8 * 2 ^ (up - n)
      let q := root8 v (Nat.log2 v / 8 + 1) 0
      let q := if q ^ 8 = v then 2 * q else 2 * q + 1
      rn (.fin s q (e - (64 + n : Nat) - 1))

/-- 1 ÷ √D rounded to FP32 (Table 4.1, SCALE zero). -/
def invSqrt (d : Nat) : FV :=
  let k := 2 ^ 140 / d
  let r := Nat.sqrt k
  rn (.fin false (2 * r + 1) (-71))

/-- Is r the largest and 1/√D a power of two when D is a power of four? (D = 64 and 256 are exact.) -/
def scaleDefault (d : Nat) : FV :=
  if d = 64 then .fin false 1 (-3) else if d = 256 then .fin false 1 (-4) else invSqrt d

/-- log₂e as the nearest FP32 value (R125): 0x3FB8AA3B. ln 2 as the nearest FP32 value: 0x3F317218. -/
def log2e : FV := f32Of 0x3FB8AA3B
def ln2 : FV := f32Of 0x3F317218

/-- Dot product of R123: runs of 32 exact products, each run rounded once, runs added with one rounding each. -/
def dotRuns (fuel : Nat) (acc : FV) (q k : List FV) : FV :=
  match fuel with
  | 0 => acc
  | n + 1 =>
    match q with
    | [] => acc
    | _ :: _ =>
      let run := rn ((List.zipWith FV.mul (q.take 32) (k.take 32)).foldl FV.add .zero)
      dotRuns n (rn (acc.add run)) (q.drop 32) (k.drop 32)

def dotF (q k : List FV) : FV := dotRuns (q.length / 32 + 1) .zero q k

/-! ## CRC-32C (R320) -/

/-- One bit step of the reflected polynomial 0x1EDC6F41. -/
def crcBit (c : Nat) : Nat := if c % 2 = 1 then Nat.xor (c / 2) 0x82F63B78 else c / 2

def crcByte (c : Nat) (b : Byte) : Nat :=
  crcBit (crcBit (crcBit (crcBit (crcBit (crcBit (crcBit (crcBit (Nat.xor c b.toNat))))))))

/-- The steps of a byte string from a running value. That value is always a 32-bit number; testing so has an evaluator compute
it at every byte. -/
def crcRun : List Byte → Nat → Nat
  | [], c => c
  | b :: t, c => if c < two32 then crcRun t (crcByte c b) else 0

/-- CRC-32C: initial value and final XOR 0xFFFFFFFF. -/
def crc32c (l : List Byte) : Nat := Nat.xor (crcRun l 0xFFFFFFFF) 0xFFFFFFFF

end Sys2Proof.Machine
end

