-- ==== Sys2Proof/Machine/Operands.lean ====
section
/-! DEFINITION. Operand forms: the descriptor fields of every opcode's table, the checks that use the descriptor alone
(steps 1 to 3 of R101), the conflict classes of Table 3.4, and the operand ranges a command names. -/

namespace Sys2Proof.Machine

/-- Every opcode of Table 3.4; the others are reserved (R92). -/
def opcodes : List Nat :=
  [0x01, 0x02, 0x03, 0x04, 0x05, 0x06, 0x07, 0x10, 0x11, 0x18, 0x19, 0x1A, 0x20, 0x21, 0x22, 0x23, 0x28,
   0x30, 0x31, 0x32, 0x33, 0x34, 0x35, 0x36, 0x3F]

/-- Class F: the fabric rules order the command (R92, R354). -/
def isClassF (op : Nat) : Bool := decide (0x30 ≤ op) && decide (op ≤ 0x36)

/-- OPFLAGS bits (byte 1 bits 7:4) the opcode defines. -/
def opFlagsMask (op : Nat) : Nat :=
  if op = Op.kvAppend then 1 else if op = Op.statsRead then 1 else if op = Op.stepPlan then 3
  else if op = Op.attend then 7 else if op = Op.pagesDeliver then 1 else if op = Op.pagesPlace then 7
  else if op = Op.prefixLookup then 3 else if op = Op.pxiNext then 1 else if op = Op.prefixRetire then 1
  else if op = Op.regionRevoke then 1 else if op = Op.rmaWrite ∨ op = Op.rmaWriteImm then 1
  else if op = Op.blankMount then 1 else 0

/-- OPFLAGS bit `b` (0 to 3). -/
def dFlag (d : Word512) (b : Nat) : Bool := dBit d 1 (4 + b)

/-- Reserved byte ranges (first, last) of each opcode's table. -/
def reservedBytes (d : Word512) : List (Nat × Nat) :=
  let op := dOp d
  if op = Op.seqOpen then [(16, 63)] else if op = Op.seqFork then [(21, 63)] else if op = Op.seqClose then [(8, 63)]
  else if op = Op.kvAppend then (if dFlag d 0 then [(22, 23), (44, 63)] else [(22, 23), (40, 63)])
  else if op = Op.fence then [(9, 63)] else if op = Op.hint then [(9, 11), (16, 63)]
  else if op = Op.statsRead then [(28, 63)] else if op = Op.stepPlan then [(18, 19), (33, 35), (48, 63)]
  else if op = Op.attend then [] else if op = Op.pagesDeliver then [(25, 25), (44, 63)]
  else if op = Op.pagesPlace then [(23, 63)] else if op = Op.pagesDrop then [(20, 63)]
  else if op = Op.prefixLookup then [(27, 27), (52, 63)] else if op = Op.pxiNext then [(8, 63)]
  else if op = Op.prefixPublish then [(21, 23), (36, 63)] else if op = Op.prefixRetire then [(21, 21), (26, 63)]
  else if op = Op.tableLoad then [(11, 11), (30, 63)] else if op = Op.regionRegister then [(38, 63)]
  else if op = Op.regionRevoke then [(12, 63)]
  else if op = Op.rmaWrite ∨ op = Op.rmaRead then [(11, 11), (28, 31), (44, 63)]
  else if op = Op.rmaWriteImm then [(11, 11), (28, 31), (48, 63)]
  else if op = Op.rmaFlush then [(10, 63)] else if op = Op.wrArm then [(44, 63)]
  else if op = Op.blankMount then [(10, 11), (36, 63)] else []

def rangeZero (d : Word512) (r : Nat × Nat) : Bool := dF d r.1 (r.2 - r.1 + 1) = 0

def isPow2In (n lo hi : Nat) : Bool := decide (lo ≤ n) && decide (n ≤ hi) && n == 2 ^ Nat.log2 n

/-- MSI-X vectors of a function: 2,048 for the PF, 64 for a VF (R86). -/
def vectorsOf (func : Nat) : Nat := if func = 0 then 2048 else 64

/-- The opcodes whose HANDLE "must be zero". -/
def handleZero (d : Word512) : Bool :=
  let op := dOp d
  op == Op.seqOpen || op == Op.fence || op == Op.stepPlan || op == Op.prefixLookup || op == Op.prefixRetire ||
    op == Op.tableLoad || isClassF op || op == Op.blankMount || (op == Op.hint && dF d 8 1 == 3)

/-- Enumerations and combinations of fields (step 3 of R101) beyond reserved bits, per opcode. -/
def fieldsOk (func : Nat) (d : Word512) : Bool :=
  let op := dOp d
  (!handleZero d || dHandle d == 0) &&
  (if op = Op.seqFork then !(decide (dHandle d ≠ 0) && decide (dF d 8 8 ≠ 0))
   else if op = Op.kvAppend then decide (dF d 20 1 ≤ 1)
   else if op = Op.fence then decide (dF d 8 1 ≤ 1)
   else if op = Op.hint then decide (1 ≤ dF d 8 1) && decide (dF d 8 1 ≤ 3)
   else if op = Op.statsRead then decide (dF d 8 1 ≤ 1) && decide (dF d 9 1 ≤ 1) &&
     !(dF d 8 1 == 1 && dHandle d != 0)
   else if op = Op.stepPlan then decide (dF d 12 4 ≤ 65536) && decide (dF d 16 1 ≤ 1)
   else if op = Op.attend then
     !(dFlag d 0 && decide (dHandle d > 4096)) && decide (dF d 10 1 / 16 % 4 ≤ 1) && dF d 10 1 / 64 == 0 &&
       !(dF d 10 1 / 16 % 4 == 0 && dF d 10 1 / 4 % 4 == 3) && !(dFlag d 2 && dF d 10 1 / 16 % 4 == 1) &&
       decide (dF d 24 1 ≤ 1) && decide (dF d 25 1 ≤ 1)
   else if op = Op.pagesDeliver then decide (dF d 24 1 ≤ 1)
   else if op = Op.pagesPlace then (!dFlag d 1 || decide (dF d 20 1 ≤ 3)) && dF d 21 1 / 16 % 4 != 3 &&
     dF d 21 1 / 64 == 0
   else if op = Op.prefixLookup then decide (dF d 24 1 ≤ 1) && decide (dF d 25 1 ≤ 2) && decide (dF d 26 1 ≤ 1)
   else if op = Op.prefixPublish then decide (dF d 20 1 ≤ 1) && decide (dF d 16 4 ≤ 16777215)
   else if op = Op.prefixRetire then decide (dF d 20 1 ≤ 1)
   else if op = Op.tableLoad then decide (dF d 10 1 ≤ 1) && dF d 8 2 != 0
   else if op = Op.regionRegister then decide (dF d 8 1 ≤ 1) && dF d 9 1 / 16 == 0 && dF d 9 1 % 16 != 0 &&
     (dF d 32 4 == 0 || (isPow2In (dF d 32 4) 16 65536 && dF d 24 8 % 64 == 0 &&
       (dF d 36 2 == 65535 || decide (dF d 36 2 < vectorsOf func))))
   else if op = Op.rmaWrite ∨ op = Op.rmaWriteImm ∨ op = Op.rmaRead then decide (dF d 10 1 ≤ 1)
   else if op = Op.wrArm then dF d 8 2 != 0
   else if op = Op.blankMount then decide (dF d 8 1 ≤ 1) && decide (dF d 9 1 ≤ 2)
   else true)

/-- Steps 1 to 3 of R101: the status of the first check that fails. `boot` says the queue is the bootstrap
context's, which accepts only BLANK_MOUNT, FENCE and STATS_READ (R486). -/
def staticCheck (func : Nat) (boot : Bool) (d : Word512) : Option Nat :=
  let op := dOp d
  if !opcodes.contains op then some St.badOpcode
  else if (op = Op.blankMount ∧ func ≠ 0) ∨
      (boot ∧ op ≠ Op.blankMount ∧ op ≠ Op.fence ∧ op ≠ Op.statsRead) then some St.accessDenied
  else if dF d 1 1 / 4 % 4 ≠ 0 ∨ Nat.land (dF d 1 1 / 16) (15 - opFlagsMask op) ≠ 0 ∨
      !((reservedBytes d).all (rangeZero d)) ∨ !fieldsOk func d then some St.badField
  else none

/-! ## Operand spaces -/

def mkSpace (sp rkey addr : Nat) : Space := if sp = 1 then .region rkey addr else .host addr

/-- Source of a KV_APPEND (Table 2.11). -/
def dSrc (d : Word512) : Space := mkSpace (dF d 20 1) (dF d 32 4) (dF d 24 8)
/-- 40-bit POS of a KV_APPEND (R44). -/
def dPos (d : Word512) : Nat := dF d 8 4 + dF d 21 1 * two32
/-- 40-bit FORK_LEN of a SEQ_FORK. -/
def dForkLen (d : Word512) : Nat := dF d 16 4 + dF d 20 1 * two32
/-- Queries, batch list and bitmaps of an ATTEND lie in the query space (Table 4.4). -/
def dQSpace (d : Word512) (addr : Nat) : Space := mkSpace (dF d 24 1) (dF d 28 4) addr
def dOSpace (d : Word512) (addr : Nat) : Space := mkSpace (dF d 25 1) (dF d 40 4) addr
/-- Plan list of a STEP_PLAN. -/
def dPlanList (d : Word512) : Space := mkSpace (dF d 16 1) (dF d 20 4) (dF d 24 8)
/-- Destination of a PAGES_DELIVER. -/
def dDeliver (d : Word512) : Space := mkSpace (dF d 24 1) (dF d 28 4) (dF d 32 8)
/-- Destination of a STATS_READ. -/
def dStatsDst (d : Word512) : Space := mkSpace (dF d 9 1) (dF d 12 4) (dF d 16 8)
/-- Token IDs and result record of a PREFIX_LOOKUP; token IDs of a PREFIX_PUBLISH. -/
def dTokens (d : Word512) : Space :=
  if dOp d = Op.prefixLookup then mkSpace (dF d 24 1) (dF d 28 4) (dF d 32 8)
  else mkSpace (dF d 20 1) (dF d 24 4) (dF d 28 8)
def dResult (d : Word512) : Space := mkSpace (dF d 26 1) (dF d 40 4) (dF d 44 8)
/-- Image of a TABLE_LOAD, blank of a BLANK_MOUNT. -/
def dImage (d : Word512) : Space := mkSpace (dF d 10 1) (dF d 12 4) (dF d 16 8)
def dBlank (d : Word512) : Space := mkSpace (if dF d 9 1 = 1 then 1 else 0) (dF d 12 4) (dF d 16 8)
/-- Local range of an RMA command. -/
def dLocal (d : Word512) : Space := mkSpace (dF d 10 1) (dF d 12 4) (dF d 16 8)

/-- The operand and output ranges a command names in its descriptor. -/
def cmdSpaces (d : Word512) : List Space :=
  let op := dOp d
  if op = Op.kvAppend then [dSrc d] else if op = Op.stepPlan then [dPlanList d]
  else if op = Op.attend then [dQSpace d 0, dOSpace d 0] else if op = Op.pagesDeliver then [dDeliver d]
  else if op = Op.statsRead then [dStatsDst d] else if op = Op.prefixLookup then [dTokens d, dResult d]
  else if op = Op.prefixPublish then [dTokens d] else if op = Op.tableLoad then [dImage d]
  else if op = Op.blankMount then [dBlank d] else []

/-- A region operand whose region is no longer live. -/
def State.spaceRevoked (s : State) (ctx : Nat) : Space → Bool
  | .host _ => false
  | .region k _ => (s.region? ctx k).isNone

/-! ## Lists -/

/-- Does the command's list have to be read before its sequences are known (ATTEND with BATCH, STEP_PLAN)? -/
def hasList (d : Word512) : Bool :=
  (dOp d == Op.attend && dFlag d 0 && dHandle d != 0) || (dOp d == Op.stepPlan && dF d 12 4 != 0 && dF d 10 2 != 0)

/-- Bytes of that list: 16 per entry (R149, R160). -/
def listBytes (d : Word512) : Nat := if dOp d = Op.attend then dHandle d * 16 else dF d 12 4 * 16

def listSpace (d : Word512) : Space :=
  if dOp d = Op.attend then dQSpace d (dF d 56 8) else dPlanList d

/-- The 16-byte entries of a list. -/
def listEntries (n : Nat) (l : List Byte) : List (List Byte) := (List.range n).map fun i => bytesAt l (16 * i) 16

/-- Sequence handles a command names, through HANDLE or its list (R106). -/
def cmdSeqs (k : Cmd) : List Nat :=
  let d := k.desc
  let op := dOp d
  if hasList d then
    match k.reads with
    | l :: _ => (listEntries (listBytes d / 16) l).map fun e => leAt e 0 4
    | [] => []
  else if op = Op.seqFork ∨ op = Op.seqClose ∨ op = Op.kvAppend ∨ op = Op.statsRead ∨ op = Op.attend ∨
      op = Op.pagesDeliver ∨ op = Op.pagesPlace ∨ op = Op.pagesDrop ∨ op = Op.prefixPublish ∨
      (op = Op.hint ∧ dF d 8 1 ≠ 3) then
    (if dHandle d = 0 then [] else [dHandle d])
  else []

/-- Class M for a sequence it names (Table 3.4); SEQ_FORK only reads its source. -/
def isClassM (op : Nat) : Bool :=
  op == Op.seqClose || op == Op.kvAppend || op == Op.pagesPlace || op == Op.pagesDrop

/-- Are all sequences of the command known? -/
def seqsKnown (k : Cmd) : Bool := !hasList k.desc || !k.reads.isEmpty

/-- Do two commands of one queue conflict under R106? An unread list counts as naming every sequence. -/
def conflicts (a b : Cmd) : Bool :=
  (isClassM (dOp a.desc) || isClassM (dOp b.desc)) &&
    (if seqsKnown a && seqsKnown b then (cmdSeqs a).any fun h => (cmdSeqs b).contains h
     else (hasList a.desc || !(cmdSeqs a).isEmpty) && (hasList b.desc || !(cmdSeqs b).isEmpty))

/-- Commands of the same queue admitted before `k`. -/
def State.earlier (s : State) (k : Cmd) : List Cmd :=
  s.cmds.filter fun x => x.id.q == k.id.q && decide (x.adm < k.adm)

/-- May a waiting command start (R105 to R108, R354)? -/
def State.mayStart (s : State) (k : Cmd) : Bool :=
  let e := s.earlier k
  e.all (fun x => x.st == .running || x.id == k.id) && k.owed == 0 && seqsKnown k &&
  e.all (fun x => dOp x.desc != Op.fence) &&
  (!dOrd k.desc || e.isEmpty) &&
  e.all (fun x => !conflicts x k) &&
  (!(dOp k.desc == Op.regionRegister || dOp k.desc == Op.regionRevoke) || e.all (fun x => !isClassF (dOp x.desc)))

end Sys2Proof.Machine
end

