-- ==== Sys2Proof/Machine/Queues.lean ====
section
/-! DEFINITION. QDB (chapter 3): doorbells, the queue operations of CTXW_QCMD, message generation, admission and fetch,
and the running of a command's row. -/

namespace Sys2Proof.Machine

/-! ## Ownership -/

/-- The context that owns queue group `g` (R74). -/
def State.groupCtx? (s : State) (g : Nat) : Option Ctx := s.ctxs.find? fun x => x.r.groups.contains g

/-- The groups of function `f`, ascending (R75). -/
def State.groupsOf (s : State) (f : Nat) : List Nat :=
  (List.range 2048).filter fun g => match s.groupCtx? g with
    | some x => x.r.func == f
    | none => false

/-- Is `ctx` owned by function `f`? Its window answers that function alone (R543). -/
def State.ownsWindow (s : State) (f ctx : Nat) : Bool :=
  match s.ctx? ctx with
  | some x => x.r.func == f
  | none => false

/-! ## Doorbells (R74, R75, R81 to R84) -/

def State.ignoreDb (s : State) : State := s.bump F.QDB_STAT_DB_IGNORED

/-- R82: evaluate producer index `p` for an ENABLED queue. -/
def State.ringDoorbell (s : State) (w : Wq) (p : Nat) : State :=
  let d := (p + two32 - w.pi) % two32
  if d = 0 ∨ d ≥ 2147483648 then s
  else if (p + two32 - w.fi) % two32 > w.entries then s.stopQueue w.q St.badField
  else s.setWq w.q fun x => { x with pi := p }

/-- A doorbell value for queue `q`: R83 for a queue that is not ENABLED, or whose context is DOWN or TEARING (R402). -/
def State.evalDoorbell (s : State) (q p : Nat) : State :=
  match s.wq? q with
  | none => s.ignoreDb
  | some w =>
    if w.st = .enabled ∧ (s.ctx? w.ctx).any (fun x => x.st == .up) then s.ringDoorbell w (p % two32) else s.ignoreDb

/-- The queue a BAR2 offset of function `f` names: `none` where no queue is named and nothing is counted, and
`some none` where the write is counted as ignored (R74, R75). -/
def State.bar2Queue (s : State) (f off : Nat) : Option (Option Nat) :=
  if f = 0 then
    match s.groupCtx? (off / 4096) with
    | some x => if x.r.func = 0 then some (some (off / 8)) else some none
    | none => some none
  else
    match (s.groupsOf f)[off / 4096]? with
    | some g => if off / 4096 < (s.blank.map (·.bar2Pages)).getD 1 then some (some (g * 512 + off % 4096 / 8)) else none
    | none => none

/-- What a read of BAR2 returns (Table 3.1): the last accepted producer index below, the fetch index above; zero where the
function has no queue there (R74, R75) or the queue is ABSENT. -/
def State.bar2Read (s : State) (f off bytes : Nat) : Nat :=
  match s.bar2Queue f (off / 8 * 8) with
  | some (some q) => match s.wq? q with
    | none => 0
    | some w => if bytes = 8 then w.pi + w.fi * two32 else if off % 8 = 4 then w.fi else w.pi
  | _ => 0

/-- DOORBELL_WRITE. A 32-bit write to the upper half is ignored (R81), a misaligned or narrow one is discarded and counted (R13).
An ENABLED queue with DB_IMM ignores a BAR2 doorbell (R84); where it is not ENABLED the write is ignored and counted (R83): that the
ENABLED case is not counted is a DESIGN CHOICE, log 100, since R84 does not say. -/
def execDoorbell (f off bytes : Nat) (v : Word64) (s : State) : State :=
  if !accessOk off bytes then s.badAccess off bytes
  else if off % 8 ≠ 0 then s
  else match s.bar2Queue f off with
    | none => s
    | some none => s.ignoreDb
    | some (some q) => match s.wq? q with
      | some w => if w.dbImm ∧ w.st = .enabled then s else (s.evalDoorbell q (v.toNat % two32)).wakeDb
      | none => s.ignoreDb.wakeDb

/-! ## CTXW_QCMD (R85 to R90, R550) -/

/-- The window registers a queue operation reads. -/
structure QSel where
  kind : Nat
  id : Nat
deriving DecidableEq, Repr

def State.qsel (s : State) (c : Nat) : QSel :=
  ⟨s.fld F.CTXW_QSEL_KIND 0 c, s.fld F.CTXW_QSEL_ID 0 c⟩

/-- Record the result of an operation. -/
def State.qResult (s : State) (c r : Nat) : State := s.setFld F.CTXW_QSTAT_RESULT r 0 c

/-- A queue operation is taken when the function owns the window and no operation runs (R89); a context that is not
UP gets ACCESS_DENIED (R402). In HOLD, PARK or an exit it starts an exit and takes effect after it, BUSY meanwhile
(R497); `code` is its OP code. -/
def State.qOp (s : State) (f c code : Nat) (op : Ctx → State) : State :=
  if !s.ownsWindow f c then s
  else match s.ctx? c with
    | none => s
    | some x => if s.fld F.CTXW_QSTAT_BUSY 0 c = 1 then s
      else if s.asleep then
        let s := (s.setFld F.CTXW_QSTAT_BUSY 1 0 c).wakeUp 0
        { s with pm := { s.pm with deferred := s.pm.deferred ++ [(code, f, c)] } }
      else if x.st ≠ .up then s.qResult c St.accessDenied
      else op x

/-- Does the selected object exist? -/
def State.objExists (s : State) (c : Nat) (q : QSel) : Bool :=
  if q.kind = 0 then (s.wq? q.id).isSome else if q.kind = 1 then (s.cq? (c * 64 + q.id)).isSome else (s.eq? c).isSome

/-- First conditions of R86 and R550: KIND, ID, group. -/
def selCheck (x : Ctx) (q : QSel) : Option Nat :=
  if q.kind = 3 then some St.badField
  else if (q.kind = 1 ∧ q.id > 63) ∨ (q.kind = 2 ∧ q.id ≠ 0) then some St.badField
  else if q.kind = 0 ∧ !x.r.groups.contains (q.id / 512) then some St.accessDenied
  else none

/-- Remaining conditions of R86, in order; `none` is OK. -/
def State.createCheck (s : State) (x : Ctx) (q : QSel) : Option Nat :=
  let c := x.r.ctx
  let ents := s.fld F.CTXW_QATTR_ENTRIES 0 c
  let space := s.fld F.CTXW_QBASE_SPACE 0 c
  let base := s.fld F.CTXW_QBASE_ADDR 0 c * 64
  let bytes := ents * (if q.kind = 0 then 64 else 32)
  let cqid := s.fld F.CTXW_QATTR_CQID 0 c
  let rkey := s.fld F.CTXW_QRKEY_RKEY 0 c
  match selCheck x q with
  | some r => some r
  | none =>
    if !isPow2In ents 16 (if q.kind = 2 then 4096 else 65536) then some St.badField
    else if base % min bytes 4096 ≠ 0 ∨ (space = 0 ∧ base + bytes > 2 ^ 64) then some St.badField
    else if s.objExists c q then some St.badField
    else if q.kind ≠ 0 ∧ space = 1 then some St.badField
    else if s.fld F.CTXW_QATTR_DB_IMM 0 c = 1 ∧ !(q.kind == 0 && space == 1) then some St.badField
    else if s.fld F.CTXW_QATTR_VECTOR 0 c ≥ vectorsOf x.r.func then some St.badField
    else if q.kind = 0 ∧ cqid / 64 ≠ c then some St.accessDenied
    else if q.kind = 0 ∧ (s.cq? cqid).isNone then some St.badHandle
    else if q.kind = 0 ∧ space = 1 then
      match s.region? c rkey with
      | none => some St.badHandle
      | some r => if r.hostMem || !r.canRead then some St.accessDenied
        else if base + bytes > r.len then some St.lengthLimit else none
    else none

/-- The new object, with every index at zero (R85). -/
def State.createObj (s : State) (c : Nat) (q : QSel) : State :=
  let ents := s.fld F.CTXW_QATTR_ENTRIES 0 c
  let base := s.fld F.CTXW_QBASE_ADDR 0 c * 64
  let vec := s.fld F.CTXW_QATTR_VECTOR 0 c
  let cnt := s.fld F.CTXW_QMOD_COUNT 0 c
  let tim := s.fld F.CTXW_QMOD_TIME 0 c
  if q.kind = 0 then
    { s with qdb := { s.qdb with wqs := s.qdb.wqs ++ [
      { q := q.id, ctx := c, st := .enabled, region := s.fld F.CTXW_QBASE_SPACE 0 c = 1, base := base,
        entries := ents, cqid := s.fld F.CTXW_QATTR_CQID 0 c, rkey := s.fld F.CTXW_QRKEY_RKEY 0 c,
        dbImm := s.fld F.CTXW_QATTR_DB_IMM 0 c = 1, pi := 0, fi := 0 }] } }
  else if q.kind = 1 then
    { s with qdb := { s.qdb with cqs := s.qdb.cqs ++ [
      { id := c * 64 + q.id, base := base, entries := ents, vector := vec, count := cnt, time := tim,
        wi := 0, ci := 0, arm := false, pend := 0, first := 0 }] } }
  else
    { s with qdb := { s.qdb with eqs := s.qdb.eqs ++ [
      { ctx := c, base := base, entries := ents, vector := vec, count := cnt, time := tim,
        wi := 0, ci := 0, arm := false, pend := 0, first := 0, ovf := false }] } }

/-- CREATE (R86). -/
def execCreateF (f c : Nat) (s : State) : State :=
  s.qOp f c 1 fun x =>
    match s.createCheck x (s.qsel c) with
    | some r => s.qResult c r
    | none => (s.createObj c (s.qsel c)).qResult c St.ok

/-- The queue leaves the part: ABSENT. -/
def State.dropWq (s : State) (q : Nat) : State :=
  { s with qdb := { s.qdb with wqs := s.qdb.wqs.filter fun w => w.q ≠ q
                               qcache := s.qdb.qcache.filter (· ≠ q) } }

/-- Complete every listed command with one status. -/
def State.completeAll (s : State) (st : Nat) : List Cmd → State
  | [] => s
  | k :: t => (s.complete k.id st).completeAll st t

/-- Admitted and arrived, but not started (R87). A command whose ring read is out gets its record when the read returns its
TAG. -/
def unstarted (k : Cmd) : Bool := k.st == .waiting || (k.st == .running && armWaiting k)

/-- DESTROY of a work queue (R87): fetching stops, admitted commands that have not started are cancelled, and the
queue drains; with none left it is ABSENT at once. -/
def State.destroyWq (s : State) (c q : Nat) : State :=
  let s := s.setWq q fun w => { w with st := .draining }
  let s := s.completeAll St.cancelled (s.cmds.filter fun k => k.id.q == q && unstarted k)
  if s.cmds.any (fun k => k.id.q == q) then s.setFld F.CTXW_QSTAT_BUSY 1 0 c
  else (s.dropWq q).qResult c St.ok

/-- Conditions of R550 for DESTROY, STOP and RESUME on a selected object. -/
def State.qCheck (s : State) (x : Ctx) (q : QSel) (destroy stop : Bool) : Option Nat :=
  match selCheck x q with
  | some r => some r
  | none =>
    if !destroy ∧ q.kind ≠ 0 then some St.badField
    else if !s.objExists x.r.ctx q then some St.badHandle
    else if q.kind ≠ 0 then
      (if q.kind = 1 ∧ s.qdb.wqs.any (fun w => w.cqid == x.r.ctx * 64 + q.id) then some St.busyRetry else none)
    else match s.wq? q.id with
      | none => some St.badHandle
      | some w =>
        if destroy then (if w.st = .draining then some St.badField else none)
        else if stop then (if w.st = .draining then some St.badField else none)
        else (if w.st = .stopped then none else some St.badField)

/-- DESTROY (R87, R88, R550). -/
def execDestroyF (f c : Nat) (s : State) : State :=
  s.qOp f c 2 fun x =>
    let q := s.qsel c
    match s.qCheck x q true false with
    | some r => s.qResult c r
    | none =>
      if q.kind = 0 then s.destroyWq c q.id
      else if q.kind = 1 then
        ({ s with qdb := { s.qdb with cqs := s.qdb.cqs.filter fun z => z.id ≠ c * 64 + q.id } }).qResult c St.ok
      else ({ s with qdb := { s.qdb with eqs := s.qdb.eqs.filter fun z => z.ctx ≠ c } }).qResult c St.ok

/-- STOP (R85): fetching halts; a STOPPED queue stays as it is. -/
def execStopF (f c : Nat) (s : State) : State :=
  s.qOp f c 3 fun x =>
    match s.qCheck x (s.qsel c) false true with
    | some r => s.qResult c r
    | none => (s.setWq (s.qsel c).id fun w => { w with st := .stopped }).qResult c St.ok

/-- RESUME (R85): ENABLED again, accepted index = fetch index. -/
def execResumeF (f c : Nat) (s : State) : State :=
  s.qOp f c 4 fun x =>
    match s.qCheck x (s.qsel c) false false with
    | some r => s.qResult c r
    | none => (s.setWq (s.qsel c).id fun w => { w with st := .enabled, pi := w.fi }).qResult c St.ok

/-- STATE codes of CTXW_QSTAT. -/
def wqCode : WqSt → Nat
  | .enabled => 1 | .stopped => 2 | .draining => 3

/-- Load the parameter registers (QUERY). -/
def State.loadQ (s : State) (c space base ents cqid vec dbImm rkey cnt tim st : Nat) : State :=
  let s := (s.setFld F.CTXW_QBASE_SPACE space 0 c).setFld F.CTXW_QBASE_ADDR (base / 64) 0 c
  let s := (s.setFld F.CTXW_QATTR_ENTRIES ents 0 c).setFld F.CTXW_QATTR_CQID cqid 0 c
  let s := (s.setFld F.CTXW_QATTR_VECTOR vec 0 c).setFld F.CTXW_QATTR_DB_IMM dbImm 0 c
  let s := (s.setFld F.CTXW_QRKEY_RKEY rkey 0 c).setFld F.CTXW_QMOD_COUNT cnt 0 c
  (s.setFld F.CTXW_QMOD_TIME tim 0 c).setFld F.CTXW_QSTAT_STATE st 0 c

/-- QUERY (R85, R550). An ABSENT object loads zeros. A work queue has no VECTOR, COUNT or TIME that CREATE would keep (R86, R98):
QUERY loads 0 there, which is a DESIGN CHOICE (log 101). -/
def execQueryF (f c : Nat) (s : State) : State :=
  s.qOp f c 5 fun x =>
    let q := s.qsel c
    match selCheck x q with
    | some r => s.qResult c r
    | none =>
      let absent := s.loadQ c 0 0 0 0 0 0 0 0 0 0
      let t := if q.kind = 0 then
          match s.wq? q.id with
          | some w => s.loadQ c (if w.region then 1 else 0) w.base w.entries w.cqid 0 (if w.dbImm then 1 else 0)
              w.rkey 0 0 (wqCode w.st)
          | none => absent
        else if q.kind = 1 then
          match s.cq? (c * 64 + q.id) with
          | some z => s.loadQ c 0 z.base z.entries 0 z.vector 0 0 z.count z.time 1
          | none => absent
        else match s.eq? c with
          | some z => s.loadQ c 0 z.base z.entries 0 z.vector 0 0 z.count z.time 1
          | none => absent
      t.qResult c St.ok

/-- QUEUE_DRAINED (R90): a DRAINING queue without commands in flight becomes ABSENT, and DESTROY ends. -/
def execDrained (q : Nat) (s : State) : State :=
  match s.wq? q with
  | none => s
  | some w =>
    if w.st = .draining ∧ !s.cmds.any (fun k => k.id.q == q) then
      let s := s.dropWq q
      if s.fld F.CTXW_QSTAT_BUSY 0 w.ctx = 1 then (s.setFld F.CTXW_QSTAT_BUSY 0 0 w.ctx).qResult w.ctx St.ok else s
    else s

/-! ## Consumer indices and messages (R96, R98) -/

/-- Does moving the consumer index from `ci` to `n` stay within the records written? -/
def ciOk (ci wi n : Nat) : Bool := decide ((n + two32 - ci) % two32 ≤ (wi + two32 - ci) % two32)

/-- Write of CTXW_CQ_DB: consumer index (if that half is written) and ARM. -/
def State.cqDb (s : State) (c n : Nat) (ci : Option Nat) (arm : Bool) : State :=
  let i := c * 64 + n
  ((s.setCq i fun q => { q with
      ci := match ci with
        | some v => if ciOk q.ci q.wi v then v else q.ci
        | none => q.ci
      arm := q.arm || arm })).cqMsix i

/-- Write of CTXW_EQ_DB. -/
def State.eqDb (s : State) (c : Nat) (ci : Option Nat) (arm : Bool) : State :=
  ((s.setEq c fun q => { q with
      ci := match ci with
        | some v => if ciOk q.ci q.wi v then v else q.ci
        | none => q.ci
      arm := q.arm || arm })).eqMsix c

/-- CQ_DOORBELL_WRITE: a 64-bit write of CTXW_CQ_DB. -/
def execCqDb (f c n : Nat) (v : Word64) (s : State) : State :=
  if s.ownsWindow f c && decide (n < 64) then
    ((s.dropHalves f (windowBase c + 0x100 + 8 * n)).cqDb c n (some (v.toNat % two32)) (v.toNat / two32 % 2 = 1)).wakeDb
  else s

/-- EQ_DOORBELL_WRITE: a 64-bit write of CTXW_EQ_DB. -/
def execEqDb (f c : Nat) (v : Word64) (s : State) : State :=
  if s.ownsWindow f c then
    ((s.dropHalves f (windowBase c + 0x300)).eqDb c (some (v.toNat % two32)) (v.toNat / two32 % 2 = 1)).wakeDb
  else s

/-- MSIX_HOLD_EXPIRE (R98): TIME µs have passed since the first pending record; an armed queue sends its message, one that is
not armed sends it when ARM is set. -/
def execHold (c : Nat) (isEq : Bool) (n : Nat) (s : State) : State :=
  if isEq then
    match s.eq? c with
    | some q => if 1 ≤ q.pend then (s.reach (q.first + q.time * cyclesPerUs)).eqMsix c else s
    | none => s
  else
    match s.cq? (c * 64 + n) with
    | some q => if 1 ≤ q.pend then (s.reach (q.first + q.time * cyclesPerUs)).cqMsix (c * 64 + n) else s
    | none => s

/-! ## Admission and fetch (R95, R111, R112) -/

/-- *count_c* and *total*. -/
def State.countOf (s : State) (c : Nat) : Nat := (s.cmds.filter fun k => k.ctx == c).length
def State.total (s : State) : Nat := s.cmds.length

/-- Slots of completion queue `i` reserved by commands in flight. -/
def State.reservedSlots (s : State) (i : Nat) : Nat :=
  (s.cmds.filter fun k => match s.wq? k.id.q with
    | some w => w.cqid == i
    | none => false).length

/-- A slot of the completion queue for one more command (R95). -/
def State.cqFree (s : State) (i : Nat) : Bool :=
  match s.cq? i with
  | none => false
  | some q => decide (s.reservedSlots i + 1 + (q.wi + two32 - q.ci) % two32 ≤ q.entries)

/-- Σ over every context of max(0, min_x − count_x) (R111). -/
def State.reservedMin (s : State) : Nat := (s.ctxs.map fun x => x.r.minC - s.countOf x.r.ctx).foldl (· + ·) 0

/-- May QDB fetch at all? Not after a device-level error (R24), nor while the part leaves ACTIVE (R495, R496). -/
def State.fetching (s : State) : Bool :=
  !s.dead && (s.fld F.GLB_PM_STAT_STATE == 0 || (s.fld F.GLB_PM_STAT_STATE == 4 && s.entryWaits))

/-- The queue is admissible (R111). -/
def State.admissible (s : State) (w : Wq) : Bool :=
  s.fetching && w.st == .enabled && w.pi != w.fi && s.cqFree w.cqid &&
  match s.ctx? w.ctx with
  | none => false
  | some x => x.st == .up && decide (s.countOf w.ctx < x.r.maxC) &&
      (decide (s.countOf w.ctx < x.r.minC) || decide (s.total + s.reservedMin < 65536))

/-- First element above `last` in ascending order, else the lowest: one round-robin turn. R112 fixes neither the order nor where
it begins: ascending numbers, the first turn after reset above number 0, are a DESIGN CHOICE (log 102). -/
def roundRobin (l : List Nat) (last : Nat) : Option Nat :=
  let least (m : List Nat) : Option Nat := m.foldl (fun a b => match a with
    | none => some b
    | some x => some (min x b)) none
  match least (l.filter fun x => decide (last < x)) with
  | some x => some x
  | none => least l

/-- QDB_FETCH_CFG.BURST as it acts (Table 3.21). -/
def State.burst (s : State) : Nat :=
  let b := s.fld F.QDB_FETCH_CFG_BURST
  if b = 0 then 1 else min b 8

/-- A fresh in-flight record (admission of slot `idx`). -/
def newCmd (q idx ctx adm lvl : Nat) : Cmd :=
  { id := ⟨q, idx⟩, ctx := ctx, adm := adm, st := .fetching, desc := 0, armed := none, reads := [], owed := 0,
    tlvl := lvl, ae := 0, bytes := 0, rcp := none, fail := none, todo := [], count := 0, mark := 0, alloc := none,
    pinned := [], met := [], since := 0, err := none, armNo := 0, writes := [], waited := false, readPin := none, refInfo := none }

/-- Address of a ring slot. -/
def Wq.slotAddr (w : Wq) (idx : Nat) : Nat := w.base + 64 * (idx % w.entries)

/-- Admit the next descriptor of queue `q` and issue its ring read; a ring in a region is read inside the part. -/
def State.admitOne (s : State) (w : Wq) : State :=
  let c : CmdId := ⟨w.q, w.fi⟩
  let s := { s with cmds := s.cmds ++ [newCmd w.q w.fi w.ctx s.qdb.admitted 0]
                    qdb := { s.qdb with admitted := s.qdb.admitted + 1 } }
  let s := s.setWq w.q fun x => { x with fi := (x.fi + 1) % two32 }
  if w.region then s else s.emit (.ringRead c (w.slotAddr w.fi) 64)

/-- Ring reads outstanding (R112). -/
def State.ringReads (s : State) : Nat := (s.cmds.filter fun k => k.st == CmdSt.fetching).length

/-- The DEVICE_ERROR event of R534, which follows the records of every command: it waits while a ring read is out. -/
def State.deadEvent (s : State) : State :=
  if s.ringReads = 0 then s.deviceEvent (devDetail 11 (s.fld F.RAS_DEVICE_ERR_DIE) 0) else s

/-- One turn: up to BURST descriptors of one queue, stopping when it ceases to be admissible; at most 256 ring reads are out
(R112). -/
def State.fetchTurn (s : State) (q : Nat) : Nat → State
  | 0 => s
  | n + 1 => match s.wq? q with
    | none => s
    | some w => if s.admissible w ∧ s.ringReads < 256 then (s.admitOne w).fetchTurn q n else s

/-- The queue-context cache of 32,768 entries (R113): a hit or a miss is counted, and the entry becomes the newest. That the
least recently used entry is replaced, and that one turn of DESCRIPTOR_FETCH counts once, are DESIGN CHOICES (log 102). -/
def State.touchCache (s : State) (q : Nat) : State :=
  let hit := s.qdb.qcache.contains q
  let s := { s with qdb := { s.qdb with qcache := (q :: s.qdb.qcache.filter (· ≠ q)).take 32768 } }
  s.bump (if hit then F.QDB_QCACHE_STAT_HITS else F.QDB_QCACHE_STAT_MISSES)

/-- DESCRIPTOR_FETCH: one turn of the round-robin over contexts, then over the context's queues (R112). -/
def execFetch (s : State) : State :=
  let adm := if s.ringReads < 256 then s.qdb.wqs.filter s.admissible else []
  match roundRobin (adm.map (·.ctx)) s.qdb.rrCtx with
  | none => s
  | some c =>
    match roundRobin ((adm.filter fun w => w.ctx == c).map (·.q)) (spGet 0 s.qdb.rrQ c) with
    | none => s
    | some q =>
      let s := { s with qdb := { s.qdb with rrCtx := c, rrQ := spSet 0 s.qdb.rrQ c q } }
      (s.touchCache q).fetchTurn q s.burst

/-! ## Running a command's row -/

/-- Start a command: the throttle level in force counts for TLVL (R93), and the CC cycles of its decoding and walk
are charged (Table 11.5; their number is a free value). -/
def State.startCmd (s : State) (c : CmdId) (ctx : Nat) : State :=
  ((s.setCmd c fun k => { k with st := .running, tlvl := max k.tlvl s.level }).chargeCc ctx
    (Config.ccCycles s.free)).nextFree

/-- Does a command name a spilled record? It waits (R38). -/
def State.spilledAny (s : State) (k : Cmd) : Bool :=
  (cmdSeqs k).any fun h => match s.seqOf? h with
    | some r => r.spilled
    | none => false

/-- The row of opcode `op` runs for command `c`: nothing happens while the command is absent, is another opcode's,
is still being fetched, waits for host data, or may not start yet; a failure already found completes it; on its first
run steps 4 and 5 of R101 (`check`) are made again, since an object may have gone since its fetch. -/
def State.runCmd (s : State) (c : CmdId) (ops : Word512 → Bool) (check : State → Cmd → Option Nat)
    (body : Cmd → State → State) : State :=
  match s.cmd? c with
  | none => s
  | some k =>
    if !ops k.desc || k.st == .fetching || k.owed != 0 || (k.st == .waiting && (!s.mayStart k || s.spilledAny k)) then s
    else match k.fail with
      | some st => s.complete c st
      | none =>
        if k.st = .running then body k s
        else
          let s := s.startCmd c k.ctx
          match check s k with
          | some st => s.complete c st
          | none => body { k with st := .running, tlvl := max k.tlvl s.level } s

/-- FENCE (R108): complete once every earlier command of the queue, or every command of the context admitted before
the FENCE, has completed. -/
def State.fenceBody (k : Cmd) (s : State) : State :=
  let scope := dF k.desc 8 1
  let before := if scope = 0 then s.earlier k else s.cmds.filter fun x => x.ctx == k.ctx && decide (x.adm < k.adm)
  if before.isEmpty then s.complete k.id St.ok else s

end Sys2Proof.Machine
end

