-- ==== Sys2Proof/Machine/Page.lean ====
section
/-! DEFINITION. Page geometry and formats (chapter 2): planes, tiles, element and scale decoding, the source layout of a
KV_APPEND and its checks, and the grain record. -/

namespace Sys2Proof.Machine

/-! ## Geometry (Tables 2.4, 2.8) -/

/-- Bytes of one token's elements in a section's element plane. -/
def elemTok (fmt d : Nat) : Nat := if fmt ≤ 1 then 2 * d else if fmt ≤ 6 then d else if fmt ≤ 8 then 3 * d / 4 else d / 2

/-- Formats with an E8M0 scale per 32 elements, one FP32 per token, one FP32 per page. -/
def fmtMx (fmt : Nat) : Bool := decide (5 ≤ fmt) && decide (fmt ≤ 9)
def fmtTok (fmt : Nat) : Bool := fmt == 4
def fmtPage (fmt : Nat) : Bool := fmt == 2 || fmt == 3

/-- Bytes of a section's scale plane (Table 2.4). -/
def scalePlane (fmt b d : Nat) : Nat :=
  if fmtMx fmt then b * d / 32 else if fmtTok fmt then 4 * b else if fmtPage fmt then 4 else 0

def elemPlane (fmt b d : Nat) : Nat := b * elemTok fmt d

/-- Largest decoded page: 64 tiles (R50). -/
def maxPageBytes : Nat := 65536

end Sys2Proof.Machine

namespace Sys2Proof

open Machine

def Profile.D (p : Profile) : Nat := [64, 96, 128, 192, 256, 512].getD p.hdim 64
def Profile.B (p : Profile) : Nat := 16 * 2 ^ p.block

def Profile.fmtOf (p : Profile) (isK : Bool) : Nat := if isK then p.kfmt else p.vfmt

/-- Offset of a section's scale plane and element plane in the decoded page (R48). -/
def Profile.scaleOff (p : Profile) (isK : Bool) : Nat :=
  if isK then 0 else scalePlane p.kfmt p.B p.D + elemPlane p.kfmt p.B p.D
def Profile.elemOff (p : Profile) (isK : Bool) : Nat := p.scaleOff isK + scalePlane (p.fmtOf isK) p.B p.D

/-- Decoded length Ldec of a page. -/
def Profile.ldec (p : Profile) : Nat := p.elemOff false + elemPlane p.vfmt p.B p.D

/-- Tiles of a page (R49). -/
def Profile.tiles (p : Profile) : Nat := max 4 ((p.ldec + 1023) / 1024)

/-- Live bytes of tile `k` (chapter 8). -/
def Profile.live (p : Profile) (k : Nat) : Nat := min 1024 (p.ldec - 1024 * k)

/-- Blocks that `n` tokens need. -/
def Profile.blocks (p : Profile) (n : Nat) : Nat := (n + p.B - 1) / p.B

/-- Is the profile record valid (R50, R54, R60, R124)? -/
def Profile.valid (p : Profile) : Bool :=
  let f (w : Word32) : Bool := let x := f32Of w.toNat; x.isFin && (x.isZero || !x.lt .zero)
  decide (1 ≤ p.layers) && decide (p.layers ≤ 1024) && decide (1 ≤ p.kvHeads) && decide (p.kvHeads ≤ 256) &&
  decide (1 ≤ p.qpk) && decide (p.qpk ≤ 64) && decide (p.hdim ≤ 5) && decide (p.kfmt ≤ 9) && decide (p.vfmt ≤ 9) &&
  decide (1 ≤ p.qfmts) && decide (p.qfmts ≤ 15) && decide (p.block ≤ 3) && decide (p.lgrp ≤ 10) &&
  !p.reservedBad && f p.scale && f p.softcap && f p.slope && decide (p.ldec ≤ maxPageBytes)

end Sys2Proof

namespace Sys2Proof.Machine

/-! ## Elements (R55 to R57) -/

/-- Decode one element code of a format (without scale). -/
def elemOf (fmt raw : Nat) : FV :=
  match fmt with
  | 0 => bf16Of raw
  | 1 => f16Of raw
  | 2 => e4m3Of raw
  | 3 => e5m2Of raw
  | 4 => int8Of raw
  | 5 => e4m3Of raw
  | 6 => e5m2Of raw
  | 7 => e3m2Of raw
  | 8 => e2m3Of raw
  | _ => e2m1Of raw

/-- Code of dimension `i` in one token's element bytes (R56). -/
def rawElem (fmt : Nat) (tok : List Byte) (i : Nat) : Nat :=
  if fmt ≤ 1 then leAt tok (2 * i) 2
  else if fmt ≤ 6 then leAt tok i 1
  else if fmt ≤ 8 then leAt tok (3 * (i / 4)) 3 / 2 ^ (6 * (i % 4)) % 64
  else leAt tok (i / 2) 1 / 16 ^ (i % 2) % 16

/-- The exact product element × scale before any rounding. -/
def exactVal (fmt : Nat) (e sc : FV) : FV := if fmt ≤ 1 then e else e.mul sc

/-- The decoded value as FP32 (R57): exact for E8M0 scales, rounded once for FP32 scales. -/
def decodeVal (fmt : Nat) (e sc : FV) : FV := if fmt ≤ 1 then e else if fmtMx fmt then e.mul sc else rn (e.mul sc)

/-- Scale of dimension `i` given one token's scale bytes: its MX bytes, its FP32, or the page's FP32. -/
def scaleOf (fmt : Nat) (sc : List Byte) (i : Nat) : FV :=
  if fmtMx fmt then e8m0Of (leAt sc (i / 32) 1) else f32Of (leAt sc 0 4)

/-- Values of one token from its element and scale bytes. -/
def tokenVec (fmt d : Nat) (el sc : List Byte) : List FV :=
  (List.range d).map fun i => decodeVal fmt (elemOf fmt (rawElem fmt el i)) (scaleOf fmt sc i)

/-- Scale bytes per token of the scale plane, 0 where the page holds one scale or none. -/
def scaleTok (fmt d : Nat) : Nat := if fmtMx fmt then d / 32 else if fmtTok fmt then 4 else 0

/-- K or V vector of a slot of a decoded page. -/
def slotVec (p : Profile) (isK : Bool) (data : List (Nat × Byte)) (slot : Nat) : List FV :=
  let f := p.fmtOf isK
  let el := memRead data (p.elemOff isK + slot * elemTok f p.D) (elemTok f p.D)
  let sc := if fmtPage f then memRead data (p.scaleOff isK) 4
    else memRead data (p.scaleOff isK + slot * scaleTok f p.D) (scaleTok f p.D)
  tokenVec f p.D el sc

/-- Zero every slot at or beyond `n` (R51, R65, R196). A page scale is kept. -/
def zeroSlots (p : Profile) (n : Nat) (data : List (Nat × Byte)) : List (Nat × Byte) :=
  let cut (isK : Bool) (a : Nat) : Bool :=
    let f := p.fmtOf isK
    let eo := p.elemOff isK
    let so := p.scaleOff isK
    (decide (eo + n * elemTok f p.D ≤ a) && decide (a < eo + p.B * elemTok f p.D)) ||
    (decide (so + n * scaleTok f p.D ≤ a) && decide (a < so + p.B * scaleTok f p.D))
  memZero data fun a => cut true a || cut false a

/-! ## Source layout of a KV_APPEND (R72) -/

/-- Token blocks a range of tokens touches. -/
def blocksTouched (p : Profile) (pos ntok : Nat) : Nat :=
  if ntok = 0 then 0 else (pos + ntok - 1) / p.B - pos / p.B + 1

/-- Bytes of the scale part of one fragment. -/
def scalePart (p : Profile) (isK : Bool) (pos ntok : Nat) : Nat :=
  let f := p.fmtOf isK
  if fmtPage f then 4 * blocksTouched p pos ntok else ntok * scaleTok f p.D

def fragBytes (p : Profile) (isK : Bool) (pos ntok : Nat) : Nat :=
  scalePart p isK pos ntok + ntok * elemTok (p.fmtOf isK) p.D

/-- Length of the whole source. -/
def srcLen (p : Profile) (pos ntok layers : Nat) : Nat :=
  layers * p.kvHeads * (fragBytes p true pos ntok + fragBytes p false pos ntok)

/-- Offset of the fragment of relative layer `l`, head `h`, section. -/
def fragOff (p : Profile) (pos ntok l h : Nat) (isK : Bool) : Nat :=
  (l * p.kvHeads + h) * (fragBytes p true pos ntok + fragBytes p false pos ntok) +
    (if isK then 0 else fragBytes p true pos ntok)

/-- Element bytes of token `t` (0-based) of a fragment, and its own scale bytes. -/
def srcElem (p : Profile) (src : List Byte) (pos ntok l h : Nat) (isK : Bool) (t : Nat) : List Byte :=
  let f := p.fmtOf isK
  bytesAt src (fragOff p pos ntok l h isK + scalePart p isK pos ntok + t * elemTok f p.D) (elemTok f p.D)

def srcScale (p : Profile) (src : List Byte) (pos ntok l h : Nat) (isK : Bool) (t : Nat) : List Byte :=
  let f := p.fmtOf isK
  let o := fragOff p pos ntok l h isK
  if fmtPage f then bytesAt src (o + 4 * ((pos + t) / p.B - pos / p.B)) 4
  else bytesAt src (o + t * scaleTok f p.D) (scaleTok f p.D)

/-- Largest finite FP32 magnitude. -/
def maxF32 : FV := .fin false 16777215 104

def FV.abs : FV → FV
  | .nan => .nan
  | .inf _ => .inf false
  | .fin _ m e => .fin false m e

/-- R58 for one token of one section: elements and scales finite, magnitudes in range under `use`, the scale bytes
with which the token will be decoded; `sc` are those carried in the source. -/
def tokenFinite (fmt d : Nat) (el sc use : List Byte) : Bool :=
  (List.range d).all fun i =>
    let e := elemOf fmt (rawElem fmt el i)
    let v := exactVal fmt e (scaleOf fmt use i)
    e.isFin && (decide (fmt ≤ 1) || (scaleOf fmt sc i).isFin) && v.isFin && !(maxF32.lt v.abs)

/-- Is the whole source finite (R58)? `pageScale l h isK blk` gives the existing scale of a page-scaled block whose
slot 0 this command does not write. -/
def srcFinite (p : Profile) (src : List Byte) (pos ntok layers : Nat)
    (pageScale : Nat → Nat → Bool → Nat → List Byte) : Bool :=
  (List.range layers).all fun l => (List.range p.kvHeads).all fun h => [true, false].all fun isK =>
    (List.range ntok).all fun t =>
      let f := p.fmtOf isK
      let sc := srcScale p src pos ntok l h isK t
      let blk := (pos + t) / p.B
      let use := if fmtPage f && decide (blk * p.B < pos) then pageScale l h isK blk else sc
      tokenFinite f p.D (srcElem p src pos ntok l h isK t) sc use

/-- Write token `t` of the source into a page's data. -/
def putToken (p : Profile) (src : List Byte) (pos ntok l h : Nat) (isK : Bool) (data : List (Nat × Byte))
    (t : Nat) : List (Nat × Byte) :=
  let f := p.fmtOf isK
  let slot := (pos + t) % p.B
  let data := memWrite data (p.elemOff isK + slot * elemTok f p.D) (srcElem p src pos ntok l h isK t)
  let sc := srcScale p src pos ntok l h isK t
  if fmtPage f then (if slot = 0 then memWrite data (p.scaleOff isK) sc else data)
  else memWrite data (p.scaleOff isK + slot * scaleTok f p.D) sc

/-- The tokens of the source that fall in block `blk` written into the page's data. -/
def putBlock (p : Profile) (src : List Byte) (pos ntok l h blk : Nat) (data : List (Nat × Byte)) : List (Nat × Byte) :=
  let ts := (List.range ntok).filter fun t => (pos + t) / p.B == blk
  ts.foldl (fun m t => putToken p src pos ntok l h false (putToken p src pos ntok l h true m t) t) data

/-! ## Grains (R52, R53) -/

def fvMin (a b : FV) : FV := if b.lt a then b else a
def fvMax (a b : FV) : FV := if a.lt b then b else a

/-- GSCALE exponent: the least e ≥ −149 with |v| ≤ 448 × 2^e. -/
def gscaleExp (v : FV) : Int :=
  match v with
  | .fin _ m e => if m = 0 then -149
      else
        let top : Int := e + Nat.log2 m
        let c := top - 8
        let c := if (FV.fin false 448 c).lt (.fin false m e) then c + 1 else c
        max c (-149)
  | .nan => -149
  | .inf _ => -149

/-- The grain of a page from its decoded K values: `n` tokens, version `ver`. -/
def buildGrain (p : Profile) (data : List (Nat × Byte)) (n ver : Nat) (sink : Bool) : Grain :=
  let ks := (List.range n).map (slotVec p true data)
  let g := p.D / 32
  let vals (j : Nat) : List FV := ks.flatMap fun k => (k.drop (j * g)).take g
  let mn (j : Nat) : FV := match vals j with
    | [] => .zero
    | a :: t => t.foldl fvMin a
  let mx (j : Nat) : FV := match vals j with
    | [] => .zero
    | a :: t => t.foldl fvMax a
  let big := (List.range 32).foldl (fun a j => fvMax a (fvMax (mn j).abs (mx j).abs)) .zero
  let ge := gscaleExp big
  let unscale (x : FV) : FV := x.mul (.fin false 1 (-ge))
  let mean (j : Nat) : FV := FV.divF32 ((vals j).foldl FV.add .zero) (.fin false (vals j).length 0)
  let norm (k : List FV) : FV := ((k.map fun x => x.mul x).foldl FV.add .zero).sqrtF32
  { tokens := n, version := ver, gsize := g, sink := sink
    gscale := BitVec.ofNat 32 (toF32 (.fin false 1 ge))
    knorm := BitVec.ofNat 32 (toF32 (ks.foldl (fun a k => fvMax a (norm k)) .zero))
    gmin := (List.range 32).map fun j => BitVec.ofNat 8 (toE4M3 .down (unscale (mn j)))
    gmax := (List.range 32).map fun j => BitVec.ofNat 8 (toE4M3 .up (unscale (mx j)))
    gmean := (List.range 32).map fun j => BitVec.ofNat 8 (toE4M3 .near (unscale (mean j))) }

end Sys2Proof.Machine
end

