-- ==== Sys2Proof/Machine/Codec.lean ====
section
/-! DEFINITION. The tile codec (chapter 8): tables, the decode table of R307, the expander of R317 and R318, the
compactor's rule of R315, frame headers, the tile check of R320 with its rebase of R316, the encryption and the tag of a
tile (R437, R438), and how a copy of a stored form is made, checked and decoded (R314, R323). -/

namespace Sys2Proof.Machine

/-- Is a carried table record valid (R306)? -/
def tableValid (r : TableRec) : Bool :=
  decide (r.tid < 4096) && decide (9 ≤ r.tlog) && decide (r.tlog ≤ 11) && r.freq.length == 256 &&
    r.freq.foldl (· + ·) 0 == 2 ^ r.tlog && !r.reservedBad && r.rcrcOk

/-- Symbols in the order the spreading loop places them: (position, symbol) pairs (R307). -/
def spreadFrom (size step : Nat) : Nat → List (Nat × Nat) → List (Nat × Nat)
  | _, [] => []
  | pos, (s, n) :: t =>
    (List.range n).map (fun i => ((pos + i * step) % size, s)) ++ spreadFrom size step ((pos + n * step) % size) t

/-- spread[x] for every state. -/
def spreadTable (tlog : Nat) (freq : List Nat) : List Nat :=
  let size := 2 ^ tlog
  let pl := spreadFrom size (size / 2 + size / 8 + 3) 0 ((List.range 256).zip freq)
  (List.range size).map fun x => ((pl.find? fun p => p.1 == x).map (·.2)).getD 0

/-- One state of the decode table: symbol, bit count, base. -/
structure DState where
  sym : Nat
  nb : Nat
  base : Nat
deriving DecidableEq, Repr

/-- The decode table (R307): `cnt` holds next[s] for the symbols met. -/
def decodeRows (tlog : Nat) (freq : List Nat) : List Nat → List (Nat × Nat) → List DState
  | [], _ => []
  | s :: t, cnt =>
    let n := spGet (freq.getD s 0) cnt s
    let nb := tlog - Nat.log2 n
    ⟨s, nb, n * 2 ^ nb - 2 ^ tlog⟩ :: decodeRows tlog freq t ((s, n + 1) :: cnt)

def decodeTable (tlog : Nat) (freq : List Nat) : List DState := decodeRows tlog freq (spreadTable tlog freq) []

/-- read(b) of R317: bits least significant first within each byte; `none` past the stream's end. -/
def readBits (st : List Byte) (pos b : Nat) : Option Nat :=
  if b = 0 then some 0
  else if pos + b > 8 * st.length then none
  else some (leNat (bytesAt st (pos / 8) 4) / 2 ^ (pos % 8) % 2 ^ b)

/-- Initial states of the active lanes. -/
def initLanes (tlog : Nat) (st : List Byte) : Nat → Nat → Option (List Nat)
  | _, 0 => some []
  | pos, n + 1 => match readBits st pos tlog with
    | none => none
    | some x => (initLanes tlog st (pos + tlog) n).map (x :: ·)

/-- Symbols `j .. live - 1`; `lanes` is rotated so that its head is lane j mod 64. -/
def decodeSyms (tab : List DState) (st : List Byte) (live : Nat) : Nat → Nat → Nat → List Nat → Option (List Byte × Nat)
  | 0, _, pos, _ => some ([], pos)
  | n + 1, j, pos, lanes => match lanes with
    | [] => some ([], pos)
    | x :: rest =>
      let d := tab.getD x ⟨0, 0, 0⟩
      if j + 64 < live then
        match readBits st pos d.nb with
        | none => none
        | some v => (decodeSyms tab st live n (j + 1) (pos + d.nb) (rest ++ [d.base + v])).map
            fun r => (BitVec.ofNat 8 d.sym :: r.1, r.2)
      else (decodeSyms tab st live n (j + 1) pos (rest ++ [x])).map fun r => (BitVec.ofNat 8 d.sym :: r.1, r.2)

/-- Outcome of expanding a tile (R318). -/
inductive Expanded where
  | bytes (b : List Byte)
  | short
  | long
deriving DecidableEq, Repr

/-- The expander on a coded tile (R317, R318). -/
def expandCoded (tlog : Nat) (freq : List Nat) (st : List Byte) (live : Nat) : Expanded :=
  match initLanes tlog st 0 (min 64 live) with
  | none => .short
  | some lanes =>
    match decodeSyms (decodeTable tlog freq) st live live 0 (tlog * min 64 live) lanes with
    | none => .short
    | some (b, c) => if st.length - (c + 7) / 8 > 15 then .long else .bytes b

/-- The expander on a raw tile. -/
def expandRaw (st : List Byte) (live : Nat) : Expanded :=
  if st.length < live then .short else if st.length > live + 15 then .long else .bytes (st.take live)

/-! ## The compactor (R308, R315) -/

/-- Bytes 0 to 523 of a table's record (Table 8.3). -/
def Table.bytes (t : Table) : List Byte :=
  leBytes 2 t.tid ++ leBytes 1 t.tlog ++ leBytes 1 0 ++ t.freq.flatMap (leBytes 2) ++ leBytes 8 0

/-- RCRC matches. -/
def Table.ok (t : Table) : Bool := t.rcrc == crc32c t.bytes

/-- A record of one copy of the store. -/
def findTable (l : List Table) (tid : Nat) : Option Table := l.find? fun t => t.tid == tid

/-- A loaded table by ID, from the copy whose RCRC matches (R310); 0xFFFF and unknown IDs mean raw. -/
def State.table? (s : State) (tid : Nat) : Option Table :=
  ((findTable s.tab.tables tid).filter Table.ok).or ((findTable s.tab.copyB tid).filter Table.ok)

/-- What an expander finds when it loads an ID: a record whose first copy passes, only the second, or neither (R310). -/
inductive TableLoad where
  | good | second | bad
deriving DecidableEq, Repr

def State.tableLoad (s : State) (tid : Nat) : TableLoad :=
  match findTable s.tab.tables tid with
  | none => .good
  | some t => if t.ok then .good else if ((findTable s.tab.copyB tid).filter Table.ok).isSome then .second else .bad

/-- Table IDs a write of layer `l` captures (R308): 0xFFFF is raw. -/
def State.captureTids (s : State) (p : Profile) (l : Nat) : Nat × Nat :=
  if p.tset = 0 then (65535, 65535)
  else match s.tab.sets.find? fun t => t.tset == p.tset with
    | none => (65535, 65535)
    | some t => t.bind.getD (l / 2 ^ p.lgrp) (65535, 65535)

/-- The table of tile `k`: K's when its byte 0 lies in a K plane (R308). -/
def tileTid (p : Profile) (tids : Nat × Nat) (k : Nat) : Nat := if 1024 * k < p.scaleOff false then tids.1 else tids.2

/-- Padded stored length. -/
def pad16 (n : Nat) : Nat := 16 * ((n + 15) / 16)

/-- What is stored of a tile before encryption: its bytes, RAW, and its CHECK. -/
structure Coded where
  stored : List Byte
  raw : Bool
  check : Nat
deriving DecidableEq, Repr

/-- The stored bytes the compactor makes of live bytes, offered the stream `st`, and RAW (R315). -/
def compact (tab : Option Table) (forceRaw : Bool) (live : List Byte) (st : List Byte) : List Byte × Bool :=
  match tab with
  | none => (live, true)
  | some t =>
    if forceRaw || live.isEmpty || live.any (fun b => t.freq.getD b.toNat 0 == 0) then (live, true)
    else if expandCoded t.tlog t.freq st live.length = .bytes live ∧ 8 * pad16 st.length ≤ 7 * live.length then
      (st, false)
    else (live, true)

/-- Live bytes of tile `k` of a decoded page. -/
def tileBytes (p : Profile) (data : List (Nat × Byte)) (k : Nat) : List Byte := memRead data (1024 * k) (p.live k)

/-! ## The tile check (R316, R320) -/

/-- The 8-byte seed of Table 8.6. -/
def tileSeed (pfh k ver : Nat) : List Byte := leBytes 5 pfh ++ leBytes 1 k ++ leBytes 2 ver

/-- CHECK of tile `k` whose live bytes are `live`, under a frame handle and version (R320): the seed, then the 1,024 bytes of
the tile, padding included. -/
def tileCheck (pfh k ver : Nat) (live : List Byte) : Nat := crc32c (tileSeed pfh k ver ++ bytesAt live 0 1024)

/-- CHECK of a kept tile under the next version, rebased without decoding (R316). -/
def rebaseCheck (chk pfh k v v' : Nat) : Nat :=
  let z : List Byte := List.replicate 1024 0
  let z8 : List Byte := List.replicate 8 0
  Nat.xor (Nat.xor chk (crc32c (xorBytes (tileSeed pfh k v) (tileSeed pfh k v') ++ z))) (crc32c (z8 ++ z))

/-! ## Keys and the protection of a tile (R434, R437, R438) -/

/-- K_enc and K_tag of a partition. -/
structure TileKeys where
  enc : List Byte
  tag : List Byte
deriving DecidableEq, Repr

/-- SRK (Table 12.3): DBG is 1 while debug is unlocked. -/
def State.srk (s : State) : List Byte :=
  kdf256 s.sec.fuses.uds "storage" (leBytes 4 s.sec.fuses.epoch ++ leBytes 1 (s.fld F.SEC_STATUS_DEBUG))

/-- KP of a partition: from SRK, or from the key of its set when it is sealed. -/
def State.partRoot (s : State) (r : PartRec) : List Byte :=
  let root := match r.sealSet with
    | none => beNat s.srk
    | some n => ((s.sec.ksets.find? fun k => k.1 == n).map (·.2)).getD 0
  kdf256 root "part" (leBytes 16 r.plabel ++ leBytes 4 r.kgen)

/-- The keys of a partition's tiles. -/
def State.tileKeys (s : State) (part : Nat) : TileKeys :=
  let kp := beNat (((s.part? part).map fun p => s.partRoot p.r).getD [])
  ⟨kdf256 kp "tile enc" [], kdf256 kp "tile tag" []⟩

/-- Bytes 0 to 11 of the counter block of a tile (R437). -/
def tileIv (pfh k ver check : Nat) : List Byte := tileSeed pfh k ver ++ leBytes 4 check

/-- A tile's stored bytes encrypted or decrypted under its counter blocks (R437). -/
def tileCrypt (key : TileKeys) (pfh k ver check : Nat) (b : List Byte) : List Byte := aesCtr key.enc (tileIv pfh k ver check) 0 b

/-- TAG of a tile: the first 8 bytes of the GMAC over ciphertext, SLEN and RAW (R438). -/
def tileTag (key : TileKeys) (pfh k ver check : Nat) (cipher : List Byte) (raw : Bool) : Nat :=
  leNat ((gcmTag key.tag (tileIv pfh k ver check)
    (cipher ++ leBytes 2 cipher.length ++ leBytes 1 (if raw then 1 else 0)) []).take 8)

/-! ## Headers (R300, R301, R303 to R305) -/

def TileEnt.bytes (e : TileEnt) : List Byte :=
  leBytes 4 (e.off16 + e.slen * 4096 + if e.raw then 8388608 else 0) ++ leBytes 4 e.check ++ leBytes 8 e.tag

/-- The bytes of a header (Table 8.1) with `hcrc` in bytes 28 to 31. -/
def Hdr.bytesWith (h : Hdr) (hcrc : Nat) : List Byte :=
  leBytes 5 h.pfh ++ leBytes 1 h.tiles ++ leBytes 2 h.ver ++ leBytes 2 h.mprof ++ leBytes 2 h.tidK ++ leBytes 2 h.tidV ++
    leBytes 1 h.chunks ++ leBytes 1 0 ++ leBytes 4 h.ldec ++ leBytes 4 h.payload ++ leBytes 4 0 ++ leBytes 4 hcrc ++
    (List.range 16).flatMap (fun i => leBytes 4 (h.chunk.getD i 0)) ++ h.ents.flatMap TileEnt.bytes

/-- The header as it stands. -/
def Hdr.bytes (h : Hdr) : List Byte := h.bytesWith h.hcrc

/-- CRC-32C over the header with HCRC taken as zero. -/
def Hdr.crc (h : Hdr) : Nat := crc32c (h.bytesWith 0)

/-- The header of another copy of the same version: only the chunk references and HCRC differ (R304). -/
def Hdr.withChunks (h : Hdr) (c : List Nat) : Hdr :=
  let g := { h with chunk := c }
  { g with hcrc := g.crc }

/-- Stored bytes: header length plus PAYLOAD (R303). -/
def Hdr.stored (h : Hdr) : Nat := 96 + 16 * h.tiles + h.payload

/-- Live bytes of tile `k` of a page of `ldec` bytes. -/
def liveOf (ldec k : Nat) : Nat := min 1024 (ldec - 1024 * k)

/-! ## Making a stored form (R300, R314) -/

/-- PAYLOAD of a list of stored tiles. -/
def payloadOf (l : List Coded) : Nat := (l.map fun c => pad16 c.stored.length).foldl (· + ·) 0

/-- CHUNKS of a stored form (R300). -/
def chunksOf (l : List Coded) : Nat := max 1 ((payloadOf l + 4095) / 4096)

/-- Tiles `k` on, from payload address `a`: their entries and the payload, each tile encrypted and tagged. -/
def sealTiles (key : TileKeys) (pfh ver : Nat) : Nat → Nat → List Coded → List TileEnt × List Byte
  | _, _, [] => ([], [])
  | k, a, c :: t =>
    let x := tileCrypt key pfh k ver c.check c.stored
    let e : TileEnt := ⟨a / 16, c.stored.length, c.raw, c.check, tileTag key pfh k ver c.check x c.raw⟩
    let r := sealTiles key pfh ver (k + 1) (a + pad16 c.stored.length) t
    (e :: r.1, bytesAt x 0 (pad16 c.stored.length) ++ r.2)

/-- The stored form of a page in T1 chunks `chunk`. -/
def makeCopy (key : TileKeys) (pfh ver mprof ldec : Nat) (tids : Nat × Nat) (chunk : List Nat) (l : List Coded) : Copy :=
  let r := sealTiles key pfh ver 0 0 l
  let h : Hdr := { pfh := pfh, tiles := l.length, ver := ver, mprof := mprof, tidK := tids.1, tidV := tids.2
                   chunks := chunksOf l, ldec := ldec, payload := payloadOf l, hcrc := 0, chunk := chunk, ents := r.1 }
  ⟨h.withChunks chunk, r.2⟩

/-! ## Checking and decoding a copy (R317, R318, R322, R323) -/

/-- What decoding needs beside a copy: keys, tables by ID, and the table ID of each tile. -/
structure Decoder where
  key : TileKeys
  table : Nat → Option Table
  tid : Hdr → Nat → Nat

/-- Stored ciphertext of tile `k`. -/
def Hdr.cipher (h : Hdr) (bytes : List Byte) (k : Nat) : List Byte :=
  match h.ents[k]? with
  | none => []
  | some e => bytesAt bytes (16 * e.off16) e.slen

/-- Stored bytes of tile `k`, decrypted. -/
def Decoder.plain (d : Decoder) (h : Hdr) (bytes : List Byte) (k : Nat) : List Byte :=
  tileCrypt d.key h.pfh k h.ver ((h.ents[k]?.map (·.check)).getD 0) (h.cipher bytes k)

/-- Does the tag of tile `k` verify? -/
def Decoder.tagOk (d : Decoder) (h : Hdr) (bytes : List Byte) (k : Nat) : Bool :=
  match h.ents[k]? with
  | none => false
  | some e => tileTag d.key h.pfh k h.ver e.check (h.cipher bytes k) e.raw == e.tag

/-- Tile `k` decoded. A coded tile whose table the store does not hold decodes no symbol. -/
def Decoder.expand (d : Decoder) (h : Hdr) (bytes : List Byte) (k : Nat) : Expanded :=
  let live := liveOf h.ldec k
  match h.ents[k]? with
  | none => .short
  | some e =>
    if e.raw then expandRaw (d.plain h bytes k) live
    else match d.table (d.tid h k) with
      | none => .short
      | some t => expandCoded t.tlog t.freq (d.plain h bytes k) live

/-- The failure of tile `k` once its tag has passed: decoding, then CHECK. -/
def Decoder.tileFault (d : Decoder) (h : Hdr) (bytes : List Byte) (k : Nat) : Option FailKind :=
  match d.expand h bytes k with
  | .short => some .short
  | .long => some .long
  | .bytes b => if (h.ents[k]?.map (·.check)) = some (tileCheck h.pfh k h.ver b) then none else some .check

/-- Why a copy is rejected, in the order of R323: HCRC, tags, decoding and CHECK. -/
def Decoder.fault (d : Decoder) (h : Hdr) (bytes : List Byte) : Option FailKind :=
  if h.crc ≠ h.hcrc then some .hcrc
  else if (List.range h.tiles).any fun k => !d.tagOk h bytes k then some .tag
  else (List.range h.tiles).findSome? fun k => d.tileFault h bytes k

/-- A byte string as sparse data from key 0 on. -/
def bytesMem (l : List Byte) : List (Nat × Byte) := ((List.range l.length).zip l).filter fun p => p.2 != 0

/-- The decoded page of a copy. -/
def Decoder.page (d : Decoder) (h : Hdr) (bytes : List Byte) : List (Nat × Byte) :=
  bytesMem ((List.range h.tiles).flatMap fun k => match d.expand h bytes k with
    | .bytes b => b
    | .short => List.replicate (liveOf h.ldec k) 0
    | .long => List.replicate (liveOf h.ldec k) 0)

/-- The decoder for the pages of a partition. -/
def State.decoder (s : State) (part : Nat) : Decoder :=
  { key := s.tileKeys part, table := s.table?
    tid := fun h k => match s.prof? h.mprof with
      | none => h.tidK
      | some p => tileTid p (h.tidK, h.tidV) k }

/-! ## Encoding a write (R308, R314 to R316) -/

/-- The stored tiles of a write: a tile whose bytes the write changed is compacted (each takes a fresh stream) and gets a
CHECK; a tile it kept keeps its stored bytes and its CHECK is rebased. `old` is the copy of the current version, `after` the
page the write leaves. Counts CDC_WRITE_STAT and CDC_BYTES_STAT. -/
def State.encodeTiles (s : State) (p : Profile) (d : Decoder) (tids : Nat × Nat) (pfh ver : Nat) (old : Option Copy)
    (before after : List (Nat × Byte)) : List Nat → State × List Coded
  | [] => (s, [])
  | k :: t =>
    let live := tileBytes p after k
    match old.filter fun _ => live == tileBytes p before k with
    | some c =>
      let e := (c.hdr.ents[k]?).getD ⟨0, 0, true, 0, 0⟩
      let r := s.encodeTiles p d tids pfh ver old before after t
      (r.1, ⟨d.plain c.hdr c.bytes k, e.raw, rebaseCheck e.check pfh k c.hdr.ver ver⟩ :: r.2)
    | none =>
      let e := compact (s.table? (tileTid p tids k)) (s.fld F.CDC_CTL_FORCE_RAW == 1) live (Config.codedStream s.free)
      let s := s.nextFree.bump (if e.2 then F.CDC_WRITE_STAT_RAW else F.CDC_WRITE_STAT_CODED)
      let s := (s.bumpUnits F.CDC_BYTES_STAT_LIVE 65536 live.length).bumpUnits F.CDC_BYTES_STAT_STORED 65536 (pad16 e.1.length)
      let r := s.encodeTiles p d tids pfh ver old before after t
      (r.1, ⟨e.1, e.2, tileCheck pfh k ver live⟩ :: r.2)

/-! ## Frames as their copies show them (Table 7.1) -/

def Frame.t0 (f : Frame) : Bool := f.stg.isSome
def Frame.t2v (f : Frame) : Bool := f.t2.isSome
def Frame.copy2 (f : Frame) : Bool := f.t2b.isSome
def Frame.old (f : Frame) : Bool := f.prev.isSome
def Frame.pgm (f : Frame) : Bool := f.prog.isSome

/-- Header of the current version, from whichever copy holds it. -/
def Frame.hdr? (f : Frame) : Option Hdr := (f.t1.map (·.hdr)).or (f.t2.map (·.hdr))

/-- CHUNKS of the current version; 0: no stored data. -/
def Frame.chunks (f : Frame) : Nat := (f.hdr?.map (·.chunks)).getD 0

/-- Stored bytes of the current version. -/
def Frame.stored (f : Frame) : Nat := (f.hdr?.map Hdr.stored).getD 0

/-- Every table ID a header of the frame names, its superseded version's included (R309). -/
def Frame.tids (f : Frame) : List Nat :=
  ((f.hdr?.toList) ++ (f.prev.map (·.hdr)).toList).flatMap fun h => [h.tidK, h.tidV]

/-- T1 chunks of the current version, those being filled, and those of the superseded version. -/
def Frame.t1Chunks (f : Frame) : List Nat := ((f.t1.map (·.hdr.chunk)).getD []) ++ f.fill
def Frame.oldChunks (f : Frame) : List Nat := (f.prev.map (·.hdr.chunk)).getD []

/-- Pseudo-channel of a T1 chunk: 1 GiB holds 262,144 chunks. -/
def chunkPc (c : Nat) : Nat := c / 262144
def Frame.pcs (f : Frame) : List Nat := f.t1Chunks.map chunkPc
def Frame.oldPcs (f : Frame) : List Nat := f.oldChunks.map chunkPc

/-- The decoded page of a frame's T1 copy. -/
def State.t1Page (s : State) (f : Frame) : List (Nat × Byte) :=
  match f.t1 with
  | none => []
  | some c => (s.decoder f.part).page c.hdr c.bytes

/-! ## Tables that are held (R309) -/

/-- IDs that a write in progress has captured. -/
def Cmd.tidsCaptured (k : Cmd) : List Nat := k.writes.flatMap fun w => [w.tids.1, w.tids.2]

/-- Does a loaded set bind the ID? -/
def State.tidBound (s : State) (t : Nat) : Bool := s.tab.sets.any fun x => x.bind.any fun b => b.1 == t || b.2 == t

/-- Is the ID bound by a set, named by a frame header, or captured by a write? -/
def State.tidNamed (s : State) (t : Nat) : Bool :=
  s.tidBound t || (s.tier.frames.any fun f => f.tids.contains t) || s.cmds.any fun k => k.tidsCaptured.contains t

/-- The table held under an ID: one that nothing names any more has been released. -/
def State.heldTable? (s : State) (t : Nat) : Option Table := if s.tidNamed t then findTable s.tab.tables t else none

/-- Take the records of released tables out of both copies. -/
def State.pruneTables (s : State) : State :=
  { s with tab := { s.tab with tables := s.tab.tables.filter fun t => s.tidNamed t.tid
                               copyB := s.tab.copyB.filter fun t => s.tidNamed t.tid } }

/-- Store a record in both copies. -/
def State.storeTables (s : State) (l : List Table) : State :=
  let put (old : List Table) : List Table := (old.filter fun t => !l.any fun x => x.tid == t.tid) ++ l
  { s with tab := { s.tab with tables := put s.tab.tables, copyB := put s.tab.copyB } }

/-- Copies whose bytes the memory holds damaged, as (ID, second copy): RCRC matches no longer (R310). -/
def damage (bad : List (Nat × Bool)) (second : Bool) (l : List Table) : List Table :=
  updIf l (fun t => bad.contains (t.tid, second)) fun t => { t with rcrc := (crc32c t.bytes + 1) % two32 }
def State.damageTables (s : State) (bad : List (Nat × Bool)) : State :=
  { s with tab := { s.tab with tables := damage bad false s.tab.tables, copyB := damage bad true s.tab.copyB } }

end Sys2Proof.Machine
end

