-- ==== Sys2Proof/Machine/Journal.lean ====
section
/-! DEFINITION. Frame records as bytes (Table 7.1), and the persistent map on flash (R283 to R286): the content of its
segments, banks and their trailers, which banks are valid, and what a reader of the map takes from them. -/

namespace Sys2Proof.Machine

/-! ## Frame records (R257) -/

/-- Byte 0 to 2 of a frame record: state bits, flags and placement (Table 7.1). -/
def Frame.flagBytes (f : Frame) : List Byte :=
  let b (x : Bool) (n : Nat) : Nat := if x then n else 0
  leBytes 1 (pgCode f.st + b f.t0 16 + b f.t2v 32 + b f.copy2 64 + b f.burl 128) ++
    leBytes 1 (b f.persist 1 + b f.prom 2 + b f.pgm 4 + b f.old 8 + f.set.cls * 16 + f.set.wb * 64) ++
    leBytes 1 (f.set.drop + f.part * 4)

/-- The 64 bytes of a frame record. The addresses in a local frame's record are internal (free values). -/
def frameRecord (f : Frame) : List Byte :=
  let addr (i : Nat) : Nat := Config.internalAddr ((f.pfh * 65536 + f.ver) * 4 + i)
  f.flagBytes ++ leBytes 1 f.chunks ++ leBytes 4 f.refs ++ leBytes 2 f.pins ++ leBytes 2 f.oldPins ++ leBytes 2 f.ver ++
    leBytes 2 f.sdom ++ leBytes 8 (if f.peer.isSome then f.imp.getD 0 else addr 0) ++ leBytes 8 (addr 1) ++
    leBytes 8 (addr 2) ++ leBytes 8 (addr 3) ++ leBytes 4 f.lastUse ++ leBytes 2 f.rpins ++
    leBytes 1 f.tiles ++ leBytes 1 0 ++
    leBytes 8 (match f.peer with
      | some p => p.1 + p.2 * 256
      | none => 0)

/-! ## Segments -/

/-- A frame as the map holds it: what restart gives back of it (R287), with its T2 copies and nothing that moves. -/
def Frame.onMap (f : Frame) : Frame :=
  { f with st := .empty, prom := false, refs := 0, pins := 0, rpins := 0, oldPins := 0, lastUse := 0, lastRead := 0,
           lastWrite := 0, t1 := none, stg := none, prev := none, fill := [], before := .empty, prog := none, wants := [],
           fixed := none, ladder := 0, ladderFail := none, reader := none, readOk := false, imp := none, reread := none,
           remote := [], forced := none }

/-- An anchor as the map holds it. -/
def Anchor.onMap (a : Anchor) : Anchor := { a with forks := 0, trim := none, remote := [] }

def pteBytes (e : Pte) : List Byte :=
  leBytes 4 e.lpi ++ leBytes 2 e.layer ++ leBytes 2 e.head ++ leBytes 5 e.pfh ++ leBytes 2 e.ver

def anchorBytes (a : Anchor) : List Byte :=
  leBytes 4 (a.idx + a.gen * 268435456) ++ leBytes 2 a.sdom ++ leBytes 2 a.mprof ++ leBytes 1 a.part ++ leBytes 4 a.live ++
    leBytes 4 a.epoch ++ a.digests.flatMap (leBytes 32) ++ a.ptes.flatMap pteBytes

/-- The bytes of a T2 copy's place: group, stripe, slots. -/
def flashBytesOf (c : FlashCopy) : List Byte := leBytes 1 c.group ++ leBytes 4 c.stripe ++ c.hdr.bytes

def mapFrameBytes (f : Frame) : List Byte :=
  leBytes 5 f.pfh ++ leBytes 2 f.ver ++ f.flagBytes ++ leBytes 2 f.sdom ++ leBytes 2 f.mprof ++ leBytes 1 f.tiles ++
    (f.t2.toList ++ f.t2b.toList).flatMap flashBytesOf

/-- The content of a segment as bytes. The manual gives the map no layout: this one is the model's (log entry 39). -/
def MapSeg.bytes (m : MapSeg) : List Byte :=
  leBytes 4 m.anchors.length ++ m.anchors.flatMap anchorBytes ++ leBytes 4 m.frames.length ++ m.frames.flatMap mapFrameBytes ++
    m.profs.flatMap (fun p => leBytes 2 p.mprof) ++ m.keys.flatMap (fun k => leBytes 1 k.1 ++ leBytes 16 k.2.1 ++ leBytes 4 k.2.2.1) ++
    leBytes 4 m.tables.length ++ m.tables.flatMap fun t => t.bytes ++ leBytes 4 t.rcrc

/-- A segment that holds nothing. -/
def MapSeg.empty : MapSeg := { anchors := [], frames := [], profs := [], keys := [], kmap := (0, 0), tables := [] }

/-- CRC of a bank: over the content, SEQ and LENGTH (Table 7.7). -/
def bankCrc (content : List Byte) (seq length : Nat) : Nat := crc32c (content ++ leBytes 8 seq ++ leBytes 4 length)

/-- A bank written whole under a commit number. -/
def MapBank.of (m : MapSeg) (seq : Nat) : MapBank := ⟨m, seq, m.bytes.length, bankCrc m.bytes seq m.bytes.length⟩

/-- A bank is valid when its CRC matches (R283). -/
def MapBank.valid (b : MapBank) : Bool := b.crc == bankCrc b.body.bytes b.seq b.length

def rootBytes (kmap : Nat × Nat) (segs : Nat) : List Byte := leBytes 4 kmap.1 ++ leBytes 1 kmap.2 ++ leBytes 4 segs

def RootBank.of (kmap : Nat × Nat) (segs seq : Nat) : RootBank :=
  let b := rootBytes kmap segs
  ⟨kmap, segs, seq, b.length, bankCrc b seq b.length⟩

def RootBank.valid (r : RootBank) : Bool := r.crc == bankCrc (rootBytes r.kmap r.segs) r.seq r.length

/-- A bank whose program was cut off: its CRC fails. -/
def MapBank.torn (b : MapBank) : MapBank := { b with crc := (b.crc + 1) % two32 }
def RootBank.torn (r : RootBank) : RootBank := { r with crc := (r.crc + 1) % two32 }

/-! ## Reading the map (R285) -/

/-- The valid root bank with the larger SEQ. -/
def Journal.root? (j : Journal) : Option RootBank :=
  (j.roots.map (·.2)).foldl (fun a r => match a with
    | none => if r.valid then some r else none
    | some x => if r.valid && decide (x.seq < r.seq) then some r else a) none

/-- N: the number of the last commit the flash shows complete. -/
def Journal.num (j : Journal) : Nat := (j.root?.map (·.seq)).getD 0

/-- The valid bank of a segment with the largest SEQ not above `n`, with its bank number. -/
def Journal.bank? (j : Journal) (n seg : Nat) : Option (Nat × MapBank) :=
  j.banks.foldl (fun a x =>
    if x.1 == seg && x.2.2.valid && decide (x.2.2.seq ≤ n) && a.all (fun y => decide (y.2.seq < x.2.2.seq)) then some x.2 else a)
    none

/-- The segments with a bank. -/
def Journal.segs (j : Journal) : List Nat := j.banks.foldl (fun l x => if l.contains x.1 then l else l ++ [x.1]) []

/-- The content of every segment at the last completed commit; none when no root bank is valid. -/
def Journal.shown (j : Journal) : List MapSeg :=
  match j.root? with
  | none => []
  | some r => j.segs.filterMap fun i => (j.bank? r.seq i).map (·.2.body)

/-- Segments that have no usable bank although the root is valid (R285). -/
def Journal.lostSegs (j : Journal) : List Nat :=
  match j.root? with
  | none => []
  | some r => j.segs.filter fun i => (j.bank? r.seq i).isNone

/-- Banks that fail their CRC. -/
def Journal.badBanks (j : Journal) : Nat :=
  (j.banks.filter fun x => !x.2.2.valid).length + (j.roots.filter fun x => !x.2.valid).length

/-! ## What a commit writes (R284) -/

/-- Inputs of K_map: those of SRK (Table 12.3). -/
def State.kmapKey (s : State) : Nat × Nat := (s.sec.fuses.uds * two32 + s.sec.fuses.epoch, s.fld F.SEC_STATUS_DEBUG)

/-- Inputs of a partition's KP beside SRK. -/
def State.partKey (s : State) (p : PartRec) : Nat × Nat × Nat × Option Nat :=
  (p.part, p.plabel, p.kgen, p.sealSet.bind fun n => (s.sec.ksets.find? fun k => k.1 == n).map (·.2))

/-- Segments of the map: their number is the blank's. -/
def State.mapSegs (s : State) : Nat := max 1 ((s.blank.map (·.mapSegments)).getD 0)

/-- The segment that is the table area (R309). -/
def tableSeg : Nat := 2 ^ 32

/-- The tables held, each from the copy whose RCRC matches. -/
def State.heldTables (s : State) : List Table :=
  (s.tab.tables.filter fun t => s.tidNamed t.tid).map fun t => (s.table? t.tid).getD t

/-- Content of segment `i` now: the anchors that lie in it, and the local PERSIST frames they name (R287, R393); in the table
area the tables held. -/
def State.segNow (s : State) (i : Nat) : MapSeg :=
  if i = tableSeg then { MapSeg.empty with tables := s.heldTables }
  else
  let a := (s.pxi.anchors.filter fun x => x.idx % s.mapSegs == i).map Anchor.onMap
  if a.isEmpty then MapSeg.empty
  else
    { anchors := a
      frames := (s.tier.frames.filter fun f => f.persist && f.peer.isNone &&
        a.any fun x => x.ptes.any fun e => e.pfh == f.pfh).map Frame.onMap
      profs := s.seq.profiles.filter fun p => a.any fun x => x.mprof == p.mprof
      keys := (s.seq.parts.filter fun p => a.any fun x => x.part == p.r.part).map fun p => s.partKey p.r
      kmap := s.kmapKey, tables := [] }

/-- Content of segment `i` as last committed. -/
def Journal.segOf (j : Journal) (i : Nat) : MapSeg := ((j.bank? j.num i).map (·.2.body)).getD MapSeg.empty

/-- Segments whose content has changed since the last commit. -/
def State.changedSegs (s : State) : List Nat :=
  let anchors := (List.range s.mapSegs).filter fun i => (s.pxi.anchors.any fun a => a.idx % s.mapSegs == i) || s.jrnl.segs.contains i
  let area := if s.tab.tables.isEmpty && !s.jrnl.segs.contains tableSeg then [] else [tableSeg]
  (anchors ++ area).filter fun i => s.segNow i != s.jrnl.segOf i

/-- The bank a segment is written to: the one that does not hold its newest committed version. -/
def Journal.target (j : Journal) (i : Nat) : Nat :=
  match j.bank? j.num i with
  | some b => 1 - b.1
  | none => 0

def Journal.putBank (j : Journal) (seg bank : Nat) (b : MapBank) : Journal :=
  { j with banks := j.banks.filter (fun x => !(x.1 == seg && x.2.1 == bank)) ++ [(seg, bank, b)] }

def Journal.putRoot (j : Journal) (bank : Nat) (r : RootBank) : Journal :=
  { j with roots := j.roots.filter (fun x => x.1 != bank) ++ [(bank, r)] }

/-- The segments of a commit written to their banks. -/
def Journal.putSegs (j : Journal) (n : Nat) : List (Nat × Nat × MapSeg) → Journal
  | [] => j
  | (i, b, m) :: t => (j.putBank i b (MapBank.of m n)).putSegs n t

/-- What a reset during a commit leaves on flash: the first `done` segment programs are complete, the next program is cut
off. -/
def Journal.cut (j : Journal) (kmap : Nat × Nat) (nsegs done : Nat) : Journal :=
  match j.busy with
  | none => j
  | some c =>
    let j := { j.putSegs c.num (c.segs.take done) with busy := none }
    match c.segs.drop done with
    | [] => j.putRoot (c.num % 2) (RootBank.of kmap nsegs c.num).torn
    | (i, b, m) :: _ => j.putBank i b (MapBank.of m c.num).torn

/-- T2 copies that the last committed map names: their space is not reused until a later commit no longer names it (R286). -/
def Journal.copies (j : Journal) : List FlashCopy :=
  j.shown.flatMap fun m => m.frames.flatMap fun f => f.t2.toList ++ f.t2b.toList

end Sys2Proof.Machine
end

