-- ==== Sys2Proof/Machine/Flash.lean ====
section
/-! DEFINITION. Flash (chapter 7): stripes and where their pages lie (R275), what a stripe holds and how a page is rebuilt
from its parity, free space (R273), and which stripe a program writes to. -/

namespace Sys2Proof.Machine

/-! ## Geometry (R275, Table 14.2) -/

/-- Modules of a stripe group: four of four channels each. -/
def State.groupMods (s : State) (g : Nat) : List FlashMod := s.tier.modules.filter fun m => m.slot / 4 == g

/-- Least of a quantity over the modules of a group. -/
def State.groupMin (s : State) (g : Nat) (q : FlashMod → Nat) : Nat :=
  match (s.groupMods g).map q with
  | [] => 0
  | a :: t => t.foldl min a

/-- Stripes of a group: one flash page on each channel, and four chunks to a page. -/
def State.stripesOf (s : State) (g : Nat) : Nat := s.groupMin g fun m => m.chunks / 16

/-- Chunks of data in a stripe: 15 flash pages of 16 KiB. -/
def stripeSlots : Nat := 60

def State.populated (s : State) : List Nat := (List.range 4).filter fun g => s.fld F.FLS_GROUPS_POPULATED / 2 ^ g % 2 = 1

/-- Stripe groups that take programs: populated and without a failed target (R275, R280). -/
def State.flashGroups (s : State) : List Nat := s.populated.filter fun g => s.fld F.FLS_GROUPS_FAILED / 2 ^ g % 2 = 0

/-- Channel of data page `q` of a stripe: the parity lies on channel 16g + (number mod 16), the data pages on the others in
ascending order (log entry 86). -/
def dataChannel (g num q : Nat) : Nat := 16 * g + if q < num % 16 then q else q + 1
def parityChannel (g num : Nat) : Nat := 16 * g + num % 16

/-- Channels on which a T2 copy lies. -/
def FlashCopy.channels (c : FlashCopy) : List Nat := c.hdr.chunk.map fun x => dataChannel c.group c.stripe (x / 4)

/-- ONFI target of a stripe on each of its channels. -/
def State.stripeTarget (s : State) (g num : Nat) : Nat := num / max 1 (s.groupMin g fun m => m.blockPages * m.blocks)

/-- Erase block of a stripe within its group. -/
def State.stripeBlock (s : State) (g num : Nat) : Nat := num / max 1 (s.groupMin g fun m => m.blockPages)

/-- Does the copy lie on a target that has failed? Its reads start at step 3 of Table 7.6 (R280). -/
def State.copyLate (s : State) (c : FlashCopy) : Bool :=
  c.channels.any fun ch => s.tier.failedTargets.contains (ch, s.stripeTarget c.group c.stripe)

def State.firstStep (s : State) (f : Frame) : Nat := if f.t2.any s.copyLate then 3 else 1

/-! ## Content -/

def State.stripe? (s : State) (g num : Nat) : Option Stripe := s.tier.stripes.find? fun x => x.group == g && x.num == num

/-- Put bytes from key `a` on, in one pass; the bytes at those keys are replaced. -/
def memPut (m : List (Nat × Byte)) (a : Nat) (b : List Byte) : List (Nat × Byte) :=
  m.filter (fun p => decide (p.1 < a)) ++ (bytesMem b).map (fun p => (a + p.1, p.2)) ++
    m.filter (fun p => decide (a + b.length ≤ p.1))

/-- The 4 KiB of a slot. -/
def Stripe.slot (x : Stripe) (i : Nat) : List Byte := memRead x.data (4096 * i) 4096

/-- The same 4 KiB rebuilt from the parity and the other 14 data pages (step 3 of Table 7.6). -/
def Stripe.rebuilt (x : Stripe) (i : Nat) : List Byte :=
  ((List.range 15).filter fun q => q != i / 4).foldl
    (fun b q => xorBytes b (memRead x.data (16384 * q + 4096 * (i % 4)) 4096)) (memRead x.parity (4096 * (i % 4)) 4096)

/-- Program one chunk into the next slot; the parity page follows. -/
def Stripe.program (x : Stripe) (b : List Byte) : Stripe :=
  let b := bytesAt b 0 4096
  let o := 4096 * (x.next % 4)
  { x with next := x.next + 1, data := memPut x.data (4096 * x.next) b
           parity := memPut x.parity o (xorBytes (memRead x.parity o 4096) b) }

/-- Program the chunks of a payload, `n` of them. -/
def Stripe.programAll (x : Stripe) : Nat → List Byte → Stripe
  | 0, _ => x
  | n + 1, b => (x.program b).programAll n (b.drop 4096)

/-- Payload of a T2 copy as its chunks hold it, and as parity reconstruction yields it. -/
def State.flashBytes (s : State) (c : FlashCopy) : List Byte :=
  match s.stripe? c.group c.stripe with
  | none => []
  | some x => (c.hdr.chunk.flatMap x.slot).take c.hdr.payload
def State.rebuiltBytes (s : State) (c : FlashCopy) : List Byte :=
  match s.stripe? c.group c.stripe with
  | none => []
  | some x => (c.hdr.chunk.flatMap x.rebuilt).take c.hdr.payload

/-! ## Space (R273, R275, R286) -/

/-- Raw chunks of the populated groups' modules. -/
def State.flashRaw (s : State) : Nat :=
  ((s.tier.modules.filter fun m => s.populated.contains (m.slot / 4)).map (·.chunks)).foldl (· + ·) 0

/-- Data chunks of the populated groups. -/
def State.flashTotal (s : State) : Nat := (s.populated.map fun g => s.stripesOf g * stripeSlots).foldl (· + ·) 0

/-- Chunks programmed since the erase of their block, live or not. -/
def State.flashUsed (s : State) : Nat := (s.tier.stripes.map (·.next)).foldl (· + ·) 0

def State.flashFree (s : State) : Nat := s.flashTotal - s.flashUsed
def State.flashReserve (s : State) : Nat := s.flashRaw / 64

/-- T2 copies on flash: those of frames, those being programmed, and those whose program outlives its frame. -/
def Frame.flashCopies (f : Frame) : List FlashCopy := f.t2.toList ++ f.t2b.toList ++ (f.prog.map (·.dest)).toList
def State.liveCopies (s : State) : List FlashCopy := s.tier.frames.flatMap Frame.flashCopies ++ s.tier.zombie.map (·.2)

/-- Copies whose space may not be reused yet: live ones, and those the last committed map names (R286). -/
def State.heldCopies (s : State) : List FlashCopy := s.liveCopies ++ s.jrnl.copies

/-- The first of the numbers from `i` on that is not `bad`; fuel: how many there are. -/
def firstNot (bad : Nat → Bool) : Nat → Nat → Option Nat
  | 0, _ => none
  | n + 1, i => if bad i then firstNot bad n (i + 1) else some i

/-- The stripe of a group for `n` chunks that lie together (R275): one already begun that has room, else the lowest erased
one; those that `avoid` names are passed over. -/
def State.pickStripe (s : State) (g n : Nat) (avoid : Nat × Nat → Bool) : Option Nat :=
  let away (k : Nat) : Bool := avoid (g, k)
  match s.tier.stripes.find? fun x => x.group == g && decide (x.next + n ≤ stripeSlots) && !away x.num with
  | some x => some x.num
  | none => firstNot (fun i => (s.stripe? g i).isSome || away i) (s.stripesOf g) 0

/-- The first of the listed groups with a stripe for `n` chunks. -/
def State.pickPlace (s : State) (groups : List Nat) (n : Nat) (avoid : Nat × Nat → Bool) : Option (Nat × Nat) :=
  groups.findSome? fun g => (s.pickStripe g n avoid).map fun k => (g, k)

/-- Write the payload of a copy with header `h` into a stripe. -/
def State.putFlash (s : State) (g num : Nat) (h : Hdr) (bytes : List Byte) : State × FlashCopy :=
  let x := (s.stripe? g num).getD ⟨g, num, 0, [], []⟩
  let n := h.chunks
  ({ s with tier := { s.tier with
      stripes := s.tier.stripes.filter (fun y => !(y.group == g && y.num == num)) ++ [x.programAll n bytes] } },
    ⟨h.withChunks ((List.range n).map fun i => x.next + i), g, num⟩)

/-- Charge a program of `chunks` chunks: bytes × 16/15 (R277), in units of 1/(15 × 10^6) byte. -/
def State.chargeProgram (s : State) (chunks : Nat) : State :=
  { s with tier := { s.tier with credit := s.tier.credit - (chunks * 4096 * 16 * 1000000 : Nat) } }

/-! ## The cleaner (R273, R279) -/

/-- Erase blocks with programmed stripes, as (group, block). -/
def State.usedBlocks (s : State) : List (Nat × Nat) :=
  s.tier.stripes.foldl (fun l x => let b := (x.group, s.stripeBlock x.group x.num); if l.contains b then l else l ++ [b]) []

def State.inBlock (s : State) (b : Nat × Nat) (c : FlashCopy) : Bool :=
  c.group == b.1 && s.stripeBlock c.group c.stripe == b.2

/-- Programmed chunks of a block, and those that copies hold. -/
def State.blockUsed (s : State) (b : Nat × Nat) : Nat :=
  ((s.tier.stripes.filter fun x => x.group == b.1 && s.stripeBlock x.group x.num == b.2).map (·.next)).foldl (· + ·) 0
def State.blockLive (s : State) (b : Nat × Nat) : Nat :=
  ((s.liveCopies.filter (s.inBlock b)).map (·.hdr.chunks)).foldl (· + ·) 0

/-- Erase every block in which nothing is held. -/
def State.eraseBlocks (s : State) : State :=
  let held := s.heldCopies
  let gone (b : Nat × Nat) : Bool := !held.any (s.inBlock b)
  { s with tier := { s.tier with
      stripes := s.tier.stripes.filter fun x => !gone (x.group, s.stripeBlock x.group x.num)
      marked := s.tier.marked.filter fun b => !gone b } }

end Sys2Proof.Machine
end

