-- ==== Sys2Proof/Machine/TierOps.lean ====
section
/-! DEFINITION. The tier manager's shared operations (chapter 7): T1 space and eviction, flash programs and the
endurance budget, references, freeing, promotion, write commit. -/

namespace Sys2Proof.Machine

/-- Insertion into a list sorted by `lt`. -/
def insertBy {α : Type} (lt : α → α → Bool) (x : α) : List α → List α
  | [] => [x]
  | y :: t => if lt x y then x :: y :: t else y :: insertBy lt x t

def sortBy {α : Type} (lt : α → α → Bool) (l : List α) : List α := l.foldr (insertBy lt) []

/-! ## Settings as they act (R270) -/

/-- WBMODE as it acts: a PERSIST frame is EAGER. -/
def Frame.wbAct (f : Frame) : Nat := if f.persist then 2 else f.set.wb
/-- May capacity or budget drop the page? A burl with references never. -/
def Frame.mayDrop (f : Frame) : Bool := !(f.burl && decide (0 < f.refs)) && f.set.drop == 2
/-- Are programs of this frame discretionary (R277)? -/
def Frame.discretionary (f : Frame) : Bool := !f.burl && !f.persist

/-! ## T1 space (R271, R282) -/

/-- Retired pseudo-channels (16 per channel group). -/
def State.pcRetired (s : State) (pc : Nat) : Bool := s.fld F.HBM_PC_RETIRED_RETIRED (pc / 64) / 2 ^ (pc % 64) % 2 = 1

/-- Pseudo-channels of a partition that are in use. -/
def State.partPcs (s : State) (p : Nat) : List Nat :=
  match s.part? p with
  | none => []
  | some x => (x.r.cgroups.flatMap fun g => (List.range 16).map fun i => 16 * g + i).filter fun pc => !s.pcRetired pc

/-- T1 chunks of a partition: 1 GiB per pseudo-channel in chunks of 4 KiB. -/
def State.t1Total (s : State) (p : Nat) : Nat := (s.partPcs p).length * 262144

/-- T1 chunks that frames, their superseded versions and HBM regions hold. -/
def State.t1Taken (s : State) : List Nat :=
  (s.tier.frames.flatMap fun f => f.t1Chunks ++ f.oldChunks) ++ s.fxt.regions.flatMap (·.chunks)

/-- Chunks held in a partition's pseudo-channels. -/
def State.t1Used (s : State) (p : Nat) : Nat :=
  let pcs := s.partPcs p
  (s.t1Taken.filter fun c => pcs.contains (chunkPc c)).length

def State.t1Free (s : State) (p : Nat) : Nat := s.t1Total p - s.t1Used p

/-- Lowest free chunk of a pseudo-channel. -/
def freeIn (taken : List Nat) (pc : Nat) : Option Nat :=
  ((List.range (min 262144 (taken.length + 1))).map fun i => pc * 262144 + i).find? fun c => !taken.contains c

/-- `n` chunks, one pseudo-channel after the other from place `i` of the list on (R271). -/
def takeChunks (pcs : List Nat) : Nat → Nat → List Nat → List Nat
  | 0, _, _ => []
  | n + 1, i, taken =>
    let k := i % max 1 pcs.length
    match (pcs.drop k ++ pcs.take k).findSome? (freeIn taken) with
    | none => []
    | some c => c :: takeChunks pcs n (i + 1) (c :: taken)

/-! ## Flash programs (R273, R275 to R277) -/

/-- Resting in HOLD or PARK: FLS runs no programs (Table 14.10). -/
def State.resting (s : State) : Bool := s.fld F.GLB_PM_STAT_STATE == 2 || s.fld F.GLB_PM_STAT_STATE == 3

/-- The stripe group of a second copy: the next populated group after (g + 2) mod 4 other than g, else g itself (R276). -/
def State.copy2Group (s : State) (g : Nat) : Nat :=
  ([g + 3, g + 1, g + 2].map (· % 4)).find? (fun x => s.flashGroups.contains x) |>.getD g

/-- The T2 copy a program rewrites, with the bytes it writes; a repaired copy is written from what the ladder yielded. -/
def State.pgmSource (s : State) (f : Frame) (k : PgmKind) : Option (Hdr × List Byte) :=
  match k with
  | .writeBack => f.t1.map fun c => (c.hdr, c.bytes)
  | .demote => f.t1.map fun c => (c.hdr, c.bytes)
  | .second => f.t2.map fun c => (c.hdr, s.flashBytes c)
  | .moveFirst => f.t2.map fun c => (c.hdr, f.fixed.getD (s.flashBytes c))
  | .moveSecond => f.t2b.map fun c => (c.hdr, s.flashBytes c)

/-- The stripe a program of a frame writes to: one of the first group with room; a second copy in its own group; a copy that
is rewritten outside the erase block it lies in (R275, R276, R279). -/
def State.pgmPlace (s : State) (f : Frame) (k : PgmKind) : Option (Nat × Nat) :=
  let n := f.chunks
  let away (c : FlashCopy) : Option (Nat × Nat) :=
    s.pickPlace ((s.flashGroups.filter (· == c.group)) ++ s.flashGroups.filter (· != c.group)) n
      fun x => x.1 == c.group && s.stripeBlock x.1 x.2 == s.stripeBlock c.group c.stripe
  match k with
  | .writeBack => s.pickPlace s.flashGroups n fun _ => false
  | .demote => s.pickPlace s.flashGroups n fun _ => false
  | .second => f.t2.bind fun c => s.pickPlace (s.flashGroups.filter (· == s.copy2Group c.group)) n
      (· == (c.group, c.stripe))
  | .moveFirst => f.t2.bind away
  | .moveSecond => f.t2b.bind away

/-- A program that rewrites a copy, for a repair or the cleaner. -/
def PgmKind.moves : PgmKind → Bool
  | .writeBack => false
  | .demote => false
  | .second => false
  | .moveFirst => true
  | .moveSecond => true

/-- Flash space for a program beside the reserve, which is the cleaner's (R273). -/
def State.pgmSpace (s : State) (f : Frame) (k : PgmKind) : Bool :=
  decide (f.chunks + (if k.moves then 0 else s.flashReserve) ≤ s.flashFree)

/-- May a program of the frame start (R273, R275, R277)? `disc`: it is discretionary. -/
def State.canProgram (s : State) (f : Frame) (k : PgmKind) (disc : Bool) : Bool :=
  !s.resting && f.prog.isNone && s.pgmSpace f k && (s.pgmPlace f k).isSome && (!disc || decide (0 ≤ s.tier.credit))

/-- A discretionary program of a group's holder runs under its priority, and counts towards its overrun (R409, R412). -/
def SGroup.noteProgram (p part : Nat) (g : SGroup) : SGroup :=
  if g.r.members[g.holder]? = some part then { g with prio := g.prio ++ [(part, p)] } else g

def State.notePrio (s : State) (p part : Nat) (disc : Bool) : State :=
  if disc then { s with sch := { s.sch with groups := s.sch.groups.map (SGroup.noteProgram p part) } } else s

/-- A program of the frame starts: its chunks are written into a stripe and charged (R277); a demotion makes the page
DEMOTING. -/
def State.startProgram (s : State) (p : Nat) (k : PgmKind) (disc : Bool) : State :=
  match s.frame? p with
  | none => s
  | some f => match s.pgmSource f k, s.pgmPlace f k with
    | some src, some pl =>
      let r := s.putFlash pl.1 pl.2 src.1 src.2
      ((r.1.chargeProgram src.1.chunks).notePrio p f.part disc).setFrame p fun x => { x with
        prog := some ⟨k, f.ver, r.2⟩, wants := x.wants.filter (· != k), st := if k = .demote then .demoting else x.st }
    | _, _ => s

/-- Start the program a frame waits for, if it may start (R273, R276, R279). These are not discretionary. -/
def State.startWanted (s : State) (p : Nat) : State :=
  match s.frame? p with
  | none => s
  | some f => match f.wants with
    | [] => s
    | k :: _ => if s.canProgram f k false then s.startProgram p k false else s

def State.startWantedAll (s : State) : List Frame → State
  | [] => s
  | f :: t => (if f.wants.isEmpty then s else s.startWanted f.pfh).startWantedAll t

/-! ## Burls (R276) -/

/-- Burl threshold: 0 and 1 act as 2 (Table 7.14). -/
def State.burlThreshold (s : State) : Nat := max 2 (s.fld F.TIER_BURL_CFG_THRESHOLD)

/-- Does a frame keep a second T2 copy? -/
def State.keepsSecond (s : State) (f : Frame) : Bool := f.burl && f.t2.isSome && s.fld F.TIER_BURL_CFG_COPY2_EN == 1

/-- The programs a frame waits for, a second copy among them when it needs one and has none. -/
def Frame.wantsSecond (f : Frame) : List PgmKind :=
  if f.t2b.isSome || f.wants.contains .second || f.prog.any (fun g => g.kind == .second) then f.wants else f.wants ++ [.second]

/-- Set or clear BURL and see to the second copy, after REFS, the T2 copy or TIER_BURL_CFG has changed. -/
def State.burlUpdate (s : State) (p : Nat) : State :=
  match s.frame? p with
  | none => s
  | some f =>
    let t := s.burlThreshold
    let f' := { f with burl := if f.refs ≥ t then true else if f.refs < t / 2 then false else f.burl }
    let keep := s.keepsSecond f'
    (s.setFrame p fun x => { x with
      burl := f'.burl, t2b := if keep then x.t2b else none
      wants := if keep then x.wantsSecond else x.wants.filter fun k => k != .second && k != .moveSecond }).startWanted p

def State.burlAll (s : State) : List Frame → State
  | [] => s
  | f :: t => (s.burlUpdate f.pfh).burlAll t

/-! ## Freeing and references (R264, R265) -/

/-- A proxy whose import failed may be tried again. -/
def Frame.retryImport (f : Frame) : Frame := { f with ladder := 0 }

/-- The frame that holds a page's data: a proxy's is its import frame (R387). -/
def State.holder? (s : State) (f : Frame) : Option Frame :=
  if f.peer.isNone then some f else f.imp.bind s.frame?

/-- Take frames out of the table. A program in flight runs on; its chunks are released when it ends. -/
def State.removeFrames (s : State) (gone : Frame → Bool) : State :=
  { s with tier := { s.tier with
      frames := s.tier.frames.filter fun x => !gone x
      zombie := s.tier.zombie ++ (s.tier.frames.filter gone).filterMap fun x => x.prog.map fun g => (x.pfh, g.dest) } }

/-- Free the frame when nothing needs it: REFS, PINS, OLD_PINS zero and PROM clear, with its import frame if it is a proxy.
A proxy returns its reference to the peer. -/
def State.freeIfIdle (s : State) (p : Nat) : State :=
  match s.frame? p with
  | none => s
  | some f =>
    if f.refs = 0 ∧ f.pins = 0 ∧ f.oldPins = 0 ∧ !f.prom then
      let s := s.removeFrames fun x => x.pfh == p || f.imp == some x.pfh
      match f.peer with
      | none => s
      | some (part, pf) =>
        let s := { s with tier := { s.tier with owed := s.tier.owed ++ [(part, [pf])] } }
        s.svc part (.refRelease [pf])
    else s

def State.addRef (s : State) (p : Nat) : State :=
  (s.setFrame p fun f => { f with refs := f.refs + 1 }).burlUpdate p

/-- Drop one reference, without the lease rules (see `dropRef` in Leases). -/
def State.subRef (s : State) (p : Nat) : State :=
  (s.setFrame p fun f => { f with refs := f.refs - 1 }).burlUpdate p

/-! ## Pins (R258, R259) -/

/-- Pins on the current version: `rd` for a read pin. -/
def State.pin (s : State) (p : Nat) (rd : Bool) : State :=
  s.setFrame p fun f => { f with pins := f.pins + 1, rpins := if rd then f.rpins + 1 else f.rpins }

/-- Saturation of the pin counts (R259). -/
def Frame.pinFull (f : Frame) : Bool := decide (65535 ≤ f.pins) || decide (65535 ≤ f.oldPins)

/-- A page whose program has completed leaves DEMOTING once no pin holds its T1 copy (log entry 32). -/
def Frame.settle (f : Frame) : Frame :=
  if f.st = .demoting ∧ f.prog = none ∧ f.t2.isSome ∧ f.pins = 0 then { f with st := .t2Only, t1 := none, stg := none } else f

/-- Release a read pin taken on version `v`: it moved to OLD_PINS if the version was superseded (R258). At zero the
superseded chunks are freed. -/
def State.unpinRead (s : State) (p v : Nat) : State :=
  match s.frame? p with
  | none => s
  | some f =>
    let s := if f.ver = v ∧ f.rpins > 0 then
        s.setFrame p fun f => Frame.settle { f with pins := f.pins - 1, rpins := f.rpins - 1 }
      else s.setFrame p fun f =>
        if f.oldPins ≤ 1 then { f with oldPins := 0, prev := none } else { f with oldPins := f.oldPins - 1 }
    s.freeIfIdle p

/-- Release a residency pin. -/
def State.unpinRes (s : State) (p : Nat) : State :=
  (s.setFrame p fun f => Frame.settle { f with pins := f.pins - 1 }).freeIfIdle p

/-- Drop the stored data of a page: it keeps frame record, references, pins and version (R180). -/
def Frame.gone (f : Frame) (st : PgState) : Frame :=
  { f with st := st, prom := false, t1 := none, stg := none, t2 := none, t2b := none, fill := [], wants := [], fixed := none }

/-! ## Verifying copies (R323, R537) -/

/-- Failure kinds of TST_TILE_FAIL.MODE (Table 16.12). -/
def tstKind (m : Nat) : Option FailKind :=
  if m = 1 then some .check else if m = 2 then some .tag else if m = 3 then some .hcrc else if m = 4 then some .short
  else if m = 5 then some .long else none

def tierBit : Tier → Nat
  | .t0 => 0 | .t1 => 1 | .t2 => 2

/-- How the verification of one copy ends, when the copy itself gives `k`: TST_TILE_FAIL may force a failure. -/
def State.verdict (s : State) (f : Frame) (t : Tier) (k : Option FailKind) : State × Option FailKind :=
  let n := s.fld F.TST_TILE_FAIL_COUNT
  match tstKind (s.fld F.TST_TILE_FAIL_MODE) with
  | some x =>
    if s.fld F.TST_TILE_FAIL_TIERS / 2 ^ tierBit t % 2 = 1 ∧ s.fld F.TST_TILE_FAIL_PART = f.part ∧ n ≠ 0 then
      let s := s.setFld F.TST_TILE_FAIL_COUNT (n - 1)
      (if n = 1 then s.setFld F.TST_TILE_FAIL_MODE 0 else s, some x)
    else (s, k)
  | none => (s, k)

/-- What the bytes of a copy give: the failure `found` by hardware, else that of R323's four checks. -/
def State.copyFault (s : State) (part : Nat) (h : Hdr) (bytes : List Byte) (found : Option FailKind) : Option FailKind :=
  found.or ((s.decoder part).fault h bytes)

/-- Verify a T0 or T1 copy of a frame, `found` being what the row reports of it. -/
def State.verifyCopy (s : State) (f : Frame) (t : Tier) (c : Copy) (found : Option FailKind) : State × Option FailKind :=
  s.verdict f t (s.copyFault f.part c.hdr c.bytes found)

/-- Verify the T1 copy of a frame. -/
def State.verifyT1 (s : State) (f : Frame) : State × Option FailKind :=
  match f.t1 with
  | none => (s, none)
  | some c => s.verifyCopy f .t1 c none

/-- A rejected copy is counted (Tables 8.12, 8.13, 12.17). -/
def State.countFail (s : State) (k : FailKind) : State :=
  match k with
  | .hcrc => s.bump F.TCK_HDR_STAT_HCRC_FAIL
  | .tag => s.bump F.SEC_AUTH_STAT_TAG_FAIL
  | .check => s.bump F.TCK_ERR_STAT_CHECK_FAIL
  | .short => s.bump F.TCK_ERR_STAT_SHORT
  | .long => s.bump F.TCK_ERR_STAT_LONG
  | .hbm => s

/-! ## Eviction (R271) -/

/-- Victim order: lowest CLASS, oldest LASTUSE, lowest frame number. -/
def victimLt (a b : Frame) : Bool :=
  decide (a.set.cls < b.set.cls) || (a.set.cls == b.set.cls &&
    (decide (a.lastUse < b.lastUse) || (a.lastUse == b.lastUse && decide (a.pfh < b.pfh))))

/-- Pages eviction may choose (R263): DIRTY_T1 or CLEAN_T1 without pins. -/
def Frame.evictable (f : Frame) : Bool := (f.st == .dirtyT1 || f.st == .cleanT1) && f.pins == 0 && f.peer.isNone

/-- The proxy an import frame serves. -/
def State.proxyOf (s : State) (p : Nat) : Option Frame := s.tier.frames.find? fun x => x.imp == some p

/-- Pins of an import frame are held on its proxy. -/
def State.proxyPinned (s : State) (p : Nat) : Bool := (s.proxyOf p).any fun x => decide (0 < x.pins)

def State.victims (s : State) (part : Nat) : List Nat :=
  (sortBy victimLt (s.tier.frames.filter fun f => f.part == part && f.evictable && !s.proxyPinned f.pfh)).map (·.pfh)

/-- Evicting an import frame frees it and clears the link (R389). -/
def State.freeImport (s : State) (p : Nat) : State :=
  let s := s.removeFrames fun x => x.pfh == p
  { s with tier := { s.tier with
      frames := updIf s.tier.frames (fun x => x.imp == some p) fun x => { x with imp := none } } }

/-- A CLEAN_T1 page gives up its T0 and T1 copies. -/
def Frame.toFlash (f : Frame) : Frame := { f with st := .t2Only, t1 := none, stg := none }

/-- Handle one victim as Table 7.3 shows. -/
def State.evictOne (s : State) (p : Nat) : State :=
  match s.frame? p with
  | none => s
  | some f =>
    if (s.proxyOf p).isSome then s.freeImport p
    else if f.st = .cleanT1 then s.setFrame p Frame.toFlash
    else if f.wbAct ≠ 3 ∧ s.canProgram f .demote f.discretionary then s.startProgram p .demote f.discretionary
    else if f.mayDrop then
      (s.setFrame p fun f => f.gone .dropped).bump
        (if s.tier.credit < 0 then F.TIER_ENDURANCE_STAT_BUDGET_DROPS else F.TIER_DROP_STAT_CAP_DROPS)
    else s

/-- Evict until `goal` chunks are free or the victims are used up. -/
def State.evictTo (s : State) (part goal : Nat) : List Nat → State
  | [] => s
  | p :: t => if s.t1Free part ≥ goal then s else (s.evictOne p).evictTo part goal t

/-- Take `n` T1 chunks of a partition, evicting if too few are free; `none`: the allocation waits (R272). The chunks are
interleaved over the partition's pseudo-channels (R271). -/
def State.allocT1 (s : State) (part n : Nat) : State × Option (List Nat) :=
  let s := if s.t1Free part ≥ n then s else s.evictTo part n (s.victims part)
  if s.t1Free part ≥ n then
    match s.part? part with
    | none => (s, none)
    | some x =>
      (s.setPart part fun y => { y with nextPc := y.nextPc + n }, some (takeChunks (s.partPcs part) n x.nextPc s.t1Taken))
  else (s, none)

/-- The allocation a command waited for has been made (R272). -/
def State.allocDone (s : State) (c : CmdId) : State := s.setCmd c fun k => { k with alloc := none }

/-- The command waits for T1 space from now on (R272). -/
def State.waitAlloc (s : State) (c : CmdId) : State :=
  s.setCmd c fun k => { k with alloc := some (k.alloc.getD s.cycles) }

/-! ## Promotion (R262, R266) -/

/-- Start the promotion of a T2_ONLY page for command `k` of a context and sequence, which are charged (Table 11.5);
false when no T1 chunk is found. `own`: it is the command's own read (R281). -/
def State.startPromotion (s : State) (p : Nat) (k : CmdId) (ctx seq : Nat) (own : Bool) : State × Bool :=
  match s.frame? p with
  | none => (s, false)
  | some f =>
    if f.st ≠ .t2Only then (s, true)
    else match s.allocT1 f.part f.chunks with
      | (s, none) => (s, false)
      | (s, some chunks) =>
        ((s.cmdTier k ctx seq f.stored).setFrame p (fun f =>
          { f with st := .promoting, prom := true, fill := chunks, ladder := s.firstStep f, ladderFail := none, readOk := false
                   forced := none, reader := if own then some k else none }), true)

/-- Ask the peer for a page reached through a proxy (R389); the requesting partition takes the import. -/
def State.requestPage (s : State) (p ctx : Nat) : State :=
  match s.frame? p with
  | none => s
  | some f => match f.peer with
    | none => s
    | some (part, pf) => if f.prom then s
      else (s.setFrame p fun x => { x with prom := true, part := ((s.ctx? ctx).map (·.r.part)).getD x.part }).svcFor ctx part
        (.pageReq pf f.ver)

/-- What a command that needs a page finds. -/
inductive Need where
  | ready (f : Frame)
  | gone
  | wait
  | noSpace
deriving DecidableEq, Repr

/-- Is the page a PTE names unavailable (DROPPED, POISONED, PFH 0, or an import failed twice)? -/
def State.pageGone (s : State) (p : Nat) : Bool :=
  match s.frame? p with
  | none => true
  | some f =>
    if f.peer.isNone then pgUnavailable f.st
    else match f.imp.bind s.frame? with
      | some g => pgUnavailable g.st
      | none => pgUnavailable f.st || decide (2 ≤ f.ladder)

/-- A command needs the data of a page in T1: a proxy without an import frame is asked for, a T2_ONLY page promoted. A page in
WRITING shows its prior version; one that a refill writes has none, and the command waits (R181). -/
def State.needPage (s : State) (p : Nat) (k : CmdId) (ctx seq : Nat) (own : Bool) : State × Need :=
  if s.pageGone p then (s, .gone)
  else match s.frame? p with
    | none => (s, .gone)
    | some f => match s.holder? f with
      | none => (s.requestPage p ctx, .wait)
      | some g =>
        match g.st with
        | .t2Only => let r := s.startPromotion g.pfh k ctx seq own; (r.1, if r.2 then .wait else .noSpace)
        | .dirtyT1 => (s, .ready g)
        | .cleanT1 => (s, .ready g)
        | .demoting => (s, .ready g)
        | .empty => (s, .wait)
        | .writing => (s, if g.t1.isSome then .ready g else .wait)
        | .promoting => (s, .wait)
        | .dropped => (s, .gone)
        | .poisoned => (s, .gone)


/-! ## New frames (R255, R268, Table 7.2) -/

/-- Local frame handles carry tier code 0x1, proxies 0x3 (R255). -/
def localTier : Nat := 1 * 2 ^ 36
def proxyTier : Nat := 3 * 2 ^ 36

/-- A frame handle of a kind that no frame has, nor a program that outlived its frame. -/
def State.newPfh (s : State) (tier : Nat) : Nat :=
  tier + firstUnused (((s.tier.frames.map (·.pfh) ++ s.tier.zombie.map (·.1)).filter fun p =>
    decide (tier ≤ p) && decide (p < tier + 2 ^ 36)).map fun p => p - tier)

/-- Is there room in the frame table for `n` more records? Its size is the blank's. -/
def State.framesFit (s : State) (n : Nat) : Bool :=
  decide (s.tier.frames.length + n ≤ (s.blank.map (·.frames)).getD 0)
def State.frameRoom (s : State) : Bool := s.framesFit 1

/-- A fresh EMPTY frame (Table 7.2) with the writer's settings (R268). -/
def emptyFrame (pfh part sdom mprof tiles ver now : Nat) (set : Placement) : Frame :=
  { pfh := pfh, st := .empty, burl := false, persist := false, prom := false, set := set, part := part, refs := 0, pins := 0,
    rpins := 0, oldPins := 0, ver := ver, sdom := sdom, mprof := mprof, lastUse := now, lastRead := 0, lastWrite := 0,
    tiles := tiles, t1 := none, stg := none, t2 := none, t2b := none, prev := none, fill := [], before := .empty,
    prog := none, wants := [], fixed := none, writer := (0, 0), ladder := 0, ladderFail := none, reader := none,
    readOk := false, peer := none, imp := none, reread := none, remote := [], forced := none }

/-- Add a record to the frame table. -/
def State.addFrame (s : State) (f : Frame) : State := { s with tier := { s.tier with frames := s.tier.frames ++ [f] } }

/-- LASTUSE unit: bits [51:20] of the cycle counter (Table 7.1). -/
def State.useStamp (s : State) : Nat := s.cycles / 2 ^ 20 % 2 ^ 32

/-- A page is used: LASTUSE follows. -/
def State.touchFrame (s : State) (p : Nat) : State := s.setFrame p fun f => { f with lastUse := s.useStamp }

/-- A page is read (R260): LASTUSE, and the time by which T0 copies are replaced. -/
def State.readFrame (s : State) (p : Nat) : State := s.setFrame p fun f => { f with lastUse := s.useStamp, lastRead := s.cycles }

/-! ## T0 (R260, R408) -/

/-- The staging group of a partition. -/
def State.sgroup? (s : State) (part : Nat) : Option SGroup :=
  match s.part? part with
  | none => none
  | some p => match p.r.sgroup with
    | none => none
    | some g => s.sch.groups.find? fun x => x.r.group == g

/-- The partition that holds a group. -/
def SGroup.holderPart (g : SGroup) : Option Nat := g.r.members[g.holder]?

/-- Does the partition hold its group, with no switch under way? -/
def State.holdsT0 (s : State) (part : Nat) : Bool :=
  match s.sgroup? part with
  | none => false
  | some g => g.holderPart == some part && g.phase == 0

/-- STG chunks of a partition's group: 1,024 chunks of 4 KiB per way of 4 MiB; a way's chunks are numbered from 1,024 times
its number on. -/
def State.stgChunks (s : State) (part : Nat) : Nat × Nat :=
  match s.sgroup? part with
  | none => (0, 0)
  | some g => (g.r.wayFirst * 1024, g.r.ways * 1024)

/-- STG chunks that T0 copies of a partition hold. -/
def State.stgTaken (s : State) (part : Nat) : List Nat :=
  s.tier.frames.flatMap fun f => if f.part == part then (f.stg.map (·.hdr.chunk)).getD [] else []

/-- `n` free STG chunks of a partition, lowest first. -/
def State.stgPick (s : State) (part n : Nat) : Option (List Nat) :=
  let taken := s.stgTaken part
  let b := s.stgChunks part
  if taken.length + n ≤ b.2 then
    some ((((List.range (min b.2 (taken.length + n))).map (b.1 + ·)).filter fun c => !taken.contains c).take n)
  else none

/-- Put a T0 copy of a frame's T1 copy into free STG chunks; none fit: no copy. -/
def State.putStg (s : State) (p : Nat) : State :=
  match s.frame? p with
  | none => s
  | some f => match f.t1, s.stgPick f.part f.chunks with
    | some c, some ch => s.setFrame p fun x => { x with stg := some ⟨c.hdr.withChunks ch, c.bytes⟩ }
    | _, _ => s

/-! ## Writes (R258, R262, R263, R551) -/

/-- A write to the page begins: WRITING, the prior version still readable. -/
def Frame.beginWrite (f : Frame) : Frame := { f with st := .writing, before := f.st }

/-- A write that will not commit: the page is as it was before it began, unless it has been lost meanwhile (R272, R551). A
demotion whose program went on under the write is taken up again; one whose copy has been discarded is not. -/
def Frame.abortWrite (f : Frame) : Frame :=
  if f.st ≠ .writing then f
  else if f.before = .demoting ∧ f.prog = none ∧ f.t2 = none then { f with st := .dirtyT1 }
  else { f with st := f.before }.settle

/-- Must a write to the frame wait before it begins: another write, or a promotion (R263)? -/
def Frame.writeBlocked (f : Frame) : Bool := f.st == .writing || f.st == .promoting

/-- Must a write wait before it commits: the superseded version is still read (R258)? -/
def Frame.commitBlocked (f : Frame) : Bool := f.prev.isSome

/-- A write commits `c` (R258, R262): read pins move to the superseded version, whose copy stays while they last; VERSION
advances except for a refill; T2 copies are discarded; a T0 copy is written with T1, or discarded when its chunks do not
hold the new form. A program in flight runs on, its copy to be discarded (R263). -/
def State.commitWrite (s : State) (p : Nat) (c : Copy) (refill : Bool) (writer : Nat × Nat) : State :=
  let s := s.setFrame p fun f =>
    let keep := decide (0 < f.rpins) && !refill
    { f with
      st := .dirtyT1, t1 := some c, t2 := none, t2b := none, fixed := none, wants := []
      prev := if keep then f.t1 else f.prev
      oldPins := if keep then f.rpins else f.oldPins
      pins := if keep then f.pins - f.rpins else f.pins, rpins := if keep then 0 else f.rpins
      ver := if refill then f.ver else (f.ver + 1) % 65536
      lastUse := s.useStamp, lastWrite := s.cycles, writer := writer }
  if (s.frame? p).any Frame.t0 then (s.setFrame p fun x => { x with stg := none }).putStg p else s

/-! ## Writes begun by a command (R272, R551) -/

/-- Does the write go to the frame that the PTE names? Else it goes to a new frame: of a new block, of a copy-on-write, of a
refill of a page with PFH 0 or of a proxy without an import frame. -/
def PgBegun.inPlace (w : PgBegun) : Bool := w.src == w.dst

/-- The write of one page is given up: a page written in place is as before, a frame made for the write is gone. -/
def State.abortPage (s : State) (w : PgBegun) : State :=
  if w.inPlace then (s.setFrame w.dst fun f => { f.abortWrite with fill := if f.st = .writing then [] else f.fill }).freeIfIdle
    w.dst
  else s.freeImport w.dst

def State.abortPages (s : State) : List PgBegun → State
  | [] => s
  | w :: t => (s.abortPage w).abortPages t

/-- A command gives up the writes it has begun. -/
def State.abortWrites (s : State) (c : CmdId) : State :=
  match s.cmd? c with
  | none => s
  | some k => (s.abortPages k.writes).setCmd c fun x => { x with writes := [] }

/-! ## A command ends -/

/-- Release the read pin a command holds (R259). -/
def State.dropPin (s : State) (c : CmdId) : State :=
  match (s.cmd? c).bind (·.readPin) with
  | none => s
  | some p => (s.setCmd c fun k => { k with readPin := none }).unpinRead p.1 p.2

/-- Take a read pin for a command on a page, unless it holds it; `none`: the pin counts are saturated (R259). -/
def State.takePin (s : State) (c : CmdId) (f : Frame) : Option State :=
  match (s.cmd? c).bind (·.readPin) with
  | some p => if p.1 = f.pfh then some s else none
  | none => if f.pinFull then none else some ((s.pin f.pfh true).setCmd c fun k => { k with readPin := some (f.pfh, f.ver) })

def State.unpinAll (s : State) : List Nat → State
  | [] => s
  | p :: t => (s.unpinRes p).unpinAll t

/-- Give back what a command that is over still holds: writes begun, its read pin, its residency pins. -/
def State.letGo (s : State) (c : CmdId) : State :=
  match s.cmd? c with
  | none => s
  | some k => (((s.abortWrites c).dropPin c).unpinAll k.pinned).setCmd c fun x => { x with pinned := [] }

/-- Complete a command and give back what it holds. -/
def State.finish (s : State) (c : CmdId) (status : Nat) (r : Fin := {}) : State := (s.letGo c).complete c status r

end Sys2Proof.Machine
end

