-- ==== Sys2Proof/Machine/Leases.lean ====
section
/-! DEFINITION. Recompute leases (chapter 5): listing unavailable pages, grants, waiters, how a lease ends, and the
loss of a page's last reference. -/

namespace Sys2Proof.Machine

def Lease.id (l : Lease) : Nat := l.slot + l.gen * 65536

/-- Is the page covered by a live lease? A page with PFH 0 is covered for its own sequence alone (R190). -/
def Lease.covers (l : Lease) (m : MetPage) : Bool :=
  l.pages.any fun x => !x.filled && !x.lost &&
    (if m.pfh = 0 then x.pfh == 0 && x.seq == m.seq && x.lpi == m.lpi && x.layer == m.layer && x.head == m.head
     else x.pfh == m.pfh)

def State.leaseOf (s : State) (m : MetPage) : Option Lease := s.att.leases.find? fun l => l.covers m

def State.setLeases (s : State) (f : List Lease → List Lease) : State :=
  { s with att := { s.att with leases := f s.att.leases } }

/-- Identifier the next grant takes: lowest free slot under its generation, which is never 0 (R190). -/
def State.nextLease (s : State) : Nat × Nat :=
  let slot := firstUnused (s.att.leases.map (·.slot)) % 65536
  (slot, spGet 1 s.att.leaseGen slot)

/-- PAGE_REPUBLISHED detail (Table 5.3). -/
def republished (w : Waiter) (outcome lease : Nat) : List Byte :=
  leBytes 4 w.lpiFirst ++ leBytes 2 w.lpiCount ++ leBytes 1 outcome ++ leBytes 1 0 ++ leBytes 4 lease ++ leBytes 4 0

def State.notifyWaiters (s : State) (outcome lease : Nat) : List Waiter → State
  | [] => s
  | w :: t => (s.postEvent w.ctx Ev.pageRepublished w.seq (republished w outcome lease)).notifyWaiters outcome lease t

/-- A lease ends (R194): `outcome` none for case 4, where no event follows. Outcome 1 counts EXPIRED. -/
def State.endLease (s : State) (l : Lease) (outcome : Option Nat) : State :=
  let s := s.setLeases fun ls => ls.filter fun x => !(x.slot == l.slot && x.gen == l.gen)
  let s := { s with att := { s.att with leaseGen := spSet 1 s.att.leaseGen l.slot (l.gen % 65535 + 1) } }
  match outcome with
  | none => s
  | some o =>
    let s := s.notifyWaiters o l.id l.waiters
    if o = 1 then s.bump F.CTXW_RCP_STAT_EXPIRED 1 0 l.ctx else s

/-- Cases 1 and 4 of R194, tested at each refill and each lost reference. -/
def State.settleLeases (s : State) : List Lease → State
  | [] => s
  | l :: t =>
    if l.pages.all (fun x => x.filled || x.lost) then
      (s.endLease l (if l.pages.any (·.filled) then some 0 else none)).settleLeases t
    else s.settleLeases t

/-- Does an entry of a lease name the page `m` (R190)? -/
def LeasePage.names (x : LeasePage) (m : MetPage) : Bool :=
  if m.pfh = 0 then x.pfh == 0 && x.seq == m.seq && x.lpi == m.lpi && x.layer == m.layer && x.head == m.head
  else x.pfh == m.pfh

/-- Change the pages of every lease. -/
def State.mapLeasePages (s : State) (p : LeasePage → Bool) (f : LeasePage → LeasePage) : State :=
  s.setLeases fun ls => ls.map fun l => { l with pages := updIf l.pages p f }

/-- A page got its data back: mark it refilled in every lease (R196) and settle. -/
def State.leaseFilled (s : State) (m : MetPage) : State :=
  let s := s.mapLeasePages (fun x => !x.lost && x.names m) fun x => { x with filled := true }
  s.settleLeases s.att.leases

/-- A page lost its last reference (R194). -/
def State.leaseLost (s : State) (m : MetPage) : State :=
  let s := s.mapLeasePages (fun x => !x.filled && x.names m) fun x => { x with lost := true }
  s.settleLeases s.att.leases

/-- Remove one reference to a frame (R264): burl change, the lease rules at zero, and freeing. -/
def State.dropRef (s : State) (p : Nat) : State :=
  let s := s.subRef p
  match s.frame? p with
  | none => s
  | some f => (if f.refs = 0 then s.leaseLost ⟨0, 0, 0, 0, p, false⟩ else s).freeIfIdle p

def State.dropRefs (s : State) : List Nat → State
  | [] => s
  | p :: t => (s.dropRef p).dropRefs t

/-! ## Listing (R188, R189, R191, R192) -/

/-- Distinct elements in first-met order. -/
def dedup {α : Type} [DecidableEq α] (l : List α) : List α := l.foldl (fun a x => if a.contains x then a else a ++ [x]) []

/-- How one unavailable page stands for context `c`: its own lease, new, waiting, or neither. -/
inductive Cover where
  | own (id : Nat)
  | fresh
  | wait
  | none
deriving DecidableEq, Repr

/-- Registrations in the part. -/
def State.waiterCount (s : State) : Nat := (s.att.leases.map fun l => l.waiters.length).foldl (· + ·) 0

/-- Live leases of other contexts on which sequence `seq` is or can be registered for pages `ms`, taken in order: at most
65,536 registrations stand in the part (R192). -/
def State.waitLeases (s : State) (c seq : Nat) (ms : List MetPage) : List Nat :=
  (ms.foldl (fun (a : List Nat × Nat) m => match (if m.old then none else s.leaseOf m) with
    | none => a
    | some l =>
      if l.ctx = c ∨ a.1.contains l.id then a
      else if l.waiters.any (fun w => w.seq == seq) then (a.1 ++ [l.id], a.2)
      else if a.2 < 65536 then (a.1 ++ [l.id], a.2 + 1) else a) ([], s.waiterCount)).1

/-- How a page stands, given the leases its sequence can wait on. -/
def State.coverOf (s : State) (c : Nat) (waits : List Nat) (m : MetPage) : Cover :=
  if m.old then .none else match s.leaseOf m with
  | some l => if l.ctx = c then .own l.id else if waits.contains l.id then .wait else .none
  | none => if s.att.leases.length < 65536 then .fresh else .none

/-- An entry of the list: a run of blocks of one sequence under one state, with its pages. -/
structure RcpRun where
  seq : Nat
  first : Nat
  count : Nat
  cover : Cover
  pages : List MetPage
deriving DecidableEq, Repr

/-- Extend runs with the pages of block `b` under cover `c`: consecutive blocks join, up to 65,535. -/
def addToRuns (seq b : Nat) (c : Cover) (ps : List MetPage) (runs : List RcpRun) : List RcpRun :=
  if runs.any (fun r => r.seq == seq && r.cover == c && r.first + r.count == b && decide (r.count < 65535)) then
    updIf runs (fun r => r.seq == seq && r.cover == c && r.first + r.count == b && decide (r.count < 65535))
      fun r => { r with count := r.count + 1, pages := r.pages ++ ps }
  else runs ++ [⟨seq, b, 1, c, ps⟩]

/-- Runs of one sequence: blocks ascending, one run per distinct cover. -/
def State.runsOf (s : State) (c seq : Nat) (pages : List MetPage) : List RcpRun :=
  let pages := sortBy (fun a b => decide (a.lpi < b.lpi)) pages
  let cover := s.coverOf c (s.waitLeases c seq pages)
  (dedup (pages.map (·.lpi))).foldl (fun runs b =>
    let ps := pages.filter fun m => m.lpi == b
    (dedup (ps.map cover)).foldl (fun runs cv => addToRuns seq b cv (ps.filter fun m => cover m == cv) runs) runs) []

/-- Order of entries of one sequence: LPI_FIRST; then leased by identifier, waiting, neither (R188). A new lease
sorts by the identifier the next grant takes. -/
def State.runLt (s : State) (a b : RcpRun) : Bool :=
  let nx := s.nextLease.1 + s.nextLease.2 * 65536
  let key (r : RcpRun) : Nat := match r.cover with
    | .own i => i
    | .fresh => nx
    | .wait => two32
    | .none => two32 + 1
  decide (a.first < b.first) || (a.first == b.first && decide (key a < key b))

/-- Bytes of a recompute-list entry (Table 5.2). -/
def rcpEntry (seq first count : Nat) (leased poisoned shared wait : Bool) (phase lease : Nat) : List Byte :=
  leBytes 4 seq ++ leBytes 4 first ++ leBytes 2 count ++
    leBytes 1 ((if leased then 1 else 0) + (if poisoned then 2 else 0) + (if shared then 4 else 0) +
      (if wait then 8 else 0) + 128 * phase) ++ leBytes 1 0 ++ leBytes 4 lease

/-- Progress of a listing: first index, entries written, truncated, leases granted. -/
structure Listing where
  first : Nat
  count : Nat
  trunc : Bool
  granted : Nat
deriving DecidableEq, Repr

/-- Does one more entry fit in the ring of context `c`, and can it be written (R189, R549)? -/
def State.rcpFits (s : State) (c : Nat) : Bool :=
  let pi := s.fld F.CTXW_RCP_IDX_PI 0 c
  let ci := s.fld F.CTXW_RCP_IDX_CI 0 c
  let n := s.fld F.CTXW_RCP_ATTR_ENTRIES 0 c
  s.fld F.CTXW_RCP_ATTR_ENABLE 0 c == 1 && decide ((pi + two32 - ci) % two32 < n) &&
    s.xlatOk (s.funcOf c) (s.fld F.CTXW_RCP_BASE_ADDR 0 c * 16 + 16 * (pi % max 1 n)) 16

/-- Register waiters of a run on the leases that cover its pages: one registration per (sequence, lease), with the blocks
of that lease in the waiting sequence (Table 5.3). -/
def State.registerWaiters (s : State) (c : Nat) (r : RcpRun) : State :=
  s.setLeases fun ls => ls.map fun l =>
    match (r.pages.filter l.covers).map (·.lpi) with
    | [] => l
    | b :: t =>
      let lo := t.foldl min b
      if l.waiters.any (fun w => w.seq == r.seq) then l
      else { l with waiters := l.waiters ++ [⟨c, r.seq, lo, t.foldl max b - lo + 1⟩] }

/-- Grant a lease over the pages of a run (R191). LEASE_TIME is in ms; 0 acts as 1. -/
def State.grantLease (s : State) (c : Nat) (r : RcpRun) : State :=
  let t := max 1 (s.fld F.CTXW_RCP_ATTR_LEASE_TIME 0 c)
  let id := s.nextLease
  s.setLeases fun ls => ls ++ [
    { slot := id.1, gen := id.2, ctx := c, seq := r.seq, expires := s.cycles + t * 1000 * cyclesPerUs,
      pages := r.pages.map fun m => ⟨m.seq, m.lpi, m.layer, m.head, m.pfh, false, false⟩, waiters := [] }]

/-- Write one entry, granting or registering as its cover says; an entry that does not fit is counted. -/
def State.listRun (s : State) (c : Nat) (r : RcpRun) (g : Listing) : State × Listing :=
  if !s.rcpFits c then (s.bump F.CTXW_RCP_STAT_UNLISTED 1 0 c, { g with trunc := true })
  else
    let pi := s.fld F.CTXW_RCP_IDX_PI 0 c
    let n := s.fld F.CTXW_RCP_ATTR_ENTRIES 0 c
    let a := s.fld F.CTXW_RCP_BASE_ADDR 0 c * 16 + 16 * (pi % n)
    let poisoned := r.pages.any fun m => match s.frame? m.pfh with
      | some f => f.st == .poisoned
      | none => false
    let shared := r.pages.any fun m => match s.frame? m.pfh with
      | some f => decide (1 < f.refs)
      | none => false
    let id := s.nextLease
    let put (s : State) (leased wait : Bool) (lease : Nat) : State :=
      ((s.emit (.hostWrite (s.funcOf c) a
        (rcpEntry r.seq r.first r.count leased poisoned shared wait (phaseBit pi n) lease))).setFld
        F.CTXW_RCP_IDX_PI ((pi + 1) % two32) 0 c).chargeHost c 16
    let g' := { g with count := g.count + 1 }
    match r.cover with
    | .own i => (put s true false i, g')
    | .fresh => (put (s.grantLease c r) true false (id.1 + id.2 * 65536), { g' with granted := g.granted + 1 })
    | .wait => (put (s.registerWaiters c r) false true 0, g')
    | .none => (put s false false 0, g')

/-- List pages of one sequence, entry by entry; grants and registrations are serialised, so that each entry sees those of
the entries before it (R193). Fuel: pages. -/
def State.listRuns (s : State) (c seq : Nat) : Nat → List MetPage → Listing → State × Listing
  | 0, _, g => (s, g)
  | n + 1, ms, g => match sortBy s.runLt (s.runsOf c seq ms) with
    | [] => (s, g)
    | r :: _ => let x := s.listRun c r g; x.1.listRuns c seq n (ms.filter fun m => !r.pages.contains m) x.2

/-- List the unavailable pages a command met, in the order of its sequences (R188). -/
def State.listSeqs (s : State) (c : Nat) (met : List MetPage) : List Nat → Listing → State × Listing
  | [], g => (s, g)
  | q :: t, g =>
    let ps := met.filter fun m => m.seq == q
    let x := s.listRuns c q ps.length ps g
    x.1.listSeqs c met t x.2

/-- The imports of a page that failed twice are forgotten: the next need tries again (R389). -/
def State.retryImports (s : State) (met : List MetPage) : State :=
  { s with tier := { s.tier with
      frames := updIf s.tier.frames (fun f => f.peer.isSome && met.any (fun m => m.pfh == f.pfh)) Frame.retryImport } }

def State.listMet (s : State) (c : Nat) (met : List MetPage) : State × Listing :=
  (s.retryImports met).listSeqs c met (dedup (met.map (·.seq))) ⟨s.fld F.CTXW_RCP_IDX_PI 0 c, 0, false, 0⟩

/-- RESULT of R189. -/
def Listing.result (g : Listing) : Nat := g.first + g.count % 65536 * 2 ^ 32 + if g.trunc then 2 ^ 48 else 0

/-- RECOMPUTE_REQUIRED when a lease was granted, else RECOMPUTE_PENDING (R183). -/
def Listing.status (g : Listing) : Nat := if g.granted > 0 then St.recomputeRequired else St.recomputePending

/-! ## Lease expiry (R194 case 2) -/

/-- LEASE_EXPIRE: the lifetime of the lease in `slot` has run out. -/
def execLeaseEnd (slot : Nat) (s : State) : State :=
  match s.att.leases.find? fun l => l.slot == slot with
  | none => s
  | some l => (s.reach l.expires).endLease l (some 1)

/-- Case 3: the leases granted for a sequence end with outcome 1, and its own registrations go without an event. -/
def State.leasesOfSeq (s : State) (h : Nat) : List Lease → State
  | [] => s
  | l :: t => if l.seq = h then (s.endLease l (some 1)).leasesOfSeq h t else s.leasesOfSeq h t

def State.closeSeqLeases (s : State) (h : Nat) : State :=
  let s := s.setLeases fun ls => ls.map fun l => { l with waiters := l.waiters.filter fun w => w.seq ≠ h }
  s.leasesOfSeq h s.att.leases

end Sys2Proof.Machine
end

