-- ==== Sys2Proof/Machine/Seqs.lean ====
section
/-! DEFINITION. Sequences (chapter 2): SEQ_OPEN, SEQ_FORK of a sequence, SEQ_CLOSE, the return of a record to FREE,
and their rows. -/

namespace Sys2Proof.Machine

/-! ## Checks shared by the commands that name a sequence -/

/-- The OPEN sequence of context `c` a handle names (R39, R40); a CLOSING one is refused (Table 2.2). -/
def State.openSeq? (s : State) (c h : Nat) : Option SeqRec :=
  match s.seqOf? h with
  | some r => if h ≠ 0 ∧ r.ctx = c ∧ r.st = .opn then some r else none
  | none => none

/-- What is checked again when a command starts, having passed steps 1 to 5 of R101 at its fetch: a sequence it names may have
been closed meanwhile (Table 2.2), a region it names revoked (R155, R353). The entries of a list are judged by its own
rules. -/
def State.startCheck (s : State) (k : Cmd) : Option Nat :=
  if !hasList k.desc && (cmdSeqs k).any (fun h => (s.openSeq? k.ctx h).isNone) then some St.badHandle
  else if (cmdSpaces k.desc).any (s.spaceRevoked k.ctx) then some St.regionRevoked
  else none

/-- Step 4 for HANDLE. -/
def State.seqCheck (s : State) (k : Cmd) : Option Nat :=
  if (s.openSeq? k.ctx (dHandle k.desc)).isSome then none else some St.badHandle

/-- May the context name the sharing domain (R63)? 0 names its private domain. -/
def Ctx.sdomOk (x : Ctx) (d : Nat) : Bool := d == 0 || d == x.r.sdom || x.r.nameable.contains d
def Ctx.sdomOf (x : Ctx) (d : Nat) : Nat := if d = 0 then x.r.sdom else d

/-! ## Page tables (R45) -/

/-- Radix levels for `n` blocks: 8 bits per level, 1 to 4. -/
def radixDepth (n : Nat) : Nat := if n ≤ 256 then 1 else if n ≤ 65536 then 2 else if n ≤ 16777216 then 3 else 4

/-- Nodes per level of a table over `n` blocks, the lowest level first; fuel: levels. -/
def radixNodes : Nat → Nat → List Nat
  | 0, _ => []
  | k + 1, n => let m := max 1 ((n + 255) / 256); m :: radixNodes k m

/-- The node counts of a table that serves `n` blocks. -/
def radixFor (n : Nat) : List Nat := radixNodes (radixDepth n) n

/-- Radix depth (Table 2.1): the levels of the table. -/
def SeqRec.depth (q : SeqRec) : Nat := q.nodes.length

/-- Address of node `i` of a level of the table of a sequence. The encoding is internal (free value). -/
def SeqRec.nodeAddr (q : SeqRec) (level i : Nat) : Nat :=
  Config.internalAddr (((q.idx * 16 + q.gen) * 4 + level) * two32 + i + 2 ^ 80)

/-- Entry `e` of node `i` of level `l`, counted from the lowest: the address of a node of the next level down, or of a block
row; `none` where there is none. -/
def SeqRec.nodeEntry (q : SeqRec) (l i e : Nat) : Option Nat :=
  if i ≥ q.nodes.getD l 0 ∨ e ≥ 256 then none
  else match l with
    | 0 => if q.ptes.any fun t => t.lpi == 256 * i + e then some (q.nodeAddr 4 (256 * i + e)) else none
    | m + 1 => if 256 * i + e < q.nodes.getD m 0 then some (q.nodeAddr m (256 * i + e)) else none

/-- The table serves `n` blocks: nodes, and levels at the root, are added as they are needed. -/
def SeqRec.growTable (q : SeqRec) (n : Nat) : SeqRec :=
  let w := radixFor n
  { q with nodes := (List.range (max w.length q.nodes.length)).map fun i => max 1 (max (w.getD i 0) (q.nodes.getD i 0)) }

/-! ## Records (R37 to R41) -/

/-- Sequences of a context that are not FREE. -/
def State.seqCount (s : State) (c : Nat) : Nat := (s.seq.recs.filter fun r => r.ctx == c).length

/-- Records of a partition in use. -/
def State.recordsUsed (s : State) (part : Nat) : Nat := (s.seq.recs.filter fun r => r.part == part).length

/-- Is a free record left in the partition, and the context below its limit (R68)? -/
def State.seqRoom (s : State) (x : Ctx) : Bool :=
  match s.part? x.r.part with
  | none => false
  | some p => decide (s.recordsUsed x.r.part < p.r.records) && (!p.fresh.isEmpty || !p.freed.isEmpty) &&
      decide (s.seqCount x.r.ctx < x.r.seqLimit)

/-- The first index of a list of ranges, and what is left of them. -/
def takeFresh : List (Nat × Nat) → Option (Nat × List (Nat × Nat))
  | [] => none
  | (b, n) :: t => some (b, if n ≤ 1 then t else (b + 1, n - 1) :: t)

/-- Issue a record index of a partition: one never issued, else the one freed longest ago (R39). -/
def State.takeRecord (s : State) (part : Nat) : State × Nat × Nat :=
  match s.part? part with
  | none => (s, 0, 0)
  | some p => match takeFresh p.fresh with
    | some (i, l) => (s.setPart part fun q => { q with fresh := l }, i, 0)
    | none => match p.freed with
      | [] => (s, 0, 0)
      | (i, g) :: t => (s.setPart part fun q => { q with freed := t }, i, g)

/-- A new OPEN record (R41); it takes the class of its context (R170). -/
def newSeq (x : Ctx) (idx gen mprof sdom : Nat) (nodes : List Nat) (len : Nat) (set : Placement) (ptes : List Pte) (now : Nat) :
    SeqRec :=
  { idx := idx, gen := gen, ctx := x.r.ctx, part := x.r.part, st := .opn, mprof := mprof, sdom := sdom,
    retrieval := x.r.retrieval, nodes := nodes, len := len, round := none, defaults := set, spilled := false,
    ptes := ptes, stats := { since := now } }

/-- Records resident in HBM at one time (R38). -/
def residentMax : Nat := 67108864

/-- Spill the resident record that was opened first. -/
def spillOldest : List SeqRec → List SeqRec
  | [] => []
  | r :: t => if r.spilled then r :: spillOldest t else { r with spilled := true } :: t

/-- Room for one more resident record (R38): the table is full, and one is spilled. -/
def makeResident (l : List SeqRec) : List SeqRec :=
  if (l.filter fun q => !q.spilled).length ≥ residentMax then spillOldest l else l

def State.addSeq (s : State) (r : SeqRec) : State :=
  { s with seq := { s.seq with recs := makeResident s.seq.recs ++ [r] } }

/-- Partition defaults of the blank (R267). -/
def State.partDefaults (s : State) (p : Nat) : Placement := ((s.part? p).map (·.r.defaults)).getD ⟨2, 1, 2⟩

/-! ## SEQ_OPEN (R68) -/

def State.checkSeqOpen (s : State) (k : Cmd) : Option Nat :=
  match s.ctx? k.ctx with
  | none => some St.accessDenied
  | some x => if x.sdomOk (dF k.desc 10 2) then none else some St.accessDenied

def seqOpenBody (k : Cmd) (s : State) : State :=
  match s.ctx? k.ctx with
  | none => s
  | some x =>
    match s.prof? (dF k.desc 8 2) with
    | none => s.complete k.id St.badField
    | some p =>
      if !s.seqRoom x then s.complete k.id St.noSpace
      else
        let t := s.takeRecord x.r.part
        let n := p.blocks (dF k.desc 12 4)
        let r := newSeq x t.2.1 t.2.2 p.mprof (x.sdomOf (dF k.desc 10 2))
          (radixFor (if x.r.retrieval then n else min n x.r.maxBlocks)) 0 (s.partDefaults x.r.part) [] s.cycles
        (t.1.addSeq r).complete k.id St.ok { result := r.handle }

/-- SEQ_OPEN. -/
def execOpen (c : CmdId) (s : State) : State :=
  s.runCmd c (fun d => dOp d == Op.seqOpen) State.startCheck seqOpenBody

/-! ## SEQ_FORK (R63, R64, R69, R172) -/

/-- Step 6 of a fork of `len` tokens limited by `limit`, for profile `m`: BAD_FIELD, LENGTH_LIMIT, NO_SPACE. -/
def State.forkCheck (s : State) (x : Ctx) (m len limit : Nat) : Option Nat :=
  if len > limit then some St.badField
  else match s.prof? m with
    | none => some St.badField
    | some p =>
      if !x.r.retrieval ∧ p.blocks len > x.r.maxBlocks then some St.lengthLimit
      else if !s.seqRoom x then some St.noSpace else none

/-- Block rows below `n` as a child shares them: S set, grains only in the retrieval class (R64, R173). -/
def sharePtes (ptes : List Pte) (n : Nat) (retrieval : Bool) : List Pte :=
  (ptes.filter fun e => decide (e.lpi < n)).map fun e =>
    { e with s := e.pfh != 0, g := e.g && retrieval, grain := if retrieval then e.grain else none }

/-- One more reference to every frame of a list of rows. -/
def State.addRefs (s : State) : List Pte → State
  | [] => s
  | e :: t => (if e.pfh = 0 then s else s.addRef e.pfh).addRefs t

/-- Create the child of a fork and complete with its handle. -/
def State.forkChild (s : State) (k : Cmd) (x : Ctx) (p : Profile) (sdom len : Nat) (set : Placement) (src : List Pte) :
    State :=
  let n := p.blocks len
  let rows := sharePtes src n x.r.retrieval
  let t := s.takeRecord x.r.part
  let r := newSeq x t.2.1 t.2.2 p.mprof sdom (radixFor n) len set rows s.cycles
  ((t.1.addRefs rows).addSeq r).complete k.id St.ok { result := r.handle }

/-- Fork of a sequence: S is set in the source's shared PTEs too. -/
def State.forkFromSeq (s : State) (k : Cmd) (x : Ctx) (q : SeqRec) : State :=
  let len := dForkLen k.desc
  match s.forkCheck x q.mprof len q.len with
  | some st => s.complete k.id st
  | none =>
    if len = 0 then s.complete k.id St.okEmpty
    else match s.prof? q.mprof with
      | none => s.complete k.id St.badField
      | some p =>
        let s := s.setSeq q.idx fun r => { r with
          ptes := updIf r.ptes (fun e => decide (e.lpi < p.blocks len) && e.pfh != 0) fun e => { e with s := true } }
        s.forkChild k x p q.sdom len q.defaults q.ptes

/-! ## SEQ_CLOSE (R70) and the return to FREE -/

/-- Every reference of the sequence is removed (R264). -/
def State.dropPtes (s : State) (h : Nat) : List Pte → State
  | [] => s
  | e :: t => (if e.pfh = 0 then s.leaseLost ⟨h, e.lpi, e.layer, e.head, 0, false⟩ else s.dropRef e.pfh).dropPtes h t

def State.removeRefs (s : State) (r : SeqRec) : State :=
  (s.setSeq r.idx fun q => { q with ptes := [] }).dropPtes r.handle r.ptes

/-- The record enters CLOSING; leases granted for it end (R194 case 3). -/
def State.closeSeq (s : State) (r : SeqRec) : State :=
  (s.setSeq r.idx fun q => { q with st := .closing }).closeSeqLeases r.handle

def seqCloseBody (k : Cmd) (s : State) : State :=
  match s.openSeq? k.ctx (dHandle k.desc) with
  | none => s.complete k.id St.badHandle
  | some r =>
    ((s.closeSeq r).removeRefs r).complete k.id St.ok

/-- SEQ_CLOSE. -/
def execClose (c : CmdId) (s : State) : State :=
  s.runCmd c (fun d => dOp d == Op.seqClose) State.startCheck seqCloseBody

/-- SEQ_REFERENCES_REMOVED: the CLOSING record of no command's use returns to FREE and its generation advances (R39). Leases
that a command in flight was granted for it meanwhile end too (R194). -/
def execRefsRemoved (h : Nat) (s : State) : State :=
  match s.seqOf? h with
  | none => s
  | some r =>
    if r.st = .closing ∧ !s.cmds.any (fun x => x.st == .running && (cmdSeqs x).contains h) then
      let s := (s.removeRefs r).closeSeqLeases h
      let s := { s with seq := { s.seq with recs := s.seq.recs.filter fun q => q.idx ≠ r.idx } }
      s.setPart r.part fun p => { p with freed := p.freed ++ [(r.idx, (r.gen + 1) % 16)] }
    else s

/-- SPILLED_RECORD_RESTORE (R38): the record is resident again, another being spilled if need be; the command that waited
proceeds when its row runs. -/
def execRestore (h : Nat) (s : State) : State :=
  match s.seqOf? h with
  | none => s
  | some r =>
    if r.spilled then
      ({ s with seq := { s.seq with recs := makeResident s.seq.recs } }).setSeq r.idx fun q => { q with spilled := false }
    else s

/-! ## Rows of a sequence -/

/-- Visible length of a layer (R43). -/
def SeqRec.visible (q : SeqRec) (l : Nat) : Nat :=
  match q.round with
  | some r => if r.layers.contains l then q.len + r.ntok else q.len
  | none => q.len

def SeqRec.pte? (q : SeqRec) (lpi layer head : Nat) : Option Pte :=
  q.ptes.find? fun e => e.lpi == lpi && e.layer == layer && e.head == head

/-- Set or replace the PTE of a place. -/
def SeqRec.putPte (q : SeqRec) (e : Pte) : SeqRec :=
  { q with ptes := (q.ptes.filter fun x => !(x.lpi == e.lpi && x.layer == e.layer && x.head == e.head)) ++ [e] }

/-- Sink blocks of a sequence (chapter 5): SINK_BLK, or from the profile when it is 0. -/
def State.sinkBlocks (s : State) (c : Nat) (p : Profile) : Nat :=
  let n := s.fld F.CTXW_RET_CFG_SINK_BLK 0 c
  if n = 0 then (p.sink + p.B - 1) / p.B else n

/-- Complete with a recompute list: RECOMPUTE_REQUIRED or RECOMPUTE_PENDING (R183, R184). -/
def State.completeMet (s : State) (k : Cmd) (met : List MetPage) : State :=
  let r := s.listMet k.ctx met
  r.1.finish k.id r.2.status { rcp := true, result := r.2.result }

end Sys2Proof.Machine
end

