-- ==== Sys2Proof/Machine/Placement.lean ====
section
/-! DEFINITION. Commands over pages in place (chapter 7): HINT COLD and WARM, PAGES_DROP, and the range
checks they share with PAGES_PLACE. -/

namespace Sys2Proof.Machine

/-! ## HINT (R296) -/

def State.checkHint (s : State) (k : Cmd) : Option Nat := if dF k.desc 8 1 = 3 then none else s.seqCheck k

/-- Frames a sequence names. -/
def SeqRec.frames (q : SeqRec) : List Nat := dedup ((q.ptes.filter fun e => e.pfh != 0).map (·.pfh))

/-- LASTUSE of every listed frame becomes the oldest value. -/
def State.coldAll (s : State) : List Nat → State
  | [] => s
  | p :: t => (s.setFrame p fun f => { f with lastUse := 0 }).coldAll t

/-- COLD: LASTUSE of every page becomes the oldest value. -/
def hintColdBody (k : Cmd) (s : State) : State :=
  match s.openSeq? k.ctx (dHandle k.desc) with
  | none => s.complete k.id St.badHandle
  | some q =>
    (s.coldAll q.frames).complete k.id St.ok

def execHintC (c : CmdId) (s : State) : State :=
  s.runCmd c (fun d => dOp d == Op.hint && dF d 8 1 == 1) State.startCheck hintColdBody

/-- WARM: promote T2_ONLY pages that find free T1 chunks without eviction. -/
def State.warm (s : State) (k : Cmd) (seq : Nat) : List Nat → State
  | [] => s
  | p :: t => match s.frame? p with
    | none => s.warm k seq t
    | some f =>
      if f.st = .t2Only ∧ f.peer.isNone ∧ f.chunks ≤ s.t1Free f.part then
        ((s.startPromotion p k.id k.ctx seq false).1).warm k seq t
      else s.warm k seq t

def hintWarmBody (k : Cmd) (s : State) : State :=
  match s.openSeq? k.ctx (dHandle k.desc) with
  | none => s.complete k.id St.badHandle
  | some q => (s.warm k q.idx q.frames).complete k.id St.ok

def execHintW (c : CmdId) (s : State) : State :=
  s.runCmd c (fun d => dOp d == Op.hint && dF d 8 1 == 2) State.startCheck hintWarmBody

/-! ## Ranges (R291) -/

/-- Do the LPI and layer ranges lie within LAYERS and below ⌈LEN ÷ B⌉? -/
def rangeOk (p : Profile) (q : SeqRec) (lpi n lf lc : Nat) : Bool :=
  decide (lf + lc ≤ p.layers) && decide (lpi + n ≤ p.blocks q.len)

def inRange (lpi n lf lc : Nat) (e : Pte) : Bool :=
  decide (lpi ≤ e.lpi) && decide (e.lpi < lpi + n) && decide (lf ≤ e.layer) && decide (e.layer < lf + lc)

/-! ## PAGES_DROP (R292) -/

/-- PTE after a drop: PFH 0 under its version, S and G clear. -/
def Pte.dropped (e : Pte) : Pte := { e with pfh := 0, s := false, g := false, grain := none }

def pagesDropBody (k : Cmd) (s : State) : State :=
  match s.openSeq? k.ctx (dHandle k.desc) with
  | none => s.complete k.id St.badHandle
  | some q => match s.prof? q.mprof with
    | none => s.complete k.id St.badField
    | some p =>
      let d := k.desc
      let lpi := dF d 8 4
      let n := dF d 12 4
      let lf := dF d 16 2
      let lc := dF d 18 2
      if !rangeOk p q lpi n lf lc then s.complete k.id St.badField
      else if n = 0 ∨ lc = 0 then s.complete k.id St.okEmpty
      else
        let gone := (q.ptes.filter fun e => inRange lpi n lf lc e && e.pfh != 0).map (·.pfh)
        let s := s.setSeq q.idx fun r => { r with
          ptes := updIf r.ptes (fun e => inRange lpi n lf lc e && e.pfh != 0) Pte.dropped
          round := if decide (lpi ≤ r.len / p.B) && decide (r.len / p.B < lpi + n) then none else r.round }
        (s.dropRefs gone).complete k.id St.ok

/-- PAGES_DROP. -/
def execDrop (c : CmdId) (s : State) : State :=
  s.runCmd c (fun d => dOp d == Op.pagesDrop) State.startCheck pagesDropBody

end Sys2Proof.Machine
end

