-- ==== Sys2Proof/Machine/AttnNum.lean ====
section
/-! DEFINITION. The arithmetic of attention (chapter 4): queries, scores and their transforms, masks, the online softmax
of an AE, the merge rule of MRG, finished and partial outputs; and GRX's page scores (R175). -/

namespace Sys2Proof.Machine

/-! ## Profile attention fields (Table 4.1) -/

def scaleF (p : Profile) : FV := if p.scale = 0 then scaleDefault p.D else f32Of p.scale.toNat

/-- slope(q) of query head `q`: FP32 value nearest to b × 2^(−BIAS_STEP × (q + 1) ÷ 8). -/
def slopeOf (p : Profile) (q : Nat) : FV := slopeF (f32Of p.slope.toNat) (p.biasStep * (q + 1))

/-- Does the window apply to layer `l`? -/
def windowed (p : Profile) (l : Nat) : Bool :=
  p.window != 0 && !(decide (2 ≤ p.winPeriod) && l % p.winPeriod == p.winPeriod - 1)

/-- Is key `j` unmasked by length, causality and window for the query at `pi` (items 1, 2 and 4 of R126)? -/
def unmasked (p : Profile) (l v pi j : Nat) : Bool :=
  decide (j < v) && decide (j ≤ pi) && (!windowed p l || decide (j < p.sink) || decide (pi - j < p.window))

/-- Position of query `i` (R121). -/
def qpos (v nq i : Nat) : Nat := v - nq + i

/-- Has block `b` a slot unmasked for some query position (R127)? -/
def blockLive (p : Profile) (l v nq b : Nat) : Bool :=
  (List.range nq).any fun i => (List.range p.B).any fun j => unmasked p l v (qpos v nq i) (b * p.B + j)

/-! ## Queries (R59, R122, R151) -/

/-- Bytes of one query element, of the scale before it, and of one head's block. -/
def qElem (fmt : Nat) : Nat := if fmt ≤ 1 then 2 else 1
def qScale (fmt : Nat) : Nat := if fmt ≤ 1 then 0 else 4
def qHead (p : Profile) (fmt : Nat) : Nat := qScale fmt + p.D * qElem fmt

/-- Query stride of one entry. -/
def qStride (p : Profile) (fmt nq heads : Nat) : Nat := nq * (heads * p.qpk) * qHead p fmt

/-- Element of a query block as FP32 (R122). -/
def queryElem (fmt : Nat) (blk : List Byte) (i : Nat) : FV :=
  match fmt with
  | 0 => bf16Of (leAt blk (2 * i) 2)
  | 1 => f16Of (leAt blk (2 * i) 2)
  | 2 => rn ((e4m3Of (leAt blk (4 + i) 1)).mul (f32Of (leAt blk 0 4)))
  | _ => rn ((e5m2Of (leAt blk (4 + i) 1)).mul (f32Of (leAt blk 0 4)))

/-- The query vector of position `i` and relative query head `h`, with `ha` query heads attended. -/
def queryVec (p : Profile) (fmt ha : Nat) (q : List Byte) (i h : Nat) : List FV :=
  let blk := bytesAt q ((i * ha + h) * qHead p fmt) (qHead p fmt)
  (List.range p.D).map (queryElem fmt blk)

/-! ## Scores (R123, R125) -/

/-- Bytes 20 to 39 of the profile record (Table 4.1). -/
def attnBytes (p : Profile) : List Byte :=
  leBytes 4 p.scale.toNat ++ leBytes 4 p.softcap.toNat ++ leBytes 4 p.slope.toNat ++ leBytes 1 p.biasStep ++
    leBytes 1 p.winPeriod ++ leBytes 2 p.sink ++ leBytes 4 p.window

/-- Step 2 of R125. A score that is not finite, as a query element that is not finite makes it, stays so: R135 has its outputs
NaN or infinite (log entry 93). -/
def softCap (p : Profile) (s : FV) : FV :=
  let cap := f32Of p.softcap.toNat
  if p.softcap = 0 then s else if s.isFin then rn (cap.mul (tanhF (s.divF32 cap))) else .nan

/-- Step 3 of R125. -/
def slopeBias (p : Profile) (qh pi j : Nat) (s : FV) : FV :=
  if p.slope = 0 then s
  else rn (s.sub (rn ((slopeOf p qh).mul (rn (.fin (decide (pi < j)) (if pi < j then j - pi else pi - j) 0)))))

/-- The transformed score t of query head `qh` at position `pi` against key `j`: R125, or the transforms of the profile's
kernel variant (R136). -/
def score (p : Profile) (qh pi j : Nat) (q k : List FV) : FV :=
  let r := dotF q k
  if p.kvar = 0 then rn ((slopeBias p qh pi j (softCap p (rn ((scaleF p).mul r)))).mul log2e)
  else if r.isFin then
    f32Of (Config.kernelScore p.kvar (attnBytes p) qh pi j (BitVec.ofNat 32 (toF32 r))).toNat
  else .nan

/-- The pages of a chunk in the order in which an AE visits them: ascending, or as a kernel variant has it (R136). -/
def visitOrder {α : Type} (p : Profile) (pages : List (Nat × α)) : List (Nat × α) :=
  if p.kvar = 0 then pages
  else sortBy (fun a b => decide (Config.kernelOrder p.kvar a.1 ≤ Config.kernelOrder p.kvar b.1)) pages

/-! ## Online softmax (R128, R129) -/

/-- Running state of a member, as values. -/
structure Soft where
  m : FV
  l : FV
  acc : List FV

def Soft.empty (d : Nat) : Soft := ⟨.inf true, .zero, List.replicate d .zero⟩

/-- One page: `ts` are the scores of its unmasked slots with their V vectors, in slot order. -/
def Soft.page (x : Soft) (ts : List (FV × List FV)) : Soft :=
  match ts with
  | [] => x
  | (t0, _) :: rest =>
    let mp := rest.foldl (fun a y => fvMax a y.1) t0
    let x := if x.m.lt mp then
        let c := exp2F (rn (x.m.sub mp))
        { m := mp, l := rn (x.l.mul c), acc := x.acc.map fun a => rn (a.mul c) : Soft }
      else x
    ts.foldl (fun x y =>
      let pw := exp2F (rn (y.1.sub x.m))
      { x with l := rn (x.l.add pw), acc := List.zipWith (fun a v => rn (a.add (rn (pw.mul v)))) x.acc y.2 }) x

def toM (x : Soft) : MState :=
  ⟨BitVec.ofNat 32 (toF32 x.m), BitVec.ofNat 32 (toF32 x.l), x.acc.map fun a => BitVec.ofNat 32 (toF32 a)⟩
def ofM (x : MState) : Soft := ⟨f32Of x.m.toNat, f32Of x.l.toNat, x.acc.map fun a => f32Of a.toNat⟩

/-- The chunk state of one member: query position `i`, relative query head `h` of KV head `head`; `pages` are the
chunk's unmasked pages as (LPI, decoded data), in ascending order. -/
def memberState (p : Profile) (fmt layer v nq ha headFirst head i h : Nat) (queries : List Byte)
    (pages : List (Nat × List (Nat × Byte))) : Soft :=
  let pi := qpos v nq i
  let qh := head * p.qpk + h
  let q := queryVec p fmt ha queries i ((head - headFirst) * p.qpk + h)
  (visitOrder p pages).foldl (fun x pg =>
    let slots := (List.range p.B).filter fun j => unmasked p layer v pi (pg.1 * p.B + j)
    x.page (slots.map fun j => (score p qh pi (pg.1 * p.B + j) q (slotVec p true pg.2 j), slotVec p false pg.2 j)))
    (Soft.empty p.D)

/-! ## Merging (R132, R147) -/

/-- Unnormalised merge of two states of one member. -/
def Soft.merge (a b : Soft) : Soft :=
  if a.l.isZero then b
  else if b.l.isZero then a
  else
    let mm := fvMax a.m b.m
    let wa := exp2F (rn (a.m.sub mm))
    let wb := exp2F (rn (b.m.sub mm))
    ⟨mm, rn ((rn (a.l.mul wa)).add (rn (b.l.mul wb))),
      List.zipWith (fun x y => rn ((rn (wa.mul x)).add (rn (wb.mul y)))) a.acc b.acc⟩

/-- acc × (1 ÷ l) before the final rounding (R130); the empty state gives zeros. -/
def Soft.out (x : Soft) : List FV :=
  if x.l.isZero then x.acc.map fun _ => .zero
  else let r := FV.divF32 (.fin false 1 0) x.l; x.acc.map fun a => a.mul r

/-- Rounding of a finished output to its format: 0 BF16, 1 FP16, 2 FP32. -/
def outCode (fmt : Nat) (x : FV) : List Byte :=
  match fmt with
  | 0 => leBytes 2 (roundFmt 8 (-133) 8 .near x)
  | 1 => leBytes 2 (roundFmt 11 (-24) 5 .near x)
  | _ => leBytes 4 (toF32 x)

/-- Did the rounded output become non-finite (R135)? -/
def outBad (fmt : Nat) (x : FV) : Bool :=
  match fmt with
  | 0 => !(bf16Of (roundFmt 8 (-133) 8 .near x)).isFin
  | 1 => !(f16Of (roundFmt 11 (-24) 5 .near x)).isFin
  | _ => !(f32Of (toF32 x)).isFin

/-- Log-sum-exp (R131). -/
def Soft.lse (x : Soft) : FV :=
  if x.l.isZero then .inf true else rn ((rn (x.m.add (log2F x.l))).mul ln2)

/-- A span partial's bytes (R132, R152). -/
def Soft.partBytes (x : Soft) : List Byte :=
  leBytes 4 (toF32 x.m) ++ leBytes 4 (toF32 x.l) ++ x.out.flatMap fun o => leBytes 4 (toF32 o)

/-! ## GRX scores (R175) -/

/-- bound(q, p) times SCALE, rounded toward +∞ throughout. -/
def grainBound (p : Profile) (q : List FV) (g : Grain) : FV :=
  let term (d : Nat) (x : FV) : FV :=
    let j := d / (p.D / 32)
    fvMax (rUp (x.mul (e4m3Of (g.gmin.getD j 0).toNat))) (rUp (x.mul (e4m3Of (g.gmax.getD j 0).toNat)))
  let sum := ((List.range p.D).zip q).foldl (fun a y => rUp (a.add (term y.1 y.2))) FV.zero
  rUp ((scaleF p).mul (rUp ((f32Of g.gscale.toNat).mul sum)))

/-- u of one member for a page whose last visible slot is `jl`. -/
def grainScore (p : Profile) (qh pi jl : Nat) (q : List FV) (g : Grain) : FV :=
  let b := grainBound p q g
  if p.slope = 0 then b
  else
    let d := rDown (.fin (decide (pi < jl)) (if pi < jl then jl - pi else pi - jl) 0)
    rUp (b.sub (rDown ((slopeOf p qh).mul d)))

/-- A NaN score ranks as +∞. -/
def rankOf (x : FV) : FV := if x.isNan then .inf false else x

/-! ## Costs (R144 to R146) -/

/-- Multiply-accumulates per cycle of an element format (R144). -/
def macs (fmt : Nat) : Nat := if fmt ≤ 1 then 128 else if fmt ≤ 6 then 512 else 1024

def pageCyc (p : Profile) : Nat := (p.ldec + 63) / 64

/-- G_max (R145). -/
def gMax (p : Profile) : Nat := max 1 (min (macs p.kfmt) (macs p.vfmt) * pageCyc p / (p.B * p.D))

def nPass (p : Profile) (nq : Nat) : Nat := (p.qpk * nq + gMax p - 1) / gMax p

/-- est(k): the cycle bound of a chunk of `n` fetched pages (R146). -/
def estCycles (p : Profile) (nq n : Nat) : Nat := n * nPass p nq * pageCyc p + 600

end Sys2Proof.Machine
end

