-- ==== Sys2Proof/Machine/Plans.lean ====
section
/-! DEFINITION. Staging: T0 copies and who may hold them (R260, R408, R411), and STEP_PLAN (chapter 4): plan entries,
the staging window, residency pins, kept page descriptors, completion under WAIT. -/

namespace Sys2Proof.Machine

/-! ## T0 (R260, R408) -/

/-- Does a running chunk read the T0 copy of a frame? -/
def State.t0Busy (s : State) (p : Nat) : Bool :=
  s.att.chunks.any fun k => k.st != .waiting && k.pages.any fun r => r.pfh == p && r.t0

/-- T0 copies that replacement may discard, least recently read first. -/
def State.t0Victims (s : State) (part : Nat) : List Nat :=
  (sortBy (fun a b : Frame => decide (a.lastRead < b.lastRead))
    (s.tier.frames.filter fun f => f.part == part && f.t0 && !s.t0Busy f.pfh)).map (·.pfh)

/-- Discard T0 copies until `n` STG chunks are free. -/
def State.t0Evict (s : State) (part n : Nat) : List Nat → State
  | [] => s
  | p :: t => if (s.stgPick part n).isSome then s
    else (s.setFrame p fun f => { f with stg := none }).t0Evict part n t

/-- Copy a resident page to STG, replacing if `repl`; a partition that does not hold its group copies nothing. -/
def State.copyT0 (s : State) (p : Nat) (k : CmdId) (ctx seq : Nat) (repl : Bool) : State :=
  match s.frame? p with
  | none => s
  | some f =>
    match s.sgroup? f.part with
    | none => s
    | some g =>
      if f.t0 || !(g.holderPart == some f.part) || !(f.st == .dirtyT1 || f.st == .cleanT1) then s
      else
        let s := (if repl then s.t0Evict f.part f.chunks (s.t0Victims f.part) else s).putStg p
        if (s.frame? p).any Frame.t0 then (s.cmdTier k ctx seq f.stored).t0Bytes ctx f.stored else s

/-- HOT pages of live plans are copied to T0 once resident. -/
def State.hotFill (s : State) (p : Nat) : List PlanEnt → State
  | [] => s
  | e :: t =>
    (if e.hot && e.pins.any fun x => x.pfh == p then
       match (s.frame? p).bind s.holder? with
       | some g => s.copyT0 g.pfh e.plan e.ctx (e.seq % 268435456) true
       | none => s
     else s).hotFill p t

/-! ## Staging one page (R162 to R164) -/

/-- Change a plan entry. -/
def State.setPlanEnt (s : State) (e : PlanEnt) (f : PlanEnt → PlanEnt) : State :=
  { s with att := { s.att with ents := updIf s.att.ents (fun x => x.plan == e.plan && x.no == e.no) f } }

/-- A live plan entry by plan and place in the list. -/
def State.planEnt? (s : State) (plan : CmdId) (no : Nat) : Option PlanEnt :=
  s.att.ents.find? fun x => x.plan == plan && x.no == no

/-- Descriptors the plan descriptor buffer of a partition holds. -/
def State.descsHeld (s : State) (part : Nat) : Nat :=
  ((s.att.ents.filter fun e => match s.ctx? e.ctx with
    | some x => x.r.part == part
    | none => false).map fun e => e.descs.length).foldl (· + ·) 0

def State.descRoom (s : State) (part : Nat) : Bool :=
  match s.part? part with
  | none => false
  | some p => decide (s.descsHeld part < p.r.planBuf)

/-- Make a page of a plan resident, and copy it to T0 for a HOT entry. One that finds no T1 chunk waits in `stuck`. -/
def State.stageNeed (s : State) (e : PlanEnt) (seqIdx : Nat) (x : PlanPage) : State :=
  let r := s.needPage x.pfh e.plan e.ctx seqIdx false
  match r.2 with
  | .ready g => if e.hot then r.1.copyT0 g.pfh e.plan e.ctx seqIdx true else r.1
  | .noSpace => r.1.setPlanEnt e fun y => { y with stuck := y.stuck ++ [x] }
  | .wait => r.1
  | .gone => r.1

/-! ## Page descriptors (R137) -/

/-- The version of a page as a walk captures it: of a proxy, the version it names. -/
def State.capturedVer (s : State) (t : Pte) : Nat := ((s.frame? t.pfh).map (·.ver)).getD t.ver

/-- The 32 bytes of a page descriptor (Table 4.2): `v` the captured length, `nq` query positions, `chunk` and `last` its place
in the chunks of its (sequence, KV head). -/
def State.pageDesc (s : State) (p : Profile) (seqIdx v nq layer head lpi pfh ver chunk : Nat) (last : Bool) : List Byte :=
  let f := (s.frame? pfh).bind s.holder?
  let st := ((s.frame? pfh).map fun g => if g.peer.isSome then (f.map (·.st)).getD g.st else g.st).getD .dropped
  let edge := windowed p layer && (List.range nq).any fun i => (List.range p.B).any fun j =>
    decide (lpi * p.B + j < v) && decide (lpi * p.B + j ≤ qpos v nq i) && !unmasked p layer v (qpos v nq i) (lpi * p.B + j)
  leBytes 5 pfh ++ leBytes 2 ver ++ leBytes 1 p.tiles ++ leBytes 4 lpi ++ leBytes 2 layer ++ leBytes 1 head ++
  leBytes 1 (min p.B (v - lpi * p.B)) ++ leBytes 2 chunk ++
  leBytes 1 ((if lpi * p.B < p.sink then 1 else 0) + (if edge then 2 else 0) + (if last then 4 else 0) +
    (if (f.map Frame.t0).getD false then 8 else 0)) ++
  leBytes 1 (pgCode st) ++ leBytes 4 seqIdx ++ leBytes 2 (chunk / 65536) ++ leBytes 6 0

/-- MAX_PAGES as it acts. -/
def State.maxPages (s : State) : Nat :=
  let n := s.fld F.AEC_SPLIT_CFG_MAX_PAGES
  if n = 0 ∨ n > 64 then 64 else max 8 n

/-- The descriptors that a plan's walk of a layer emits (R137), copied by the trace (R538). Their chunk fields number the pages
of a KV head from the plan's first; the query count is not known, and the mask is that of one query (log entry 94). -/
def State.tracePlan (s : State) (e : PlanEnt) (q : SeqRec) (p : Profile) : List Pte → List (Nat × Nat) → State
  | [], _ => s
  | t :: l, n =>
    let i := spGet 0 n t.head
    let last := decide ((i + 1) % s.maxPages = 0) || !(l.any fun x => x.head == t.head)
    (s.traceRec 0 e.ctx (s.pageDesc p q.idx e.len 1 t.layer t.head t.lpi t.pfh (s.capturedVer t) (i / s.maxPages) last)).tracePlan
      e q p l (spSet 0 n t.head (i + 1))

/-- Stage one page: keep its descriptor while the buffer has room, pin it unless its pin count is saturated
(R259), and make it resident. -/
def State.stagePage (s : State) (e : PlanEnt) (part seqIdx : Nat) (t : Pte) : State :=
  if s.pageGone t.pfh then s
  else
    let s := if s.descRoom part then s.setPlanEnt e fun x => { x with descs := x.descs ++ [(t.layer, t.lpi, t.head, t.pfh, s.capturedVer t)] }
      else s
    let s := match s.frame? t.pfh with
      | none => s
      | some f => if f.pinFull then s
        else (s.pin t.pfh false).setPlanEnt e fun x => { x with pins := x.pins ++ [({ layer := t.layer, lpi := t.lpi, head := t.head, pfh := t.pfh } : PlanPage)] }
    s.stageNeed e seqIdx { layer := t.layer, lpi := t.lpi, head := t.head, pfh := t.pfh }

def State.stagePages (s : State) (e : PlanEnt) (part seqIdx : Nat) : List Pte → State
  | [] => s
  | t :: l => (s.stagePage e part seqIdx t).stagePages e part seqIdx l

/-- First recent block of a length `v` (chapter 5): RECENT blocks ending with the block of token v − 1. -/
def State.recentFirst (s : State) (c : Nat) (p : Profile) (v : Nat) : Nat :=
  (v - 1) / p.B + 1 - min 4096 (s.fld F.CTXW_RET_CFG_RECENT 0 c)

/-- The pages a plan entry stages of a layer: from FIRST_LPI to the last block LEN needs; of a retrieval-class sequence
only its sink and recent pages (R162). -/
def State.planPages (s : State) (e : PlanEnt) (q : SeqRec) (p : Profile) (layer : Nat) : List Pte :=
  sortBy (fun a b : Pte => decide (a.head < b.head) || (a.head == b.head && decide (a.lpi < b.lpi))) <| q.ptes.filter fun t => t.layer == layer && decide (e.firstLpi ≤ t.lpi) && decide (t.lpi < p.blocks e.len) &&
    (!q.retrieval || decide (t.lpi < s.sinkBlocks e.ctx p) || decide (s.recentFirst e.ctx p e.len ≤ t.lpi))

/-- The lowest layer of the plan not yet attended. -/
def PlanEnt.low (e : PlanEnt) : Nat :=
  (((List.range (e.layerEnd - e.layerFirst)).map (e.layerFirst + ·)).find? fun l => !e.done.contains l).getD e.layerEnd

/-- Stage layer `l` of an entry, if it is the next of its window. -/
def State.stageLayer (s : State) (plan : CmdId) (no l : Nat) : State :=
  match s.planEnt? plan no with
  | none => s
  | some e => match s.seqOf? e.seq with
    | none => s
    | some q => match s.prof? q.mprof with
      | none => s
      | some p =>
        if e.staged = l ∧ l < min (e.low + e.look) e.layerEnd then
          let pages := s.planPages e q p l
          ((s.tracePlan e q p pages []).stagePages e q.part q.idx pages).setPlanEnt e fun x => { x with staged := l + 1 }
        else s

/-- Stage layer `l` of every listed entry. -/
def State.stageRow (s : State) (l : Nat) : List PlanEnt → State
  | [] => s
  | e :: t => (s.stageLayer e.plan e.no l).stageRow l t

/-- Stage what the windows of the entries of one plan take in, layer by layer: no page waits behind one of a later layer
(R32). -/
def State.stageWindows (s : State) (es : List PlanEnt) : List Nat → State
  | [] => s
  | l :: t => (s.stageRow l es).stageWindows es t

/-- Layers that a list of entries covers, ascending. -/
def planLayers (es : List PlanEnt) : List Nat :=
  let top := (es.map (·.layerEnd)).foldl max 0
  let low := (es.map (·.layerFirst)).foldl min top
  (List.range (top - low)).map (low + ·)

def State.stageAll (s : State) (es : List PlanEnt) : State := s.stageWindows es (planLayers es)

/-! ## Releasing (R164) -/

def State.unpinList (s : State) : List PlanPage → State
  | [] => s
  | x :: t => (s.unpinRes x.pfh).unpinList t

/-- Drop plan entries: their pins are released and their descriptors no longer reused. A plan without entries ends. -/
def State.dropEnts (s : State) (bad : PlanEnt → Bool) : State :=
  let gone := s.att.ents.filter bad
  let s := { s with att := { s.att with ents := s.att.ents.filter fun e => !bad e } }
  let s := s.unpinList (gone.flatMap (·.pins))
  { s with att := { s.att with plans := s.att.plans.filter fun x => s.att.ents.any fun e => e.plan == x.id } }

/-- Does an entry cover a layer of a sequence? -/
def PlanEnt.at (e : PlanEnt) (seq layer : Nat) : Bool :=
  e.seq == seq && decide (e.layerFirst ≤ layer) && decide (layer < e.layerEnd)

/-- One entry after an ATTEND of its (sequence, layer) over the pages `cov`: their pins are released and the window moves. -/
def State.entAttended (s : State) (e : PlanEnt) (layer : Nat) (cov : PlanPage → Bool) : State :=
  let s := s.setPlanEnt e fun x => { x with
    done := if x.done.contains layer then x.done else layer :: x.done, pins := x.pins.filter fun y => !cov y }
  s.unpinList (e.pins.filter cov)

def State.entsAttended (s : State) (layer : Nat) (cov : PlanPage → Bool) : List PlanEnt → State
  | [] => s
  | e :: t => (s.entAttended e layer cov).entsAttended layer cov t

/-- An ATTEND of (sequence, layer) over blocks [b0, b1) and KV heads [h0, h1) completed. -/
def State.planAttended (s : State) (seq layer b0 b1 h0 h1 : Nat) : State :=
  let es := s.att.ents.filter fun e => e.at seq layer
  let cov (x : PlanPage) : Bool := x.layer == layer && decide (b0 ≤ x.lpi) && decide (x.lpi < b1) && decide (h0 ≤ x.head) &&
    decide (x.head < h1)
  (s.entsAttended layer cov es).stageAll es

/-! ## STEP_PLAN (R159 to R166) -/

/-- LOOKAHEAD as it acts. -/
def State.lookahead (s : State) (d : Word512) : Nat :=
  let n := dF d 17 1
  if n = 0 then max 1 (min 16 (s.fld F.AEC_PLAN_CFG_LOOKAHEAD)) else min 16 n

/-- Steps 4 and 5. -/
def State.checkPlan (s : State) (k : Cmd) : Option Nat :=
  let d := k.desc
  let h := s.spaceCheck k.ctx (dPlanList d) false (dF d 12 4 * 16)
  if h = some St.badHandle ∨ (dFlag d 1 ∧ dF d 36 4 = 0) then some St.badHandle else h

/-- One plan-list entry (Table 4.7) as a live entry; `none`: ignored (R161). -/
def State.planEntry (s : State) (k : Cmd) (no : Nat) (b : List Byte) : Option PlanEnt :=
  let d := k.desc
  match s.openSeq? k.ctx (leAt b 0 4) with
  | none => none
  | some q => match s.prof? q.mprof with
    | none => none
    | some p =>
      let len := leAt b 4 4 + leAt b 13 1 * two32
      let lf := dF d 8 2
      if leAt b 12 1 / 2 ≠ 0 ∨ leAt b 14 2 ≠ 0 ∨ (len ≠ 0 ∧ len < q.len) ∨ lf ≥ p.layers then none
      else some (
        { plan := k.id, no := no, ctx := k.ctx, seq := q.handle, layerFirst := lf, layerEnd := min p.layers (lf + dF d 10 2),
          look := s.lookahead d, len := if len = 0 then q.len else len, firstLpi := leAt b 8 4,
          hot := leAt b 12 1 % 2 = 1, staged := lf, done := [], pins := [], stuck := [], skip := [], descs := [] : PlanEnt })

/-- Pages of the first staging windows of a plan: (sequence, PTE). -/
def State.firstWindow (s : State) (plan : CmdId) : List (Nat × Pte) :=
  (s.att.ents.filter fun e => e.plan == plan).flatMap fun e => match s.seqOf? e.seq with
    | none => []
    | some q => match s.prof? q.mprof with
      | none => []
      | some p => (List.range (min e.look (e.layerEnd - e.layerFirst))).flatMap fun i =>
          (s.planPages e q p (e.layerFirst + i)).map fun t => (e.seq, t)

/-- Is a page resident in T1 (or T0)? -/
def State.resident (s : State) (p : Nat) : Bool :=
  match (s.frame? p).bind s.holder? with
  | none => false
  | some f => f.st == .dirtyT1 || f.st == .cleanT1 || f.st == .demoting || (f.st == .writing && f.t1.isSome)

/-- Was the staging of a page given up (R166)? -/
def State.leftOut (s : State) (plan : CmdId) (p : Nat) : Bool :=
  s.att.ents.any fun e => e.plan == plan && e.skip.contains p

/-- Complete a plan whose waiting is over; `ign` entries were ignored. -/
def State.planFinish (s : State) (k : Cmd) (ign : Nat) (waited : Bool) : State :=
  let pages := if waited then s.firstWindow k.id else []
  let met := (pages.filter fun x => s.pageGone x.2.pfh).map fun x =>
    (⟨x.1, x.2.lpi, x.2.layer, x.2.head, x.2.pfh, false⟩ : MetPage)
  let out := (pages.filter fun x => s.leftOut k.id x.2.pfh).length
  let s := { s with att := { s.att with
    plans := updIf s.att.plans (fun x => x.id == k.id) (fun x => { x with doneAt := some s.cycles }) } }
  if !met.isEmpty then s.completeMet k met
  else s.complete k.id (if ign = 0 ∧ out = 0 then St.ok else St.okPartial) { result := ign + out * two32 }

/-- Is every page of the first windows settled (R166)? -/
def State.planSettled (s : State) (plan : CmdId) : Bool :=
  (s.firstWindow plan).all fun x => s.pageGone x.2.pfh || s.leftOut plan x.2.pfh || s.resident x.2.pfh

/-- The live plan of an accepted STEP_PLAN. -/
def State.newPlan (s : State) (k : Cmd) (n : Nat) : Plan :=
  { id := k.id, ctx := k.ctx, doneAt := none, ttl := max 1 (s.fld F.AEC_PLAN_CFG_TTL), pace := dFlag k.desc 1,
    pacePart := dF k.desc 32 1, paceRkey := BitVec.ofNat 32 (dF k.desc 36 4), paceOff := dF k.desc 40 8,
    lastLevel := 0, lastSent := none, paceSeq := 0, nseq := n }

def stepPlanBody (k : Cmd) (s : State) : State :=
  let d := k.desc
  if k.mark = 1 then (if s.planSettled k.id then s.planFinish k k.count true else s)
  else if !s.spaceLong k.ctx (dPlanList d) (dF d 12 4 * 16) then s.complete k.id St.lengthLimit
  else if dF d 10 2 = 0 ∨ dF d 12 4 = 0 then s.complete k.id St.okEmpty
  else
    let list := listEntries (dF d 12 4) (k.reads.headD [])
    let ents := ((List.range list.length).zip list).map fun x => s.planEntry k x.1 x.2
    let ok := ents.filterMap id
    let named (e : PlanEnt) : Bool := ok.any fun x => x.seq == e.seq
    if (s.att.ents.filter fun e => !named e).length + ok.length > 262144 then s.complete k.id St.noSpace
    else
      let s := s.dropEnts named
      let s := { s with att := { s.att with
        ents := s.att.ents ++ ok
        plans := if ok.isEmpty then s.att.plans else s.att.plans ++ [s.newPlan k ok.length] } }
      let s := s.stageAll ok
      let ign := ents.length - ok.length
      if dFlag d 0 then
        let s := s.setCmd k.id fun c => { c with mark := 1, count := ign }
        if s.planSettled k.id then s.planFinish { k with mark := 1, count := ign } ign true
        else if (s.att.ents.any fun e => e.plan == k.id && !e.stuck.isEmpty) then s.waitAlloc k.id else s
      else s.planFinish k ign false

/-- STEP_PLAN. -/
def execPlan (c : CmdId) (s : State) : State := s.runCmd c (fun d => dOp d == Op.stepPlan) State.startCheck stepPlanBody

/-- PLAN_PIN_EXPIRE: TTL µs after the plan's completion its pins are released and it is no longer live (R164). -/
def execPinExpire (c : CmdId) (s : State) : State :=
  match s.att.plans.find? fun x => x.id == c with
  | none => s
  | some p => match p.doneAt with
    | none => s
    | some t => (s.reach (t + p.ttl * cyclesPerUs)).dropEnts fun e => e.plan == c

/-- Try again the pages of layer `l` of an entry that found no T1 chunk. -/
def State.retryEnt (s : State) (e : PlanEnt) (l : Nat) : State :=
  match s.seqOf? e.seq with
  | none => s
  | some q =>
    let mine := ((s.planEnt? e.plan e.no).map (·.stuck)).getD [] |>.filter fun x => x.layer == l
    mine.foldl (fun s x => s.stageNeed e q.idx x) (s.setPlanEnt e fun x => { x with stuck := x.stuck.filter fun y => y.layer != l })

def State.retryRow (s : State) (l : Nat) : List PlanEnt → State
  | [] => s
  | e :: t => (s.retryEnt e l).retryRow l t

def State.retryLayers (s : State) (es : List PlanEnt) : List Nat → State
  | [] => s
  | l :: t => (s.retryRow l es).retryLayers es t

/-- Staging that waited for a T1 chunk is tried again for the listed entries, layer by layer (R32, R272). -/
def State.retryStaging (s : State) (es : List PlanEnt) : State := s.retryLayers es (planLayers es)

/-- A plan gives up on the pages that found no T1 chunk within ALLOC_WAIT (R166). -/
def State.giveUpStaging (s : State) (plan : CmdId) : State :=
  { s with att := { s.att with
      ents := updIf s.att.ents (fun e => e.plan == plan) (fun e => { e with skip := e.skip ++ e.stuck.map (·.pfh), stuck := [] }) } }

end Sys2Proof.Machine
end

