-- ==== Sys2Proof/Machine/Rsa.lean ====
section
/-! DEFINITION. Signed objects (R429 to R431): the signature block, RSASSA-PSS and RSAES-OAEP of RFC 8017 with SHA-256, and
which keys a verifier accepts. -/

namespace Sys2Proof.Machine

/-! ## RSA (RFC 8017) -/

/-- `r · b ^ e` modulo `m`; `n` bounds the bits of `e`. -/
def powLoop (m : Nat) : Nat → Nat → Nat → Nat → Nat
  | 0, r, _, _ => r
  | n + 1, r, b, e => if e = 0 then r else powLoop m n (if e % 2 = 1 then r * b % m else r) (b * b % m) (e / 2)

/-- MGF1 with SHA-256: the first `n` bytes of its output for a seed. -/
def mgf1 (seed : List Byte) (n : Nat) : List Byte :=
  ((List.range ((n + 31) / 32)).flatMap fun i => sha256 (seed ++ beBytes 4 i)).take n

/-- EMSA-PSS-VERIFY for a 3,072-bit modulus and a 32-byte salt: `em` is the 384-byte encoded message. -/
def pssVerify (mHash em : List Byte) : Bool :=
  let masked := em.take 351
  let h := bytesAt em 351 32
  let db := xorBytes masked (mgf1 h 351)
  let top := (em.headD 0).toNat
  decide (top < 128) && em.drop 383 == [0xBC] && ((db.headD 0).toNat % 128 == 0) && (bytesAt db 1 317).all (· == 0) &&
    bytesAt db 318 1 == [1] && sha256 (List.replicate 8 0 ++ mHash ++ bytesAt db 319 32) == h

/-- RSASSA-PSS with a 3,072-bit key. -/
def pssOk (n e sig : Nat) (mHash : List Byte) : Bool :=
  decide (2 ^ 3071 ≤ n) && decide (n < 2 ^ 3072) && decide (sig < n) && pssVerify mHash (beBytes 384 (powLoop n 32 1 sig e))

/-- What follows the first byte 1 of a string of zeros and then 1. -/
def afterOne : List Byte → Option (List Byte)
  | [] => none
  | b :: t => if b = 0 then afterOne t else if b = 1 then some t else none

/-- EME-OAEP decoding of a 384-byte message with an empty label. -/
def oaepDecode (em : List Byte) : Option (List Byte) :=
  let db := bytesAt em 33 351
  let seed := xorBytes (bytesAt em 1 32) (mgf1 db 32)
  let db := xorBytes db (mgf1 seed 351)
  if em.headD 1 = 0 ∧ db.take 32 = sha256 [] then afterOne (db.drop 32) else none

/-- RSAES-OAEP decryption with a private exponent. -/
def oaepOpen (n d c : Nat) : Option (List Byte) :=
  if c < n then oaepDecode (beBytes 384 (powLoop n 3072 1 c d)) else none

/-- The digest under which a key is known: SHA-256 of MODULUS followed by EXPONENT (R430). -/
def keyDigest (n e : Nat) : Nat := leNat (sha256 (beBytes 384 n ++ beBytes 4 e))

/-! ## The signature block (Table 12.1) -/

def blockBytes (g : Signed) : List Byte := leBytes 800 g.block
def sigField (g : Signed) (off n : Nat) : Nat := g.block / 256 ^ off % 256 ^ n
def sigAlg (g : Signed) : Nat := sigField g 0 1
def sigSigner (g : Signed) : Nat := sigField g 1 1
def sigSlot (g : Signed) : Nat := sigField g 2 1
def sigSvn (g : Signed) : Nat := sigField g 4 4
def sigModulus (g : Signed) : Nat := beNat (bytesAt (blockBytes g) 16 384)
def sigExponent (g : Signed) : Nat := beNat (bytesAt (blockBytes g) 400 4)
def sigValue (g : Signed) : Nat := beNat (bytesAt (blockBytes g) 416 384)
/-- The reserved bytes are zero. -/
def sigReservedOk (g : Signed) : Bool := sigField g 3 1 == 0 && sigField g 8 8 == 0 && sigField g 404 12 == 0

/-- Every byte of the object. -/
def signedBytes (g : Signed) : List Byte := g.body ++ blockBytes g

/-- An object from its bytes: the last 800 are its block. -/
def signedOf (b : List Byte) : Signed := ⟨b.take (b.length - 800), leNat (bytesAt b (b.length - 800) 800)⟩

/-- SHA-256 of the whole object (Table 12.11), as the number its bytes spell. -/
def signedDigest (g : Signed) : Nat := leNat (sha256 (signedBytes g))

/-- What is signed: the hash of every byte before the block and of the block's bytes 0 to 415 (R429; DEDUCED: that hash is
PSS's mHash, log entry 3). -/
def signedHash (g : Signed) : List Byte := sha256 (g.body ++ leBytes 416 g.block)

/-! ## Who may sign (R430, R431) -/

/-- The key is acceptable for an Ahnoon signature. -/
def State.ahnoonKey (s : State) (g : Signed) : Bool :=
  decide (sigSlot g ≤ 3) && s.sec.romRoots[sigSlot g]? == some (keyDigest (sigModulus g) (sigExponent g)) &&
    !s.sec.fuses.ahnoonRevoked.contains (sigSlot g)

/-- The key is acceptable for an owner signature: the slot is enabled and not revoked. -/
def State.ownerKey (s : State) (g : Signed) : Bool :=
  decide (sigSlot g ≤ 3) && s.sec.fuses.owners[sigSlot g]? == some (keyDigest (sigModulus g) (sigExponent g), true, false)

/-- R429 and R431 for an object whose signer must be `signer` (0 Ahnoon, 1 owner). -/
def State.sigOk (s : State) (signer : Nat) (g : Signed) : Bool :=
  sigAlg g == 1 && sigSigner g == signer && sigReservedOk g && sigExponent g == 65537 &&
    (if signer = 0 then s.ahnoonKey g else s.ownerKey g) && pssOk (sigModulus g) (sigExponent g) (sigValue g) (signedHash g)

/-- Check a signature; a rejected object is counted. -/
def State.checkSig (s : State) (signer : Nat) (g : Signed) : State × Bool :=
  if s.sigOk signer g then (s, true) else (s.bump F.SEC_AUTH_STAT_SIG_FAIL, false)

/-! ## The DeviceID key (Table 12.3) -/

/-- DEVICE_ID: the digest of the DeviceID public key. -/
def State.deviceId (s : State) : Nat := keyDigest s.sec.fuses.devN 65537

/-- UDS once every fuse of it is programmed (R449, R450). -/
def udsBurned : Nat := 2 ^ 256 - 1

/-- The private half can be recovered while UDS is intact. -/
def State.hasDevId (s : State) : Bool := s.sec.fuses.uds != udsBurned

end Sys2Proof.Machine
end

