-- ==== Sys2Proof/Machine/Attend.lean ====
section
/-! DEFINITION. ATTEND up to its chunks (chapters 4 and 5): checks, hot set, operand reads, page selection, the walk and
the splitter, and the completion of an ATTEND whose chunks have all been merged. -/

namespace Sys2Proof.Machine

/-! ## AE sets (R398) -/

def aeDie (ae : Nat) : Nat := ae / 128
def aeIsland (ae : Nat) : Nat := ae / 8

def State.aeOnline (s : State) (ae : Nat) : Bool := s.fld F.AEC_AE_ONLINE_ONLINE (ae / 64) / 2 ^ (ae % 64) % 2 = 1

/-- Islands of an AE set. -/
def State.setIslands (s : State) (set : Nat) : List Nat :=
  (((s.blank.map (·.aesets)).getD []).find? fun x => x.set == set).elim [] (·.islands)

/-- Online AEs of a set, ascending. -/
def State.setAes (s : State) (set : Nat) : List Nat :=
  (List.range 256).filter fun a => (s.setIslands set).contains (aeIsland a) && s.aeOnline a

/-- The AE set of a context. -/
def State.setOf (s : State) (c : Nat) : Option Nat :=
  (s.ctx? c).bind fun x => (s.part? x.r.part).map (·.r.aeset)

/-- No AE of the context's set is left online (AESET_EMPTY, R531). -/
def State.setDark (s : State) (c : Nat) : Bool :=
  match s.setOf c with
  | some st => !(s.setIslands st).isEmpty && (s.setAes st).isEmpty
  | none => false

/-! ## Fields of the descriptor (Table 4.4) -/

def aBatch (d : Word512) : Bool := dFlag d 0
def aBitmap (d : Word512) : Bool := dFlag d 1
def aLse (d : Word512) : Bool := dFlag d 2
def aLayer (d : Word512) : Nat := dF d 8 2
def aQfmt (d : Word512) : Nat := dF d 10 1 % 4
def aOfmt (d : Word512) : Nat := dF d 10 1 / 4 % 4
def aPart (d : Word512) : Bool := dF d 10 1 / 16 % 4 == 1
def aNq (d : Word512) : Nat := dF d 11 1
def aHead (d : Word512) : Nat := dF d 12 2
def aHeads (d : Word512) : Nat := dF d 14 2
def aSpanFirst (d : Word512) : Nat := dF d 16 4
def aSpanCount (d : Word512) : Nat := dF d 20 4
def aTrig (d : Word512) : Nat := dF d 26 2

/-- Sequences of the ATTEND, in batch order. -/
def aSeqs (k : Cmd) : List Nat :=
  if aBatch k.desc then (if dHandle k.desc = 0 then [] else cmdSeqs k) else [dHandle k.desc]

/-- Bitmap address of each entry. -/
def aBitmapAddrs (k : Cmd) : List Nat :=
  if aBatch k.desc then (listEntries (dHandle k.desc) (k.reads.headD [])).map fun e => leAt e 8 8 else [dF k.desc 56 8]

/-- Output stride of one entry (R152). -/
def oStride (p : Profile) (d : Word512) : Nat :=
  let n := aNq d * (aHeads d * p.qpk)
  if aPart d then n * (8 + 4 * p.D)
  else n * p.D * (if aOfmt d = 2 then 4 else 2) + if aLse d then n * 4 else 0

/-- Last block of the span, exclusive; and the block count a bitmap covers (R150). -/
def spanEnd (p : Profile) (d : Word512) (v : Nat) : Nat :=
  if aSpanCount d = 0 then p.blocks v else min (p.blocks v) (aSpanFirst d + aSpanCount d)
def spanBlocks (p : Profile) (d : Word512) (v : Nat) : Nat :=
  if aSpanCount d = 0 then p.blocks v - aSpanFirst d else aSpanCount d

/-! ## Checks (R101, R149, R154) -/

/-- The ranges an ATTEND names once its sequences are known: queries, output, bitmaps. -/
def attendRanges (k : Cmd) (p : Profile) (qs : List SeqRec) : List (Space × Bool × Nat) :=
  let d := k.desc
  (dQSpace d (dF d 32 8), false, qs.length * qStride p (aQfmt d) (aNq d) (aHeads d)) ::
  (dOSpace d (dF d 44 8), true, qs.length * oStride p d) ::
  (if aBitmap d then ((aBitmapAddrs k).zip qs).map fun x =>
    (dQSpace d x.1, false, (spanBlocks p d (x.2.visible (aLayer d)) + 7) / 8) else [])

/-- Step 5 on those ranges: a host range may not pass 2^64 − 1 (R548). -/
def State.attendHost (s : State) (k : Cmd) (qs : List SeqRec) : Option Nat :=
  match qs.head?.bind fun q => s.prof? q.mprof with
  | none => none
  | some p => (attendRanges k p qs).findSome? fun r =>
    match s.spaceCheck k.ctx r.1 r.2.1 r.2.2 with
    | some st => if st = St.accessDenied then some st else none
    | none => none

/-- The sequences of an ATTEND, while all of them are OPEN. -/
def State.attendSeqs (s : State) (k : Cmd) : Option (List SeqRec) :=
  let l := (aSeqs k).map (s.openSeq? k.ctx)
  if l.all Option.isSome then some (l.filterMap id) else none

/-- Steps 4 and 5 on the descriptor: HANDLE, the regions and their rights, the trigger. -/
def State.checkAttend (s : State) (k : Cmd) : Option Nat :=
  let d := k.desc
  if !aBatch d ∧ (s.openSeq? k.ctx (dHandle d)).isNone then some St.badHandle
  else
    let q := if aBatch d then s.spaceCheck k.ctx (dQSpace d (dF d 56 8)) false (dHandle d * 16)
      else s.spaceCheck k.ctx (dQSpace d (dF d 32 8)) false 0
    let o := s.spaceCheck k.ctx (dOSpace d (dF d 44 8)) true (dF d 52 4)
    if q = some St.badHandle ∨ o = some St.badHandle then some St.badHandle
    else if q.isSome then q else if o.isSome then o
    else if aTrig d ≠ 0 ∧ !s.trigOwned k.ctx (aTrig d) then some St.accessDenied
    else if aBatch d then none
    else s.attendHost k ((s.openSeq? k.ctx (dHandle d)).toList)

/-- Checks 3 and 4 of R149 on the list that was read. -/
def State.checkBatch (s : State) (k : Cmd) : Option Nat :=
  if !hasList k.desc then none
  else
    let es := listEntries (dHandle k.desc) (k.reads.headD [])
    if es.any fun e => leAt e 4 4 ≠ 0 then some St.badField
    else match s.attendSeqs k with
      | none => some St.badHandle
      | some qs => s.attendHost k qs

/-- Step 6 (R154) for the resolved sequences. -/
def State.attendChecks (s : State) (k : Cmd) (p : Profile) (qs : List SeqRec) : Option Nat :=
  let d := k.desc
  let n := qs.length
  let vs := qs.map fun q => q.visible (aLayer d)
  let maps := (List.range n).all fun i => !aBitmap d ||
    s.spaceLong k.ctx (dQSpace d ((aBitmapAddrs k).getD i 0)) ((spanBlocks p d (vs.getD i 0) + 7) / 8)
  if aLayer d ≥ p.layers ∨ qs.any (fun q => q.mprof != p.mprof) ∨ p.qfmts / 2 ^ aQfmt d % 2 = 0 then some St.badField
  else if aHead d + aHeads d > p.kvHeads ∨ aNq d > 16 then some St.badField
  else if vs.any fun v => decide (0 < v) && decide (v < aNq d) then some St.badField
  else if dF d 52 4 < n * oStride p d then some St.lengthLimit
  else if !s.spaceLong k.ctx (dQSpace d (dF d 32 8)) (n * qStride p (aQfmt d) (aNq d) (aHeads d)) ∨ !maps ∨
      !s.spaceLong k.ctx (dOSpace d (dF d 44 8)) (n * oStride p d) then some St.lengthLimit
  else none

/-! ## The hot set (R61) -/

def State.hotHas (s : State) (m : Nat) : Bool := s.att.hot.any fun h => h.mprof == m

/-- Ask for a profile's load. -/
def State.loadProfile (s : State) (m : Nat) : State :=
  if s.att.loading.contains m then s else { s with att := { s.att with loading := s.att.loading ++ [m] } }

def State.touchHot (s : State) (m : Nat) : State :=
  { s with att := { s.att with hot := updIf s.att.hot (fun h => h.mprof == m) (fun h => { h with lastUse := s.cycles }) } }

/-- The profile of an ATTEND: that of its first sequence. -/
def State.attendProf (s : State) (k : Cmd) : Option Nat := ((aSeqs k).head?.bind s.seqOf?).map (·.mprof)

/-- Is a slot held by an executing ATTEND: one whose chunks are under way, or whose operands are being read? -/
def State.hotHeld (s : State) (m : Nat) : Bool :=
  (s.att.atts.any fun a => a.mprof == m) ||
    s.cmds.any fun k => dOp k.desc == Op.attend && k.st == .running && decide (2 ≤ k.mark) && s.attendProf k == some m

/-- The object of a kernel variant, as the blank carries it. -/
def State.variant? (s : State) (v : Nat) : Option Signed := (s.blank.bind fun b => b.variants.find? fun x => x.1 == v).map (·.2)

/-- Has the variant verified, or does it bear a valid Ahnoon signature (R136)? Variant 0 is built in. -/
def State.variantOk (s : State) (v : Nat) : Bool :=
  v == 0 || s.sec.verified.contains v || (s.variant? v).any (s.sigOk 0)

/-- A variant is verified on its first load into a slot (Table 12.11). -/
def State.verifyVariant (s : State) (v : Nat) : State :=
  if v = 0 ∨ s.sec.verified.contains v ∨ !s.variantOk v then s else { s with sec := { s.sec with verified := s.sec.verified ++ [v] } }

/-- PROFILE_LOAD_DONE: the profile takes a free slot, else the least recently used one that no executing command holds;
with every slot held the load waits (R61). -/
def execProfLoad (m : Nat) (s : State) : State :=
  if !s.att.loading.contains m || (s.prof? m).isNone then s
  else
    let s := s.verifyVariant (((s.prof? m).map (·.kvar)).getD 0)
    let put (slot : Nat) : State := { s with att := { s.att with
      hot := (s.att.hot.filter fun h => h.slot ≠ slot) ++ [⟨slot, m, s.cycles⟩]
      loading := s.att.loading.filter (· ≠ m) } }
    match (List.range 256).find? fun i => s.att.hot.all fun h => h.slot != i with
    | some i => put i
    | none =>
      match sortBy (fun a b : HotSlot => decide (a.lastUse < b.lastUse)) (s.att.hot.filter fun h => !s.hotHeld h.mprof) with
      | [] => s
      | h :: _ => put h.slot

/-! ## Page selection (R126, R127, R175) -/

/-- Blocks of the span that neither the bitmap nor R127 excludes. -/
def liveBlocks (p : Profile) (d : Word512) (v : Nat) (map : List Byte) : List Nat :=
  ((List.range (spanEnd p d v - aSpanFirst d)).filter fun i =>
    (!aBitmap d || (leAt map (i / 8) 1 / 2 ^ (i % 8) % 2 == 1)) &&
      blockLive p (aLayer d) v (aNq d) (aSpanFirst d + i)).map (aSpanFirst d + ·)

/-- TOPK as it acts. -/
def State.topk (s : State) (c : Nat) : Nat :=
  min (s.fld F.CTXW_RET_CFG_TOPK 0 c) (((s.ctx? c).map (·.r.maxTopk)).getD 0)

/-- u(p) of a page's grain over the group. -/
def groupScore (p : Profile) (d : Word512) (v head : Nat) (queries : List Byte) (b : Nat) (g : Grain) : FV :=
  let ha := aHeads d * p.qpk
  let jl := min (b * p.B + p.B - 1) (v - 1)
  ((List.range (aNq d)).flatMap fun i => (List.range p.qpk).map fun h =>
    rankOf (grainScore p (head * p.qpk + h) (qpos v (aNq d) i) jl
      (queryVec p (aQfmt d) ha queries i ((head - aHead d) * p.qpk + h)) g)).foldl fvMax (.inf true)

/-- Selected blocks of one KV head of a retrieval-class sequence, ascending, and the number of candidates. -/
def State.select (s : State) (c : Nat) (p : Profile) (q : SeqRec) (d : Word512) (v head : Nat) (queries : List Byte)
    (blocks : List Nat) : List Nat × Nat :=
  let ns := s.sinkBlocks c p
  let rf := s.recentFirst c p v
  let grainOf (b : Nat) : Option Grain := (q.pte? b (aLayer d) head).bind fun e => if e.g then e.grain else none
  let forced (b : Nat) : Bool := decide (b < ns) || decide (rf ≤ b) || (grainOf b).isNone
  let cand := (blocks.filter fun b => !forced b).map fun b =>
    (b, match grainOf b with
      | some g => groupScore p d v head queries b g
      | none => .inf true)
  let ranked := sortBy (fun a b : Nat × FV => b.2.lt a.2 || (!(a.2.lt b.2) && decide (b.1 < a.1))) cand
  let top := (ranked.take (s.topk c)).map (·.1)
  (blocks.filter fun b => forced b || top.contains b, cand.length)

/-! ## Chunks (R140) -/

def State.att? (s : State) (c : CmdId) : Option Att := s.att.atts.find? fun a => a.id == c
def State.setAtt (s : State) (c : CmdId) (f : Att → Att) : State :=
  { s with att := { s.att with atts := updIf s.att.atts (fun a => a.id == c) f } }

/-- Is the version a chunk captured readable in T0 or T1? -/
def State.verReady (s : State) (r : PageRef) : Bool :=
  match s.frame? r.pfh with
  | none => false
  | some f =>
    if f.peer.isSome then s.resident r.pfh
    else if f.ver = r.version then s.resident r.pfh && f.reread.isNone
    else f.prev.any fun c => c.hdr.ver == r.version

/-- Are all pages of a chunk resident (R141)? -/
def State.chunkReady (s : State) (k : Chunk) : Bool := k.pages.all fun r => r.masked || s.verReady r

def State.bumpSeq (s : State) (h : Nat) (f : Stats → Stats) : State :=
  s.setSeq (h % 268435456) fun q => { q with stats := f q.stats }

/-- Trace the page descriptors of a chunk (R137, R538), those of unavailable pages too. -/
def State.traceDescs (s : State) (k : Chunk) (p : Profile) : List PageRef → State
  | [] => s
  | r :: t => (s.traceRec 0 k.ctx (s.pageDesc p (k.seq % 268435456) k.v k.nq r.layer r.head r.lpi r.pfh r.version k.idx
      t.isEmpty)).traceDescs k p t

/-- End the chunk being built and hand it to SCH; one that waits for residency is a staging miss (R34). -/
def State.flushChunk (s : State) (c : CmdId) : State :=
  match s.att? c with
  | none => s
  | some a =>
    if a.cur.isEmpty then s
    else
      let e := a.ents.getD a.curEnt ⟨0, 0, [], true⟩
      let k : Chunk := { att := c, ctx := a.ctx, adm := a.adm, seq := e.seq, mprof := a.mprof, layer := a.layer, v := e.v,
                         nq := ((s.cmd? c).map fun x => aNq x.desc).getD 1, ent := a.curEnt, head := a.curHead,
                         idx := a.curIdx, pages := a.cur, st := .waiting, missed := false, errors := 0, placed := 0,
                         checked := false, est := 0 }
      let miss := !s.chunkReady k
      let s := ((s.prof? a.mprof).map fun p => s.traceDescs k p k.pages).getD s
      let s := { s with att := { s.att with chunks := s.att.chunks ++ [{ k with missed := miss }] } }
      let s := s.setAtt c fun x => { x with cur := [], curIdx := x.curIdx + 1, left := x.left + 1 }
      if miss then (s.setStats a.ctx fun x => { x with stageMiss := sat32 (x.stageMiss + 1) }).bumpSeq e.seq
        fun x => { x with stageMiss := sat32 (x.stageMiss + 1) }
      else s

/-- A page that an ATTEND of a planned (sequence, layer) reaches is counted as reused when the plan kept its descriptor, the PTE
still names the captured frame and version, and the page is available (R163); else as walked again (log entry 95). -/
def State.countDesc (s : State) (seq layer lpi head pfh ver : Nat) (ok : Bool) : State :=
  match s.att.ents.filter (·.at seq layer) with
  | [] => s
  | es => s.bump (if ok && es.any (fun e => e.descs.contains (layer, lpi, head, pfh, ver)) then F.AEC_PLAN_STAT_REUSED
      else F.AEC_PLAN_STAT_REWALKED)

/-- Note an unavailable page met by the command (R181). -/
def State.meet (s : State) (c : CmdId) (m : MetPage) : State :=
  s.setCmd c fun x => { x with met := if x.met.contains m then x.met else x.met ++ [m] }

/-- Walk one place: `none` when its pin count is saturated (R259). -/
def State.walkOne (s : State) (a : Att) (pl : Nat × Nat × Nat) : Option (State × PageRef) :=
  let e := a.ents.getD pl.1 ⟨0, 0, [], true⟩
  let lost (s : State) (pfh ver : Nat) : Option (State × PageRef) :=
    some (((s.countDesc e.seq a.layer pl.2.2 pl.2.1 pfh ver false).meet a.id
        ⟨e.seq, pl.2.2, a.layer, pl.2.1, pfh, false⟩).setAtt a.id
        (fun x => { x with hit := if x.hit.contains (pl.1, pl.2.1) then x.hit else x.hit ++ [(pl.1, pl.2.1)] }),
      { lpi := pl.2.2, layer := a.layer, head := pl.2.1, pfh := pfh, version := ver, masked := true, pinned := false })
  match (s.seqOf? e.seq).bind fun q => q.pte? pl.2.2 a.layer pl.2.1 with
  | none => lost s 0 0
  | some t => match s.frame? t.pfh with
    | none => lost s 0 t.ver
    | some f =>
      if s.pageGone f.pfh then lost s f.pfh t.ver
      else if f.pinFull then none
      else
        let s := (s.countDesc e.seq a.layer pl.2.2 pl.2.1 f.pfh f.ver true).pin f.pfh true
        let r := s.needPage f.pfh a.id a.ctx (e.seq % 268435456) false
        let s := if r.2 = .noSpace then r.1.waitAlloc a.id else r.1
        some (s, { lpi := pl.2.2, layer := a.layer, head := pl.2.1, pfh := f.pfh, version := f.ver })

/-- The walk: one place after the other; a page that cannot be pinned ends the chunk and stops the walk there. -/
def State.walkFrom (s : State) (c : CmdId) : List (Nat × Nat × Nat) → State
  | [] => (s.flushChunk c).setAtt c fun a => { a with walk := [] }
  | pl :: t =>
    let same := match s.att? c with
      | some a => a.curEnt == pl.1 && a.curHead == pl.2.1
      | none => true
    let s := if same then s
      else (s.flushChunk c).setAtt c fun a => { a with curEnt := pl.1, curHead := pl.2.1, curIdx := 0 }
    match s.att? c with
    | none => s
    | some a => match s.walkOne a pl with
      | none => (s.flushChunk c).setAtt c fun a => { a with walk := pl :: t }
      | some (s, r) =>
        let s := s.setAtt c fun a => { a with cur := a.cur ++ [r] }
        (if a.cur.length + 1 ≥ s.maxPages then s.flushChunk c else s).walkFrom c t

/-! ## Completion (R130, R152, R153, R155, R158, R182, R183) -/

/-- Is an unavailable page of a sequence withheld (true) or excluded? -/
def State.withholds (s : State) (c seq : Nat) : Bool :=
  let m := s.fld F.CTXW_RCP_ATTR_MODE 0 c
  if m = 1 then true else if m = 2 then false
  else match s.seqOf? seq with
    | some q => !q.retrieval
    | none => true

/-- Merged state of a member, empty when none arrived. -/
def Att.state (a : Att) (d e h m : Nat) : Soft :=
  match a.merged.find? fun x => x.ent == e && x.head == h && x.member == m with
  | some x => ofM x.st
  | none => Soft.empty d

/-- States of one entry in output order: query position, then query head ascending (R152). -/
def State.entryStates (s : State) (a : Att) (p : Profile) (d : Word512) (i : Nat) : List Soft :=
  let e := a.ents.getD i ⟨0, 0, [], true⟩
  (List.range (aNq d)).flatMap fun qi => (List.range (aHeads d)).flatMap fun h => (List.range p.qpk).map fun m =>
    if a.hit.contains (i, aHead d + h) && s.withholds a.ctx e.seq then Soft.empty p.D
    else a.state p.D i (aHead d + h) (qi * p.qpk + m)

/-- Output bytes of one entry. -/
def entryBytes (d : Word512) (xs : List Soft) : List Byte :=
  if aPart d then xs.flatMap Soft.partBytes
  else (xs.flatMap fun x => x.out.flatMap (outCode (aOfmt d))) ++
    if aLse d then xs.flatMap fun x => leBytes 4 (toF32 x.lse) else []

/-- Forget an ATTEND: its waiting chunks go and their pins are released; running ones run on (R156). -/
def State.unpinPages (s : State) : List PageRef → State
  | [] => s
  | r :: t => (if r.pinned then s.unpinRead r.pfh r.version else s).unpinPages t

/-- A running chunk of an ATTEND that is over belongs to no command: its states are discarded when it ends (R142). -/
def strayAtt (c : CmdId) : CmdId := ⟨c.q + two32, c.idx⟩

/-- The ATTEND is over: waiting chunks go, running ones become strays. -/
def State.dropAtt (s : State) (c : CmdId) : State :=
  match s.att? c with
  | none => s
  | some a =>
    let gone := s.att.chunks.filter fun k : Chunk => k.att == c && k.st == ChunkSt.waiting
    let s := { s with att := { s.att with
      atts := s.att.atts.filter fun x => x.id ≠ c
      chunks := updIf (s.att.chunks.filter (fun k : Chunk => !(k.att == c && k.st == ChunkSt.waiting)))
        (fun k => k.att == c) (fun k => { k with att := strayAtt k.att }) } }
    s.unpinPages (a.cur ++ gone.flatMap (·.pages))

/-- The ATTEND's plans move on (R162, R164). -/
def State.plansMove (s : State) (p : Profile) (d : Word512) : List AttEnt → State
  | [] => s
  | e :: t => (s.planAttended e.seq (aLayer d) (aSpanFirst d) (spanEnd p d e.v) (aHead d) (aHead d + aHeads d)).plansMove p d t

/-- What an ATTEND that fails after execution began leaves in its output: some of its bytes, with contents that are not
defined (R156, R549). -/
def State.partialOut (s : State) (k : Cmd) (rlen : Nat) : State :=
  let n := Config.partialLen s.free % (rlen + 1)
  match s.nextFree.spaceWrite k.id k.ctx (dOSpace k.desc (dF k.desc 44 8))
    ((List.range n).map (Config.partialOutput s.free)) with
  | .ok t => t
  | .error _ => s.nextFree

/-- Complete an ATTEND with a failure after execution began (R156). -/
def State.failAttend (s : State) (c : CmdId) (st : Nat) : State :=
  match s.cmd? c, s.att? c with
  | some k, some a => match s.prof? a.mprof with
    | none => (s.dropAtt c).finish c st
    | some p => (((s.partialOut k (a.ents.length * oStride p k.desc)).dropAtt c).finish c st).plansMove p k.desc a.ents
  | _, _ => (s.dropAtt c).finish c st

/-- Every chunk state has been merged: outputs, recompute list, trigger, record, in that order. -/
def State.attendDone (s : State) (c : CmdId) : State :=
  match s.cmd? c, s.att? c with
  | some k, some a =>
    if a.left ≠ 0 ∨ !a.walk.isEmpty then s
    else match s.prof? a.mprof with
      | none => s.failAttend c St.badField
      | some p =>
        let d := k.desc
        let states := (List.range a.ents.length).map fun i => s.entryStates a p d i
        let bytes := states.flatMap (entryBytes d)
        match s.spaceWrite c k.ctx (dOSpace d (dF d 44 8)) bytes with
        | .error st => s.failAttend c st
        | .ok s =>
          let bad := if aPart d then 0 else (states.flatMap fun xs => xs.filter fun x => x.out.any (outBad (aOfmt d))).length
          let s := s.bump F.AEC_NONFINITE_OUTPUTS bad
          let held := a.hit.any fun h => s.withholds a.ctx (a.ents.getD h.1 ⟨0, 0, [], true⟩).seq
          let met := a.ents.flatMap fun e => k.met.filter fun m => m.seq == e.seq
          let l := if met.isEmpty then (s, (⟨0, 0, false, 0⟩ : Listing)) else s.listMet k.ctx (dedup met)
          let st := if a.ents.all (·.empty) then St.okEmpty
            else if met.isEmpty then St.ok else if held then l.2.status else St.okPartial
          let s := if St.isOk st then l.1.advanceTrig (aTrig d) else l.1
          let s := (s.dropAtt c).finish c st
            { part := aPart d, rcp := !met.isEmpty, rlen := bytes.length, result := if met.isEmpty then 0 else l.2.result }
          s.plansMove p d a.ents
  | _, _ => s

/-! ## The walk begins -/

/-- Start the walk, once every operand has been read. -/
def State.beginWalk (s : State) (k : Cmd) (p : Profile) (qs : List SeqRec) : State :=
  let d := k.desc
  let rd := if hasList d then k.reads.drop 1 else k.reads
  let queries := rd.headD []
  let stride := qStride p (aQfmt d) (aNq d) (aHeads d)
  let vs := k.todo
  let g := p.qpk * aNq d
  let step (acc : List AttEnt × List (Nat × Nat × Nat) × List (List Byte) × List (Nat × Nat × Nat)) (x : Nat × SeqRec) :
      List AttEnt × List (Nat × Nat × Nat) × List (List Byte) × List (Nat × Nat × Nat) :=
    let v := vs.getD x.1 0
    let takes := aBitmap d && decide (0 < spanBlocks p d v)
    let map := if takes then acc.2.2.1.headD [] else []
    let maps := if takes then acc.2.2.1.drop 1 else acc.2.2.1
    let qb := bytesAt queries (x.1 * stride) stride
    let live := liveBlocks p d v map
    let heads := (List.range (aHeads d)).map fun h =>
      if x.2.retrieval then
        let r := s.select k.ctx p x.2 d v (aHead d + h) qb live
        (aHead d + h, r.1, r.2)
      else (aHead d + h, live, 0)
    let places := heads.flatMap fun h => h.2.1.map fun b => (x.1, h.1, b)
    let cand := (heads.map (·.2.2)).foldl (· + ·) 0
    let chosen := if x.2.retrieval then places.length else 0
    (acc.1 ++ [⟨x.2.handle, v, qb, places.isEmpty⟩], acc.2.1 ++ places, maps, acc.2.2.2 ++ [(x.2.handle, cand, chosen)])
  let r := ((List.range qs.length).zip qs).foldl step ([], [], rd.drop 1, [])
  let s := r.2.2.2.foldl (fun s y =>
    ((((s.setStats k.ctx fun z => { z with grx := sat64 (z.grx + y.2.1 * g) }).bumpSeq y.1
      fun z => { z with grx := sat64 (z.grx + y.2.1 * g) }).bumpUnits F.GRX_STAT_SCORED 1024 y.2.1).bumpUnits
        F.GRX_STAT_SELECTED 1024 y.2.2)) s
  let a : Att := { id := k.id, ctx := k.ctx, adm := k.adm, mprof := p.mprof, layer := aLayer d, ents := r.1, walk := [],
                   cur := [], curEnt := 0, curHead := aHead d, curIdx := 0, left := 0, merged := [], counts := [], hit := [] }
  let s := { s with att := { s.att with atts := s.att.atts ++ [a] } }
  let s := s.walkFrom k.id r.2.1
  if s.setDark k.ctx && (s.att? k.id).any (fun a => decide (a.left ≠ 0)) then s.failAttend k.id St.deviceError
  else s.attendDone k.id

/-- Read the queries and the bitmaps. The bitmaps cover the captured visible lengths, which are captured here (R138; log
entry 28). -/
def State.attendReads (s : State) (k : Cmd) (p : Profile) (qs : List SeqRec) : State :=
  let d := k.desc
  let vs := qs.map fun q => q.visible (aLayer d)
  let s := (s.setCmd k.id fun x => { x with mark := 2, todo := vs }).touchHot p.mprof
  let s := s.spaceRead k.id k.ctx (dQSpace d (dF d 32 8)) (qs.length * qStride p (aQfmt d) (aNq d) (aHeads d))
  if !aBitmap d then s
  else ((vs.zip (aBitmapAddrs k)).filter fun x => decide (0 < spanBlocks p d x.1)).foldl
    (fun s x => s.spaceRead k.id k.ctx (dQSpace d x.2) ((spanBlocks p d x.1 + 7) / 8)) s

/-! ## Walks on the CCs (R407) -/

/-- ATTENDs whose operands have been read and whose walk waits for a CC. -/
def State.walkWaits (s : State) : List Cmd := s.cmds.filter fun k => dOp k.desc == Op.attend && k.st == .running && k.mark == 4

/-- Key, beside the AE sets, of the set that all contexts form over the CCs. -/
def ccSet : Nat := 65536

/-- A walk of a context becomes ready: a context that was inactive takes at least the virtual time of the others (R405). -/
def State.walkReady (s : State) (k : Cmd) : State :=
  let others := s.ctxs.filter fun x => x.r.ctx != k.ctx && s.walkWaits.any fun w => w.ctx == x.r.ctx
  let v := match others.map (·.vtCc) with
    | [] => spGet 0 s.sch.lastVt ccSet
    | a :: t => t.foldl min a
  let s := if s.walkWaits.any fun w => w.ctx == k.ctx then s else s.setCtx k.ctx fun x => { x with vtCc := max x.vtCc v }
  s.setCmd k.id fun x => { x with mark := 4 }

/-- The waiting walk that is served next: of the context with the least virtual time, in admission order. -/
def State.nextWalk (s : State) : Option Cmd :=
  let vt (k : Cmd) : Nat := ((s.ctx? k.ctx).map (·.vtCc)).getD 0
  (sortBy (fun a b : Cmd => decide (vt a < vt b) || (vt a == vt b && (decide (a.ctx < b.ctx) ||
    (a.ctx == b.ctx && decide (a.adm < b.adm))))) s.walkWaits).head?

/-- CC cycles of a walk (a free value) are charged and move the context's virtual time. -/
def State.chargeWalk (s : State) (c : Nat) : State :=
  let n := Config.ccCycles s.free
  let s := (s.nextFree.chargeCc c n).setCtx c fun x => { x with vtCc := x.vtCc + n * 65536 / max 1 x.r.weight }
  if s.walkWaits.any fun w => w.ctx == c then s
  else { s with sch := { s.sch with lastVt := spSet 0 s.sch.lastVt ccSet (((s.ctx? c).map (·.vtCc)).getD 0) } }

/-- Serve one waiting walk. -/
def State.serveWalk (s : State) : State :=
  match s.nextWalk with
  | none => s
  | some k => match s.attendSeqs k with
    | none => s.complete k.id St.badHandle
    | some qs => match qs.head?.bind fun q => s.prof? q.mprof with
      | none => s.complete k.id St.badField
      | some p => (((s.setCmd k.id fun x => { x with mark := 3 }).chargeWalk k.ctx)).beginWalk k p qs

/-! ## The row -/

/-- An ATTEND that is a no-op completes with OK_EMPTY; its trigger advances (R158). -/
def State.attendEmpty (s : State) (k : Cmd) : State := (s.advanceTrig (aTrig k.desc)).complete k.id St.okEmpty

/-- The operand reads are out: when none is outstanding any more the walk waits for its turn. -/
def State.attendGo (s : State) (c : CmdId) : State :=
  match s.cmd? c with
  | none => s
  | some k => match k.fail with
    | some st => s.complete c st
    | none => if k.owed = 0 then (s.walkReady k).serveWalk else s

/-- Step 6, the no-op, and the start of execution: signature, hot set, operand reads. -/
def State.attendStart (s : State) (k : Cmd) (p : Profile) (qs : List SeqRec) : State :=
  let d := k.desc
  match (if k.mark = 0 then s.attendChecks k p qs else none) with
  | some st => s.complete k.id st
  | none =>
    if aNq d = 0 ∨ aHeads d = 0 then s.attendEmpty k
    else if !s.variantOk p.kvar then (s.bump F.SEC_AUTH_STAT_SIG_FAIL).complete k.id St.signatureInvalid
    else if !s.hotHas p.mprof then
      let s := s.loadProfile p.mprof
      if k.mark = 1 then s
      else ((s.setStats k.ctx fun x => { x with profMiss := sat32 (x.profMiss + 1) }).setCmd k.id
        fun x => { x with mark := 1 })
    else (s.attendReads k p qs).attendGo k.id

def attendBody (k : Cmd) (s : State) : State :=
  if k.mark = 3 then s
  else if k.mark = 4 then s.serveWalk
  else if k.mark = 2 then s.attendGo k.id
  else match (if k.mark = 0 then s.checkBatch k else none) with
    | some st => s.complete k.id st
    | none => match s.attendSeqs k with
      | none => s.complete k.id St.badHandle
      | some [] => s.attendEmpty k
      | some (q0 :: t) => match s.prof? q0.mprof with
        | none => s.complete k.id St.badField
        | some p => s.attendStart k p (q0 :: t)

/-- ATTEND. -/
def execAttendF (c : CmdId) (s : State) : State :=
  s.runCmd c (fun d => dOp d == Op.attend) State.startCheck attendBody

/-- Resume every stopped walk whose next page can be pinned now (R259). -/
def State.resumeWalks (s : State) (pfh : Nat) : List Att → State
  | [] => s
  | a :: t =>
    let waits := match a.walk with
      | [] => false
      | pl :: _ =>
        match (s.seqOf? (a.ents.getD pl.1 ⟨0, 0, [], true⟩).seq).bind fun q => q.pte? pl.2.2 a.layer pl.2.1 with
        | some e => e.pfh == pfh
        | none => false
    (if waits then (s.walkFrom a.id a.walk).attendDone a.id else s).resumeWalks pfh t

/-- PIN_WAIT_RESUME: a pin of a saturated page was released, and a waiting walk takes its pin. -/
def execPinResume (pfh : Nat) (s : State) : State :=
  match s.frame? pfh with
  | none => s
  | some f => if f.pinFull then s else s.resumeWalks pfh s.att.atts

end Sys2Proof.Machine
end

