-- ==== Sys2Proof/Machine/PrefixOps.lean ====
section
/-! DEFINITION. The prefix index's shared operations (chapter 6): digests, homes, directory and CAM, anchors and
references, retirement and the poison scan. -/

namespace Sys2Proof.Machine

/-! ## Digests (R201 to R203) -/

/-- The salt of a sharing domain: KDF(DSS, "salt", SDOM) (Table 12.3). -/
def State.salt (s : State) (sdom : Nat) : List Byte := kdf256 (s.dss.getD Config.noDss) "salt" (leBytes 2 sdom)

/-- Digest of one block chained on `last` (32 zero bytes for block 0), as a little-endian number. -/
def blockDigest (salt : List Byte) (last mprof : Nat) (tokens : List Byte) : Nat :=
  leNat (sha256 (salt ++ leBytes 32 last ++ leBytes 2 mprof ++ tokens))

/-- Digests of consecutive blocks of `b` tokens. -/
def chain (salt : List Byte) (mprof b : Nat) : Nat → Nat → List Byte → List Nat
  | 0, _, _ => []
  | n + 1, last, toks =>
    let d := blockDigest salt last mprof (bytesAt toks 0 (4 * b))
    d :: chain salt mprof b n d (toks.drop (4 * b))

/-- Cores of the digest unit, and fabric cycles of one compression. -/
def digestCores : Nat := 64
def coreCycles : Nat := 17

/-- A chain of `n` compressions is hashed on one core, for which it waits while every core is in use (R205): the state, and the
cycle at which its last digest is computed. -/
def State.hashChain (s : State) (n : Nat) : State × Nat :=
  let busy := sortBy (fun a b => decide (a < b)) (s.pxi.cores.filter fun t => decide (s.cycles < t))
  let full := decide (digestCores ≤ busy.length)
  let done := (if full then busy.getD (busy.length - digestCores) s.cycles else s.cycles) + coreCycles * n
  let s := (if full then s.bump F.PXI_DIGEST_STAT_CORE_WAITS else s).bumpUnits F.PXI_DIGEST_STAT_COMPRESSIONS 1024 n
  ({ s with pxi := { s.pxi with cores := busy ++ [done] } }, done)

/-- FP and PF of a digest, and its shard. -/
def fpOf (d : Nat) : Nat := d % 2 ^ 64
def pfOf (d : Nat) : Nat := d / 2 ^ 64 % 256
def shardOf (d : Nat) : Nat := d / 2 ^ 52 % 4096

/-- This part's ID, and whether it belongs to a domain or to a cascade group. -/
def State.ownPart (s : State) : Nat := s.fld F.PXI_PART_ID_PART_ID
def State.inDomain (s : State) : Bool := s.fld F.PXI_PART_ID_IN_DOMAIN == 1
def State.inCascade (s : State) : Bool := s.fld F.PXI_PART_ID_IN_CASCADE == 1 && s.fld F.PXI_CASC_CFG_ENABLE == 1

/-- Entry `n` of the shard map (R220). -/
def State.shardHome (s : State) (n : Nat) : Nat :=
  s.fld (match n % 4 with
    | 0 => F.PXI_SHARD_MAP_HOME_0
    | 1 => F.PXI_SHARD_MAP_HOME_1
    | 2 => F.PXI_SHARD_MAP_HOME_2
    | _ => F.PXI_SHARD_MAP_HOME_3) (n / 4)

def State.setShardHome (s : State) (n v : Nat) : State :=
  s.setFld (match n % 4 with
    | 0 => F.PXI_SHARD_MAP_HOME_0
    | 1 => F.PXI_SHARD_MAP_HOME_1
    | 2 => F.PXI_SHARD_MAP_HOME_2
    | _ => F.PXI_SHARD_MAP_HOME_3) v (n / 4)

def State.homeOf (s : State) (d : Nat) : Nat := s.shardHome (shardOf d)

/-- Epoch in force (Table 10.13). -/
def State.epoch (s : State) : Nat := s.fld F.FXT_DOM_STAT_EPOCH

/-- Is this part's half of the domain read-only (R370)? -/
def State.readOnly (s : State) : Bool :=
  s.fld F.FXT_DOM_STAT_STATE == 1 || s.fld F.FXT_DOM_STAT_STATE == 4

/-! ## References (Table 6.4, R217) -/

def refAnchor (r : Nat) : Nat := r % two32
def refDepth (r : Nat) : Nat := r / two32 % 16777216
def refApart (r : Nat) : Nat := r / 2 ^ 56 % 256
def mkRef (anchor depth apart : Nat) : Nat := anchor + depth * two32 + apart * 2 ^ 56

def Anchor.handle (a : Anchor) : Nat := a.idx + a.gen * 268435456

def State.anchor? (s : State) (h : Nat) : Option Anchor :=
  s.pxi.anchors.find? fun a => a.idx == h % 268435456 && a.gen == h / 268435456 % 16

/-- The anchor on this part that a reference names, live or not. -/
def State.refAnchor? (s : State) (r : Nat) : Option Anchor :=
  if refApart r = s.ownPart then s.anchor? (refAnchor r) else none

/-- The local anchor a live reference names. -/
def State.liveRef (s : State) (r : Nat) : Option Anchor :=
  match s.refAnchor? r with
  | some a => if 1 ≤ refDepth r ∧ refDepth r ≤ a.live then some a else none
  | none => none

/-- Does the reference name an anchor on another member of the domain (R217)? -/
def State.remoteRef (s : State) (r : Nat) : Bool :=
  s.inDomain && refApart r != s.ownPart &&
    ((s.blank.bind (·.domain)).map fun d => d.members.contains (refApart r)).getD false

/-! ## Directory (R211 to R213) -/

/-- Candidate buckets of a digest. -/
def State.buckets (s : State) (d : Nat) : Nat × Nat :=
  let b := s.fld F.PXI_DIR_CFG_LOG2_BUCKETS
  let h1 := d / 2 ^ 96 % 2 ^ 32 % 2 ^ b
  let h2 := d / 2 ^ 128 % 2 ^ 32 % 2 ^ b
  (h1, if b ≠ 0 ∧ h2 = h1 then Nat.xor h1 1 else h2)

def State.bucketUsed (s : State) (b : Nat) : List Nat := (s.pxi.dir.filter fun e => e.bucket == b).map (·.slot)

/-- The entry of a digest in its candidate buckets, all 256 bits compared (R214). -/
def State.dirFind (s : State) (d sdom mprof : Nat) : Option DirEnt :=
  s.pxi.dir.find? fun e => e.digest == d && e.sdom == sdom && e.mprof == mprof &&
    (e.bucket == (s.buckets d).1 || e.bucket == (s.buckets d).2)

def DirEnt.ref (e : DirEnt) : Match := ⟨e.depth, BitVec.ofNat 64 (mkRef e.anchor e.depth e.apart)⟩

def State.setPxi (s : State) (f : Pxi → Pxi) : State := { s with pxi := f s.pxi }

/-- Does the entry of a place satisfy `e`'s place? -/
def DirEnt.at_ (e : DirEnt) (bucket slot : Nat) : Bool := e.bucket == bucket && e.slot == slot

/-- Change the entry at a place. -/
def State.setDirEnt (s : State) (bucket slot : Nat) (f : DirEnt → DirEnt) : State :=
  s.setPxi fun x => { x with dir := updIf x.dir (fun e => e.at_ bucket slot) f }

/-! ## CAM (R206 to R210) -/

/-- Invalidate a CAM row. -/
def State.camDrop (s : State) (die row : Nat) : State :=
  s.setPxi fun x => { x with
    cam := x.cam.filter (fun r => !(r.die == die && r.row == row))
    dir := updIf x.dir (fun e => e.cam == some (die, row)) (fun e => { e with cam := none }) }

/-- Rows of bank group `g` in use on a die. -/
def State.camUsed (s : State) (g die : Nat) : List Nat :=
  (s.pxi.cam.filter fun r => r.die == die && r.row / 32768 == g).map (·.row)

/-- A place for a new row of a bank group: a free row, else the row with the oldest hit (R210). -/
def State.camPlace (s : State) (g : Nat) : Nat × Nat :=
  match [0, 1].find? fun die => decide ((s.camUsed g die).length < 32768) with
  | some die => (die, g * 32768 + (firstUnused ((s.camUsed g die).map fun r => r % 32768 + 1) - 1))
  | none =>
    match sortBy (fun a b : CamRow => decide (a.hit < b.hit)) (s.pxi.cam.filter fun r => r.row / 32768 == g) with
    | [] => (0, g * 32768)
    | r :: _ => (r.die, r.row)

/-- Install a row for the entry at a place. -/
def State.camInstall (s : State) (e : DirEnt) : State :=
  let g := pfOf e.digest / 16
  let pl := s.camPlace g
  let s := s.camDrop pl.1 pl.2
  (s.setPxi fun x => { x with cam := x.cam ++ [
    ⟨pl.1, pl.2, fpOf e.digest, e.sdom, e.mprof, pfOf e.digest, e.depth, e.bucket * 8 + e.slot, s.cycles⟩] }).setDirEnt
    e.bucket e.slot fun y => { y with cam := some pl }

/-- Priority of matching rows: depth, then CD0, then the lower row (R208). -/
def camLt (a b : CamRow) : Bool :=
  decide (b.depth < a.depth) || (a.depth == b.depth && (decide (a.die < b.die) || (a.die == b.die && decide (a.row < b.row))))

/-- Rows that match a key, in priority order. -/
def State.camMatch (s : State) (d sdom mprof : Nat) : List CamRow :=
  sortBy camLt (s.pxi.cam.filter fun r => r.fp == fpOf d && r.sdom == sdom && r.mprof == mprof && r.pf == pfOf d)

/-- A verified hit of an entry: its LASTHIT, HITS and its row's age. -/
def State.dirHit (s : State) (e : DirEnt) : State :=
  let s := s.setDirEnt e.bucket e.slot fun y => { y with last := s.useStamp, hits := min (y.hits + 1) (two32 - 1) }
  s.setPxi fun x => { x with cam := updIf x.cam (fun r => e.cam == some (r.die, r.row)) (fun r => { r with hit := s.cycles }) }

/-- Verify every matching row in priority order (R208): the first verified hit; a false hit is counted and its row invalidated
(R210, R214). -/
def State.camVerify (s : State) (d sdom mprof : Nat) : List CamRow → State × Option DirEnt
  | [] => (s, none)
  | r :: t =>
    match s.pxi.dir.find? fun e => e.at_ (r.dir / 8) (r.dir % 8) && e.digest == d && e.sdom == sdom && e.mprof == mprof with
    | some e => ((s.camVerify d sdom mprof t).1, some e)
    | none => ((s.bump F.PXI_STAT_HIT_FALSE_HITS).camDrop r.die r.row).camVerify d sdom mprof t

/-- Present one key to the CAM: the multiple-match flag, and the verified hit. -/
def State.camSearch (s : State) (d sdom mprof : Nat) : State × Option DirEnt :=
  let rows := s.camMatch d sdom mprof
  let s := (s.bump F.PXI_STAT_SEARCH_SEARCHES).setPxi fun x => { x with multi := decide (1 < rows.length) }
  match s.camVerify d sdom mprof rows with
  | (s, some e) => ((s.bump F.PXI_STAT_HIT_CAM_HITS).dirHit e, some e)
  | (s, none) => (s, none)

/-- Where a search found its digest. -/
inductive Found where
  | no | cam (e : DirEnt) | dir (e : DirEnt)
deriving DecidableEq, Repr

/-- Search one digest this part is home to (R214, R224). -/
def State.search (s : State) (d sdom mprof : Nat) (camOnly : Bool) : State × Found :=
  let r := s.camSearch d sdom mprof
  match r.2 with
  | some e => (r.1, .cam e)
  | none =>
    if camOnly then (r.1, .no)
    else
      let s := r.1.bump F.PXI_STAT_DIR_PROBES
      match s.dirFind d sdom mprof with
      | none => (s, .no)
      | some e =>
        let s := (s.bump F.PXI_STAT_DIR_DIR_HITS).dirHit e
        (if s.fld F.PXI_CFG_CAM_FILL == 1 && e.cam.isNone then s.camInstall e else s, .dir e)

/-! ## Inserts (R212, R213) -/

/-- Outcome of an insert at the home. -/
inductive Inserted where
  | created
  | existing (m : Match)
  | full
deriving DecidableEq, Repr

/-- Insert an entry into the directory of this part; `row`: a publication installs a CAM row (R210). -/
def State.insertEntry (s : State) (d sdom mprof depth anchor apart epoch : Nat) (row : Bool) : State × Inserted :=
  match s.dirFind d sdom mprof with
  | some e => (s, .existing e.ref)
  | none =>
    let h := s.buckets d
    let n1 := (s.bucketUsed h.1).length
    let n2 := (s.bucketUsed h.2).length
    let b := if n2 < n1 then h.2 else h.1
    if 8 ≤ min n1 n2 then (s.bump F.PXI_DIR_OCC_INSERT_FAILS, .full)
    else
      let slot := firstUnused ((s.bucketUsed b).map (· + 1)) - 1
      let e : DirEnt := ⟨b, slot, d, sdom, mprof, depth, anchor, apart, epoch, none, 0, 0⟩
      let s := s.setPxi fun x => { x with dir := x.dir ++ [e] }
      (if row then s.camInstall e else s, .created)

/-! ## Anchors (R215, R219) -/

def State.setAnchor (s : State) (idx : Nat) (f : Anchor → Anchor) : State :=
  s.setPxi fun x => { x with anchors := updIf x.anchors (fun a => a.idx == idx) f }

/-- Set PERSIST as anchors name the frame. -/
def State.persistUpdate (s : State) (p : Nat) : State :=
  let named := s.pxi.anchors.any fun a => a.ptes.any fun e => e.pfh == p
  s.setFrame p fun f => { f with persist := named }

def State.persistAll (s : State) : List Pte → State
  | [] => s
  | e :: t => (s.persistUpdate e.pfh).persistAll t

/-- Homes other than this part that hold digests of an anchor from depth `from` on. -/
def State.homesFrom (s : State) (a : Anchor) (fr : Nat) : List Nat :=
  dedup ((((List.range a.digests.length).zip a.digests).filter fun x => decide (fr ≤ x.1 + 1)).map fun x =>
    s.homeOf x.2) |>.filter (· ≠ s.ownPart)

/-- Can a part be reached within the domain's member set? -/
def State.reachable (s : State) (part : Nat) : Bool := part == s.ownPart || s.dom.members.contains part

/-- Does the entry name this anchor of this part? -/
def State.entryOf (s : State) (a : Anchor) (e : DirEnt) : Bool := e.anchor == a.handle && e.apart == s.ownPart

/-- A SEQ_FORK that has passed its handle check reads the anchor it names until it completes (R218, R240). -/
def State.forking (s : State) (a : Anchor) : Bool :=
  s.cmds.any fun k => k.st != .fetching && dOp k.desc == Op.seqFork && dHandle k.desc == 0 &&
    ((s.refAnchor? (dF k.desc 8 8)).map (·.idx)) == some a.idx

/-- May the anchor be freed: no valid entry names it, no fork reads it, and every home of its digests can be reached
(R219, R385)? -/
def State.anchorIdle (s : State) (a : Anchor) : Bool :=
  !(s.pxi.dir.any (s.entryOf a)) && a.remote.isEmpty && a.forks == 0 && !s.forking a &&
    !(s.pxi.pubs.any fun p => p.anchor == a.handle) && (s.homesFrom a 1).all s.reachable

def State.dropRows (s : State) : List Pte → State
  | [] => s
  | e :: t => (if e.pfh = 0 then s else (s.persistUpdate e.pfh).dropRef e.pfh).dropRows t

/-- Free an anchor: its references are removed and its generation advances. -/
def State.freeAnchor (s : State) (a : Anchor) : State :=
  (s.setPxi fun x => { x with anchors := x.anchors.filter (fun y => y.idx ≠ a.idx)
                              freedAnchors := x.freedAnchors ++ [(a.idx, (a.gen + 1) % 16)] }).dropRows a.ptes

/-- Free every idle anchor of a list. -/
def State.freeIdle (s : State) : List Anchor → State
  | [] => s
  | a :: t => match s.anchor? a.handle with
    | none => s.freeIdle t
    | some a => (if s.anchorIdle a then s.freeAnchor a else s).freeIdle t

/-- A new anchor's handle index and generation; `none` when the records are used up. -/
def State.takeAnchor (s : State) : Option (State × Nat × Nat) :=
  if s.pxi.freshAnchor ≤ s.fld F.PXI_ANCHOR_OCC_MAX then
    some (s.setPxi fun x => { x with freshAnchor := x.freshAnchor + 1 }, s.pxi.freshAnchor, 0)
  else match s.pxi.freedAnchors with
    | [] => none
    | (i, g) :: t => some (s.setPxi fun x => { x with freedAnchors := t }, i, g)

/-! ## Retirement (R238) -/

/-- Lower the live depth of the local anchors that retired entries name. -/
def State.lowerLive (s : State) : List DirEnt → State
  | [] => s
  | e :: t =>
    (if e.apart = s.ownPart then
      match s.anchor? e.anchor with
      | some a => s.setAnchor a.idx fun x => { x with live := min x.live (e.depth - 1) }
      | none => s
     else s).lowerLive t

/-- Retire every entry of this part's directory that satisfies `bad`; the count. Anchors it leaves idle are freed. -/
def State.retireWhere (s : State) (bad : DirEnt → Bool) : State × Nat :=
  let gone := s.pxi.dir.filter bad
  let s := s.setPxi fun x => { x with
    dir := x.dir.filter (fun e => !bad e)
    cam := x.cam.filter (fun r => !(gone.any fun e => e.cam == some (r.die, r.row))) }
  let s := (s.bump F.PXI_RETIRE_STAT_RETIRED gone.length).lowerLive gone
  (s.freeIdle (s.pxi.anchors.filter fun a => gone.any (s.entryOf a)), gone.length)

/-- Retire what a key names on this part; the anchor's own live depth is lowered here too. -/
def State.retireKey (s : State) (k : RetireKey) : State × Nat :=
  match k with
  | .anchor h apart fr =>
    let s := if apart = s.ownPart then
        match s.anchor? h with
        | some a => s.setAnchor a.idx fun x => { x with live := min x.live (fr - 1) }
        | none => s
      else s
    s.retireWhere fun e => e.anchor == h && e.apart == apart && decide (fr ≤ e.depth)
  | .domain sdom mprof any =>
    let hit (sd mp : Nat) : Bool := sd == sdom && (any || mp == mprof)
    let s := s.setPxi fun x => { x with
      anchors := updIf x.anchors (fun a => hit a.sdom a.mprof) (fun a => { a with live := 0 }) }
    s.retireWhere fun e => hit e.sdom e.mprof

/-- Does a retirement concern an anchor of this part; and from which depth? -/
def State.keyDepth (s : State) (k : RetireKey) (a : Anchor) : Option Nat :=
  match k with
  | .anchor h apart fr => if apart = s.ownPart ∧ h = a.handle then some fr else none
  | .domain sdom mprof any => if a.sdom = sdom ∧ (any ∨ a.mprof = mprof) then some 1 else none

/-- The homes that satisfy `at_` have retired what a key names: the anchors of this part have no such entries there any more,
and those left idle are freed. -/
def State.retiredAt (s : State) (k : RetireKey) (at_ : Nat → Bool) : State :=
  let s := s.setPxi fun x => { x with anchors := x.anchors.map fun a => match s.keyDepth k a with
    | some fr => { a with remote := a.remote.filter fun y => !(decide (fr ≤ y.1) && at_ y.2) }
    | none => a }
  s.freeIdle (s.pxi.anchors.filter fun a => (s.keyDepth k a).isSome)

/-- A fresh request identifier; 0 is none. -/
def State.newReq (s : State) : State × Nat :=
  (s.setPxi fun x => { x with nextReq := x.nextReq % (two32 - 1) + 1 }, s.pxi.nextReq)

/-- A retirement could not be delivered to a home (R384, R385): it is recorded as a pending trim, and the home reported. -/
def State.missHomes (s : State) (idx fr : Nat) : List Nat → State
  | [] => s
  | h :: t =>
    let s := s.setAnchor idx fun x => { x with trim := some (min fr (x.trim.getD fr)) }
    (if s.fld F.FXT_DOM_STAT_MANAGER = s.ownPart then s else s.svc (s.fld F.FXT_DOM_STAT_MANAGER) (.lost h)).missHomes
      idx fr t

/-- Send the retirement of an anchor's entries to its other homes that can be reached, and note the requests. -/
def State.sendRetires (s : State) (a : Anchor) (fr : Nat) : List Nat → State
  | [] => s
  | h :: t =>
    let r := s.newReq
    ((r.1.svc h (.retire r.2 (.anchor a.handle s.ownPart fr))).setPxi fun x => { x with
      scans := x.scans ++ [(r.2, a.handle, h, fr)] }).sendRetires a fr t

/-- The poison scan of one anchor: entries from depth `fr` on are retired on every home. -/
def State.scanAnchor (s : State) (a : Anchor) (fr : Nat) : State :=
  let homes := s.homesFrom a fr
  let s := (s.sendRetires a fr (homes.filter s.reachable)).missHomes a.idx fr (homes.filter fun h => !s.reachable h)
  (s.retireKey (.anchor a.handle s.ownPart fr)).1

/-- A home has answered the retirement of a poison scan, or it was not delivered. -/
def State.scanEnd (s : State) (req : Nat) (ok : Bool) : State :=
  match s.pxi.scans.find? fun x => x.1 == req with
  | none => s
  | some (_, h, home, fr) =>
    let s := s.setPxi fun x => { x with scans := x.scans.filter fun y => y.1 ≠ req }
    if ok then s.retiredAt (.anchor h s.ownPart fr) (· == home)
    else match s.anchor? h with
      | some a => s.missHomes a.idx fr [home]
      | none => s

/-- Least LPI at which an anchor's rows name a frame. -/
def anchorLpi (a : Anchor) (p : Nat) : Option Nat :=
  match sortBy (fun x y => decide (x < y)) ((a.ptes.filter fun e => e.pfh == p).map (·.lpi)) with
  | [] => none
  | k :: _ => some k

def State.scanAnchors (s : State) (p : Nat) : List Anchor → State
  | [] => s
  | a :: t => match anchorLpi a p with
    | none => s.scanAnchors p t
    | some k => (s.scanAnchor a (k + 1)).scanAnchors p t

/-- The poison scan (R239). -/
def State.poisonScan (s : State) (p sdom : Nat) : State :=
  let s := s.bump F.PXI_RETIRE_STAT_POISON_SCANS
  s.scanAnchors p (s.pxi.anchors.filter fun a => a.sdom == sdom)

end Sys2Proof.Machine
end

