-- ==== Sys2Proof/Machine/Sched.lean ====
section
/-! DEFINITION. SCH (chapters 4 and 11): placement rounds and virtual time, the completion of a chunk, and what happens to
chunks when a page they hold fails or becomes unavailable (R157, R181, R323, R324). -/

namespace Sys2Proof.Machine

/-! ## AEs and islands -/

def ChunkSt.ae? : ChunkSt → Option Nat
  | .waiting => none
  | .running a => some a

def State.busyAes (s : State) : List Nat := s.att.chunks.filterMap fun k => k.st.ae?

def State.islandBusy (s : State) (i : Nat) : Bool := s.busyAes.any fun a => aeIsland a == i

/-! ## Where pages lie (R141) -/

/-- Is a page read from its T0 copy, as things stand (R163, R411)? -/
def State.flagT0 (s : State) (r : PageRef) : PageRef :=
  match s.frame? r.pfh with
  | none => r
  | some f => { r with t0 := (f.peer.isSome || f.ver == r.version) &&
      (s.holder? f).any fun g => g.t0 && s.holdsT0 g.part }

/-- Die of a page: its staging group's when read from T0, else the die that holds more of its chunks, chunk 0 deciding a
tie. -/
def State.pageDie (s : State) (r : PageRef) : Nat :=
  match s.frame? r.pfh with
  | none => 0
  | some f => match s.holder? f with
    | none => 0
    | some g =>
      if (s.flagT0 r).t0 then ((s.sgroup? g.part).map (·.r.die)).getD 0
      else
        let pcs := if f.peer.isSome ∨ f.ver = r.version then g.pcs else f.oldPcs
        let n0 := (pcs.filter fun p => decide (p < 512)).length
        let n1 := pcs.length - n0
        if n0 > n1 then 0 else if n1 > n0 then 1 else if pcs.headD 0 < 512 then 0 else 1

/-- Die a chunk prefers. -/
def State.chunkDie (s : State) (k : Chunk) : Nat :=
  let ps := k.pages.filter fun r => !r.masked
  let n1 := (ps.filter fun r => s.pageDie r == 1).length
  let n0 := ps.length - n1
  if n0 > n1 then 0 else if n1 > n0 then 1
  else match ps with
    | [] => 0
    | r :: _ => s.pageDie r

/-! ## Virtual time (R404, R405) -/

def Ctx.weight (x : Ctx) : Nat := max 1 x.r.weight

/-- Chunks of a context that wait, in the order of R141. -/
def State.waitingOf (s : State) (c : Nat) : List Chunk :=
  sortBy (fun a b : Chunk => decide (a.adm < b.adm) || (a.adm == b.adm && (decide (a.ent < b.ent) ||
    (a.ent == b.ent && (decide (a.head < b.head) || (a.head == b.head && decide (a.idx < b.idx)))))))
    (s.att.chunks.filter fun k => k.ctx == c && k.st == ChunkSt.waiting)

/-- The next chunk of a context: the first resident one. -/
def State.nextChunk (s : State) (c : Nat) : Option Chunk := (s.waitingOf c).find? s.chunkReady

def State.ctxActive (s : State) (c : Nat) : Bool :=
  (s.nextChunk c).isSome || s.att.chunks.any fun k => k.ctx == c && k.st != ChunkSt.waiting

/-- Contexts of a set. -/
def State.setCtxs (s : State) (set : Nat) : List Ctx := s.ctxs.filter fun x => s.setOf x.r.ctx == some set

/-- vmin(S) for a context: the least vt of the other active contexts, else that of the last to go inactive. -/
def State.vmin (s : State) (set c : Nat) : Nat :=
  match ((s.setCtxs set).filter fun x => x.active && x.r.ctx != c).map (·.vt) with
  | [] => spGet 0 s.sch.lastVt set
  | a :: t => t.foldl min a

/-- Follow the activity of the contexts of a set (R405). -/
def State.trackActive (s : State) (set : Nat) : List Ctx → State
  | [] => s
  | x :: t =>
    let now := s.ctxActive x.r.ctx
    (if now && !x.active then
      let v := s.vmin set x.r.ctx
      s.setCtx x.r.ctx fun y => { y with active := true, vt := max y.vt v }
     else if !now && x.active then
      { (s.setCtx x.r.ctx fun y => { y with active := false }) with
        sch := { s.sch with lastVt := spSet 0 s.sch.lastVt set x.vt } }
     else s).trackActive set t

def State.setTracked (s : State) (set : Nat) : State := s.trackActive set (s.setCtxs set)

/-! ## Placement (R404, R470) -/

/-- Is a heavy window of some context in force for a die? It lifts the ramp limit (R472). -/
def State.heavyDie (s : State) (die : Nat) : Bool :=
  s.ctxs.any fun x => x.heavyEnd.any (fun e => decide (s.cycles < e)) && match s.setOf x.r.ctx with
    | some st => (s.setIslands st).any fun i => i / 16 == die
    | none => false

/-- Changes of islands from idle to busy within the last RAMP_NS ns, as (die, cycle). -/
def State.rampRecent (s : State) : List (Nat × Nat) :=
  s.sch.ramp.filter fun x => decide (s.cycles < x.2 + nsToCycles (s.fld F.PWR_DROOP_CFG_RAMP_NS))

/-- Those of one die. -/
def State.rampCount (s : State) (die : Nat) : Nat := (s.rampRecent.filter fun x => x.1 == die).length

/-- May a chunk start on this AE under the ramp limit? -/
def State.rampOk (s : State) (ae : Nat) : Bool :=
  let die := aeDie ae
  let lim := s.fld F.PWR_DROOP_CFG_RAMP_ISL
  s.islandBusy (aeIsland ae) || decide (16 < lim) || s.heavyDie die || decide (s.rampCount die < max 1 lim)

/-- The free AE for a chunk. -/
def State.pickAe (s : State) (set : Nat) (k : Chunk) : Option Nat :=
  let free := (s.setAes set).filter fun a => !s.busyAes.contains a && s.rampOk a
  if s.fld F.AEC_SPLIT_CFG_DIE_LOCAL = 1 then
    match free.find? fun a => aeDie a == s.chunkDie k with
    | some a => some a
    | none => free.head?
  else free.head?

def Chunk.same (a b : Chunk) : Bool := a.att == b.att && a.ent == b.ent && a.head == b.head && a.idx == b.idx

/-- est(k) of a chunk. -/
def State.est (s : State) (k : Chunk) : Nat :=
  match s.prof? k.mprof with
  | none => 600
  | some p => estCycles p k.nq (k.pages.filter fun r => !r.masked).length

/-- Table IDs of the pages an AE reads, page by page: what its expander holds at the end, and the IDs it loads on the way
(R310). -/
def expandLoads : List Nat → List (List Nat) → List Nat × List Nat
  | held, [] => (held, [])
  | held, p :: t =>
    let new := p.filter fun x => !held.contains x
    if new.isEmpty then expandLoads held t
    else let r := expandLoads p t; (r.1, new ++ r.2)

/-- Table IDs that the pages of a chunk name; 0xFFFF names none. -/
def State.chunkTids (s : State) (k : Chunk) : List (List Nat) :=
  (k.pages.filter fun r => !r.masked).map fun r =>
    ((((s.frame? r.pfh).bind s.holder?).bind Frame.hdr?).map fun h => ([h.tidK, h.tidV].filter (· ≠ 65535)).eraseDups).getD []

/-- The expander of an AE loads the tables of a chunk; a record taken from the second copy is counted. -/
def State.loadExpander (s : State) (ae : Nat) (k : Chunk) : State :=
  let r := expandLoads (((s.tab.expander.find? fun x => x.1 == ae).map (·.2)).getD []) (s.chunkTids k)
  let s := { s with tab := { s.tab with expander := s.tab.expander.filter (fun x => x.1 ≠ ae) ++ [(ae, r.1)] } }
  (r.2.filter fun t => s.tableLoad t == .second).foldl (fun s _ => s.bump F.TCK_HDR_STAT_TABLE_CRC) s

/-- Place a chunk on an AE; its T0 flags are those of the placement (R163). -/
def State.place (s : State) (k : Chunk) (ae : Nat) : State :=
  let s := if (s.chunkTids k).flatten.isEmpty then s else s.loadExpander ae k
  let die := aeDie ae
  let fresh := !s.islandBusy (aeIsland ae)
  let e := s.est k
  let run := fun (x : Chunk) => { x with st := .running ae, placed := s.cycles, est := e, pages := x.pages.map s.flagT0 }
  let s := { s with
    att := { s.att with chunks := updIf s.att.chunks (fun x => x.same k) run }
    sch := { s.sch with ramp := if fresh then s.rampRecent ++ [(die, s.cycles)] else s.sch.ramp } }
  s.setCtx k.ctx fun x => { x with vt := x.vt + e * 65536 / x.weight }

/-- Order of ready contexts: smallest vt, then lower number. -/
def ctxLt (a b : Ctx) : Bool := decide (a.vt < b.vt) || (a.vt == b.vt && decide (a.r.ctx < b.r.ctx))

/-- The placement round; fuel: waiting chunks. -/
def State.placeRound (s : State) (set : Nat) : Nat → State
  | 0 => s
  | n + 1 =>
    match sortBy ctxLt ((s.setCtxs set).filter fun x => (s.nextChunk x.r.ctx).isSome) with
    | [] => s
    | x :: _ => match s.nextChunk x.r.ctx with
      | none => s
      | some k => match s.pickAe set k with
        | none => s
        | some ae => (s.place k ae).placeRound set n

/-- CHUNK_PLACEMENT_ROUND of an AE set. -/
def execRound (set : Nat) (s : State) : State :=
  if s.dead then s
  else
    let s := s.setTracked set
    (s.placeRound set s.att.chunks.length).setTracked set

/-! ## Pages lost while chunks hold them (R181, R324) -/

/-- Mask a page in the chunks that hold version `ver` of it; their ATTENDs have met it. -/
def State.maskPage (s : State) (pfh ver : Nat) (old : Bool) : State :=
  let hitsRef (r : PageRef) : Bool := r.pfh == pfh && r.version == ver && !r.masked
  let ks := s.att.chunks.filter fun k => k.pages.any hitsRef
  let s := { s with att := { s.att with
    chunks := s.att.chunks.map fun k => { k with pages := updIf k.pages hitsRef fun r => { r with masked := true } } } }
  ks.foldl (fun s k => (k.pages.filter hitsRef).foldl (fun s r =>
    (s.meet k.att ⟨k.seq, r.lpi, r.layer, r.head, pfh, old⟩).setAtt k.att fun a =>
      { a with hit := if a.hit.contains (k.ent, k.head) then a.hit else a.hit ++ [(k.ent, k.head)] }) s) s

/-- Chunks hold an import frame's page under its proxy's handle. -/
def State.maskFrame (s : State) (f : Frame) : State :=
  match s.proxyOf f.pfh with
  | some x => s.maskPage x.pfh x.ver false
  | none => s.maskPage f.pfh f.ver false

/-- A page enters POISONED (Table 7.3): copies freed, chunks masked, poison scan, lease of no one yet. -/
def State.poison (s : State) (pfh : Nat) : State :=
  match s.frame? pfh with
  | none => s
  | some f =>
    let s := (s.setFrame pfh fun x => { x.gone .poisoned with reread := none, ladder := 0, readOk := false }).bump
      F.TIER_DROP_STAT_POISONED
    ((s.maskFrame f).poisonScan ((s.proxyOf pfh).elim pfh (·.pfh)) f.sdom).freeIfIdle pfh

/-- The command whose own read poisoned the page completes with `st` (R281, R325). -/
def State.poisonOwn (s : State) (pfh st : Nat) : State :=
  match s.frame? pfh with
  | none => s
  | some f => match f.reader with
    | none => s.poison pfh
    | some c => ((s.setFrame pfh fun x => { x with reader := none }).poison pfh).finish c st

/-- A copy of a frame's current version failed a check (R157, R323): the next copy down is read, or the page is
poisoned. -/
def State.copyFailed (s : State) (f : Frame) (t : Tier) (k : FailKind) : State :=
  let s := s.countFail k
  if k = .short ∨ k = .long then s.poisonOwn f.pfh (failStatus k)
  else match t with
    | .t0 => s.setFrame f.pfh fun x => { x with stg := none, reread := some .t1 }
    | .t1 => if f.t2v then s.setFrame f.pfh fun x =>
        { x with reread := some .t2, ladder := s.firstStep x, ladderFail := none, forced := none }
      else s.poisonOwn f.pfh (failStatus k)
    | .t2 => s

/-- A failure a chunk reports on one of its pages. A failure while a re-read is in progress waits for its outcome (R325);
one on a superseded version masks the page for that version (R324). -/
def State.pageFailed (s : State) (k : Chunk) (x : PageFail) : State :=
  match k.pages.find? fun r => r.lpi == x.lpi && !r.masked with
  | none => s
  | some r => match s.frame? r.pfh with
    | none => s
    | some f =>
      if f.peer.isNone ∧ f.ver ≠ r.version then s.maskPage r.pfh r.version true
      else match s.holder? f with
        | none => s
        | some g => if g.reread.isSome then s else s.copyFailed g x.tier x.kind

def State.pageFails (s : State) (k : Chunk) : List PageFail → State
  | [] => s
  | x :: t => (s.pageFailed k x).pageFails k t

/-! ## Leaving pseudo-channels: retired ones (R282) and those of a channel group taken from the partition (R490) -/

/-- Must the frames of a partition leave the place of a chunk? -/
def State.mustLeave (s : State) (part x : Nat) : Bool :=
  s.pcRetired (chunkPc x) || (s.part? part).any fun p => !p.r.cgroups.contains (chunkPc x / 16)

/-- Has a copy of the partition a chunk where it may not stay? -/
def State.hurt (s : State) (part : Nat) (c : Copy) : Bool := c.hdr.chunk.any (s.mustLeave part)

/-- The copy with the chunks that must leave replaced by `new` ones. -/
def State.replaced (s : State) (part : Nat) (c : Copy) (new : List Nat) : Copy :=
  ⟨c.hdr.withChunks ((c.hdr.chunk.foldl (fun a x =>
    if s.mustLeave part x then (a.1 ++ [a.2.headD x], a.2.drop 1) else (a.1 ++ [x], a.2)) ([], new)).1), c.bytes⟩

/-- Rewrite a copy of a frame with fresh chunks for those that must leave; `none`: too few chunks are free. -/
def State.rewrite (s : State) (f : Frame) (c : Copy) : Option (State × Copy) :=
  let n := (c.hdr.chunk.filter (s.mustLeave f.part)).length
  match s.part? f.part with
  | none => none
  | some p =>
    let new := takeChunks (s.partPcs f.part) n p.nextPc s.t1Taken
    if new.length = n then some (s.setPart f.part fun y => { y with nextPc := y.nextPc + n }, s.replaced f.part c new) else none

/-- A DIRTY_T1 page leaves its place: rewritten, from its T0 copy or from its own chunks once they have passed
their checks; programmed to T2 where no T1 chunk is free; lost where the checks fail. `bad`: the HBM reports the failure. -/
def State.leaveDirty (s : State) (f : Frame) (c : Copy) (bad : Bool) : State :=
  let v := if f.t0 then (s, none) else s.verifyCopy f .t1 c (if bad then some .hbm else none)
  match v.2 with
  | some k => ((v.1.countFail k).setFrame f.pfh fun x => { x.gone .dropped with reread := none }).maskFrame f
  | none => match v.1.rewrite f c with
    | some r => r.1.setFrame f.pfh fun x => { x with t1 := some r.2 }
    | none => (v.1.setFrame f.pfh fun x => { x with wants := if x.wants.contains .demote then x.wants else x.wants ++ [.demote] }).startWanted
        f.pfh

/-- The superseded version of a frame leaves its place; one that fails its checks is lost to its readers. -/
def State.leavePrev (s : State) (f : Frame) (bad : Bool) : State :=
  match f.prev with
  | none => s
  | some c =>
    if !s.hurt f.part c then s
    else
      let v := s.verifyCopy f .t1 c (if bad then some .hbm else none)
      match v.2.isNone, v.1.rewrite f c with
      | true, some r => r.1.setFrame f.pfh fun x => { x with prev := some r.2 }
      | _, _ => (v.1.maskPage f.pfh c.hdr.ver true).setFrame f.pfh fun x =>
          { x with prev := some { c with hdr := { c.hdr with chunk := [] } } }

/-- Deal with a frame that holds a chunk where it may not stay; one with an operation under way is dealt with when that
ends. -/
def State.leaveRetired (s : State) (bad : Bool) (f : Frame) : State :=
  let s := s.leavePrev f bad
  match f.t1 with
  | none => s
  | some c =>
    if !s.hurt f.part c then s
    else match f.st with
      | .cleanT1 => s.setFrame f.pfh Frame.toFlash
      | .dirtyT1 => s.leaveDirty f c bad
      | .empty => s
      | .writing => s
      | .promoting => s
      | .demoting => s
      | .t2Only => s
      | .dropped => s
      | .poisoned => s

def State.leaveAll (s : State) (bad : List Nat) : List Frame → State
  | [] => s
  | f :: t => (s.leaveRetired (bad.contains f.pfh) f).leaveAll bad t

/-- Frames with chunks that must leave are dealt with: at the retirement or evacuation, and when an operation has ended. -/
def State.clearRetired (s : State) (bad : List Nat) : State := s.leaveAll bad s.tier.frames

/-! ## A chunk ends (R128, R129, R146, R147) -/

/-- The frame and the copy from which a chunk reads a page: the T0 or T1 copy of the version it captured, or the superseded
version's (R138, R258). -/
def State.copyOf? (s : State) (r : PageRef) : Option (Frame × Copy) :=
  match s.frame? r.pfh with
  | none => none
  | some f =>
    if f.peer.isSome ∨ f.ver = r.version then
      (s.holder? f).bind fun g => (if r.t0 then g.stg.or g.t1 else g.t1).map fun c => (g, c)
    else f.prev.map fun c => (f, c)

/-- Decoded data of the version a chunk captured. -/
def State.dataOf (s : State) (r : PageRef) : List (Nat × Byte) :=
  match s.copyOf? r with
  | none => []
  | some x => (s.decoder x.1.part).page x.2.hdr x.2.bytes

/-- Is a page of the chunk being re-read? The chunk stalls (R181). -/
def State.stalled (s : State) (k : Chunk) : Bool :=
  k.pages.any fun r => !r.masked && match (s.frame? r.pfh).bind s.holder? with
    | some f => f.reread.isSome && (f.ver == r.version || f.peer.isSome || r.pfh != f.pfh)
    | none => false

/-- Merge one member's chunk state into the ATTEND's (R147). -/
def mergeInto (l : List MergeSt) (e h m : Nat) (x : Soft) : List MergeSt :=
  if l.any fun y => y.ent == e && y.head == h && y.member == m then
    updIf l (fun y => y.ent == e && y.head == h && y.member == m) fun y => { y with st := toM ((ofM y.st).merge x) }
  else l ++ [⟨e, h, m, toM x⟩]

/-- MRG takes the chunk states of a chunk. -/
def State.mergeChunk (s : State) (k : Chunk) (p : Profile) (d : Word512) : State :=
  let pages := (k.pages.filter fun r => !r.masked).map fun r => (r.lpi, s.dataOf r)
  s.setAtt k.att fun a =>
    let q := (a.ents.getD k.ent ⟨0, 0, [], true⟩).queries
    let merged := (List.range k.nq).foldl (fun l i => (List.range p.qpk).foldl (fun l h =>
      mergeInto l k.ent k.head (i * p.qpk + h)
        (memberState p (aQfmt d) k.layer k.v k.nq (aHeads d * p.qpk) (aHead d) k.head i h q pages)) l) a.merged
    let n := ((a.counts.find? fun c => c.1 == k.ent && c.2.1 == k.head).map (·.2.2)).getD 0 + 1
    { a with merged := merged, left := a.left - 1,
             counts := (k.ent, k.head, n) :: a.counts.filter fun c => !(c.1 == k.ent && c.2.1 == k.head) }

/-- Largest chunk count merged for one pair. -/
def State.maxChunks (s : State) (k : Chunk) : State :=
  let n := match s.att? k.att with
    | none => 0
    | some a => ((a.counts.find? fun c => c.1 == k.ent && c.2.1 == k.head).map (·.2.2)).getD 0
  if s.fld F.MRG_STAT_MAX_CHUNKS < n then s.setFld F.MRG_STAT_MAX_CHUNKS (min n 65535) else s

/-- Build the grains of decoded retrieval-class pages whose PTE has G clear (R174). -/
def State.grainsOf (s : State) (k : Chunk) (p : Profile) : List PageRef → State
  | [] => s
  | r :: t =>
    match s.seqOf? k.seq with
    | none => s
    | some q =>
      match q.pte? r.lpi r.layer r.head with
      | none => s.grainsOf k p t
      | some e =>
        if !q.retrieval || e.g || r.masked || e.pfh != r.pfh || e.ver != r.version then s.grainsOf k p t
        else
          let g := buildGrain p (s.dataOf r) (min p.B (q.visible r.layer - r.lpi * p.B)) r.version
            (decide (r.lpi < s.sinkBlocks k.ctx p))
          (s.setSeq q.idx fun x => { x with
            ptes := updIf x.ptes (fun y => y.lpi == r.lpi && y.layer == r.layer && y.head == r.head)
                      (fun y => { y with g := true, grain := some g }) }).grainsOf k p t

/-- Charge a chunk's reads of T1 or T0, by the stored bytes of the version read (R303), and mark its frames used. -/
def State.chargeReads (s : State) (c : Nat) : List PageRef → State
  | [] => s
  | r :: t =>
    match s.copyOf? r with
    | none => s.chargeReads c t
    | some x =>
      ((if r.masked then s else if r.t0 then s.t0Bytes c x.2.hdr.stored else s.t1Bytes c x.2.hdr.stored).readFrame
        x.1.pfh).chargeReads c t

/-- Count cycles in SCH_SET_STAT.BUSY, in units of 1,024. -/
def State.setBusy (s : State) (set n : Nat) : State :=
  let f := F.SCH_SET_STAT_BUSY
  let r := spGet 0 s.rem (f.key set 0) + n
  { (s.bump f (r / 1024) set) with rem := spSet 0 s.rem (f.key set 0) (r % 1024) }

/-- Charge a completed chunk (Table 11.5, R404, R412 counts). -/
def State.chargeChunk (s : State) (k : Chunk) (ae act : Nat) (p : Profile) : State :=
  let n := (k.pages.filter fun r => !r.masked).length
  let e := k.est
  let add (x : Stats) : Stats := { x with ae := sat64 (x.ae + act), chunks := sat64 (x.chunks + 1) }
  let s := (s.chargeAe k.ctx (aeDie ae) act).setStats k.ctx fun x => { x with chunks := sat64 (x.chunks + 1) }
  let s := (s.bumpSeq k.seq add).setCmd k.att fun x => { x with ae := x.ae + act }
  let s := s.setCtx k.ctx fun x => { x with vt := x.vt + act * 65536 / x.weight - e * 65536 / x.weight }
  let s := match s.setOf k.ctx with
    | some st => s.setBusy st act
    | none => s
  -- busy cycles: the multiply-accumulates of the fetched pages over M, at the end of the chunk (log entry 96)
  let work := n * p.B * p.D * p.qpk * k.nq
  (((s.bump F.AEC_CHUNK_COUNT_CHUNKS).bumpUnits F.AEC_ARRAY_BUSY_SCORE 65536 (work / macs p.kfmt)).bumpUnits
    F.AEC_ARRAY_BUSY_VALUE 65536 (work / macs p.vfmt)).chargeReads k.ctx k.pages

/-- The chunk is over: states to MRG, charges, grains, pins; its ATTEND completes when it was the last. -/
def State.endChunk (s : State) (k : Chunk) (ae act : Nat) (p : Profile) : State :=
  let s := match s.cmd? k.att with
    | some c => ((s.mergeChunk k p c.desc).bump F.MRG_STAT_MERGES (p.qpk * k.nq)).maxChunks k
    | none => s
  let s := s.chargeChunk k ae act p
  let s := s.grainsOf k p k.pages
  let s := { s with att := { s.att with chunks := s.att.chunks.filter fun x => !x.same k } }
  let s := (s.unpinPages k.pages).attendDone k.att
  match s.setOf k.ctx with
  | some st => s.setTracked st
  | none => s

/-- Verify each copy a chunk reads; `given` holds what the row reports of them. -/
def State.verdicts (s : State) (given : List PageFail) : List PageRef → State × List PageFail
  | [] => (s, [])
  | r :: t =>
    if r.masked then s.verdicts given t
    else
      let tier := if r.t0 then Tier.t0 else Tier.t1
      let own := given.find? fun x => x.lpi == r.lpi
      match s.copyOf? r with
      | none => s.verdicts given t
      | some x =>
        let v := s.verifyCopy x.1 tier x.2 (own.map (·.kind))
        let rest := v.1.verdicts given t
        (rest.1, match v.2 with
          | some k => ⟨r.lpi, (own.map (·.tier)).getD tier, k⟩ :: rest.2
          | none => rest.2)

/-- CHUNK_COMPLETE of an AE. With failures, each is handled and the chunk stays on the AE, stalled until the re-reads end
(R157); the row is sent again once they have. -/
def execChunk (ae cycles : Nat) (fails : List PageFail) (s : State) : State :=
  match s.att.chunks.find? fun k => k.st == .running ae with
  | none => s
  | some k =>
    if s.stalled k then s
    else
    let v := if k.checked then (s, fails) else s.verdicts fails k.pages
    let s := { v.1 with att := { v.1.att with chunks := updIf v.1.att.chunks k.same fun x => { x with checked := true } } }
    if !v.2.isEmpty then s.pageFails k v.2
    else if s.stalled k then s
    else match s.prof? k.mprof with
      | none => s
      | some p => s.endChunk k ae cycles p

end Sys2Proof.Machine
end

