-- ==== Sys2Proof/Machine/Append.lean ====
section
/-! DEFINITION. KV_APPEND and its REFILL form (chapters 2, 5, 7, 8): checks, the beginning of the page writes, the copies a
write reads and verifies, the allocation, the commit of every page, the append round. -/

namespace Sys2Proof.Machine

/-! ## Checks (R42, R44, R71, R195) -/

/-- Steps 4 and 5: sequence, source key, lease of a refill; then the source's rights. -/
def State.checkAppend (s : State) (k : Cmd) : Option Nat :=
  let d := k.desc
  if (s.openSeq? k.ctx (dHandle d)).isNone then some St.badHandle
  else if dF d 20 1 = 1 ∧ (s.region? k.ctx (dF d 32 4)).isNone then some St.badHandle
  else if dFlag d 0 ∧ dF d 40 4 ≠ 0 ∧
      !(s.att.leases.any fun l => l.id == dF d 40 4 && l.ctx == k.ctx) then some St.badHandle
  else s.spaceCheck k.ctx (dSrc d) false (dF d 36 4)

/-- Step 6 against the record. The region's length is judged before the source has been read. -/
def State.appendCheck (s : State) (k : Cmd) (x : Ctx) (q : SeqRec) (p : Profile) : Option Nat :=
  let d := k.desc
  let pos := dPos d
  let n := dF d 12 4
  let lf := dF d 16 2
  let lc := dF d 18 2
  let long := !k.reads.isEmpty || s.spaceLong k.ctx (dSrc d) (dF d 36 4)
  if n ≠ 0 ∧ lc ≠ 0 ∧ dF d 36 4 ≠ srcLen p pos n lc then some St.badField
  else if lf + lc > p.layers then some St.badField
  else if dFlag d 0 then
    (if pos % p.B ≠ 0 ∨ pos + n > q.len ∨ ((pos + n) % p.B ≠ 0 ∧ pos + n ≠ q.len) then some St.badField
     else if !long then some St.lengthLimit else none)
  else if pos ≠ q.len then some St.badField
  else if (match q.round with
      | none => false
      | some r => r.ntok != n || (List.range lc).any fun i => r.layers.contains (lf + i)) then some St.badField
  else if !q.retrieval ∧ p.blocks (pos + n) > x.r.maxBlocks then some St.lengthLimit
  else if q.retrieval ∧ p.blocks (pos + n) > two32 then some St.lengthLimit
  else if !long then some St.lengthLimit
  else none

/-- The places a KV_APPEND touches: layers × heads × blocks. -/
def touchedPlaces (p : Profile) (pos n lf lc : Nat) : List (Nat × Nat × Nat) :=
  (List.range lc).flatMap fun i => (List.range p.kvHeads).flatMap fun h =>
    (List.range (blocksTouched p pos n)).map fun b => (pos / p.B + b, lf + i, h)

/-- Unavailable pages among the touched places: dropped, poisoned, or PFH 0 (chapter 5). -/
def State.unavailableAt (s : State) (q : SeqRec) (places : List (Nat × Nat × Nat)) : List MetPage :=
  places.filterMap fun pl => match q.pte? pl.1 pl.2.1 pl.2.2 with
    | none => none
    | some e => if s.pageGone e.pfh then some ⟨q.handle, pl.1, pl.2.1, pl.2.2, e.pfh, false⟩ else none

/-- Frames of the touched places. -/
def State.framesAt (s : State) (q : SeqRec) (places : List (Nat × Nat × Nat)) : List Frame :=
  places.filterMap fun pl => (q.pte? pl.1 pl.2.1 pl.2.2).bind fun e => s.frame? e.pfh

/-- Make every listed page resident: true when one must still be waited for, and when one found no T1 chunk. -/
def State.needAll (s : State) (k : Cmd) (seq : Nat) : List Frame → State × Bool × Bool
  | [] => (s, false, false)
  | f :: t =>
    let r := s.needPage f.pfh k.id k.ctx seq false
    let x := r.1.needAll k seq t
    (x.1, x.2.1 || r.2 == .wait || r.2 == .noSpace, x.2.2 || r.2 == .noSpace)

/-! ## Verifying what a write reads (R65, R259, R314, R322, R325, R439) -/

/-- The copies a command has verified so far. -/
def State.sawCopies (s : State) (c : CmdId) (seen : List Nat) : State := s.setCmd c fun k => { k with todo := seen }

/-- Is a page copied before it is written: its frame has further references, or is a proxy (R65, R256)? -/
def Frame.copiedFirst (f : Frame) : Bool := decide (1 < f.refs) || f.peer.isSome

/-- Verify the T1 copy of one page; `none` when it must be waited for: a copy that fails or is being re-read (R325), or a
copy-on-write whose read pin the counts do not admit (R259). -/
def State.verifyPage (s : State) (c : CmdId) (f : Frame) : State × Bool :=
  match s.holder? f with
  | none => (s, false)
  | some g =>
    if g.reread.isSome then (s, false)
    else match (if f.copiedFirst then s.takePin c f else some s) with
      | none => (s, false)
      | some s =>
        let v := s.verifyT1 g
        match v.2 with
        | none => (v.1.dropPin c, true)
        | some why => (v.1.copyFailed g .t1 why, false)

/-- Verify the T1 copy of each page, one after the other: `seen` names the pages the command has verified already. Answers
those verified, and whether one must be waited for. -/
def State.verifyCopies (s : State) (c : CmdId) (seen : List Nat) : List Frame → State × List Nat × Bool
  | [] => (s, seen, false)
  | f :: t =>
    if seen.contains f.pfh then s.verifyCopies c seen t
    else
      let v := s.verifyPage c f
      if v.2 then v.1.verifyCopies c (seen ++ [f.pfh]) t else (v.1, seen, true)

/-! ## Writes begin (R262, R308) -/

/-- Add the frame of a new page: EMPTY, with the writer's settings, then WRITING. -/
def State.newWriting (s : State) (q : SeqRec) (p : Profile) (set : Placement) (ver : Nat) : State × Nat :=
  let pfh := s.newPfh localTier
  (s.addFrame { (emptyFrame pfh q.part q.sdom p.mprof p.tiles ver s.useStamp set).beginWrite with refs := 1 }, pfh)

/-- The write of one place begins: in place, or into a new frame; the table IDs are captured now (R308). -/
def State.beginPage (s : State) (q : SeqRec) (p : Profile) (pl : Nat × Nat × Nat) : State × PgBegun :=
  let tids := s.captureTids p pl.2.1
  match (q.pte? pl.1 pl.2.1 pl.2.2).bind fun e => s.frame? e.pfh with
  | none =>
    let r := s.newWriting q p q.defaults 65535
    (r.1, ⟨pl.1, pl.2.1, pl.2.2, 0, r.2, tids⟩)
  | some f =>
    if f.copiedFirst then
      let r := s.newWriting q p q.defaults 65535
      (r.1, ⟨pl.1, pl.2.1, pl.2.2, f.pfh, r.2, tids⟩)
    else (s.setFrame f.pfh Frame.beginWrite, ⟨pl.1, pl.2.1, pl.2.2, f.pfh, f.pfh, tids⟩)

def State.beginPages (s : State) (q : SeqRec) (p : Profile) : List (Nat × Nat × Nat) → State × List PgBegun
  | [] => (s, [])
  | pl :: t =>
    let r := s.beginPage q p pl
    let x := r.1.beginPages q p t
    (x.1, r.2 :: x.2)

/-- Places whose write needs a new frame. -/
def State.newPages (s : State) (q : SeqRec) (places : List (Nat × Nat × Nat)) : Nat :=
  (places.filter fun pl => ((q.pte? pl.1 pl.2.1 pl.2.2).bind fun e => s.frame? e.pfh).all Frame.copiedFirst).length

/-- Do the writes begun still fit the table: each PTE names the frame it named, and none written in place has become shared? -/
def State.writesFit (s : State) (q : SeqRec) (ws : List PgBegun) : Bool :=
  ws.all fun w => ((q.pte? w.lpi w.layer w.head).map (·.pfh)).getD 0 == w.src &&
    (s.frame? w.dst).any fun f => f.st == .writing && !(w.inPlace && f.copiedFirst)

/-! ## Encoding, allocation and commit (R65, R71, R258, R314) -/

/-- A page as a command writes it: its decoded data, the version it gets, its stored tiles. -/
structure PgForm where
  w : PgBegun
  ver : Nat
  data : List (Nat × Byte)
  tiles : List Coded
deriving DecidableEq, Repr

/-- The page data after the write of one place: the source merged over the page that stands there; in a copy the slots beyond
the visible length are zeroed (R65, R256). -/
def State.pageAfter (s : State) (p : Profile) (q : SeqRec) (src : List Byte) (pos n lf : Nat) (w : PgBegun) :
    List (Nat × Byte) :=
  putBlock p src pos n (w.layer - lf) w.head w.lpi <|
    match s.frame? w.src with
    | none => []
    | some f => match s.holder? f with
      | none => []
      | some g => if w.inPlace then s.t1Page g else zeroSlots p (q.visible w.layer - w.lpi * p.B) (s.t1Page g)

/-- Encode one page: tiles that a write in place keeps keep their stored bytes, all others are compacted. -/
def State.encodePage (s : State) (p : Profile) (w : PgBegun) (ver : Nat) (data : List (Nat × Byte)) : State × PgForm :=
  match s.frame? w.dst with
  | none => (s, ⟨w, ver, data, []⟩)
  | some f =>
    let old := if w.inPlace then f.t1 else none
    let r := s.encodeTiles p (s.decoder f.part) w.tids w.dst ver old (if old.isSome then s.t1Page f else []) data
      (List.range p.tiles)
    (r.1, ⟨w, ver, data, r.2⟩)

/-- The version after a write of a frame. -/
def State.nextVer (s : State) (p : Nat) : Nat := ((s.frame? p).map fun f => (f.ver + 1) % 65536).getD 0

/-- Encode the tiles of every page to be written, and count them. -/
def State.encodeAll (s : State) (p : Profile) (q : SeqRec) (src : List Byte) (pos n lf : Nat) :
    List PgBegun → State × List PgForm
  | [] => (s, [])
  | w :: t =>
    let r := s.encodePage p w (s.nextVer w.dst) (s.pageAfter p q src pos n lf w)
    let x := r.1.encodeAll p q src pos n lf t
    (x.1, r.2 :: x.2)

/-- Take the T1 chunks of every page, each from its frame's partition; false when one finds none. -/
def State.fillAll (s : State) : List PgForm → State × Bool
  | [] => (s, true)
  | x :: t => match s.frame? x.w.dst with
    | none => s.fillAll t
    | some f => match s.allocT1 f.part (chunksOf x.tiles) with
      | (s, none) => (s, false)
      | (s, some c) => (s.setFrame x.w.dst fun g => { g with fill := c }).fillAll t

/-- Give back the chunks taken for pages that are not written yet. -/
def State.unfill (s : State) : List PgForm → State
  | [] => s
  | x :: t => (s.setFrame x.w.dst fun g => { g with fill := [] }).unfill t

/-- Commit the stored form of one page into the chunks its frame has taken. -/
def State.commitForm (s : State) (p : Profile) (writer : Nat × Nat) (refill : Bool) (x : PgForm) : State :=
  match s.frame? x.w.dst with
  | none => s
  | some f =>
    let c := makeCopy (s.tileKeys f.part) x.w.dst x.ver p.mprof p.ldec x.w.tids f.fill x.tiles
    (s.setFrame x.w.dst fun g => { g with fill := [] }).commitWrite x.w.dst c refill writer

/-- The grain of a retrieval-class page after a write, if its version is a page's (R52). -/
def State.grainFor (s : State) (c : Nat) (p : Profile) (retrieval : Bool) (data : List (Nat × Byte)) (n ver lpi : Nat) :
    Option Grain :=
  if retrieval then some (buildGrain p data n ver (decide (lpi < s.sinkBlocks c p))) else none

/-- Commit one page; the PTE names the result. `vis` is the sequence's length in that layer once the command is done. -/
def State.commitPage (s : State) (c : Nat) (p : Profile) (q : SeqRec) (vis : Nat) (x : PgForm) : State :=
  let w := x.w
  let s := s.commitForm p (c, q.idx) false x
  let g := s.grainFor c p q.retrieval x.data (min p.B (vis - w.lpi * p.B)) x.ver w.lpi
  let s := s.setSeq q.idx fun r => r.putPte
    { lpi := w.lpi, layer := w.layer, head := w.head, pfh := w.dst, ver := x.ver
      s := ((r.pte? w.lpi w.layer w.head).map (·.s)).getD false && w.inPlace
      g := g.isSome, grain := g }
  if w.inPlace ∨ w.src = 0 then s else s.dropRef w.src

def State.commitPages (s : State) (c : Nat) (p : Profile) (q : SeqRec) (vis : Nat) : List PgForm → State
  | [] => s
  | x :: t => (s.commitPage c p q vis x).commitPages c p q vis t

/-- The append round after an accepted KV_APPEND (R42): its layers join the mask; a full mask advances LEN. The table grows
with it (R45). -/
def roundAfter (q : SeqRec) (p : Profile) (n lf lc : Nat) : SeqRec :=
  let ls := ((q.round.map (·.layers)).getD []) ++ (List.range lc).map (lf + ·)
  let q := q.growTable (p.blocks (q.len + n))
  if ls.length ≥ p.layers then { q with len := q.len + n, round := none } else { q with round := some ⟨n, ls⟩ }

/-- The writes a command has begun. -/
def State.writesOf (s : State) (c : CmdId) : List PgBegun := ((s.cmd? c).map (·.writes)).getD []

/-- Must the commit wait for readers of a superseded version (R258)? -/
def State.commitWaits (s : State) (ws : List PgBegun) : Bool := ws.any fun w => (s.frame? w.dst).any Frame.commitBlocked

/-- The command waits to commit; each such wait is counted once (R258). -/
def State.noteWait (s : State) (c : CmdId) : State :=
  match s.cmd? c with
  | none => s
  | some k => if k.waited then s else (s.bump F.TIER_SUPERSEDE_WAITS_WAITS).setCmd c fun x => { x with waited := true }

/-- The writes are made: encode, allocate, commit every page, advance the round (R71). -/
def State.appendWrite (s : State) (k : Cmd) (q : SeqRec) (p : Profile) (src : List Byte) : State :=
  let d := k.desc
  let n := dF d 12 4
  let lf := dF d 16 2
  let enc := s.encodeAll p q src (dPos d) n lf (s.writesOf k.id)
  match enc.1.fillAll enc.2 with
  | (_, false) => (((s.fillAll enc.2).1).unfill enc.2).waitAlloc k.id
  | (t, true) =>
    let t := (t.commitPages k.ctx p q (dPos d + n) enc.2).setCmd k.id fun x => { x with writes := [] }
    (t.setSeq q.idx fun r => roundAfter r p n lf (dF d 18 2)).finish k.id St.ok

/-- The command meets unavailable pages: nothing is written, the round closes, and the recompute list follows (R73, R184,
R551). -/
def State.appendMet (s : State) (k : Cmd) (q : SeqRec) (met : List MetPage) : State :=
  ((s.abortWrites k.id).setSeq q.idx fun r => { r with round := none }).completeMet k met

/-- Once its writes have begun: wait for readers of superseded versions, verify the copies that the writes read, write. A page
that no copy restores is met as an unavailable one (R439, R551). -/
def State.appendGo (s : State) (k : Cmd) (q : SeqRec) (p : Profile) (src : List Byte) (places : List (Nat × Nat × Nat)) : State :=
  if s.commitWaits (s.writesOf k.id) then s.noteWait k.id
  else
    let v := s.verifyCopies k.id k.todo (s.framesAt q places)
    let lost := v.1.unavailableAt q places
    if !lost.isEmpty then v.1.appendMet k q lost
    else
      let s := v.1.sawCopies k.id v.2.1
      if v.2.2 then s else s.appendWrite k q p src

/-- The FP32 scale that a page-scaled block keeps (R58): that of the page as decoded. -/
def State.pageScale (s : State) (p : Profile) (q : SeqRec) (l h : Nat) (isK : Bool) (b : Nat) : List Byte :=
  match ((q.pte? b l h).bind fun e => s.frame? e.pfh).bind s.holder? with
  | some g => memRead (s.t1Page g) (p.scaleOff isK) 4
  | none => []

/-- Every page is resident and available: begin the writes, unless they have begun. -/
def State.appendBegin (s : State) (k : Cmd) (q : SeqRec) (p : Profile) (src : List Byte) (places : List (Nat × Nat × Nat)) :
    State :=
  let lf := dF k.desc 16 2
  let s := if s.writesFit q (s.writesOf k.id) then s else s.abortWrites k.id
  if !(s.writesOf k.id).isEmpty then s.appendGo k q p src places
  else if (s.framesAt q places).any fun f => !f.copiedFirst && f.writeBlocked then s
  else if !srcFinite p src (dPos k.desc) (dF k.desc 12 4) (dF k.desc 18 2) (fun l h => s.pageScale p q (lf + l) h) then
    s.finish k.id St.nonfinite
  else if !s.framesFit (s.newPages q places) then s.finish k.id St.noSpace
  else
    let r := s.beginPages q p places
    (r.1.setCmd k.id fun x => { x with writes := r.2 }).appendGo k q p src places

/-- KV_APPEND without REFILL, from step 6 on. A rerun repeats the checks: another queue may have moved LEN. -/
def appendBody (k : Cmd) (s : State) : State :=
  let d := k.desc
  match s.ctx? k.ctx, s.openSeq? k.ctx (dHandle d) with
  | some x, some q =>
    match s.prof? q.mprof with
    | none => s.finish k.id St.badField
    | some p =>
      let n := dF d 12 4
      let lc := dF d 18 2
      match s.appendCheck k x q p with
      | some st => s.finish k.id st
      | none =>
        if n = 0 ∨ lc = 0 then s.complete k.id St.okEmpty
        else match k.reads with
          | [] => s.spaceRead k.id k.ctx (dSrc d) (dF d 36 4)
          | src :: _ =>
            let places := touchedPlaces p (dPos d) n (dF d 16 2) lc
            let met := s.unavailableAt q places
            if !met.isEmpty then s.appendMet k q met
            else
              let r := s.needAll k q.idx (s.framesAt q places)
              if r.2.1 then (if r.2.2 then r.1.waitAlloc k.id else r.1)
              else r.1.appendBegin k q p src places
  | _, _ => s.finish k.id St.badHandle

/-- KV_APPEND. -/
def execAppend (c : CmdId) (s : State) : State :=
  s.runCmd c (fun d => dOp d == Op.kvAppend && !dFlag d 0) State.startCheck fun k s => (appendBody k s).clearRetired []

/-! ## Refill (R195 to R197, R293) -/

/-- Is the page written by this refill: unavailable, and covered by the named lease or by none? -/
def State.refillable (s : State) (lease : Nat) (m : MetPage) : Bool :=
  match s.leaseOf m with
  | none => true
  | some l => l.id == lease

/-- Give every row of a retrieval-class record that names the frame its rebuilt grain. -/
def SeqRec.regrain (pfh : Nat) (g : Grain) (r : SeqRec) : SeqRec :=
  if r.retrieval then
    { r with ptes := updIf r.ptes (fun x => x.pfh == pfh) fun x => { x with g := true, grain := some g } }
  else r

/-- The refill of one page begins: a PFH 0 page takes a new frame under the PTE's version (R293), an unavailable proxy page
its import frame, made if needed (R390), any other page its own. -/
def State.beginRefill (s : State) (q : SeqRec) (p : Profile) (m : MetPage) : State × PgBegun :=
  let tids := s.captureTids p m.layer
  let at_ (src dst : Nat) : PgBegun := ⟨m.lpi, m.layer, m.head, src, dst, tids⟩
  match s.frame? m.pfh with
  | none =>
    let r := s.newWriting q p q.defaults (((q.pte? m.lpi m.layer m.head).map (·.ver)).getD 0)
    (r.1, at_ 0 r.2)
  | some f =>
    if f.peer.isNone then (s.setFrame f.pfh Frame.beginWrite, at_ f.pfh f.pfh)
    else match f.imp.bind s.frame? with
      | some g => (s.setFrame g.pfh Frame.beginWrite, at_ g.pfh g.pfh)
      | none =>
        let r := s.newWriting q p ⟨2, 3, 2⟩ f.ver
        (r.1.setFrame f.pfh fun x => { x with imp := some r.2 }, at_ f.pfh r.2)

def State.beginRefills (s : State) (q : SeqRec) (p : Profile) : List MetPage → State × List PgBegun
  | [] => (s, [])
  | m :: t =>
    let r := s.beginRefill q p m
    let x := r.1.beginRefills q p t
    (x.1, r.2 :: x.2)

/-- Pages of a refill that need a new frame: with PFH 0, and proxies without an import frame. -/
def State.newRefills (s : State) (ms : List MetPage) : Nat :=
  (ms.filter fun m => match s.frame? m.pfh with
    | none => true
    | some f => f.peer.isSome && (f.imp.bind s.frame?).isNone).length

/-- Is the place still as the refill began on it: the PTE names the page (its proxy, for an import frame), which is being
written? -/
def State.refillFits (s : State) (q : SeqRec) (w : PgBegun) : Bool :=
  match q.pte? w.lpi w.layer w.head with
  | none => false
  | some e => (s.frame? w.dst).any (fun f => f.st == .writing) &&
      (if e.pfh = 0 then w.src == 0 else e.pfh == w.src || (s.frame? e.pfh).any fun f => f.imp == some w.dst)

/-- The page a refill writes: every slot from the source, the rest zero (R196). -/
def State.refillForms (s : State) (p : Profile) (src : List Byte) (pos n lf : Nat) : List PgBegun → State × List PgForm
  | [] => (s, [])
  | w :: t =>
    let ver := ((s.frame? w.dst).map (·.ver)).getD 0
    let data := putBlock p src pos n (w.layer - lf) w.head w.lpi []
    let r := s.encodeTiles p (s.decoder (((s.frame? w.dst).map (·.part)).getD 0)) w.tids w.dst ver none [] data (List.range p.tiles)
    let x := r.1.refillForms p src pos n lf t
    (x.1, ⟨w, ver, data, r.2⟩ :: x.2)

/-- Commit one refilled page: frame and version kept; every retrieval-class row that names the page gets the rebuilt
grain. -/
def State.refillPage (s : State) (c : Nat) (p : Profile) (q : SeqRec) (x : PgForm) : State :=
  let w := x.w
  match q.pte? w.lpi w.layer w.head with
  | none => s
  | some e =>
    let pfh := if e.pfh = 0 then w.dst else e.pfh
    let s := s.commitForm p (c, q.idx) true x
    let g := buildGrain p x.data (min p.B (q.len - w.lpi * p.B)) e.ver (decide (w.lpi < s.sinkBlocks c p))
    let s := s.setSeq q.idx fun r => { r with
      ptes := updIf r.ptes (fun y => y.lpi == w.lpi && y.layer == w.layer && y.head == w.head) fun y => { y with pfh := pfh } }
    let s := { s with seq := { s.seq with recs := s.seq.recs.map (SeqRec.regrain pfh g) } }
    s.leaseFilled ⟨q.handle, w.lpi, w.layer, w.head, e.pfh, false⟩

def State.refillPages (s : State) (c : Nat) (p : Profile) (q : SeqRec) : List PgForm → State
  | [] => s
  | x :: t => (s.refillPage c p q x).refillPages c p q t

/-- The pages of a refill are written; `count` of them were skipped. -/
def State.refillWrite (s : State) (k : Cmd) (q : SeqRec) (p : Profile) (src : List Byte) : State :=
  let d := k.desc
  let skipped := ((s.cmd? k.id).map (·.count)).getD 0
  let ws := s.writesOf k.id
  if s.commitWaits ws then s.noteWait k.id
  else
    let enc := s.refillForms p src (dPos d) (dF d 12 4) (dF d 16 2) ws
    match enc.1.fillAll enc.2 with
    | (_, false) => (((s.fillAll enc.2).1).unfill enc.2).waitAlloc k.id
    | (t, true) => ((t.refillPages k.ctx p q enc.2).setCmd k.id fun x => { x with writes := [] }).finish k.id
        (if skipped = 0 then St.ok else St.okPartial) { result := skipped }

/-- Is a page at the touched places being written by another refill, which is then waited for? -/
def State.refilling (s : State) (fs : List Frame) : Bool :=
  fs.any fun f => (s.holder? f).any fun g => g.st == .writing && g.t1.isNone

/-- Begin the refill of the unavailable pages, unless it has begun. -/
def State.refillBegin (s : State) (k : Cmd) (q : SeqRec) (p : Profile) (src : List Byte) (places : List (Nat × Nat × Nat)) :
    State :=
  let s := if (s.writesOf k.id).all (s.refillFits q) then s else s.abortWrites k.id
  if !(s.writesOf k.id).isEmpty then s.refillWrite k q p src
  else if s.refilling (s.framesAt q places) then s
  else
    let met := s.unavailableAt q places
    let go := met.filter (s.refillable (dF k.desc 40 4))
    if !s.framesFit (s.newRefills go) then s.finish k.id St.noSpace
    else
      let r := s.beginRefills q p go
      (r.1.setCmd k.id fun x => { x with writes := r.2, count := met.length - go.length }).refillWrite k q p src

def refillBody (k : Cmd) (s : State) : State :=
  let d := k.desc
  match s.ctx? k.ctx, s.openSeq? k.ctx (dHandle d) with
  | some x, some q =>
    match s.prof? q.mprof with
    | none => s.finish k.id St.badField
    | some p =>
      let n := dF d 12 4
      let lc := dF d 18 2
      match s.appendCheck k x q p with
      | some st => s.finish k.id st
      | none =>
        if n = 0 ∨ lc = 0 then s.complete k.id St.okEmpty
        else match k.reads with
          | [] => s.spaceRead k.id k.ctx (dSrc d) (dF d 36 4)
          | src :: _ =>
            if !srcFinite p src (dPos d) n lc (fun _ _ _ _ => []) then s.finish k.id St.nonfinite
            else s.refillBegin k q p src (touchedPlaces p (dPos d) n (dF d 16 2) lc)
  | _, _ => s.finish k.id St.badHandle

/-- KV_APPEND with REFILL. -/
def execRefill (c : CmdId) (s : State) : State :=
  s.runCmd c (fun d => dOp d == Op.kvAppend && dFlag d 0) State.startCheck fun k s => (refillBody k s).clearRetired []

end Sys2Proof.Machine
end

