-- ==== Sys2Proof/Machine/TierRows.lean ====
section
/-! DEFINITION. The happenings of TIER, HBM and FLS (chapter 7): promotions and the recovery ladder, re-reads, programs,
write-back, eviction, waiting allocations, reclaim, the endurance budget, pseudo-channel retirement, journal commits. -/

namespace Sys2Proof.Machine

/-! ## The recovery ladder (R278 to R281) -/

/-- The reads in flight on a frame are over: a promotion may complete, an in-place read may be used, a re-read ends. -/
def State.readPassed (s : State) (p : Nat) : State :=
  let s := if (s.frame? p).any fun f => f.reread.isSome then s.bump F.TCK_ERR_STAT_REPAIRED else s
  s.setFrame p fun f => { f with ladder := 0, ladderFail := none, readOk := f.reread.isNone, reread := none, forced := none }

/-- Steps 3 and 4 yielded the payload `b`: a repaired T2 copy is to be programmed into a new stripe, outside the budget test, and
the old block is marked for the cleaner; a re-read's T1 copy is rewritten (R279). -/
def State.repair (s : State) (f : Frame) (b : List Byte) : State :=
  let s := match f.t2 with
    | none => s
    | some c =>
      let k := (c.group, s.stripeBlock c.group c.stripe)
      { s with tier := { s.tier with marked := if s.tier.marked.contains k then s.tier.marked else s.tier.marked ++ [k] } }
  (s.setFrame f.pfh fun x => { x with
    fixed := some b, wants := if x.wants.contains .moveFirst then x.wants else x.wants ++ [.moveFirst]
    t1 := if x.reread = some .t2 then x.t1.map fun c => { c with bytes := b } else x.t1 }).startWanted f.pfh

/-- The ladder is exhausted: step 5. The command whose own read it was completes with MEDIA_UNCORRECTABLE (R281). -/
def State.exhausted (s : State) (f : Frame) : State :=
  (s.bump F.FLS_LADDER_STAT_EXHAUSTED).poisonOwn f.pfh St.mediaUncorrectable

/-- The step after a failed one: 1 → 2 (or 3 when read-retry is off, the copy failed its tag or check, or its target has
failed), 2 → 3, 3 → 4 for a burl with a second copy, else the end. -/
def State.nextLadder (s : State) (f : Frame) (bad : Bool) : Option Nat :=
  if f.ladder = 1 then some (if bad ∨ s.fld F.FLS_READ_CFG_RETRY_MAX = 0 then 3 else 2)
  else if f.ladder = 2 then some 3
  else if f.ladder = 3 ∧ f.burl ∧ f.copy2 then some 4 else none

/-- Header and payload that the step of the ladder in progress reads: the T2 copy, its reconstruction from parity, or the second
copy. -/
def State.stepCopy (s : State) (f : Frame) : Option (Hdr × List Byte) :=
  if f.ladder = 3 then f.t2.map fun c => (c.hdr, s.rebuiltBytes c)
  else if f.ladder = 4 then f.t2b.map fun c => (c.hdr, s.flashBytes c)
  else f.t2.map fun c => (c.hdr, s.flashBytes c)

/-- One step of a frame's ladder ends. -/
def State.ladderStep (s : State) (f : Frame) (e : LadderEnd) : State :=
  match e with
  | .pass =>
    let b := ((s.stepCopy f).map (·.2)).getD []
    let s := if f.ladder = 2 then s.bump F.FLS_LADDER_STAT_RETRIED
      else if f.ladder = 3 then (s.bump F.FLS_LADDER_STAT_PARITY).repair f b
      else if f.ladder = 4 then (s.bump F.FLS_LADDER_STAT_COPY2).repair f b else s
    s.readPassed f.pfh
  | .uncorrectable =>
    match s.nextLadder f (f.t2.any s.copyLate) with
    | some n => s.setFrame f.pfh fun x => { x with ladder := n }
    | none => s.exhausted f
  | .badCopy k =>
    let s := s.countFail k
    if k = .short ∨ k = .long then s.poisonOwn f.pfh (failStatus k)
    else match s.nextLadder f true with
      | some n => s.setFrame f.pfh fun x => { x with ladder := n, ladderFail := some k }
      | none => s.exhausted f

/-- Is a flash read of the frame in flight? -/
def Frame.reading (f : Frame) : Bool := decide (1 ≤ f.ladder) && f.peer.isNone

/-- TST_FLASH_FAIL (Table 16.13): at the first step of a page read, how many steps it fails. -/
def State.forceRead (s : State) (f : Frame) : State × Nat :=
  match f.forced with
  | some n => (s, n)
  | none =>
    let n := s.fld F.TST_FLASH_FAIL_COUNT
    let d := s.fld F.TST_FLASH_FAIL_DEPTH
    let here := s.fld F.TST_FLASH_FAIL_ALLCH == 1 ||
      f.t2.any fun c => c.channels.contains (s.fld F.TST_FLASH_FAIL_CHANNEL)
    if d ≠ 0 ∧ n ≠ 0 ∧ here then
      let s := (s.setFld F.TST_FLASH_FAIL_COUNT (n - 1)).setFld F.TST_FLASH_FAIL_DEPTH (if n = 1 then 0 else d)
      (s.setFrame f.pfh fun x => { x with forced := some (min d 4) }, min d 4)
    else (s.setFrame f.pfh fun x => { x with forced := some 0 }, 0)

/-- How a step of the ladder ends, once test perturbation and the page's key are counted in. -/
def State.stepEnd (s : State) (f : Frame) (e : LadderEnd) : State × LadderEnd :=
  let r := s.forceRead f
  if f.ladder ≤ r.2 then (r.1, .uncorrectable)
  else match e with
    | .uncorrectable => (r.1, .uncorrectable)
    | .badCopy k => (r.1, .badCopy k)
    | .pass => let v := r.1.verdict f .t2 ((r.1.stepCopy f).bind fun c => r.1.copyFault f.part c.1 c.2 none)
               (v.1, match v.2 with
                 | some k => .badCopy k
                 | none => .pass)

/-- A step ends: in the sense of `stepEnd`. -/
def State.ladderEnd (s : State) (f : Frame) (e : LadderEnd) : State :=
  let r := s.stepEnd f e
  match r.1.frame? f.pfh with
  | none => r.1
  | some g => r.1.ladderStep g r.2

/-- FLASH_READ_COMPLETE. -/
def execFlashRead (p : Nat) (e : LadderEnd) (s : State) : State :=
  match s.frame? p with
  | none => s
  | some f => if f.reading then s.ladderEnd f e else s

/-- RB_TIMEOUT: the time has passed since the target became busy; the step in progress fails, the target is marked failed until FUND, and its group takes no programs. -/
def execRb (ch target p : Nat) (s : State) : State :=
  let s := s.reach (s.cycles + max 1 (s.fld F.FLS_READ_CFG_RB_TIMEOUT) * cyclesPerUs)
  let g := ch / 16
  let bits := s.fld F.FLS_GROUPS_FAILED
  let s := s.setFld F.FLS_GROUPS_FAILED (if bits / 2 ^ g % 2 = 1 then bits else bits + 2 ^ g)
  let s := { s with tier := { s.tier with
    failedTargets := if s.tier.failedTargets.contains (ch, target) then s.tier.failedTargets
                     else s.tier.failedTargets ++ [(ch, target)] } }
  match s.frame? p with
  | none => s
  | some f =>
    if f.reading then s.ladderStep f .uncorrectable else s

/-- PROMOTION_COMPLETE: the verified payload fills the T1 chunks taken for it (R262, R266). -/
def execPromo (p : Nat) (s : State) : State :=
  match s.frame? p with
  | none => s
  | some f =>
    if f.st = .promoting ∧ f.readOk then
      match f.t2 with
      | none => s
      | some c =>
        let b := f.fixed.getD (s.flashBytes c)
        let s := (s.setFrame p fun x => { x with
          st := .cleanT1, prom := false, t1 := some ⟨c.hdr.withChunks x.fill, b⟩, fill := [], readOk := false
          reader := none }).bump F.TIER_MOVE_STAT_PROMOTIONS
        (((s.hotFill p s.att.ents).freeIfIdle p).startWanted p).clearRetired []
    else s

/-- LOWER_COPY_READ_COMPLETE: the re-read of a lower copy after a check failure returns (R157, R323). A T2 copy's
failure is a step of the ladder. -/
def execLower (p : Nat) (fail : Option FailKind) (s : State) : State :=
  match s.frame? p with
  | none => s
  | some f => match f.reread with
    | none => s
    | some .t2 => s.ladderEnd f (match fail with
      | some k => .badCopy k
      | none => .pass)
    | some t =>
      let v := match (if t = .t0 then f.stg else f.t1) with
        | some c => s.verifyCopy f t c fail
        | none => (s, some .hbm)
      match v.2 with
      | none => v.1.readPassed p
      | some k => (v.1.setFrame p fun x => { x with reread := none }).copyFailed f t k

/-! ## Programs (R262, R263, R275) -/

/-- Overrun of the slice whose outgoing holder's program ends now (R412). -/
def SGroup.programEnds (p now : Nat) (g : SGroup) : SGroup :=
  match g.prio.find? fun x => x.2 == p, g.out with
  | some x, some o =>
    let spent := (now - o.2) / cyclesPerUs
    let extra := if x.1 = o.1 then spent - g.overrun else 0
    { g with prio := g.prio.filter (fun y => y.2 ≠ p), overrun := g.overrun + extra
             owed := spSet 0 g.owed x.1 (spGet 0 g.owed x.1 + extra) }
  | _, _ => { g with prio := g.prio.filter fun y => y.2 ≠ p }

/-- The program of a live frame ends (Table 7.3). Its copy is discarded when the version has changed or a write is under way, and
when what it was made for has gone. A page that is pinned while DEMOTING stays so until its pins are released (log entry
32). -/
def programDone (second : Bool) (g : Program) (f : Frame) : Frame :=
  let f := { f with prog := none }
  if g.ver ≠ f.ver ∨ f.st = .writing then f
  else match g.kind with
    | .writeBack => if f.st = .dirtyT1 then { f with st := .cleanT1, t2 := some g.dest } else f
    | .demote => if f.st = .demoting then { f with t2 := some g.dest }.settle else f
    | .second => if second ∧ f.t2.isSome then { f with t2b := some g.dest } else f
    | .moveFirst => if f.t2.isSome then { f with t2 := some g.dest, fixed := none } else f
    | .moveSecond => if f.t2b.isSome then { f with t2b := some g.dest } else f

/-- A program that has ended is charged, when it moved a page between T1 and T2, to the writer of the version (Table 11.5). -/
def State.chargeMove (s : State) (f : Frame) (k : PgmKind) : State :=
  if k = .writeBack ∨ k = .demote then s.chargeTier f.writer.1 f.writer.2 f.stored else s

/-- FLASH_PROGRAM_COMPLETE: the program of a frame, or one that outlived its frame. -/
def execProg (p : Nat) (s : State) : State :=
  let s := { s with sch := { s.sch with groups := s.sch.groups.map (SGroup.programEnds p s.cycles) } }
  match s.frame? p with
  | none => if s.tier.zombie.any fun z => z.1 == p then
      ({ s with tier := { s.tier with zombie := s.tier.zombie.filter fun z => z.1 ≠ p } }).bump F.TIER_MOVE_STAT_DEMOTIONS
    else s
  | some f => match f.prog with
    | none => s
    | some g =>
      let s := (s.bump F.TIER_MOVE_STAT_DEMOTIONS).chargeMove f g.kind
      ((s.setFrame p (programDone (s.keepsSecond f) g)).burlUpdate p).clearRetired []

/-- EAGER_WRITEBACK_START (R274): DELAY µs after the last write, if the budget allows. -/
def execEager (p : Nat) (s : State) : State :=
  match s.frame? p with
  | none => s
  | some f =>
    if f.st = .dirtyT1 ∧ f.wbAct = 2 ∧ f.peer.isNone ∧ s.canProgram f .writeBack f.discretionary then
      (s.reach (f.lastWrite + s.fld F.TIER_WB_CFG_DELAY * cyclesPerUs)).startProgram p .writeBack f.discretionary
    else s

/-! ## T1 pressure (R271, R272) -/

/-- T1_EVICTION: below LOW per cent free, eviction runs until HIGH per cent. -/
def execEvict (part : Nat) (s : State) : State :=
  let low := min 50 (s.fld F.TIER_T1_WM_LOW)
  let high := max low (s.fld F.TIER_T1_WM_HIGH)
  if s.t1Free part * 100 < low * s.t1Total part then
    s.evictTo part ((high * s.t1Total part + 99) / 100) (s.victims part)
  else s

/-- Retry the promotions a chunk waits for; true when some still finds no T1 chunk. -/
def State.retryPages (s : State) (k : Chunk) : List PageRef → State × Bool
  | [] => (s, false)
  | r :: t =>
    if r.masked then s.retryPages k t
    else
      let x := s.needPage r.pfh k.att k.ctx (k.seq % 268435456) false
      let y := x.1.retryPages k t
      (y.1, y.2 || x.2 == .noSpace)

def State.retryChunks (s : State) : List Chunk → State
  | [] => s
  | k :: t =>
    let x := s.retryPages k k.pages
    (if x.2 then x.1.waitAlloc k.att else x.1).retryChunks t

/-- T1_ALLOC_RESUME: waiting allocations of a partition proceed. A command that waits of itself proceeds when its row is
sent again. -/
def execResumeT1 (part : Nat) (s : State) : State :=
  let mine (c : Nat) : Bool := (s.ctx? c).any fun x => x.r.part == part
  let s := { s with cmds := updIf s.cmds (fun k => dOp k.desc == Op.attend && mine k.ctx) fun k => { k with alloc := none } }
  let s := s.retryChunks (s.att.chunks.filter fun k => k.st == ChunkSt.waiting && mine k.ctx)
  s.retryStaging (s.att.ents.filter fun e => !e.stuck.isEmpty && mine e.ctx)

/-- ALLOC_WAIT_EXPIRE (R272): NO_SPACE without effect; an ATTEND fails under R156, a plan leaves the page unstaged, a
PAGES_PLACE counts it as not moved. -/
def execAllocEnd (c : CmdId) (s : State) : State :=
  match s.cmd? c with
  | none => s.giveUpStaging c
  | some k => match k.alloc with
    | none => s
    | some t =>
      let s := s.reach (t + s.fld F.TIER_T1_WM_ALLOC_WAIT * cyclesPerUs)
      if dOp k.desc = Op.attend then s.failAttend c St.noSpace
      else if dOp k.desc = Op.stepPlan then (s.giveUpStaging c).setCmd c fun x => { x with alloc := none }
      else if dOp k.desc = Op.pagesPlace then
        s.setCmd c fun x => { x with alloc := none, todo := x.todo.drop 1, count := x.count + 1 }
      else (s.finish c St.noSpace).clearRetired []

/-! ## Flash reclaim and the budget (R273, R277) -/

/-- Erase blocks that hold chunks no copy needs: the marked ones first, then by the fewest live chunks. -/
def State.dirtyBlocks (s : State) : List (Nat × Nat) :=
  let bs := s.usedBlocks.filter fun b => s.blockLive b < s.blockUsed b
  (bs.filter s.tier.marked.contains) ++
    sortBy (fun a b => decide (s.blockLive a < s.blockLive b)) (bs.filter fun b => !s.tier.marked.contains b)

/-- The cleaner takes a block: each live copy in it is to be rewritten elsewhere. -/
def State.relocate (s : State) (b : Nat × Nat) : List Frame → State
  | [] => s
  | f :: t =>
    let add (w : List PgmKind) (k : PgmKind) (c : Option FlashCopy) : List PgmKind :=
      if c.any (s.inBlock b) && !w.contains k then w ++ [k] else w
    ((s.setFrame f.pfh fun x => { x with wants := add (add x.wants .moveFirst x.t2) .moveSecond x.t2b }).startWanted
      f.pfh).relocate b t

/-- One step of the cleaner: blocks that nothing holds are erased, and the next block is taken when the reserve does not stand or a
block is marked. -/
def State.clean (s : State) : State :=
  let s := s.eraseBlocks
  match s.dirtyBlocks with
  | [] => s
  | b :: _ => if s.flashFree < s.flashReserve ∨ s.tier.marked.contains b then s.relocate b s.tier.frames else s

/-- Drop the listed pages until the reserve stands; a chunk that holds one goes on without it (R181). -/
def State.reclaim (s : State) : List Nat → State
  | [] => s
  | p :: t =>
    if s.flashReserve ≤ s.flashFree then s
    else match s.frame? p with
      | none => s.reclaim t
      | some f => ((((s.setFrame p fun f => f.gone .dropped).maskFrame f).bump F.TIER_DROP_STAT_CAP_DROPS).eraseBlocks).reclaim t

/-- FLASH_RESERVE_RECLAIM: the cleaner takes a step, and droppable T2_ONLY pages are dropped in the order of R271 until the
reserve stands; programs that waited for space go on. -/
def execReclaim (s : State) : State :=
  let s := s.clean
  let s := s.reclaim ((sortBy victimLt (s.tier.frames.filter fun f => f.st == .t2Only && f.peer.isNone && f.mayDrop)).map (·.pfh))
  s.startWantedAll s.tier.frames

/-- Units of CREDIT per byte: 15 × 10^6, so that a program's × 16/15 and a µs of accrual are whole numbers. -/
def creditCap (s : State) : Int := (max 1 (s.fld F.TIER_ENDURANCE_CFG_DEPTH) * 2 ^ 30 * 15000000 : Nat)

/-- CREDIT_ACCRUE: RATE MiB per second over `us` µs of always-on time, up to DEPTH GiB. -/
def execCredit (us : Nat) (s : State) : State :=
  { s with cycles := s.cycles + us * cyclesPerUs
           tier := { s.tier with
             credit := min (creditCap s) (s.tier.credit + (us * s.fld F.TIER_ENDURANCE_CFG_RATE * 2 ^ 20 * 15 : Nat)) } }

/-- Retire a pseudo-channel (R282): `bad` names the pages whose copies there fail. The other structures in it are handled under
R533 (see Faults). -/
def State.retirePc (s : State) (pc : Nat) (bad : List Nat) : State :=
  if s.pcRetired pc ∨ pc ≥ 1024 then s
  else
    let w := s.fld F.HBM_PC_RETIRED_RETIRED (pc / 64)
    ((s.setFld F.HBM_PC_RETIRED_RETIRED (w + 2 ^ (pc % 64)) (pc / 64)).bump F.HBM_ECC_STAT_RETIREMENTS).clearRetired bad

/-! ## Journal (R284) -/

/-- Has a segment changed since the last commit? -/
def State.mapChanged (s : State) : Bool := !s.changedSegs.isEmpty

/-- A commit begins: the changed segments, of 1 MiB, go to the banks that do not hold their newest versions; they and the root
are charged to the budget (R277). -/
def State.startCommit (s : State) : State :=
  if s.jrnl.busy.isSome then s
  else
    let segs := s.changedSegs.map fun i => (i, s.jrnl.target i, s.segNow i)
    let t := s.chargeProgram (256 * segs.length + 1)
    { t with jrnl := { s.jrnl with busy := some ⟨s.fld F.FLS_JRNL_STAT_COMMIT_SEQ + 1, segs⟩ } }

/-- JOURNAL_COMMIT: INTERVAL has passed since the last one. -/
def execCommit (s : State) : State :=
  if s.mapChanged && !s.flashGroups.isEmpty then
    let s := s.reach (s.jrnl.lastAt + max 1 (s.fld F.FLS_JRNL_CFG_INTERVAL) * 1000 * cyclesPerUs)
    { s with jrnl := { s.jrnl with lastAt := s.cycles } }.startCommit
  else s

/-- JOURNAL_COMMIT_COMPLETE: every segment program has completed, and then the root's. -/
def State.endCommit (s : State) : State :=
  match s.jrnl.busy with
  | none => s
  | some c =>
    let j := (s.jrnl.putSegs c.num c.segs).putRoot (c.num % 2) (RootBank.of s.kmapKey s.mapSegs c.num)
    { ((s.setFld F.FLS_JRNL_STAT_COMMIT_SEQ c.num).bump F.TIER_MOVE_STAT_DEMOTIONS (c.segs.length + 1)) with
      jrnl := { j with busy := none } }

def execCommitDone (s : State) : State := s.endCommit

end Sys2Proof.Machine
end

