-- ==== Sys2Proof/Machine/Deliver.lean ====
section
/-! DEFINITION. PAGES_DELIVER (R294, R295, R325). -/

namespace Sys2Proof.Machine

/-! ## PAGES_DELIVER (R294, R295) -/

def State.checkDeliver (s : State) (k : Cmd) : Option Nat :=
  let d := k.desc
  if (s.openSeq? k.ctx (dHandle d)).isNone then some St.badHandle
  else match s.spaceCheck k.ctx (dDeliver d) true (dF d 40 4) with
    | some st => some st
    | none => if dF d 26 2 ≠ 0 ∧ !s.trigOwned k.ctx (dF d 26 2) then some St.accessDenied else none

/-- Pages of a delivery in output order: layer, LPI, KV head (R294). -/
def deliverPlaces (d : Word512) : List (Nat × Nat × Nat) :=
  (List.range (dF d 18 2)).flatMap fun i => (List.range (dF d 12 4)).flatMap fun b =>
    (List.range (dF d 22 2)).map fun h => (dF d 8 4 + b, dF d 16 2 + i, dF d 20 2 + h)

/-- The read pin for the page a delivery has come to, on the version that stands now (R259); `none`: it must wait. -/
def State.deliverPin (s : State) (c : CmdId) (f : Frame) : Option State :=
  match (s.cmd? c).bind (·.readPin) with
  | some p => if p = (f.pfh, f.ver) then some s else (s.dropPin c).takePin c f
  | none => s.takePin c f

/-- What one page of a delivery needs next. -/
inductive PageStep where
  /-- Readable now: the frame that holds it. -/
  | ready (s : State) (f : Frame)
  | unavailable (pfh : Nat)
  | wait (s : State)

/-- A T2_ONLY page is read in place through the ladder. -/
def State.readInPlace (s : State) (k : Cmd) (q : SeqRec) (g : Frame) : PageStep :=
  if g.readOk && g.reader == some k.id then .ready s g
  else if g.reader.isSome then .wait s
  else .wait ((s.cmdTier k.id k.ctx q.idx g.stored).setFrame g.pfh fun x =>
    { x with reader := some k.id, ladder := s.firstStep x, ladderFail := none, forced := none })

/-- One page: it is pinned; a resident page is read, a T2_ONLY one promoted (PROMOTE) or read in place. -/
def State.deliverStep (s : State) (k : Cmd) (q : SeqRec) (pl : Nat × Nat × Nat) : PageStep :=
  match q.pte? pl.1 pl.2.1 pl.2.2 with
  | none => .unavailable 0
  | some e =>
    if s.pageGone e.pfh then .unavailable e.pfh
    else match (s.frame? e.pfh).bind (s.deliverPin k.id) with
      | none => .wait s
      | some s =>
        match (s.frame? e.pfh).bind s.holder? with
        | none => .wait (s.needPage e.pfh k.id k.ctx q.idx true).1
        | some g =>
          if g.reread.isSome then .wait s
          else if g.st = .t2Only ∧ !dFlag k.desc 0 then s.readInPlace k q g
          else
            let r := s.needPage e.pfh k.id k.ctx q.idx true
            match r.2 with
            | .ready h => .ready (r.1.allocDone k.id) h
            | .gone => .unavailable e.pfh
            | .wait => .wait r.1
            | .noSpace => .wait (r.1.waitAlloc k.id)

/-- The decoded page of a frame, from its T1 copy, else from what the ladder read of its T2 copy. -/
def State.heldPage (s : State) (f : Frame) : List (Nat × Byte) :=
  match f.t1, f.t2 with
  | none, some c => (s.decoder f.part).page c.hdr (f.fixed.getD (s.flashBytes c))
  | _, _ => s.t1Page f

/-- Destination of page number `i`. -/
def deliverDst (d : Word512) (i ldec : Nat) : Space :=
  match dDeliver d with
  | .host a => .host (a + i * ldec)
  | .region r a => .region r (a + i * ldec)

/-- Page number `i` has been written: charged, its read pin released. -/
def State.deliverNext (s : State) (k : Cmd) (q : SeqRec) (p : Profile) (f : Frame) (i : Nat) : State :=
  let cyc := (p.ldec + 63) / 64
  let s := ((s.readFrame f.pfh).setFrame f.pfh fun x => { x with readOk := false, reader := if x.readOk then none else x.reader }).setCmd
    k.id fun c => { c with count := i + 1, ae := c.ae + cyc }
  let s := if f.t1.isSome then s.t1Bytes k.ctx f.stored else s
  ((s.chargeAe k.ctx 0 cyc).setSeq q.idx fun r => { r with stats := { r.stats with ae := sat64 (r.stats.ae + cyc) } }).dropPin k.id

/-- Deliver the pages from number `i` on; false: one must wait. An error is the status of a failed write. -/
def State.deliverFrom (s : State) (k : Cmd) (q : SeqRec) (p : Profile) (caps : List Nat) :
    List (Nat × Nat × Nat) → Nat → Except Nat (State × Bool)
  | [], _ => .ok (s, true)
  | pl :: t, i =>
    match s.deliverStep k q pl with
    | .wait s' => .ok (s', false)
    | .unavailable pfh =>
      ((s.dropPin k.id).setCmd k.id fun c => { c with
        count := i + 1, alloc := none, met := c.met ++ [⟨q.handle, pl.1, pl.2.1, pl.2.2, pfh, false⟩] }).deliverFrom k q p caps t
        (i + 1)
    | .ready s f =>
      let v := if f.t1.isSome then s.verifyT1 f else (s, none)
      match v.2 with
      | some why => .ok ((v.1.setFrame f.pfh fun x => { x with reader := some k.id }).copyFailed f .t1 why, false)
      | none =>
        let vis := caps.getD (pl.2.1 - dF k.desc 16 2) 0
        let bytes := memRead (zeroSlots p (vis - pl.1 * p.B) (v.1.heldPage f)) 0 p.ldec
        match v.1.spaceWrite k.id k.ctx (deliverDst k.desc i p.ldec) bytes with
        | .error st => .error st
        | .ok s => (s.deliverNext k q p f i).deliverFrom k q p caps t (i + 1)

/-- The delivery has come to its end: the trigger, then the completion, with the recompute list if pages were unavailable. -/
def State.deliverEnd (s : State) (k : Cmd) (rlen : Nat) : State :=
  let met := ((s.cmd? k.id).map (·.met)).getD []
  let s := s.advanceTrig (dF k.desc 26 2)
  if met.isEmpty then s.finish k.id St.ok { rlen := rlen }
  else
    let r := s.listMet k.ctx met
    r.1.finish k.id St.okPartial { rlen := rlen, rcp := true, result := r.2.result }

/-- Step 6 of R101 (R291, R295), on the first run. -/
def State.deliverCheck (s : State) (k : Cmd) (q : SeqRec) (p : Profile) : Option Nat :=
  let d := k.desc
  let n := dF d 12 4 * dF d 18 2 * dF d 22 2
  if !rangeOk p q (dF d 8 4) (dF d 12 4) (dF d 16 2) (dF d 18 2) ∨ dF d 20 2 + dF d 22 2 > p.kvHeads then some St.badField
  else if n ≠ 0 ∧ (dF d 40 4 < n * p.ldec ∨ !s.spaceLong k.ctx (dDeliver d) (n * p.ldec)) then some St.lengthLimit
  else none

/-- Deliver from the page the command has come to. -/
def State.deliverRun (s : State) (k : Cmd) (q : SeqRec) (p : Profile) : State :=
  let d := k.desc
  if s.setDark k.ctx then s.finish k.id St.deviceError
  else match s.deliverFrom k q p k.todo ((deliverPlaces d).drop k.count) k.count with
    | .error st => s.finish k.id st
    | .ok (s, false) => s
    | .ok (s, true) => s.deliverEnd k (dF d 12 4 * dF d 18 2 * dF d 22 2 * p.ldec)

/-- The visible length of each layer is captured when the command starts (R138). -/
def deliverBody (k : Cmd) (s : State) : State :=
  let d := k.desc
  match s.seqOf? (dHandle d) with
  | none => s.finish k.id St.badHandle
  | some q => match s.prof? q.mprof with
    | none => s.finish k.id St.badField
    | some p =>
      if k.mark ≠ 0 then s.deliverRun k q p
      else match s.deliverCheck k q p with
        | some st => s.complete k.id st
        | none =>
          if dF d 12 4 * dF d 18 2 * dF d 22 2 = 0 then (s.advanceTrig (dF d 26 2)).complete k.id St.okEmpty
          else
            let caps := (List.range (dF d 18 2)).map fun i => q.visible (dF d 16 2 + i)
            (s.setCmd k.id fun c => { c with mark := 1, todo := caps }).deliverRun { k with mark := 1, todo := caps } q p

/-- PAGES_DELIVER. -/
def execDeliver (c : CmdId) (s : State) : State :=
  s.runCmd c (fun d => dOp d == Op.pagesDeliver) State.startCheck deliverBody

end Sys2Proof.Machine
end

