-- ==== Sys2Proof/Machine/Images.lean ====
section
/-! DEFINITION. Signed objects as their bytes read: profile records (Tables 2.8 and 4.1), table records and table-set images
(Tables 8.3 and 8.5), wrapped key records (Table 12.4), the header and directory of a blank (Tables 14.3 and 14.4), and banks
of the SPI NOR (Table 7.7). -/

namespace Sys2Proof.Machine

/-! ## Profile records -/

def zeroAt (b : List Byte) (off n : Nat) : Bool := (bytesAt b off n).all (· == 0)

/-- A profile record of 256 bytes. -/
def profileOf (b : List Byte) : Profile :=
  { mprof := leAt b 0 2, layers := leAt b 2 2, kvHeads := leAt b 4 2, qpk := leAt b 6 1, hdim := leAt b 7 1
    kfmt := leAt b 8 1 % 16, vfmt := leAt b 8 1 / 16, qfmts := leAt b 9 1 % 16, block := leAt b 10 1, lgrp := leAt b 11 1
    tset := leAt b 12 2, kvar := leAt b 16 4, scale := BitVec.ofNat 32 (leAt b 20 4), softcap := BitVec.ofNat 32 (leAt b 24 4)
    slope := BitVec.ofNat 32 (leAt b 28 4), biasStep := leAt b 32 1, winPeriod := leAt b 33 1, sink := leAt b 34 2
    window := leAt b 36 4
    reservedBad := !(decide (leAt b 9 1 < 16) && zeroAt b 14 2 && zeroAt b 40 56 && zeroAt b 96 160) }

/-! ## Table records and images -/

/-- A table record of 528 bytes. -/
def tableRecOf (b : List Byte) : TableRec :=
  { tid := leAt b 0 2 % 4096, tlog := leAt b 2 1, freq := (List.range 256).map fun i => leAt b (4 + 2 * i) 2
    rcrc := leAt b 524 4
    reservedBad := !(decide (leAt b 0 2 < 4096) && zeroAt b 3 1 && zeroAt b 516 8)
    rcrcOk := leAt b 524 4 == crc32c (bytesAt b 0 524) }

/-- The record as the store keeps it. -/
def tableOf (r : TableRec) : Table := ⟨r.tid, r.tlog, r.freq, r.rcrc⟩

/-- Where the records of an image begin, and where its signature does. -/
def imageTables (b : List Byte) : Nat := pad16 (16 + 4 * leAt b 4 2)
def imageSig (b : List Byte) : Nat := pad16 (imageTables b + 528 * leAt b 6 2)

/-- A table-set image. -/
def imageOf (b : List Byte) : TableSetImage :=
  let t := imageTables b
  { tset := leAt b 0 2, mprof := leAt b 2 2, ngroups := leAt b 4 2, ntables := leAt b 6 2, len := leAt b 8 4
    bind := (List.range (leAt b 4 2)).map fun g => (leAt b (16 + 4 * g) 2, leAt b (18 + 4 * g) 2)
    tables := (List.range (leAt b 6 2)).map fun i => tableRecOf (bytesAt b (t + 528 * i) 528)
    reservedBad := !(zeroAt b 12 4 && zeroAt b (16 + 4 * leAt b 4 2) (t - (16 + 4 * leAt b 4 2)) &&
      decide (leAt b 6 2 ≤ 4096) && imageSig b + 800 == b.length) }

/-! ## Wrapped key records -/

/-- A key record of 432 bytes. -/
def keyRecOf (b : List Byte) : KeyRec :=
  { kind := leAt b 0 1, id := leAt b 4 4, target := leAt b 16 32, wrapped := beNat (bytesAt b 48 384)
    reservedBad := !(zeroAt b 1 3 && zeroAt b 8 8 && (leAt b 0 1 == 2 || leAt b 0 1 == 3 || leAt b 4 4 == 0)) }

/-- The 256-bit key a record opens to with the DeviceID key, as the number its bytes spell, the first most significant. -/
def State.openRec (s : State) (r : KeyRec) : Option Nat :=
  if !s.hasDevId then none
  else (oaepOpen s.sec.fuses.devN s.sec.fuses.devD r.wrapped).bind fun k => if k.length = 32 then some (beNat k) else none

/-! ## Banks of the SPI NOR -/

/-- The trailer of a bank written whole. -/
def newBank (g : BankImage) (seq : Nat) : Bank :=
  let b := signedBytes g.obj
  ⟨g, seq, b.length, crc32c (b ++ leBytes 8 seq ++ leBytes 4 b.length)⟩

/-- A bank is valid when its CRC matches (R432). -/
def bankValid (b : Bank) : Bool := b.crc == (newBank b.img b.seq).crc && b.length == (newBank b.img b.seq).length

/-- A bank whose write was cut off: its CRC fails (R433). -/
def tornBank (b : Bank) : Bank := { b with crc := ((newBank b.img b.seq).crc + 1) % two32 }

/-! ## The blank -/

/-- A directory entry (Table 14.4). -/
structure Sect where
  typ : Nat
  part : Nat
  off : Nat
  len : Nat
  count : Nat
  reserved : Nat
deriving DecidableEq, Repr

def sectOf (b : List Byte) (i : Nat) : Sect :=
  let o := 64 + 16 * i
  ⟨leAt b o 1, leAt b (o + 1) 1, leAt b (o + 4) 4, leAt b (o + 8) 4, leAt b (o + 12) 4, leAt b (o + 2) 2⟩

/-- Cut consecutive records of `n` bytes. -/
def cutRecs (n : Nat) : Nat → List Byte → List (List Byte)
  | 0, _ => []
  | k + 1, b => bytesAt b 0 n :: cutRecs n k (b.drop n)

/-- Cut consecutive images, each as long as its LEN says. -/
def cutImages : Nat → List Byte → List (List Byte)
  | 0, _ => []
  | k + 1, b => b.take (leAt b 8 4) :: cutImages k (b.drop (leAt b 8 4))

end Sys2Proof.Machine

namespace Sys2Proof
open Sys2Proof.Machine

/-- Header fields (Table 14.3). -/
def Blank.magic (b : Blank) : Nat := leAt b.obj.body 0 4
def Blank.format (b : Blank) : Nat := leAt b.obj.body 4 2
def Blank.partNumber (b : Blank) : Nat := leAt b.obj.body 6 2
def Blank.minStepping (b : Blank) : Nat := leAt b.obj.body 8 1
def Blank.nsect (b : Blank) : Nat := leAt b.obj.body 12 4
def Blank.length (b : Blank) : Nat := leAt b.obj.body 16 8
def Blank.svn (b : Blank) : Nat := leAt b.obj.body 24 4

/-- Reserved bytes of the header are zero. -/
def Blank.headerZero (b : Blank) : Bool := zeroAt b.obj.body 9 3 && zeroAt b.obj.body 28 36

/-- Directory entries; a count that the format does not allow gives none. -/
def Blank.dir (b : Blank) : List Sect :=
  if b.nsect ≤ 4096 then (List.range b.nsect).map (sectOf b.obj.body) else []

/-- Bytes of a section. -/
def Blank.bytesOf (b : Blank) (e : Sect) : List Byte := bytesAt b.obj.body e.off e.len

/-- Sections of a type. -/
def Blank.sects (b : Blank) (typ : Nat) : List Sect := b.dir.filter fun e => e.typ == typ

/-- Sections of a type of partition `p`, and the bytes of the sections of a type. -/
def Blank.sectsOf (b : Blank) (typ p : Nat) : List Sect := (b.sects typ).filter fun e => e.part == p
def Blank.secBytes (b : Blank) (typ : Nat) : List (List Byte) := (b.sects typ).map b.bytesOf

/-- PROFILE records. -/
def Blank.profRecs (b : Blank) : List (List Byte) := (b.sects 6).flatMap fun e => cutRecs 256 e.count (b.bytesOf e)
def Blank.profiles (b : Blank) : List Profile := b.profRecs.map profileOf

/-- TSET images. -/
def Blank.tsetBytes (b : Blank) : List (List Byte) := (b.sects 7).flatMap fun e => cutImages e.count (b.bytesOf e)
def Blank.tsets (b : Blank) : List TableSetImage := b.tsetBytes.map imageOf

/-- Wrapped key records. -/
def Blank.keys (b : Blank) : List KeyRec :=
  (b.sects 11).flatMap fun e => (cutRecs 432 e.count (b.bytesOf e)).map keyRecOf

/-- SHA-256 of the blank, its signature included. -/
def Blank.digest (b : Blank) : Nat := signedDigest b.obj

/-- Records of all sections of a type. -/
def Blank.countOf (b : Blank) (typ : Nat) : Nat := ((b.sects typ).map (·.count)).foldl (· + ·) 0

end Sys2Proof
end

