-- ==== Sys2Proof/Machine/Packet.lean ====
section
/-! DEFINITION. The Lathe packet as bytes (R332, R333): the 48-byte header of Table 9.3 with its payload, read and written, and what
the layers below it carry. -/

namespace Sys2Proof

open Sys2Proof.Machine

/-- TYPE (Table 9.4). -/
def PktType.code : PktType → Nat
  | .write => 1 | .readReq => 2 | .readResp => 3 | .ack => 4 | .nak => 5 | .service => 6

/-- The packet type of a TYPE code; `none` where it is reserved. -/
def pktTypeOf (n : Nat) : Option PktType :=
  if n = 1 then some .write else if n = 2 then some .readReq else if n = 3 then some .readResp else if n = 4 then some .ack
  else if n = 5 then some .nak else if n = 6 then some .service else none

/-- The bytes of a packet: header, then payload. -/
def Packet.bytes (p : Packet) : List Byte :=
  leBytes 1 (p.typ.code + 16) ++ leBytes 1 ((if p.hasImm then 1 else 0) + (if p.retx then 2 else 0) + if p.ece then 4 else 0) ++
    leBytes 2 p.payload.length ++ leBytes 2 p.src ++ leBytes 2 p.dst ++ leBytes 2 p.domain ++ leBytes 1 p.status ++
    leBytes 1 p.pkt ++ leBytes 4 p.epoch ++ leBytes 4 p.inc ++ leBytes 4 p.msgid ++ leBytes 4 p.low ++ leBytes 4 p.rkey.toNat ++
    leBytes 8 p.roff ++ leBytes 4 p.mlen ++ leBytes 4 p.imm.toNat ++ p.payload

/-- The packet of a datagram; `none` where R333 discards it: VER is not 1, TYPE is reserved, a reserved bit is set. A datagram
that is not as long as PLEN says, or longer than the largest packet, is discarded too (DEDUCED, log 103). -/
def parsePacket (b : List Byte) : Option Packet :=
  let n := leAt b 2 2
  if b.length ≠ 48 + n ∨ 4096 < n ∨ leAt b 0 1 / 16 ≠ 1 ∨ leAt b 1 1 / 8 ≠ 0 then none
  else (pktTypeOf (leAt b 0 1 % 16)).map fun t =>
    { typ := t, hasImm := leAt b 1 1 % 2 = 1, retx := leAt b 1 1 / 2 % 2 = 1, ece := leAt b 1 1 / 4 % 2 = 1, src := leAt b 4 2
      dst := leAt b 6 2, domain := leAt b 8 2, status := leAt b 10 1, pkt := leAt b 11 1, epoch := leAt b 12 4, inc := leAt b 16 4
      msgid := leAt b 20 4, low := leAt b 24 4, rkey := BitVec.ofNat 32 (leAt b 28 4), roff := leAt b 32 8, mlen := leAt b 40 4
      imm := BitVec.ofNat 32 (leAt b 44 4), payload := b.drop 48 }

/-- Is every field within its width? -/
def Packet.fits (p : Packet) : Bool :=
  decide (p.payload.length ≤ 4096) && decide (p.src < 2 ^ 16) && decide (p.dst < 2 ^ 16) && decide (p.domain < 2 ^ 16) &&
    decide (p.status < 2 ^ 8) && decide (p.pkt < 2 ^ 8) && decide (p.epoch < 2 ^ 32) && decide (p.inc < 2 ^ 32) &&
    decide (p.msgid < 2 ^ 32) && decide (p.low < 2 ^ 32) && decide (p.roff < 2 ^ 64) && decide (p.mlen < 2 ^ 32)

/-! ## The header of a service message (R380) -/

/-- SVC codes (Table 10.5). -/
def svcCodes : List Nat :=
  [0x01, 0x02, 0x03, 0x04, 0x05, 0x06, 0x07, 0x08, 0x10, 0x11, 0x12, 0x14, 0x15, 0x16, 0x18, 0x19, 0x1A, 0x1B, 0x1C, 0x1D, 0x1E, 0x20,
   0x21]

/-- The first packet of a SERVICE message whose SVC Table 10.5 does not list. -/
def Packet.svcUnknown (p : Packet) : Bool := p.pkt == 0 && !svcCodes.contains (leAt p.payload 0 1)

/-- SVC, STATUS, REQ and COUNT of a message. A reply bears the SVC of its request where Table 10.5 lists no type for it; the report
of a lost member, for which the table has no type, goes as a JOIN without a body; REQ is 0 where a type carries no request, and
COUNT the items of a body that is a list, else 0 (DESIGN CHOICE, log 104). -/
def SvcMsg.head : SvcMsg → Nat × Nat × Nat × Nat
  | .leaseReq _ _ => (0x01, 0, 0, 0) | .leaseGrant _ _ => (0x02, 0, 0, 0) | .heartbeat _ _ _ _ => (0x03, 0, 0, 0)
  | .hbAck _ => (0x04, 0, 0, 0) | .join _ _ => (0x05, 0, 0, 0) | .admitMsg _ _ => (0x06, 0, 0, 0) | .admitReply _ => (0x06, 0, 0, 0)
  | .mapUpdate _ m => (0x07, 0, 0, m.length) | .regUpdate e r => (0x08, 0, 0, e.length + r.length) | .lost _ => (0x05, 0, 0, 0)
  | .lookupReq q _ _ _ l => (0x10, 0, q, l.length) | .lookupResp q _ l => (0x11, 0, q, l.length)
  | .insert q _ l => (0x12, 0, q, l.length) | .insertReply q l _ => (0x12, 0, q, l.length) | .retire q _ => (0x14, 0, q, 0)
  | .retireReply q st _ => (0x14, st, q, 0) | .trim l => (0x15, 0, 0, l.length) | .refill _ => (0x16, 0, 0, 0)
  | .refillReply _ => (0x16, 0, 0, 0) | .rowsReq q _ _ => (0x18, 0, q, 0) | .rowsResp q st _ _ l g => (0x19, st, q, l.length + g.length)
  | .rowsDone q _ l => (0x1A, 0, q, l.length) | .pageReq _ _ => (0x1B, 0, 0, 0) | .pageData _ => (0x1C, 0, 0, 0)
  | .pageAck _ _ st => (0x1D, st, 0, 0) | .refRelease l => (0x1E, 0, 0, l.length)
  | .cascQuery q _ _ _ _ l => (0x20, 0, q, l.length) | .cascResult _ => (0x21, 0, 0, 0)

/-- The 16 bytes of Table 10.4; FLAGS, of which no type defines a bit, are zero. -/
def svcHeader (m : SvcMsg) : List Byte :=
  leBytes 1 m.head.1 ++ leBytes 1 0 ++ leBytes 1 m.head.2.1 ++ leBytes 1 0 ++ leBytes 4 m.head.2.2.1 ++ leBytes 2 m.head.2.2.2 ++
    leBytes 6 0

/-- Is the header one that R333 accepts? -/
def RxFrame.headerOk (x : RxFrame) : Bool := (parsePacket x.bytes).isSome

/-- The packet of a frame whose header is accepted. -/
def RxFrame.p (x : RxFrame) : Packet := (parsePacket x.bytes).getD { typ := .write, src := 0, dst := 0, domain := 0 }

end Sys2Proof
end

