-- ==== Sys2Proof/Machine/Egress.lean ====
section
/-! DEFINITION. EGS (chapter 11): the ports' interfaces, wire lengths, the queue of shaped packets, the choice of the next
packet by buckets, colour and deficit round-robin, the settings, and the samples. -/

namespace Sys2Proof.Machine

/-! ## Interfaces (R328) -/

/-- Does interface `i` exist under its port's mode (Table 9.1)? -/
def State.ifaceExists (s : State) (i : Nat) : Bool :=
  decide (i < 64) && i % 8 % (8 / 2 ^ s.fld F.ETH_PORT_CFG_MODE (i / 8)) == 0

/-- Rate of an interface in MB/s. -/
def State.ifaceRate (s : State) (i : Nat) : Nat := 200000 / 2 ^ s.fld F.ETH_PORT_CFG_MODE (i / 8)

/-! ## MACsec (R330, R440) -/

def State.mka? (s : State) (i : Nat) : Option MacSec := s.sec.mka.find? fun m => m.iface == i

def State.setMka (s : State) (i : Nat) (f : MacSec → MacSec) : State :=
  { s with sec := { s.sec with mka := updIf s.sec.mka (fun m => m.iface == i) f } }

/-- Is a receive association of the interface live? ETH_LINK_STAT.SA_LIVE shows it. -/
def State.saLive (s : State) (i : Nat) : Bool := (s.mka? i).any fun m => !m.rx.isEmpty

/-- A packet number the replay window admits on an association with highest accepted number `r.pn` (IEEE 802.1AE, which R330
names): it is not WINDOW or more below the next one expected. -/
def RxSa.admits (r : RxSa) (window pn : Nat) : Bool := decide (r.pn + 1 ≤ pn + window)

/-- The associations interfaces receive on end. -/
def State.saDown (s : State) (l : List Nat) : State :=
  { s with sec := { s.sec with mka := updIf s.sec.mka (fun m => l.contains m.iface) fun m => { m with rx := [] } } }

/-- Does the interface carry traffic: it exists, its link is up and its secure associations are live (R330)? -/
def State.ifaceUp (s : State) (i : Nat) : Bool :=
  s.ifaceExists i && s.fld F.ETH_LINK_STAT_UP i == 1 && s.saLive i

/-! ## Endpoints (R335) -/

def State.ep (s : State) (node : Nat) : Word512 := spGet 0 s.fxt.eps node

/-- KIND as it acts: reserved values act as 0. -/
def State.epKind (s : State) (node : Nat) : Nat := if dF (s.ep node) 0 1 ≤ 3 then dF (s.ep node) 0 1 else 0
def State.epTenant (s : State) (node : Nat) : Nat := dF (s.ep node) 2 2

/-- Interfaces that reach a node and carry traffic. -/
def State.epIfaces (s : State) (node : Nat) : List Nat :=
  (List.range 64).filter fun i => dF (s.ep node) 4 8 / 2 ^ i % 2 == 1 && s.ifaceUp i

/-- Bytes of a data packet (Table 9.14). -/
def State.payload (s : State) : Nat :=
  let p := s.fld F.FXT_NET_CFG_PAYLOAD
  if p = 0 then 4096 else if p = 1 then 2048 else 1024

/-- Wire bytes of a packet beyond its payload (R332): 166 over IPv6, 20 fewer over IPv4. -/
def State.overhead (s : State) (node : Nat) : Nat := if s.epKind node = 2 then 146 else 166

/-! ## Service messages (R380, R419) -/

/-- Types 0x01 to 0x08: they bypass EGS. -/
def svcBypass : SvcMsg → Bool
  | .leaseReq _ _ => true | .leaseGrant _ _ => true | .heartbeat _ _ _ _ => true | .hbAck _ => true | .join _ _ => true
  | .admitMsg _ _ => true | .admitReply _ => true | .mapUpdate _ _ => true | .regUpdate _ _ => true | .lost _ => true
  | .lookupReq _ _ _ _ _ => false | .lookupResp _ _ _ => false | .insert _ _ _ => false | .insertReply _ _ _ => false
  | .retire _ _ => false | .retireReply _ _ _ => false | .trim _ => false | .refill _ => false | .refillReply _ => false
  | .rowsReq _ _ _ => false | .rowsResp _ _ _ _ _ _ => false | .rowsDone _ _ _ => false | .pageReq _ _ => false
  | .pageData _ => false | .pageAck _ _ _ => false | .refRelease _ => false | .cascQuery _ _ _ _ _ _ => false
  | .cascResult _ => false

/-- Payload bytes of a service message: the header of Table 10.4 and its body. The manual gives widths for PAGE_DATA
alone; the others are the model's (log entry 20). -/
def svcLen : SvcMsg → Nat
  | .leaseReq _ _ => 24 | .leaseGrant _ _ => 24 | .heartbeat _ _ _ _ => 60 | .hbAck _ => 20 | .join _ _ => 24
  | .admitMsg _ _ => 52 | .admitReply _ => 20 | .mapUpdate _ m => 20 + m.length | .regUpdate e r => 16 + 66 * e.length + 18 * r.length
  | .lost _ => 20 | .lookupReq _ _ _ _ l => 20 + 36 * l.length | .lookupResp _ _ l => 20 + 12 * l.length
  | .insert _ _ l => 20 + 44 * l.length | .insertReply _ l _ => 16 + 9 * l.length | .retire _ _ => 28 | .retireReply _ _ _ => 20
  | .trim l => 16 + 8 * l.length | .refill _ => 20 | .refillReply _ => 20 | .rowsReq _ _ _ => 32
  | .rowsResp _ _ _ _ l g => 24 + 8 * l.length + 32 * g.length | .rowsDone _ _ l => 20 + 8 * l.length | .pageReq _ _ => 24
  | .pageData b => 16 + 16 * ((24 + 4 * b.tiles + 15) / 16) + b.data.length | .pageAck _ _ _ => 32 | .refRelease l => 16 + 8 * l.length
  | .cascQuery _ _ _ _ _ l => 24 + 36 * l.length | .cascResult _ => 24

/-! ## Keyed values -/

def kGet {κ α : Type} [DecidableEq κ] (d : α) (l : List (κ × α)) (k : κ) : α :=
  ((l.find? fun x => decide (x.1 = k)).map (·.2)).getD d

def kSet {κ α : Type} [DecidableEq κ] (l : List (κ × α)) (k : κ) (v : α) : List (κ × α) :=
  l.filter (fun x => decide (x.1 ≠ k)) ++ [(k, v)]

def State.setEgs (s : State) (f : Egs → Egs) : State := { s with egs := f s.egs }

/-! ## Buckets (R420, R422) -/

def EgsEntry.zero : EgsEntry := ⟨0, 0, 0, 0, 0, 0⟩
def State.egsSub (s : State) (n : Nat) : EgsEntry := spGet EgsEntry.zero s.egs.subs n
def State.egsSvc (s : State) (n : Nat) : EgsEntry := spGet EgsEntry.zero s.egs.svcs n

/-- Bucket sizes in 1/1,500 byte: below 17 units of 256 bytes they act as 17. -/
def bucketSize (n : Nat) : Nat := max 17 n * 256 * 1500

/-- A bucket as it stands at cycle `now`: a MB/s is 1/1,500 byte per cycle; one never used is full. -/
def bucketNow (e : EgsEntry) (rate now : Nat) (b : Option Bucket) : Bucket :=
  match b with
  | none => ⟨bucketSize e.cbs, bucketSize e.pbs, now⟩
  | some b => ⟨min (bucketSize e.cbs) (b.c + e.cir * (now - b.upd)),
      min (bucketSize e.pbs) (b.p + (if e.pir = 0 then rate else e.pir) * (now - b.upd)), now⟩

def State.subBucket (s : State) (i sub : Nat) : Bucket :=
  bucketNow (s.egsSub sub) (s.ifaceRate i) s.cycles ((s.egs.subBk.find? fun x => x.1 == (i, sub)).map (·.2))

def State.svcBucket (s : State) (i svc : Nat) : Bucket :=
  bucketNow (s.egsSvc (i * 8 + svc)) (s.ifaceRate i) s.cycles ((s.egs.svcBk.find? fun x => x.1 == (i, svc)).map (·.2))

/-! ## Choosing a packet (R421) -/

/-- Queued packets of an interface that the destination's rate has let through, per subscriber: the head. -/
def headOf (now i sub : Nat) (q : List QPkt) : Option QPkt :=
  (q.filter fun x => x.iface == i && x.sub == sub && decide (x.at_ ≤ now)).foldl
    (fun a x => match a with
      | none => some x
      | some y => if x.at_ < y.at_ then some x else some y) none

/-- Heads of an interface. -/
def State.heads (s : State) (i : Nat) : List QPkt :=
  (dedup ((s.egs.queue.filter fun x => x.iface == i).map (·.sub))).filterMap fun sub => headOf s.cycles i sub s.egs.queue

/-- Service of a subscriber. -/
def State.svcOfSub (s : State) (sub : Nat) : Nat := (s.egsSub sub).service % 8

def State.eligible (s : State) (h : QPkt) : Bool :=
  decide (h.len * 1500 ≤ (s.subBucket h.iface h.sub).p) &&
    decide (h.len * 1500 ≤ (s.svcBucket h.iface (s.svcOfSub h.sub)).p)

def State.green (s : State) (h : QPkt) : Bool :=
  s.eligible h && decide (h.len * 1500 ≤ (s.subBucket h.iface h.sub).c) &&
    decide (h.len * 1500 ≤ (s.svcBucket h.iface (s.svcOfSub h.sub)).c)

/-- A flow of a deficit round-robin: identity, quantum, head length, deficit. -/
structure Flow where
  id : Nat
  quantum : Nat
  len : Nat
  deficit : Nat
deriving DecidableEq, Repr

/-- Visit flows in turn, each visit adding its quantum, until one's deficit covers its head. -/
def drrVisit : Nat → List Flow → Option (Nat × List Flow)
  | 0, _ => none
  | _, [] => none
  | n + 1, x :: t =>
    let d := x.deficit + x.quantum
    if x.len ≤ d then some (x.id, { x with deficit := d - x.len } :: t)
    else drrVisit n (t ++ [{ x with deficit := d }])

/-- One turn of deficit round-robin: the flow being served goes on while its deficit lasts. -/
def drrPick (turn : Nat) (flows : List Flow) : Option (Nat × List Flow) :=
  match flows.find? fun x => x.id == turn && decide (x.len ≤ x.deficit) with
  | some x => some (x.id, flows.map fun y => if y.id = x.id then { y with deficit := y.deficit - x.len } else y)
  | none =>
    let fs := sortBy (fun a b : Flow => decide (a.id < b.id)) flows
    drrVisit (40 * fs.length + 1) (fs.filter (fun x => decide (turn < x.id)) ++ fs.filter (fun x => decide (x.id ≤ turn)))

/-- Quantum of a weight: WEIGHT × 256 bytes, 0 acts as 1. -/
def quantumOf (w : Nat) : Nat := max 1 w * 256

/-- Prefer the green among a list of heads, else the eligible. -/
def State.byColour (s : State) (l : List QPkt) : List QPkt :=
  match l.filter s.green with
  | [] => l.filter s.eligible
  | g => g

def storeFlows (i : Nat) (l : List ((Nat × Nat) × Nat)) : List Flow → List ((Nat × Nat) × Nat)
  | [] => l
  | x :: t => storeFlows i (kSet l (i, x.id) x.deficit) t

/-- The subscriber's packet chosen within a service. -/
def State.pickSub (s : State) (i svc : Nat) : State × Option QPkt :=
  let hs := s.byColour ((s.heads i).filter fun h => s.svcOfSub h.sub == svc)
  let key := (i, svc)
  match drrPick (kGet 0 s.egs.subTurn key) (hs.map fun h =>
      ⟨h.sub, quantumOf (s.egsSub h.sub).weight, h.len, kGet 0 s.egs.subDef (i, h.sub)⟩) with
  | none => (s, none)
  | some (sub, fl) =>
    (s.setEgs fun e => { e with subTurn := kSet e.subTurn key sub, subDef := storeFlows i e.subDef fl },
      hs.find? fun h => h.sub == sub)

/-- The packet an interface sends next. -/
def State.pickPacket (s : State) (i : Nat) : State × Option QPkt :=
  let hs := s.byColour (s.heads i)
  let svcs := dedup (hs.map fun h => s.svcOfSub h.sub)
  -- a service's head packet is the one it would choose
  let lenOf (v : Nat) : Nat := ((s.pickSub i v).2.map (·.len)).getD 0
  match drrPick (kGet 0 s.egs.svcTurn i) (svcs.map fun v =>
      ⟨v, quantumOf (s.egsSvc (i * 8 + v)).weight, lenOf v, kGet 0 s.egs.svcDef (i, v)⟩) with
  | none => (s, none)
  | some (v, fl) =>
    (s.setEgs fun e => { e with svcTurn := kSet e.svcTurn i v, svcDef := storeFlows i e.svcDef fl }).pickSub i v

/-- Take a packet out of the queue and out of the buckets; an emptied flow loses its deficit. -/
def State.takePacket (s : State) (h : QPkt) : State :=
  let b := h.len * 1500
  let sb := s.subBucket h.iface h.sub
  let v := s.svcOfSub h.sub
  let vb := s.svcBucket h.iface v
  let g := s.green h
  let cut (x : Bucket) : Bucket := { x with c := if g then x.c - b else x.c, p := x.p - b }
  let q := s.egs.queue.erase h
  s.setEgs fun e => { e with
    queue := q
    subBk := kSet e.subBk (h.iface, h.sub) (cut sb)
    svcBk := kSet e.svcBk (h.iface, v) (cut vb)
    subDef := if q.any (fun x => x.iface == h.iface && x.sub == h.sub) then e.subDef else kSet e.subDef (h.iface, h.sub) 0
    svcDef := if q.any (fun x => x.iface == h.iface && s.svcOfSub x.sub == v) then e.svcDef
      else kSet e.svcDef (h.iface, v) 0 }

/-! ## Test perturbation of sent packets (R537, Table 16.10) -/

def State.tstFab (s : State) (i : Nat) (tx : Bool) : Bool :=
  s.fld F.TST_FAB_IFMASK_IF / 2 ^ i % 2 == 1 && decide ((s.fld F.TST_FAB_PERTURB_TX = 1) = tx) &&
    (s.fld F.TST_FAB_PERTURB_DROP != 0 || s.fld F.TST_FAB_PERTURB_REORDER != 0)

/-- Is the `n`th packet (from 1) one in every `k`? -/
def oneIn (k n : Nat) : Bool := k != 0 && n % k == 0

/-- The headers below Lathe's on a packet to a node (R329, R332); its UDP source port is a free value in the range R332 gives. -/
def State.netHdr (s : State) (i node : Nat) : NetHdr :=
  { srcMac := s.fld F.ETH_MAC_BASE_MAC + i, dstMac := dF (s.ep node) 12 6, an := ((s.mka? i).map (·.txAn)).getD 0
    pn := ((s.mka? i).map (·.txPn)).getD 0, v6 := s.epKind node != 2
    dstIp := dF (s.ep node) 20 (if s.epKind node = 2 then 4 else 16), dscp := s.fld F.FXT_NET_CFG_DSCP, ecn := 2, hops := 64
    srcPort := 0xC000 + Config.udpPort s.free % 0x4000, dstPort := s.fld F.FXT_NET_CFG_UDP_PORT }

/-- Put a packet on the wire, under the next packet number of the interface. -/
def State.putPacket (s : State) (i : Nat) (p : Packet) : State :=
  let s := s.setMka i fun m => { m with txPn := m.txPn + 1 }
  (s.emit (.packet i (s.netHdr i p.dst) p.bytes)).nextFree

/-- A packet leaves on an interface. -/
def State.sendPacket (s : State) (i : Nat) (p : Packet) : State :=
  if !s.tstFab i true then s.putPacket i p
  else
    let n := s.fxt.tstTx + 1
    let s := { s with fxt := { s.fxt with tstTx := n } }
    if oneIn (s.fld F.TST_FAB_PERTURB_DROP) n then s
    else if oneIn (s.fld F.TST_FAB_PERTURB_REORDER) n && s.fxt.tstOut.isNone then
      { s with fxt := { s.fxt with tstOut := some (i, p) } }
    else
      let t := s.putPacket i p
      match s.fxt.tstOut with
      | none => t
      | some (j, q) => { (t.putPacket j q) with fxt := { s.fxt with tstOut := none } }

/-! ## Settings (R422, R427) -/

/-- Clip every bucket of a subscriber, or of a service, to its present sizes, as of now. -/
def State.clipSub (s : State) (sub : Nat) (old : Nat → Bucket) (l : List ((Nat × Nat) × Bucket)) :
    List ((Nat × Nat) × Bucket) :=
  l.map fun x => if x.1.2 = sub then
    (x.1, let b := old x.1.1
          ⟨min b.c (bucketSize (s.egsSub sub).cbs), min b.p (bucketSize (s.egsSub sub).pbs), s.cycles⟩) else x

def State.setSub (s : State) (n : Nat) (e : EgsEntry) : State :=
  let t := s.setEgs fun g => { g with subs := spSet EgsEntry.zero g.subs n e }
  t.setEgs fun g => { g with subBk := t.clipSub n (fun i => s.subBucket i n) g.subBk }

def State.setSvc (s : State) (n : Nat) (e : EgsEntry) : State :=
  let t := s.setEgs fun g => { g with svcs := spSet EgsEntry.zero g.svcs n e }
  let old := s.svcBucket (n / 8) (n % 8)
  t.setEgs fun g => { g with
    svcBk := g.svcBk.map fun x => if x.1 = (n / 8, n % 8) then
      (x.1, ⟨min old.c (bucketSize e.cbs), min old.p (bucketSize e.pbs), s.cycles⟩) else x }

/-- EGS_SUB_WRITE. -/
def execSubWrite (f : Nat) (s : State) : State :=
  if f ≠ 0 then s
  else s.setSub (s.fld F.EGS_SUB_SEL_SUB)
    { cir := s.fld F.EGS_SUB_DATA0_CIR, pir := s.fld F.EGS_SUB_DATA0_PIR, weight := s.fld F.EGS_SUB_DATA0_WEIGHT
      service := s.fld F.EGS_SUB_DATA0_SERVICE, cbs := s.fld F.EGS_SUB_DATA1_CBS, pbs := s.fld F.EGS_SUB_DATA1_PBS }

/-- EGS_SUB_LOAD. -/
def execSubLoad (f : Nat) (s : State) : State :=
  if f ≠ 0 then s
  else
    let e := s.egsSub (s.fld F.EGS_SUB_SEL_SUB)
    (((((s.setFld F.EGS_SUB_DATA0_CIR e.cir).setFld F.EGS_SUB_DATA0_PIR e.pir).setFld F.EGS_SUB_DATA0_WEIGHT e.weight).setFld
      F.EGS_SUB_DATA0_SERVICE e.service).setFld F.EGS_SUB_DATA1_CBS e.cbs).setFld F.EGS_SUB_DATA1_PBS e.pbs

/-- EGS_SVC_WRITE. -/
def execSvcWrite (f : Nat) (s : State) : State :=
  if f ≠ 0 then s
  else s.setSvc (s.fld F.EGS_SVC_SEL_SVC)
    { cir := s.fld F.EGS_SVC_DATA0_CIR, pir := s.fld F.EGS_SVC_DATA0_PIR, weight := s.fld F.EGS_SVC_DATA0_WEIGHT
      service := 0, cbs := s.fld F.EGS_SVC_DATA1_CBS, pbs := s.fld F.EGS_SVC_DATA1_PBS }

/-- EGS_SVC_LOAD. -/
def execSvcLoad (f : Nat) (s : State) : State :=
  if f ≠ 0 then s
  else
    let e := s.egsSvc (s.fld F.EGS_SVC_SEL_SVC)
    ((((s.setFld F.EGS_SVC_DATA0_CIR e.cir).setFld F.EGS_SVC_DATA0_PIR e.pir).setFld F.EGS_SVC_DATA0_WEIGHT e.weight).setFld
      F.EGS_SVC_DATA1_CBS e.cbs).setFld F.EGS_SVC_DATA1_PBS e.pbs

/-! ## Samples (R424) -/

def Sample.zero : Sample := ⟨0, 0, 0, 0⟩

/-- Always-on cycles as ns (1.5 GHz), rounded down. -/
def cyclesToNs (c : Nat) : Nat := c * 2 / 3

/-- One more sample: depth in bytes, head delay in ns. -/
def Sample.add (x : Sample) (depth delay : Nat) : Sample :=
  ⟨max x.depth (min ((depth + 255) / 256) (2 ^ 32 - 1)), max x.delay (min delay (2 ^ 32 - 1)),
    min (x.sum + delay) (2 ^ 40 - 1), min (x.count + 1) (2 ^ 24 - 1)⟩

/-- Depth and head delay of the packets that satisfy `p`, of those that the destination's rate has let into the queue. -/
def State.sampleOf (s : State) (p : QPkt → Bool) : Nat × Nat :=
  let q := s.egs.queue.filter fun x => p x && decide (x.at_ ≤ s.cycles)
  ((q.map (·.len)).foldl (· + ·) 0, cyclesToNs ((q.map fun x => s.cycles - x.at_).foldl max 0))

def State.addSample (s : State) (l : List (Nat × Sample)) (k : Nat) (p : QPkt → Bool) : List (Nat × Sample) :=
  spSet Sample.zero l k ((spGet Sample.zero l k).add (s.sampleOf p).1 (s.sampleOf p).2)

/-- EGS_SAMPLE, PERIOD µs after the last: each context's subscriber and each service of an interface. -/
def execEgsTick (s : State) : State :=
  let s := s.reach (s.egs.sampledAt + max 1 (s.fld F.EGS_CFG_PERIOD) * cyclesPerUs)
  let svcs := ((List.range 64).filter s.ifaceExists).flatMap fun i => (List.range 8).map fun v => (i, v)
  s.setEgs fun e => { e with
    sampledAt := s.cycles
    subSmp := (s.ctxs.map (·.r.ctx)).foldl (fun l c => s.addSample l c fun x => x.sub == c) e.subSmp
    svcSmp := svcs.foldl (fun l p => s.addSample l (p.1 * 8 + p.2) fun x => x.iface == p.1 && s.svcOfSub x.sub == p.2)
      e.svcSmp }

/-- EGS_SAMPLE_SELECT: load the selected samples; CLEAR resets them afterwards. -/
def execSampleSel (f : Nat) (v : Word32) (s : State) : State :=
  if f ≠ 0 then s
  else
    let i := v.toNat % 4096
    let kind := v.toNat / 4096 % 2
    let x := if kind = 0 then spGet Sample.zero s.egs.subSmp i else spGet Sample.zero s.egs.svcSmp i
    let s := (s.setFld F.EGS_SAMPLE_SEL_INDEX i).setFld F.EGS_SAMPLE_SEL_KIND kind
    let s := (s.setFld F.EGS_SAMPLE_DATA0_DEPTH_MAX x.depth).setFld F.EGS_SAMPLE_DATA0_DELAY_MAX x.delay
    let s := (s.setFld F.EGS_SAMPLE_DATA1_DELAY_SUM x.sum).setFld F.EGS_SAMPLE_DATA1_SAMPLES x.count
    if v.toNat / 8192 % 2 = 0 then s
    else if kind = 0 then s.setEgs fun e => { e with subSmp := spSet Sample.zero e.subSmp i Sample.zero }
    else s.setEgs fun e => { e with svcSmp := spSet Sample.zero e.svcSmp i Sample.zero }

end Sys2Proof.Machine
end

