-- ==== Sys2Proof/Machine/Prefix.lean ====
section
/-! DEFINITION. The prefix commands (chapter 6) and their exchanges between parts (R381 to R386): lookup, cursor, publication,
retirement, fork from a reference. -/

namespace Sys2Proof.Machine

/-! ## Operand checks -/

/-- The first status of a list of checks, BAD_HANDLE (step 4) before the rest (step 5). -/
def step45 (l : List (Option Nat)) : Option Nat :=
  if l.contains (some St.badHandle) then some St.badHandle else l.findSome? id

/-- Bytes of `n` blocks of token IDs. -/
def tokenBytes (p : Profile) (n : Nat) : Nat := n * p.B * 4

/-- May a base or retirement reference be named (R217)? 0 names none. -/
def State.refCheck (s : State) (r : Nat) : Option Nat :=
  if r = 0 ∨ (s.liveRef r).isSome ∨ s.remoteRef r then none else some St.badHandle

/-- What a base reference continues: the last digest, its depth, sharing domain and profile. -/
structure Base where
  last : Nat
  depth : Nat
  sdom : Nat
  mprof : Nat
deriving DecidableEq, Repr

/-- Domain, profile and digests of the anchor that a command's reference names: on this part, or as the part that holds it has
reported (R217). -/
def State.refInfo? (s : State) (k : Cmd) (r : Nat) : Option RefInfo :=
  if refApart r = s.ownPart then (s.refAnchor? r).map fun a => ⟨a.sdom, a.mprof, a.digests.take (refDepth r)⟩ else k.refInfo

/-- A live reference's chain. -/
def State.base? (s : State) (k : Cmd) (r : Nat) : Option Base :=
  (s.refInfo? k r).map fun i => ⟨i.digests.getD (refDepth r - 1) 0, refDepth r, i.sdom, i.mprof⟩

/-- Must the part that holds the anchor still be asked? -/
def State.mustAsk (s : State) (k : Cmd) (r : Nat) : Bool := r != 0 && refApart r != s.ownPart && k.refInfo.isNone

/-- Ask it: ROWS_REQ with FORK_LEN 0 (log entry 41). -/
def State.askRef (s : State) (k : Cmd) (r : Nat) : State :=
  if s.dom.rows.any fun x => x.id == k.id then s
  else
    let x := s.newReq
    let t := x.1.svcFor k.ctx (refApart r) (.rowsReq x.2 (BitVec.ofNat 64 r) 0)
    { t with dom := { t.dom with rows := t.dom.rows ++ [⟨k.id, x.2, true⟩] } }

/-- Compressions of one block digest: 66 + 4B bytes and the padding of SHA-256. -/
def blockCompressions (b : Nat) : Nat := (66 + 4 * b + 9 + 63) / 64

/-! ## PREFIX_LOOKUP (R221 to R230) -/

def lkRef (d : Word512) : Nat := dF d 8 8
def lkNblk (d : Word512) : Nat := dF d 20 4

def State.checkLookup (s : State) (k : Cmd) : Option Nat :=
  let d := k.desc
  let len := ((s.prof? (dF d 16 2)).map fun p => tokenBytes p (lkNblk d)).getD 0
  step45 [s.refCheck (lkRef d), s.spaceCheck k.ctx (dTokens d) false len, s.spaceCheck k.ctx (dResult d) true 32,
    match s.ctx? k.ctx with
    | none => some St.accessDenied
    | some x => if x.sdomOk (dF d 18 2) then none else some St.accessDenied]

/-- Step 6 (R223), with the base that applies. -/
def State.lookupCheck (s : State) (k : Cmd) (x : Ctx) : Except Nat (Profile × Base) :=
  let d := k.desc
  let sdom := x.sdomOf (dF d 18 2)
  match s.prof? (dF d 16 2) with
  | none => .error St.badField
  | some p =>
    match (if lkRef d = 0 then some (⟨0, 0, sdom, p.mprof⟩ : Base) else s.base? k (lkRef d)) with
    | none => .error St.badHandle
    | some b =>
      if b.sdom ≠ sdom ∨ b.mprof ≠ p.mprof then .error St.badField
      else if lkNblk d > 1048576 ∨ b.depth + lkNblk d > 16777215 then .error St.lengthLimit
      else if k.reads.isEmpty ∧
          (!s.spaceLong k.ctx (dTokens d) (tokenBytes p (lkNblk d)) ∨ !s.spaceLong k.ctx (dResult d) 32) then
        .error St.lengthLimit
      else .ok (p, b)

/-- Search the digests whose home is this part. -/
def State.searchLocal (s : State) (sdom mprof : Nat) (camOnly : Bool) (l : Lookup) : List (Nat × Nat) → State × Lookup
  | [] => (s, l)
  | (d, _) :: t =>
    if s.homeOf d ≠ s.ownPart then s.searchLocal sdom mprof camOnly l t
    else
      let r := s.search d sdom mprof camOnly
      let l := { l with searched := l.searched + 1 }
      match r.2 with
      | .no => r.1.searchLocal sdom mprof camOnly l t
      | .cam e => r.1.searchLocal sdom mprof camOnly { l with hits := l.hits ++ [e.ref], cam := l.cam + 1 } t
      | .dir e => r.1.searchLocal sdom mprof camOnly { l with hits := l.hits ++ [e.ref], dir := l.dir + 1 } t

/-- Cut a list into groups of up to 64. -/
def groups64 {α : Type} : Nat → List α → List (List α)
  | 0, _ => []
  | n + 1, l => if l.isEmpty then [] else l.take 64 :: groups64 n (l.drop 64)

/-- Send the LOOKUP_REQs for one home. -/
def State.askHome (s : State) (ctx home sdom mprof : Nat) (camOnly : Bool) (l : Lookup) :
    List (List (Nat × Nat)) → State × Lookup
  | [] => (s, l)
  | g :: t =>
    let r := s.newReq
    (r.1.svcFor ctx home (.lookupReq r.2 sdom mprof camOnly g)).askHome ctx home sdom mprof camOnly
      { l with wait := l.wait ++ [(r.2, g.length)] } t

/-- Members of the domain by the blank. -/
def State.domMembers (s : State) : List Nat := ((s.blank.bind (·.domain)).map (·.members)).getD []

def State.askHomes (s : State) (ctx sdom mprof : Nat) (camOnly : Bool) (l : Lookup) : List Nat → State × Lookup
  | [] => (s, l)
  | h :: t =>
    let ds := l.query.filter fun x => s.homeOf x.1 == h
    let r := s.askHome ctx h sdom mprof camOnly l (groups64 (ds.length + 1) ds)
    r.1.askHomes ctx sdom mprof camOnly r.2 t

/-- SCOPE as it acts (R222). -/
def State.scopeOf (s : State) (d : Word512) : Nat :=
  let sc := if dF d 25 1 = 2 ∧ !s.inDomain then 1 else dF d 25 1
  if sc = 1 ∧ !s.inCascade then 0 else sc

/-- Hits reduced to one per anchor, deepest first (R225). -/
def matchesOf (hits : List Match) : List Match :=
  let same (a b : Match) : Bool := refAnchor a.ref.toNat == refAnchor b.ref.toNat && refApart a.ref.toNat == refApart b.ref.toNat
  let best := hits.filter fun a => hits.all fun b => !same a b || decide (b.depth ≤ a.depth)
  sortBy (fun a b => decide (b.depth < a.depth)) (dedup best)

/-- Issue a cursor (R226): its number, 0 when every slot is taken. -/
def State.issueCursor (s : State) (ctx : Nat) (l : List Match) (casc : Option (Nat × Nat)) : State × Nat :=
  let slot := firstUnused (s.pxi.cursors.map fun c => c.slot + 1) - 1
  if slot ≥ 32768 then (s, 0)
  else
    let g := spGet 1 s.pxi.cursorGen slot
    let ttl := max 1 (s.fld F.PXI_CFG_CURSOR_TTL) * cyclesPerUs
    (s.setPxi fun x => { x with
      cursors := x.cursors ++ [⟨slot, g, ctx, l, casc, s.cycles + ttl⟩]
      cursorGen := spSet 1 x.cursorGen slot (g % 65535 + 1) }, slot + g * 65536)

/-- The result record of Table 6.6. -/
def lookupRecord (ref cursor n : Nat) (mm trunc inc : Bool) (l : Lookup) : List Byte :=
  leBytes 8 ref ++ leBytes 4 cursor ++ leBytes 2 n ++
    leBytes 1 ((if mm then 1 else 0) + (if trunc then 2 else 0) + (if inc then 4 else 0)) ++ leBytes 1 0 ++
    leBytes 4 l.searched ++ leBytes 4 l.cam ++ leBytes 4 l.dir ++ leBytes 4 0

def State.dropLookup (s : State) (c : CmdId) : State :=
  s.setPxi fun x => { x with lookups := x.lookups.filter fun l => l.id ≠ c }

/-- A lookup ends: its record, cursor and completion. -/
def State.lookupDone (s : State) (l : Lookup) : State :=
  match s.cmd? l.id with
  | none => s.dropLookup l.id
  | some k =>
    let d := k.desc
    let s := s.dropLookup l.id
    let base := if lkRef d = 0 then [] else [(⟨refDepth (lkRef d), BitVec.ofNat 64 (lkRef d)⟩ : Match)]
    let ms := matchesOf (l.hits ++ base)
    let held := ms.take 64
    let ref := ((held.head?).map (·.ref.toNat)).getD 0
    let mm := decide (1 < ms.length)
    let r := if mm && !dFlag d 1 then
        s.issueCursor k.ctx (if l.casc then ms else held.drop 1)
          (if l.casc then (held.head?).map fun m => (l.round, m.depth) else none)
      else (s, 0)
    match r.1.spaceWrite k.id k.ctx (dResult d)
        (lookupRecord ref r.2 held.length mm (decide (64 < ms.length)) l.incomplete l) with
    | .error st => s.complete k.id st
    | .ok s => s.complete k.id St.ok { rlen := 32, result := ref }

def State.lookup? (s : State) (c : CmdId) : Option Lookup := s.pxi.lookups.find? fun l => l.id == c

def State.setLookup (s : State) (c : CmdId) (f : Lookup → Lookup) : State :=
  s.setPxi fun x => { x with lookups := updIf x.lookups (fun l => l.id == c) f }

/-- End every lookup that waits for nothing more. -/
def State.settleLookup (s : State) (c : CmdId) : State :=
  match s.lookup? c with
  | none => s
  | some l => if l.wait.isEmpty && !l.casc then s.lookupDone l else s

/-- The token IDs are here: hash, search, and ask the other homes. -/
def State.lookupRun (s : State) (k : Cmd) (p : Profile) (b : Base) (toks : List Byte) : State :=
  let d := k.desc
  let ds := chain (s.salt b.sdom) p.mprof p.B (lkNblk d) b.last toks
  let q := (List.range ds.length).zip ds |>.map fun x => (x.2, b.depth + x.1 + 1)
  let h := s.hashChain (ds.length * blockCompressions p.B)
  let sc := s.scopeOf d
  let l : Lookup := ⟨k.id, [], 0, 0, 0, false, [], q, decide (sc = 1), 0, h.2⟩
  let r := h.1.searchLocal b.sdom p.mprof (dFlag d 0) l q
  let stuck := decide (sc = 1) && r.1.pxi.casc.stuck
  let l := if stuck then { r.2 with casc := false, incomplete := true } else r.2
  let x := if sc = 2 then
      r.1.askHomes k.ctx b.sdom p.mprof (dFlag d 0) l
        (dedup ((q.map fun y => r.1.homeOf y.1).filter fun h => h != r.1.ownPart && r.1.domMembers.contains h))
    else (r.1, l)
  (x.1.setPxi fun y => { y with lookups := y.lookups ++ [x.2] }).settleLookup k.id

def lookupBody (k : Cmd) (s : State) : State :=
  if (s.lookup? k.id).isSome then s
  else match s.ctx? k.ctx with
    | none => s
    | some x =>
      if s.mustAsk k (lkRef k.desc) then s.askRef k (lkRef k.desc)
      else match s.lookupCheck k x with
      | .error st => s.complete k.id st
      | .ok (p, b) =>
        if lkNblk k.desc = 0 then s.complete k.id St.okEmpty
        else match k.reads with
          | [] => s.spaceRead k.id k.ctx (dTokens k.desc) (tokenBytes p (lkNblk k.desc))
          | t :: _ => s.lookupRun k p b t

/-- PREFIX_LOOKUP. -/
def execLookupF (c : CmdId) (s : State) : State :=
  s.runCmd c (fun d => dOp d == Op.prefixLookup) State.startCheck lookupBody

/-- LOOKUP_RESP: hits of a home join the lookup. -/
def execLookupResp (req cam : Nat) (hits : List Match) (s : State) : State :=
  match s.pxi.lookups.find? fun l => l.wait.any fun w => w.1 == req with
  | none => s
  | some l =>
    let n := ((l.wait.find? fun w => w.1 == req).map (·.2)).getD 0
    (s.setLookup l.id fun y => { y with
      hits := y.hits ++ hits, searched := y.searched + n, cam := y.cam + min cam hits.length
      dir := y.dir + (hits.length - cam), wait := y.wait.filter fun w => w.1 ≠ req }).settleLookup l.id

/-- REMOTE_LOOKUP_TIMEOUT: the homes still silent set INCOMPLETE (R381). -/
def execRemoteTimeout (c : CmdId) (s : State) : State :=
  match s.lookup? c with
  | none => s
  | some l =>
    if l.wait.isEmpty then s
    else
      let t := max 1 (s.fld F.FXT_DOM_CFG2_REMOTE_TIMEOUT) * cyclesPerUs
      ((s.reach (l.doneAt + t)).setLookup c fun y => { y with wait := [], incomplete := true }).settleLookup c

/-- Search the digests of a request at this home: the hits, and how many of them the CAM gave. -/
def State.searchAll (s : State) (sdom mprof : Nat) (camOnly : Bool) : List (Nat × Nat) → State × List Match × Nat
  | [] => (s, [], 0)
  | (d, _) :: t =>
    let r := s.search d sdom mprof camOnly
    let x := r.1.searchAll sdom mprof camOnly t
    match r.2 with
    | .no => x
    | .cam e => (x.1, e.ref :: x.2.1, x.2.2 + 1)
    | .dir e => (x.1, e.ref :: x.2.1, x.2.2)

/-- LOOKUP_REQ at a home. -/
def execLookupReq (src req sdom mprof : Nat) (camOnly : Bool) (items : List (Nat × Nat)) (s : State) : State :=
  let r := s.searchAll sdom mprof camOnly (items.filter fun x => s.homeOf x.1 == s.ownPart)
  r.1.svc src (.lookupResp req r.2.2 r.2.1)

/-! ## PXI_NEXT and cursors (R226, R231, R245) -/

def State.cursor? (s : State) (ctx v : Nat) : Option Cursor :=
  s.pxi.cursors.find? fun c => c.slot + c.gen * 65536 == v && c.ctx == ctx && decide (s.cycles < c.until_)

def State.freeCursor (s : State) (slot : Nat) : State :=
  s.setPxi fun x => { x with cursors := x.cursors.filter fun c => c.slot ≠ slot }

def State.checkNext (s : State) (k : Cmd) : Option Nat :=
  if dHandle k.desc ≠ 0 ∧ (s.cursor? k.ctx (dHandle k.desc)).isSome then none else some St.badHandle

/-! ### The cascade group -/

def State.setCasc (s : State) (f : Casc → Casc) : State := s.setPxi fun x => { x with casc := f x.casc }

/-- Part ID at a cascade position, and this part's position. -/
def State.cascPart (s : State) (p : Nat) : Nat :=
  s.fld (match p with
    | 0 => F.PXI_CASC_PARTS_PART_0 | 1 => F.PXI_CASC_PARTS_PART_1 | 2 => F.PXI_CASC_PARTS_PART_2
    | 3 => F.PXI_CASC_PARTS_PART_3 | 4 => F.PXI_CASC_PARTS_PART_4 | 5 => F.PXI_CASC_PARTS_PART_5
    | 6 => F.PXI_CASC_PARTS_PART_6 | _ => F.PXI_CASC_PARTS_PART_7)

def State.cascPos (s : State) : Nat := s.fld F.PXI_CASC_CFG_POSITION

/-- Other members of the group. -/
def State.cascOthers (s : State) : List Nat :=
  ((List.range 8).filter fun p => s.fld F.PXI_CASC_CFG_MEMBERS / 2 ^ p % 2 == 1 && p != s.cascPos).map s.cascPart

/-- Send the query of a lookup to every other member. -/
def State.sendQuery (s : State) (ctx : Nat) (m : SvcMsg) : List Nat → State
  | [] => s
  | p :: t => (s.svcFor ctx p m).sendQuery ctx m t

/-- The next match of a cascade cursor known to this part alone: a match below the limit. -/
def Cursor.ownNext (c : Cursor) : Option Match :=
  match c.casc with
  | some (_, lim) => c.list.find? fun m => decide (m.depth < lim)
  | none => none

/-- A cursor is freed before it expires; the members that keep the matches of its query are told (log entry 98). -/
def State.endCursor (s : State) (c : Cursor) : State :=
  let s := s.freeCursor c.slot
  match c.casc with
  | some (req, _) => s.sendQuery c.ctx (.cascQuery req 0 0 0 false []) s.cascOthers
  | none => s

/-- Return a match from a cascade cursor and lower its limit; without one the cursor is freed. -/
def State.cascNext (s : State) (k : CmdId) (c : Cursor) (m : Option Match) : State :=
  match m with
  | none => (s.endCursor c).complete k St.ok
  | some m =>
    (s.setPxi fun x => { x with cursors := updIf x.cursors (fun y => y.slot == c.slot) fun y => { y with
      casc := y.casc.map fun z => (z.1, m.depth) } }).complete k St.ok { result := m.ref.toNat }

/-- The cursor a command of this part names, of whatever age: it passed the handle check. -/
def State.cursorOf? (s : State) (k : Cmd) : Option Cursor :=
  s.pxi.cursors.find? fun c => c.slot + c.gen * 65536 == dHandle k.desc

/-- The cascade cursor a running PXI_NEXT steps. -/
def State.stepCursor? (s : State) (k : Cmd) : Option Cursor :=
  if dOp k.desc = Op.pxiNext then (s.cursorOf? k).filter (·.casc.isSome) else none

def nextBody (k : Cmd) (s : State) : State :=
  match s.cursorOf? k with
  | none => s.complete k.id St.ok
  | some c =>
    if dFlag k.desc 0 then (s.endCursor c).complete k.id St.ok
    else match c.casc with
      | some _ => if s.pxi.casc.stuck then s.cascNext k.id c c.ownNext else s
      | none => match c.list with
        | [] => (s.endCursor c).complete k.id St.ok
        | m :: t =>
          (s.setPxi fun x => { x with cursors := updIf x.cursors (fun y => y.slot == c.slot) fun y => { y with list := t } }).complete
            k.id St.ok { result := m.ref.toNat }

/-- PXI_NEXT. A step on a cascade cursor waits for its round. -/
def execNext (c : CmdId) (s : State) : State := s.runCmd c (fun d => dOp d == Op.pxiNext) (fun _ _ => none) nextBody

/-- CURSOR_EXPIRE. -/
def execCursorEnd (slot : Nat) (s : State) : State :=
  match s.pxi.cursors.find? fun c => c.slot == slot with
  | none => s
  | some c => (s.reach c.until_).freeCursor slot

/-! ## Cascade rounds (R241 to R247) -/

/-- Strobe period T in ns. -/
def State.strobeNs (s : State) : Nat := max 20 (s.fld F.PXI_CASC_CFG_STB_NS)

/-- A claim is arbitrated over three strobes once PXC_CLM has been released for CLM_IDLE; TST_CASC_DROOP lengthens the low
phase of each. -/
def State.claimTime (s : State) : State :=
  s.reach (s.pxi.casc.since + nsToCycles (10 * max 1 (s.fld F.PXI_CASC_CFG_CLM_IDLE) + 3 * (s.strobeNs + s.fld F.TST_CASC_DROOP_STRETCH)))

/-- CASC_CLAIM: the initiator finds PXC_CLM idle and claims it over three strobes; of claims made together the highest position
wins, and only the winner sends its lookup's query (R244). A PXI_NEXT sends none (R245). `rivals`: positions claimed with
at the same time. -/
def execClaim (c : CmdId) (rivals : List Nat) (s : State) : State :=
  match s.cmd? c with
  | none => s
  | some k =>
    if s.pxi.casc.owner.isSome || !s.inCascade || k.st != .running then s
    else
      let s := s.claimTime
      let take (req : Nat) : State := (s.setCasc fun x => { x with
        owner := some s.cascPos, cmd := some c, rdy := false, round := req, await := false, since := s.cycles }).bump F.PXI_CASC_STAT_ROUNDS
      let lost := rivals.any fun p => decide (s.cascPos < p)
      match s.lookup? c with
      | some l =>
        if !l.casc then s
        else if lost then s.bump F.PXI_CASC_STAT_CLAIMS_LOST
        else
          let sdom := (s.ctx? k.ctx).map fun x => x.sdomOf (dF k.desc 18 2)
          let r := (take s.pxi.nextReq).newReq
          (r.1.setLookup c fun x => { x with round := r.2 }).sendQuery k.ctx
            (.cascQuery r.2 (sdom.getD 0) (dF k.desc 16 2) 16777215 (dFlag k.desc 0) l.query) s.cascOthers
      | none => match s.stepCursor? k with
        | some y => if lost then s.bump F.PXI_CASC_STAT_CLAIMS_LOST else take ((y.casc.map (·.1)).getD 0)
        | none => s

/-- CASC_CLAIM_OBSERVED: another part holds the claim; this one asserts PXC_RDY. `query` names the query of a PXI_NEXT round
(log entry 98); 0: that of a lookup, which will arrive. -/
def execObserved (p query : Nat) (s : State) : State :=
  if s.fld F.PXI_CASC_CFG_ENABLE = 0 ∨ s.pxi.casc.owner.isSome then s
  else (s.setCasc fun x => { x with owner := some p, cmd := none, rdy := true, round := query, await := false, since := s.cycles }).bump
    F.PXI_CASC_STAT_ROUNDS

/-- How long a member keeps the matches of a query from now on. -/
def State.keepUntil (s : State) : Nat := s.cycles + max 1 (s.fld F.PXI_CFG_CURSOR_TTL) * cyclesPerUs

/-- CASC_QUERY: a member searches the digests it homes and keeps its matches, one per anchor; a query of depth limit 0 releases
those of an earlier one. -/
def execCascQ (src req sdom mprof limit : Nat) (camOnly : Bool) (items : List (Nat × Nat)) (s : State) : State :=
  if s.fld F.PXI_CASC_CFG_ENABLE = 0 then s
  else
    let s := s.setCasc fun x => { x with
      kept := x.kept.filter fun y => decide (s.cycles < y.until_) && !(y.src == src && y.req == req) }
    if limit = 0 then s
    else
      let r := s.searchAll sdom mprof camOnly (items.filter fun x => s.homeOf x.1 == s.ownPart)
      r.1.setCasc fun x => { x with
        kept := x.kept ++ [⟨src, req, limit + 1, matchesOf r.2.1, s.keepUntil⟩]
        round := if x.round = 0 ∧ (x.owner.map s.cascPart) = some src then req else x.round }

/-- CASC_MEMBER_SEARCH_DONE: the query of the round has been searched and PXC_RDY is released, unless a test holds it (Table
16.14) or the part has not left its low-power state (R497). -/
def execSearchDone (s : State) : State :=
  if s.fld F.TST_CASC_DROOP_HOLD_RDY = 1 ∨ s.asleep ∨ s.pxi.casc.round = 0 then s else s.setCasc fun x => { x with rdy := false }

/-- The matches this member keeps for the query of the running round. -/
def State.roundKept (s : State) : Option Kept :=
  s.pxi.casc.owner.bind fun o => s.pxi.casc.kept.find? fun x =>
    x.src == s.cascPart o && x.req == s.pxi.casc.round && decide (s.cycles < x.until_)

/-- What this part contends with: its deepest match below the limit. -/
def State.contender (s : State) : Option Match :=
  if s.pxi.casc.owner = some s.cascPos then
    match s.pxi.casc.cmd.bind s.cmd? with
    | none => none
    | some k => match s.lookup? k.id with
      | some l => (matchesOf l.hits).head?
      | none => (s.stepCursor? k).bind Cursor.ownNext
  else s.roundKept.bind fun x => x.hits.find? fun m => decide (m.depth < x.lim)

/-- Digests of a lookup that the other members of the group have searched. -/
def State.groupSearched (s : State) (l : Lookup) : Nat := (l.query.filter fun x => s.cascOthers.contains (s.homeOf x.1)).length

/-- The round of this part's command ends: with a match of another member, with its own alone, or cut off (`inc`). -/
def State.cascEnd (s : State) (m : Option Match) (inc : Bool) : State :=
  let t := s.setCasc fun x => { x with owner := none, cmd := none, round := 0, await := false, since := s.cycles }
  match s.pxi.casc.cmd.bind s.cmd? with
  | none => t
  | some k =>
    match s.lookup? k.id with
    | some l =>
      t.lookupDone { l with hits := l.hits ++ m.toList, incomplete := l.incomplete || inc
                            searched := l.searched + if inc then 0 else s.groupSearched l }
    | none => match s.stepCursor? k with
      | some c => t.cascNext k.id c (match m with
          | some m => some m
          | none => c.ownNext)
      | none => t

/-- Value of a contender: depth, then position. -/
def cascLt (a b : Nat × Nat) : Bool := decide (a.1 < b.1) || (a.1 == b.1 && decide (a.2 < b.2))

/-- Has a query of the round neither been delivered nor been given up? -/
def State.queryOut (s : State) : Bool :=
  s.fxt.msgs.any fun m => match m.carry with
    | .svc (.cascQuery r _ _ _ _ _) => r == s.pxi.casc.round
    | _ => false

/-- CASC_ARBITRATION over the members' (depth, position): the largest value wins (R243). A strobe stretched beyond STB_TIMEOUT
ends every round (Table 16.14). -/
def execArb (others : List (Nat × Nat)) (s : State) : State :=
  match s.pxi.casc.owner with
  | none => s
  | some o =>
    if s.pxi.casc.rdy then s
    else
      let own := s.contender
      let mine := own.map fun m => (m.depth, s.cascPos)
      let win := (others ++ mine.toList).foldl (fun a b => if cascLt a b then b else a) (0, 0)
      if o = s.cascPos then
        if s.queryOut then s
        else if max 1 (s.fld F.PXI_CASC_CFG_STB_TIMEOUT) * 1000 < s.fld F.TST_CASC_DROOP_STRETCH then
          (s.bump F.PXI_CASC_STAT_TIMEOUTS).cascEnd none true
        else if win.1 ≠ 0 ∧ mine ≠ some win then s.setCasc fun x => { x with await := true } else s.cascEnd none false
      else
        -- the lookup's own round starts the life of its cursor; a further round lowers the limit
        let t := s.setCasc fun x => { x with
          kept := updIf x.kept (fun y => y.src == s.cascPart o && y.req == x.round) fun y =>
            { y with lim := win.1, until_ := if y.lim > 16777215 then s.keepUntil else y.until_ } }
        match own with
        | some m => if mine = some win then t.svc (s.cascPart o) (.cascResult m.ref) else t
        | none => t

/-- CASC_RESULT: the winner's reference reaches the initiator, which releases PXC_CLM. -/
def execCascR (ref : Word64) (s : State) : State :=
  if s.pxi.casc.await then s.cascEnd (some ⟨refDepth ref.toNat, ref⟩) false else s

/-- CASC_STROBE_TIMEOUT: a member abandons the round and releases its lines. -/
def execStrobe (s : State) : State :=
  match s.pxi.casc.owner with
  | none => s
  | some o => if o = s.cascPos then s
    else
      let s := s.reach (s.pxi.casc.since + max 1 (s.fld F.PXI_CASC_CFG_STB_TIMEOUT) * cyclesPerUs)
      (s.setCasc fun x => { x with rdy := false, round := 0 }).bump F.PXI_CASC_STAT_TIMEOUTS

/-- CASC_RDY_TIMEOUT: the initiator completes with its own matches and INCOMPLETE. -/
def execRdyOut (s : State) : State :=
  if s.pxi.casc.owner = some s.cascPos then
    ((s.reach (s.pxi.casc.since + max 1 (s.fld F.PXI_CASC_CFG_RDY_TIMEOUT) * cyclesPerUs)).bump F.PXI_CASC_STAT_TIMEOUTS).cascEnd none
      true
  else s

/-- A query could not be delivered to a member: its lookup is INCOMPLETE (R246). -/
def State.queryFailed (s : State) (req : Nat) : State :=
  s.setPxi fun x => { x with lookups := updIf x.lookups (fun l => l.round == req) fun l => { l with incomplete := true } }

/-- End, as SCOPE 0 with INCOMPLETE, every lookup that waits for a round. -/
def State.cascGiveUp (s : State) : List Lookup → State
  | [] => s
  | l :: t => (if l.casc then s.lookupDone { l with casc := false, incomplete := true } else s).cascGiveUp t

/-- CASC_STUCK_CLAIM. -/
def execStuck (s : State) : State :=
  match s.pxi.casc.owner with
  | none => s
  | some o => if o = s.cascPos then s
    else
      let s := ((s.reach (s.pxi.casc.since + 1000 * cyclesPerUs)).setFld F.PXI_CASC_STAT_STUCK 1).setCasc fun x => { x with stuck := true }
      (s.bump F.PXI_CASC_STAT_TIMEOUTS).cascGiveUp s.pxi.lookups

/-- CASC_CLAIM_RELEASED by another part. -/
def execReleased (s : State) : State :=
  match s.pxi.casc.owner with
  | none => s
  | some o => if o = s.cascPos then s
    else s.setCasc fun x => { x with owner := none, rdy := false, round := 0, stuck := false, since := s.cycles }

/-! ## PREFIX_PUBLISH (R232 to R236, R382) -/

/-- May a context publish in a sharing domain (R233)? -/
def Ctx.publishes (x : Ctx) (sdom : Nat) : Bool := x.r.publish.contains sdom

def State.checkPublish (s : State) (k : Cmd) : Option Nat :=
  let d := k.desc
  match s.openSeq? k.ctx (dHandle d), s.ctx? k.ctx with
  | some q, some x =>
    let len := ((s.prof? q.mprof).map fun p => tokenBytes p (dF d 16 4 - refDepth (dF d 8 8))).getD 0
    step45 [s.refCheck (dF d 8 8), s.spaceCheck k.ctx (dTokens d) false len,
      if x.publishes q.sdom then none else some St.accessDenied]
  | _, _ => some St.badHandle

/-- Step 6. -/
def State.publishCheck (s : State) (k : Cmd) (q : SeqRec) (p : Profile) : Except Nat Base :=
  let d := k.desc
  let r := dF d 8 8
  let depth := dF d 16 4
  if s.readOnly then .error St.domainReadOnly
  else match (if r = 0 then some (⟨0, 0, q.sdom, q.mprof⟩ : Base) else s.base? k r) with
    | none => .error St.badHandle
    | some b =>
      if b.sdom ≠ q.sdom ∨ b.mprof ≠ q.mprof then .error St.badField
      else if depth ≠ 0 ∧ (depth ≤ b.depth ∨ depth * p.B > q.len) then .error St.badField
      else if k.reads.isEmpty ∧ !s.spaceLong k.ctx (dTokens d) (tokenBytes p (depth - b.depth)) then .error St.lengthLimit
      else .ok b

/-- Does the PTE name a POISONED page? -/
def State.poisonedPage (s : State) (e : Pte) : Bool := ((s.frame? e.pfh).map (·.st)) == some .poisoned

/-- Is a POISONED page in the block? -/
def State.blockPoisoned (s : State) (q : SeqRec) (lpi : Nat) : Bool :=
  q.ptes.any fun e => e.lpi == lpi && s.poisonedPage e

/-- The publishable depth: below the first block with a POISONED page. -/
def State.publishable (s : State) (q : SeqRec) (n : Nat) : Nat :=
  ((List.range n).find? fun i => s.blockPoisoned q i).getD n

def State.pub? (s : State) (c : CmdId) : Option Publish := s.pxi.pubs.find? fun x => x.id == c

def State.setPub (s : State) (c : CmdId) (f : Publish → Publish) : State :=
  s.setPxi fun x => { x with pubs := updIf x.pubs (fun y => y.id == c) f }

/-- The publication ends: live depth and digest list, the anchor freed if nothing was created, and the completion. -/
def State.pubDone (s : State) (u : Publish) (fail : Option Nat) : State :=
  match s.cmd? u.id, s.anchor? u.anchor with
  | some k, some a =>
    let d := k.desc
    let d0 := refDepth (dF d 8 8)
    let deepest := (u.last.map (·.depth)).getD d0
    let s := s.setPxi fun x => { x with pubs := x.pubs.filter fun y => y.id ≠ u.id }
    let s := s.setAnchor a.idx fun x => { x with live := deepest, digests := x.digests.take deepest }
    let s := s.freeIdle (s.pxi.anchors.filter fun y => y.idx == a.idx)
    if deepest ≤ d0 then s.complete u.id (fail.getD St.noSpace)
    else s.complete u.id (if deepest = dF d 16 4 then St.ok else St.okPartial)
      { result := (u.last.map (·.ref.toNat)).getD 0 }
  | _, _ => s.setPxi fun x => { x with pubs := x.pubs.filter fun y => y.id ≠ u.id }

/-- Note one insert that created its entry, or found one. -/
def Publish.note (u : Publish) (own depth : Nat) (ex : Option Word64) : Publish :=
  match ex with
  | some r => { u with last := some ⟨depth, r⟩ }
  | none => { u with last := some ⟨depth, BitVec.ofNat 64 (mkRef u.anchor depth own)⟩, created := u.created + 1 }

/-- Insert the digests still to do, in ascending depth; stops at a batch for another home, or at a failure. The fuel is
the number of digests. -/
def State.pubStep (s : State) (u : Publish) (sdom mprof ctx : Nat) : Nat → State
  | 0 => s.pubDone u none
  | n + 1 =>
    match u.todo with
    | [] => s.pubDone u none
    | (depth, d) :: t =>
      let h := s.homeOf d
      if h = s.ownPart then
        match s.insertEntry d sdom mprof depth u.anchor s.ownPart s.epoch true with
        | (s, .created) => s.pubStep { u.note s.ownPart depth none with todo := t } sdom mprof ctx n
        | (s, .existing m) => s.pubStep { u.note s.ownPart depth (some m.ref) with todo := t } sdom mprof ctx n
        | (s, .full) => s.pubDone u (some St.noSpace)
      else if !s.reachable h then s.pubDone u (some St.peerUnreachable)
      else
        let items := (u.todo.takeWhile fun x => s.homeOf x.2 == h).take 64
        let r := s.newReq
        let u := { u with todo := u.todo.drop items.length, batch := some (r.2, h, items) }
        (r.1.svcFor ctx h (.insert r.2 false (items.map fun x => ⟨x.2, sdom, mprof, x.1, u.anchor, s.ownPart⟩))).setPub u.id
          fun _ => u

/-- Digests first (step 1), then the anchor with the block rows (step 2), then the inserts. -/
def State.pubRun (s : State) (k : Cmd) (q : SeqRec) (p : Profile) (b : Base) (toks : List Byte) : State :=
  let d := k.desc
  let depth := dF d 16 4
  let ds := chain (s.salt q.sdom) q.mprof p.B (depth - b.depth) b.last toks
  let s := (s.hashChain (ds.length * blockCompressions p.B)).1
  let lim := s.publishable q depth
  if lim ≤ b.depth then
    s.completeMet k ((q.ptes.filter fun e => e.lpi == b.depth && s.poisonedPage e).map fun e =>
      ⟨q.handle, e.lpi, e.layer, e.head, e.pfh, false⟩)
  else match s.takeAnchor with
    | none => s.complete k.id St.noSpace
    | some (s, i, g) =>
      let base := ((s.refInfo? k (dF d 8 8)).map (·.digests)).getD []
      let rows := (q.ptes.filter fun e => decide (e.lpi < depth)).map fun e => { e with s := true, g := false, grain := none }
      let a : Anchor := ⟨i, g, q.sdom, q.mprof, q.part, rows, base ++ ds, 0, 0, none, [], s.epoch⟩
      let s := s.setPxi fun x => { x with anchors := x.anchors ++ [a] }
      let s := (s.addRefs rows).setSeq q.idx fun r => { r with
        ptes := updIf r.ptes (fun e => decide (e.lpi < depth) && e.pfh != 0) fun e => { e with s := true } }
      let s := s.persistAll rows
      let todo := ((List.range ds.length).zip ds).map fun x => (b.depth + x.1 + 1, x.2)
      let u : Publish := ⟨k.id, a.handle, depth, todo.filter fun x => decide (x.1 ≤ lim), none, 0, none⟩
      (s.setPxi fun x => { x with pubs := x.pubs ++ [u] }).pubStep u q.sdom q.mprof k.ctx (todo.length + 1)

def publishBody (k : Cmd) (s : State) : State :=
  if (s.pub? k.id).isSome || s.fld F.FXT_DOM_STAT_ADMITTING == 1 then s
  else if s.mustAsk k (dF k.desc 8 8) && !s.readOnly then s.askRef k (dF k.desc 8 8)
  else match s.openSeq? k.ctx (dHandle k.desc) with
    | none => s.complete k.id St.badHandle
    | some q => match s.prof? q.mprof with
      | none => s.complete k.id St.badField
      | some p => match s.publishCheck k q p with
        | .error st => s.complete k.id st
        | .ok b =>
          if dF k.desc 16 4 = 0 then s.complete k.id St.okEmpty
          else match k.reads with
            | [] => s.spaceRead k.id k.ctx (dTokens k.desc) (tokenBytes p (dF k.desc 16 4 - b.depth))
            | t :: _ => s.pubRun k q p b t

/-- PREFIX_PUBLISH. -/
def execPublish (c : CmdId) (s : State) : State :=
  s.runCmd c (fun d => dOp d == Op.prefixPublish) State.startCheck publishBody

/-- Take the statuses of a batch in order; the first failure stops the publication. -/
def Publish.replies (u : Publish) (own : Nat) : List (Nat × Nat) → List Nat → List Word64 → Publish × Option Nat
  | [], _, _ => (u, none)
  | (depth, _) :: t, sts, refs =>
    let st := sts.headD St.peerUnreachable
    let r := refs.headD 0
    if st ≠ St.ok then (u, some st)
    else (u.note own depth (if r = 0 then none else some r)).replies own t (sts.drop 1) (refs.drop 1)

/-- Depths of a batch whose entries were created at the home. -/
def createdOf : List (Nat × Nat) → List Nat → List Word64 → List Nat
  | [], _, _ => []
  | (depth, _) :: t, sts, refs =>
    (if sts.headD St.peerUnreachable = St.ok ∧ refs.headD 0 = 0 then [depth] else []) ++ createdOf t (sts.drop 1) (refs.drop 1)

/-- Depths of a refill whose entries at the home do not name the anchor: refused, or another anchor's. -/
def notNaming (own anchor : Nat) : List Nat → List Nat → List Word64 → List Nat
  | [], _, _ => []
  | n :: t, sts, refs =>
    let r := (refs.headD 0).toNat
    (if sts.headD St.peerUnreachable = St.ok ∧ (r = 0 ∨ refAnchor r = anchor ∧ refApart r = own) then [] else [n]) ++
      notNaming own anchor t (sts.drop 1) (refs.drop 1)

/-- An INSERT of a home refill is answered: entries that do not name the anchor are none of its own (R219). -/
def State.fillEnd (s : State) (req : Nat) (sts : List Nat) (refs : List Word64) : State :=
  match s.pxi.fills.find? fun x => x.1 == req with
  | none => s
  | some (_, h, home, ds) =>
    let s := s.setPxi fun x => { x with fills := x.fills.filter fun y => y.1 ≠ req }
    match s.anchor? h with
    | none => s
    | some a =>
      let out := notNaming s.ownPart h ds sts refs
      (s.setAnchor a.idx fun x => { x with remote := x.remote.filter fun y => !(y.2 == home && out.contains y.1) }).freeIdle [a]

/-- The INSERT `req` is answered, by the home or by the failure of its message. -/
def State.batchEnd (s : State) (req : Nat) (sts : List Nat) (refs : List Word64) : State :=
  match s.pxi.pubs.find? fun u => (u.batch.map (·.1)) == some req with
  | none => s.fillEnd req sts refs
  | some u => match u.batch, s.anchor? u.anchor with
    | some (_, h, items), some a =>
      let r := u.replies s.ownPart items sts refs
      let s := s.setAnchor a.idx fun x => { x with remote := x.remote ++ (createdOf items sts refs).map fun n => (n, h) }
      let u := { r.1 with batch := none }
      match r.2 with
      | some st => s.pubDone u (some st)
      | none =>
        let ctx := ((s.cmd? u.id).map (·.ctx)).getD 0
        s.pubStep u a.sdom a.mprof ctx (u.todo.length + 1)
    | _, _ => s

/-- INSERT_REPLY. -/
def execInsertReply (req : Nat) (sts : List Nat) (refs : List Word64) (s : State) : State := s.batchEnd req sts refs

/-! ## Shared-prefix writes received (R380) -/

/-- Does this part accept shared-prefix writes from `src`? -/
def State.acceptsFrom (s : State) (src : Nat) : Bool :=
  (s.fld F.FXT_DOM_STAT_STATE == 2 || s.fld F.FXT_DOM_STAT_STATE == 3) && s.dom.members.contains src

/-- Inserts at a home: the status of each item, and the reference of an entry already there. Those of a refill install no CAM
row (R210). -/
def State.insertItems (s : State) (fill : Bool) : List InsertItem → State × List Nat × List Word64
  | [] => (s, [], [])
  | i :: t =>
    match s.insertEntry i.digest i.sdom i.mprof i.depth i.anchor i.apart s.epoch (!fill) with
    | (s, .created) => let r := s.insertItems fill t; (r.1, St.ok :: r.2.1, 0 :: r.2.2)
    | (s, .existing m) => let r := s.insertItems fill t; (r.1, St.ok :: r.2.1, m.ref :: r.2.2)
    | (s, .full) => let r := s.insertItems fill t; (r.1, St.noSpace :: r.2.1, 0 :: r.2.2)

/-- INSERT at a home. -/
def execInsert (src req : Nat) (fill : Bool) (items : List InsertItem) (s : State) : State :=
  if s.acceptsFrom src then
    let r := s.insertItems fill items
    r.1.svc src (.insertReply req r.2.1 r.2.2)
  else s.svc src (.insertReply req (items.map fun _ => St.domainReadOnly) (items.map fun _ => 0))

/-- Another part has sent the retirement of an anchor of this part to every member: the homes that can be reached retire its
entries, the others miss it. -/
def State.ownRetired (s : State) (key : RetireKey) : State :=
  let s := s.retiredAt key s.reachable
  match key with
  | .anchor h apart fr => match (if apart = s.ownPart then s.anchor? h else none) with
    | some a => s.missHomes a.idx fr ((s.homesFrom a fr).filter fun x => !s.reachable x)
    | none => s
  | .domain _ _ _ => s

/-- RETIRE at a home. -/
def execRetire (src req : Nat) (key : RetireKey) (s : State) : State :=
  if !s.acceptsFrom src then s.svc src (.retireReply req St.domainReadOnly 0)
  else
    let r := s.retireKey key
    (r.1.ownRetired key).svc src (.retireReply req St.ok r.2)

def State.trimItems (s : State) (src : Nat) : List (Nat × Nat) → State
  | [] => s
  | (a, fr) :: t => ((s.retireKey (.anchor a src fr)).1).trimItems src t

/-- TRIM at a home (R385). -/
def execTrim (src : Nat) (items : List (Nat × Nat)) (s : State) : State :=
  if s.acceptsFrom src then s.trimItems src items else s

/-! ## PREFIX_RETIRE (R237, R238, R383) -/

def rtMode (d : Word512) : Nat := dF d 20 1

def State.checkRetire (s : State) (k : Cmd) : Option Nat :=
  let d := k.desc
  match s.ctx? k.ctx with
  | none => some St.accessDenied
  | some x =>
    if rtMode d = 1 then (if x.publishes (x.sdomOf (dF d 22 2)) then none else some St.accessDenied)
    else if dF d 8 8 = 0 then some St.badHandle
    else step45 [s.refCheck (dF d 8 8), match s.base? k (dF d 8 8) with
      | some b => if x.publishes b.sdom then none else some St.accessDenied
      | none => none]

/-- Send a retirement to parts and wait for their replies. -/
def State.askRetire (s : State) (ctx : Nat) (key : RetireKey) : List Nat → List (Nat × Nat) → State × List (Nat × Nat)
  | [], acc => (s, acc)
  | h :: t, acc =>
    let r := s.newReq
    (r.1.svcFor ctx h (.retire r.2 key)).askRetire ctx key t (acc ++ [(r.2, h)])

def State.setRetire (s : State) (c : CmdId) (f : Retiring → Retiring) : State :=
  s.setPxi fun x => { x with retires := updIf x.retires (fun y => y.id == c) f }

/-- Complete a retirement that waits for nothing more. -/
def State.settleRetire (s : State) (c : CmdId) : State :=
  match s.pxi.retires.find? fun y => y.id == c with
  | none => s
  | some r => if r.wait.isEmpty then
      (s.setPxi fun x => { x with retires := x.retires.filter fun y => y.id ≠ c }).complete c St.ok
        { result := r.count % two32 }
    else s

/-- Begin waiting for the replies of `homes`. -/
def State.retireAt (s : State) (k : Cmd) (key : RetireKey) (homes : List Nat) (count : Nat) : State :=
  let r := s.askRetire k.ctx key homes []
  (r.1.setPxi fun x => { x with
    retires := x.retires.filter (fun y => y.id ≠ k.id) ++ [⟨k.id, key, r.2, count⟩] }).settleRetire k.id

/-- Other members of the current set. -/
def State.otherMembers (s : State) : List Nat := s.dom.members.filter (· ≠ s.ownPart)

/-- Retire by domain (mode 1): nothing unless every member in the blank is in the current set (R383). -/
def State.retireDomain (s : State) (k : Cmd) (x : Ctx) : State :=
  let d := k.desc
  let key := RetireKey.domain (x.sdomOf (dF d 22 2)) (dF d 24 2) (dFlag d 0)
  if s.inDomain ∧ !(s.domMembers.all s.reachable) then s.complete k.id St.peerUnreachable
  else
    let r := s.retireKey key
    r.1.retireAt k key r.1.otherMembers r.2

/-- Retire by reference (mode 0) from depth `fr` on: an anchor of this part, at the homes of its digests; of another part, at
every member, once that part has found the reference live (R383). -/
def State.retireRef (s : State) (k : Cmd) (r fr : Nat) : State :=
  let key := RetireKey.anchor (refAnchor r) (refApart r) fr
  match s.refAnchor? r with
  | some a =>
    let homes := s.homesFrom a fr
    let x := s.retireKey key
    (x.1.missHomes a.idx fr (homes.filter fun h => !s.reachable h)).retireAt k key (homes.filter s.reachable) x.2
  | none =>
    if refApart r = s.ownPart then s.complete k.id St.badHandle
    else
      let x := s.retireKey key
      x.1.retireAt k key x.1.otherMembers x.2

def retireBody (k : Cmd) (s : State) : State :=
  let r := dF k.desc 8 8
  if s.pxi.retires.any (fun y => y.id == k.id) || s.fld F.FXT_DOM_STAT_ADMITTING == 1 then s
  else if s.readOnly then s.complete k.id St.domainReadOnly
  else match s.ctx? k.ctx with
    | none => s
    | some x =>
      if rtMode k.desc = 1 then s.retireDomain k x
      else if s.mustAsk k r then
        if s.reachable (refApart r) then s.askRef k r else s.complete k.id St.peerUnreachable
      else match s.base? k r with
        | none => s.complete k.id St.badHandle
        | some b =>
          if x.publishes b.sdom then s.retireRef k r (max 1 (dF k.desc 16 4)) else s.complete k.id St.accessDenied

/-- PREFIX_RETIRE. -/
def execRetireCmd (c : CmdId) (s : State) : State :=
  s.runCmd c (fun d => dOp d == Op.prefixRetire) State.startCheck retireBody

/-- A reply to a retirement (status, count), or the failure of its message (`none`). A home that refused it has missed it. -/
def State.retireEnd (s : State) (req : Nat) (ans : Option (Nat × Nat)) : State :=
  let ok := (ans.map (·.1)) == some St.ok
  let s := s.scanEnd req ok
  match s.pxi.retires.find? fun r => r.wait.any fun w => w.1 == req with
  | none => s
  | some r =>
    let home := ((r.wait.find? fun w => w.1 == req).map (·.2)).getD 0
    let s := if ok then s.retiredAt r.key (· == home)
      else match r.key with
        | .anchor h _ fr => match s.anchor? h with
          | some a => if (s.keyDepth r.key a).isSome then s.missHomes a.idx fr [home] else s
          | none => s
        | .domain _ _ _ => s
    let n := (ans.map (·.2)).getD 0
    (s.setRetire r.id fun y => { y with wait := y.wait.filter fun w => w.1 ≠ req, count := y.count + n }).settleRetire r.id

/-- RETIRE_REPLY. -/
def execRetireReply (req st n : Nat) (s : State) : State := s.retireEnd req (some (st, n))

/-! ## SEQ_FORK from a reference (R218, R388) -/

def fkRef (d : Word512) : Nat := dF d 8 8

def State.checkFork (s : State) (k : Cmd) : Option Nat :=
  let d := k.desc
  if dHandle d ≠ 0 then s.seqCheck k
  else if fkRef d = 0 then some St.badHandle
  else match s.liveRef (fkRef d), s.ctx? k.ctx with
    | some a, some x => if x.sdomOk a.sdom then none else some St.accessDenied
    | _, _ => if s.remoteRef (fkRef d) then none else some St.badHandle

/-- Fork from an anchor of this part. -/
def State.forkFromAnchor (s : State) (k : Cmd) (x : Ctx) (a : Anchor) : State :=
  let len := dForkLen k.desc
  match s.prof? a.mprof with
  | none => s.complete k.id St.badField
  | some p =>
    match s.forkCheck x a.mprof len (refDepth (fkRef k.desc) * p.B) with
    | some st => s.complete k.id st
    | none =>
      if len = 0 then s.complete k.id St.okEmpty
      else s.forkChild k x p a.sdom len (s.partDefaults x.r.part) a.ptes

/-- Fork from an anchor of another part: what its reference names is checked before any row is requested (R69), then ROWS_REQ
goes to that part (R388). -/
def State.forkRemote (s : State) (k : Cmd) (x : Ctx) : State :=
  let r := fkRef k.desc
  let len := dForkLen k.desc
  match k.refInfo with
  | none => s.askRef k r
  | some i =>
    if !x.sdomOk i.sdom then s.complete k.id St.accessDenied
    else match s.forkCheck x i.mprof len (refDepth r * ((s.prof? i.mprof).map (·.B)).getD 0) with
      | some st => s.complete k.id st
      | none =>
        if len = 0 then s.complete k.id St.okEmpty
        else if s.dom.rows.any fun y => y.id == k.id then s
        else
          let y := s.newReq
          let t := y.1.svcFor k.ctx (refApart r) (.rowsReq y.2 (BitVec.ofNat 64 r) len)
          { t with dom := { t.dom with rows := t.dom.rows ++ [⟨k.id, y.2, false⟩] } }

def forkBody (k : Cmd) (s : State) : State :=
  match s.ctx? k.ctx with
  | none => s
  | some x =>
    if dHandle k.desc ≠ 0 then
      match s.openSeq? k.ctx (dHandle k.desc) with
      | some q => s.forkFromSeq k x q
      | none => s.complete k.id St.badHandle
    else if refApart (fkRef k.desc) ≠ s.ownPart then s.forkRemote k x
    else match s.refAnchor? (fkRef k.desc) with
      | some a =>
        let t := s.forkFromAnchor k x a
        t.freeIdle [a]
      | none => s.complete k.id St.badHandle

/-- SEQ_FORK. -/
def execFork (c : CmdId) (s : State) : State := s.runCmd c (fun d => dOp d == Op.seqFork) State.startCheck forkBody

end Sys2Proof.Machine
end

