-- ==== Sys2Proof/Machine/Domain.lean ====
section
/-! DEFINITION. The domain (chapter 10): lease, elections, heartbeats, admission rounds, registries, home refill, rows and
pages between parts, references and pace notices. -/

namespace Sys2Proof.Machine

def State.setDom (s : State) (f : Dom → Dom) : State := { s with dom := f s.dom }

def State.domState (s : State) : Nat := s.fld F.FXT_DOM_STAT_STATE
def State.isManager (s : State) : Bool := s.inDomain && s.domState == 3
def State.isAttached (s : State) : Bool := s.inDomain && s.domState == 2
/-- JOINING or DETACHED. -/
def State.isApart (s : State) : Bool := s.inDomain && s.readOnly

/-! ## Time constants (R372, R373), in always-on cycles -/

def State.leaseMs (s : State) : Nat := max 1 (s.fld F.FXT_DOM_CFG_LEASE_MS)
def State.skewPpm (s : State) : Nat := min 10000 (s.fld F.FXT_DOM_CFG_SKEW_PPM)
/-- L. -/
def State.leaseL (s : State) : Nat := s.leaseMs * 1000 * cyclesPerUs
/-- L(1 + S), rounded up, and t(1 − S), rounded down. -/
def State.leaseUp (s : State) : Nat := (s.leaseL * (1000000 + s.skewPpm) + 999999) / 1000000
def State.skewDown (s : State) (t : Nat) : Nat := t * (1000000 - s.skewPpm) / 1000000

/-- Voters by the blank, the quorum, and the rank of this part. -/
def State.voters (s : State) : List Nat := ((s.blank.bind (·.domain)).map (·.voters)).getD []
def State.quorum (s : State) : Nat := s.voters.length / 2 + 1
def State.isVoter (s : State) : Bool := s.fld F.FXT_DOM_ROLE_VOTER == 1

/-- Send one message to every part of a list. -/
def State.svcAll (s : State) (m : SvcMsg) : List Nat → State
  | [] => s
  | p :: t => (s.svc p m).svcAll m t

/-- The other members by the blank, and those of the current set. -/
def State.otherParts (s : State) : List Nat := s.domMembers.filter (· ≠ s.ownPart)

/-! ## State changes (R370, R371) -/

/-- Table 10.3. -/
def domDetail (st manager epoch : Nat) : List Byte := leBytes 1 st ++ leBytes 1 manager ++ leBytes 2 0 ++ leBytes 4 epoch ++ leBytes 8 0

def State.domEvents (s : State) (d : List Byte) : List Ctx → State
  | [] => s
  | x :: t =>
    (if x.r.ctx = s.deviceCtx ∨ x.r.nameable ≠ [] then s.postEvent x.r.ctx Ev.domainState x.r.ctx d else s).domEvents d t

/-- Enter a domain state: counted when it is DETACHED, and reported. -/
def State.setDomState (s : State) (st : Nat) : State :=
  let s := (s.setFld F.FXT_DOM_STAT_STATE st).setDom fun d => { d with since := s.cycles }
  let s := if st = 4 then s.bump F.FXT_DOM_EVENTS_DETACHES else s
  s.domEvents (domDetail st (s.fld F.FXT_DOM_STAT_MANAGER) s.epoch) s.ctxs

/-- A new last attached epoch. -/
def State.setEpoch (s : State) (e : Nat) : State :=
  if s.epoch = e then s else (s.setFld F.FXT_DOM_STAT_EPOCH e).bump F.FXT_DOM_EVENTS_EPOCHS

def State.see (s : State) (e : Nat) : State := s.setDom fun d => { d with seen := max d.seen e }

/-- Give up lease or attachment. -/
def State.detach (s : State) : State :=
  ((s.setDom fun d => { d with admission := none }).setFld F.FXT_DOM_STAT_ADMITTING 0).setDomState 4

/-! ## Directory rebuilding (R385, R386) -/

/-- Remove directory entries without touching anchors: the home refill brings back what live anchors still cover. -/
def State.dropEntries (s : State) (bad : DirEnt → Bool) : State :=
  let gone := s.pxi.dir.filter bad
  (s.setPxi fun x => { x with
    dir := x.dir.filter (fun e => !bad e)
    cam := x.cam.filter (fun r => !(gone.any fun e => e.cam == some (r.die, r.row))) }).bump F.PXI_RETIRE_STAT_RETIRED gone.length

/-- Digests of an anchor up to its live depth, as (depth, digest). -/
def Anchor.liveDigests (a : Anchor) : List (Nat × Nat) :=
  ((List.range a.digests.length).map (· + 1)).zip a.digests |>.filter fun x => decide (x.1 ≤ a.live) && x.2 != 0

/-- Insert digests whose home is this part. -/
def State.reinsert (s : State) (a : Anchor) : List (Nat × Nat) → State
  | [] => s
  | (n, d) :: t => ((s.insertEntry d a.sdom a.mprof n a.handle s.ownPart a.epoch false).1).reinsert a t

/-- Send the INSERTs of one anchor to one home, in batches of 64. -/
def State.sendInserts (s : State) (a : Anchor) (home : Nat) : List (List (Nat × Nat)) → State
  | [] => s
  | g :: t =>
    let r := s.newReq
    ((r.1.svc home (.insert r.2 true (g.map fun x => ⟨x.2, a.sdom, a.mprof, x.1, a.handle, s.ownPart⟩))).setPxi fun x =>
      { x with fills := x.fills ++ [(r.2, a.handle, home, g.map (·.1))] }).sendInserts a home t

/-- Refill one home from one anchor. -/
def State.refillHome (s : State) (a : Anchor) (home : Nat) (ds : List (Nat × Nat)) : State :=
  if home = s.ownPart then s.reinsert a ds
  else if ds.isEmpty ∨ !s.reachable home then s
  else
    let s := s.setAnchor a.idx fun x => { x with
      remote := x.remote ++ (ds.map fun y => (y.1, home)).filter fun y => !x.remote.contains y }
    s.sendInserts a home (groups64 (ds.length + 1) ds)

/-- Refill every home that satisfies `p` from one anchor's digests of the shards that satisfy `q`. -/
def State.refillHomes (s : State) (a : Anchor) (q : Nat → Bool) : List Nat → State
  | [] => s
  | h :: t => (s.refillHome a h (a.liveDigests.filter fun x => s.homeOf x.2 == h && q (shardOf x.2))).refillHomes a q t

/-- Refill homes from every anchor; the entries carry the epoch of now. -/
def State.refillAll (s : State) (q : Nat → Bool) (homes : List Nat) : List Anchor → State
  | [] => s
  | a :: t =>
    let a := { a with epoch := s.epoch }
    ((s.setAnchor a.idx fun x => { x with epoch := s.epoch }).refillHomes a q homes).refillAll q homes t

/-- Pending trims are sent to every home of the anchor that can be reached. -/
def State.sendTrims (s : State) : List Anchor → State
  | [] => s
  | a :: t =>
    (match a.trim with
      | none => s
      | some fr =>
        ((s.svcAll (.trim [(a.handle, fr)]) ((s.homesFrom a fr).filter s.reachable)).setAnchor a.idx fun x => { x with
          trim := none, remote := x.remote.filter fun y => !(decide (fr ≤ y.1) && s.reachable y.2) })).sendTrims t

/-- A part is admitted at epoch `e`: it drops what it homes of older epochs, sends its pending trims, and sends the digests of
its anchors to their homes (R385, R386). -/
def State.rebuild (s : State) (e : Nat) : State :=
  let s := s.dropEntries fun x => decide (x.epoch < e)
  let s := s.sendTrims s.pxi.anchors
  let s := s.refillAll (fun _ => true) (dedup ((List.range 4096).map s.shardHome)) s.pxi.anchors
  s.freeIdle s.pxi.anchors

/-! ## Admission rounds (R376) -/

/-- The manager starts a round at epoch `e` over the parts of `ps`; `first`: it is itself admitted by it. -/
def State.startRound (s : State) (e : Nat) (ps : List Nat) (first : Bool := false) : State :=
  let s := (s.setDom fun d => { d with admission := some ⟨e, s.cycles, [s.ownPart], [], first⟩ }).setFld F.FXT_DOM_STAT_ADMITTING 1
  (s.see e).svcAll (.admitMsg e ps) (ps.filter (· ≠ s.ownPart))

/-- The epoch after another. Epochs have 32 bits; the last one has no successor (log entry 99). -/
def epochAfter (e : Nat) : Nat := min (two32 - 1) (e + 1)

/-- The epoch of a round: above the current one and every epoch reported by its JOINs. -/
def State.nextEpoch (s : State) : Nat := epochAfter ((s.dom.joins.map (·.2)).foldl max s.epoch)

/-- A round over the members in `keep` and the parts that ask to join. -/
def State.roundFor (s : State) (keep : List Nat) : State :=
  let e := s.nextEpoch
  let ps := dedup (keep ++ s.dom.joins.map (·.1))
  (s.setDom fun d => { d with joins := [] }).startRound e ps

/-- Registry entry as its 16 bytes. -/
def State.regEntries (s : State) : List (Nat × Word128) := s.dom.registry.map fun x => (x.1, BitVec.ofNat 128 x.2)

/-- The current shard map. -/
def State.shardMap (s : State) : List Nat := (List.range 4096).map s.shardHome

/-- A newly admitted member is given the registries (log entry 42), and its homes are refilled. -/
def State.welcome (s : State) : List Nat → State
  | [] => s
  | p :: t =>
    let s := if s.dom.mapVer = 0 then s else s.svc p (.mapUpdate s.dom.mapVer s.shardMap)
    let s := s.svc p (.regUpdate s.fxt.eps s.regEntries)
    let s := (s.setFld F.FXT_DOM_STAT_REFILL 1).svcAll (.refill p) (s.otherMembers)
    (s.refillAll (fun _ => true) [p] s.pxi.anchors).welcome t

/-- The manager is admitted by the first round it runs: every member refills what it homes. -/
def State.admitSelf (s : State) (e : Nat) : State :=
  (((s.rebuild e).setFld F.FXT_DOM_STAT_REFILL 1).svcAll (.refill s.ownPart) s.otherMembers)

/-- ADMIT_WINDOW_END: the parts that confirmed are the member set of the new epoch. -/
def execRoundEnd (s : State) : State :=
  match s.dom.admission with
  | none => s
  | some a =>
    if !s.isManager then s
    else
      let s := s.reach (a.start + max 1 (s.fld F.FXT_DOM_CFG_ADMIT_WINDOW) * cyclesPerUs)
      let old := s.dom.members
      let s := s.setDom fun d => { d with
        admission := none, members := a.confirmed, joins := d.joins.filter fun x => !a.confirmed.contains x.1
        acked := a.confirmed.map fun p => (p, s.cycles) }
      let s := (s.setFld F.FXT_DOM_STAT_ADMITTING 0).setEpoch a.epoch
      let s := if a.first then s.admitSelf a.epoch else s
      let s := s.welcome (a.confirmed.filter fun p => !old.contains p)
      if s.dom.joins.isEmpty ∧ a.lost.isEmpty then s else s.roundFor s.dom.members

/-- ADMIT at a member: it confirms an epoch above its own. -/
def execAdmit (src e : Nat) (s : State) : State :=
  if !s.inDomain ∨ s.isManager ∨ e ≤ s.epoch then s
  else
    let s := (s.see e).setDom fun d => { d with admission := some ⟨e, s.cycles, [], [], false⟩ }
    (s.setFld F.FXT_DOM_STAT_ADMITTING 1).svc src (.admitReply e)

/-- ADMIT_REPLY. -/
def execAdmitReply (src e : Nat) (s : State) : State :=
  match s.dom.admission with
  | none => s
  | some a => if s.isManager ∧ a.epoch = e ∧ !a.confirmed.contains src ∧ !a.lost.contains src then
      s.setDom fun d => { d with admission := some { a with confirmed := a.confirmed ++ [src] } }
    else s

/-- JOIN at the manager: the part joins the next round, which starts unless one is running. -/
def execJoin (src last highest : Nat) (s : State) : State :=
  if !s.isManager ∨ !s.domMembers.contains src then s
  else
    let s := (s.see (max last highest)).setDom fun d => { d with
      joins := d.joins.filter (fun x => x.1 ≠ src) ++ [(src, max last highest)] }
    match s.dom.admission with
    | some a => if a.confirmed.contains src then s.setDom fun d => { d with joins := d.joins.filter fun x => x.1 ≠ src } else s
    | none => s.roundFor s.dom.members

/-- The manager declares a member lost (R377): a round over the others; one that is running leaves the member out, and is
followed by another. -/
def State.declareLost (s : State) (p : Nat) : State :=
  if !s.isManager ∨ p = s.ownPart then s
  else match s.dom.admission with
    | none => if s.dom.members.contains p then s.roundFor (s.dom.members.filter (· ≠ p)) else s
    | some a =>
      if !(a.confirmed.contains p || s.dom.members.contains p) then s
      else s.setDom fun d => { d with admission := some { a with
        confirmed := a.confirmed.filter (· ≠ p), lost := a.lost.filter (· ≠ p) ++ [p] } }

/-- MEMBER_LOST: by silence or by another member's report. -/
def execMemberLost (p : Nat) (s : State) : State := s.declareLost p

/-- This part reports a home to the manager (R384), or is the manager itself. -/
def State.reportLost (s : State) (p : Nat) : State :=
  if s.isManager then s.declareLost p
  else if s.inDomain then s.svc (s.fld F.FXT_DOM_STAT_MANAGER) (.lost p) else s

/-! ## Votes (R373 to R375) -/

/-- Highest epoch granted at all, and to candidates other than `c`. -/
def State.highestGranted (s : State) : Nat := (s.dom.grants.map (·.2)).foldl max 0
def State.grantedOther (s : State) (c : Nat) : Nat := ((s.dom.grants.filter fun g => g.1 != c).map (·.2)).foldl max 0

/-- Does a promise to another candidate, or the hold after a reset, bind this voter? -/
def State.boundTo (s : State) (c : Nat) : Bool :=
  decide (s.cycles < s.dom.holdUntil) ||
  match s.dom.promise with
  | none => false
  | some p => p.cand != c && decide (s.cycles < p.until_)

/-- Give a promise to candidate `c` at epoch `e`. -/
def State.promise (s : State) (c e : Nat) : State :=
  s.setDom fun d => { d with
    promise := some ⟨c, s.cycles + s.leaseUp⟩
    grants := spSet 0 d.grants c (max e (spGet 0 d.grants c)) }

/-- This part is elected at epoch `e` (R374 step 5). -/
def State.elected (s : State) (el : Election) : State :=
  let first := s.isApart
  let s := s.setDom fun d => { d with
    election := none, leaseEnd := el.sentAt + s.skewDown s.leaseL, hbAt := s.cycles, hbAcks := []
    members := [s.ownPart], acked := [], joins := [] }
  let s := ((s.setFld F.FXT_DOM_STAT_MANAGER s.ownPart).bump F.FXT_DOM_EVENTS_ELECTIONS).setEpoch el.epoch
  (s.setDomState 3).startRound el.epoch s.domMembers first

/-- A grant reaches this candidate. -/
def State.gotGrant (s : State) (src e highest : Nat) : State :=
  match s.dom.election with
  | none => s
  | some el =>
    let el := { el with highest := max el.highest highest
                        grants := if e = el.epoch ∧ !el.grants.contains src then el.grants ++ [src] else el.grants }
    let s := (s.see highest).setDom fun d => { d with election := some el }
    if el.grants.length ≥ s.quorum ∧ !s.isManager then s.elected el else s

/-- A voter takes a request: it grants it, holds it while bound, or lets it go (R374). -/
def State.vote (s : State) (src e rank : Nat) : State :=
  if !s.isVoter then s
  else if s.boundTo src then
    s.setDom fun d => { d with held := d.held.filter (fun h => h.1 ≠ src) ++ [(src, e, rank)] }
  else if e ≤ s.grantedOther src then s
  else
    let s := s.promise src e
    if src = s.ownPart then s.gotGrant src e s.highestGranted else s.svc src (.leaseGrant e s.highestGranted)

/-- LEASE_REQ. -/
def execLeaseReq (src e rank : Nat) (s : State) : State := if s.inDomain then (s.see e).vote src e rank else s

/-- LEASE_GRANT. -/
def execLeaseGrant (src e highest : Nat) (s : State) : State := s.gotGrant src e highest

/-- Requests in the order of rank, then of part. -/
def byRank (l : List (Nat × Nat × Nat)) : List (Nat × Nat × Nat) :=
  sortBy (fun a b : Nat × Nat × Nat => decide (a.2.2 < b.2.2) || (a.2.2 == b.2.2 && decide (a.1 < b.1))) l

def State.voteEach (s : State) : List (Nat × Nat × Nat) → State
  | [] => s
  | h :: t => (s.vote h.1 h.2.1 h.2.2).voteEach t

/-- Of the held requests the one of lowest rank that may be granted is granted, which binds the voter: those after it are held on. -/
def State.grantHeld (s : State) : State := (s.setDom fun d => { d with held := [] }).voteEach (byRank s.dom.held)

/-- VOTER_PROMISE_LAPSE. -/
def execPromiseLapse (s : State) : State :=
  match s.dom.promise with
  | none => s
  | some p => ((s.reach p.until_).setDom fun d => { d with promise := none }).grantHeld

/-- VOTER_HOLD_END (R375). -/
def execHoldEnd (s : State) : State :=
  if s.dom.holdUntil = 0 then s
  else ((s.reach s.dom.holdUntil).setDom fun d => { d with holdUntil := 0 }).grantHeld

/-- Ask for the lease at epoch `e`. -/
def State.askLease (s : State) (e : Nat) : State :=
  let rank := s.fld F.FXT_DOM_ROLE_RANK
  let s := (s.setDom fun d => { d with election := some ⟨e, s.cycles, [], e⟩ }).see e
  (s.svcAll (.leaseReq e rank) (s.voters.filter (· ≠ s.ownPart))).vote s.ownPart e rank

/-- ELECTION_START: rank × ELECT_GAP µs after the part became unattached. -/
def execElect (s : State) : State :=
  if !s.isApart ∨ s.fld F.FXT_DOM_ROLE_CANDIDATE = 0 ∨ s.dom.election.isSome then s
  else
    let w := s.fld F.FXT_DOM_ROLE_RANK * max 1 (s.fld F.FXT_DOM_CFG_ELECT_GAP) * cyclesPerUs
    (s.reach (s.dom.since + w)).askLease (epochAfter (max s.dom.seen s.epoch))

/-- ELECTION_RETRY. -/
def execElectAgain (s : State) : State :=
  match s.dom.election with
  | none => s
  | some el => if s.isApart then (s.reach (el.sentAt + s.leaseUp)).askLease (epochAfter el.highest)
    else s.setDom fun d => { d with election := none }

/-! ## Heartbeats (R373, R378) -/

/-- A voter's own renewal, or that of a member: none is given to a manager it is bound against. -/
def State.renew (s : State) (mgr e : Nat) : State × Bool :=
  if s.boundTo mgr ∨ e ≤ s.grantedOther mgr then (s, false) else (s.promise mgr e, true)

/-- A quorum of voters has answered the last heartbeat: the lease runs from its sending. -/
def State.extendLease (s : State) : State :=
  if s.dom.hbAcks.length ≥ s.quorum then s.setDom fun d => { d with leaseEnd := d.hbAt + s.skewDown s.leaseL } else s

/-- HEARTBEAT_TIMER. -/
def execBeat (s : State) : State :=
  if !s.isManager then s
  else
    let s := s.reach (s.dom.hbAt + s.leaseL / 4)
    if s.dom.leaseEnd ≤ s.cycles then s
    else
      let r := if s.isVoter then s.renew s.ownPart s.epoch else (s, false)
      let s := r.1.setDom fun d => { d with hbAt := s.cycles, hbAcks := if r.2 then [s.ownPart] else [] }
      (s.svcAll (.heartbeat s.epoch ((s.dom.leaseEnd - s.cycles) / cyclesPerUs) s.dom.mapVer s.dom.members)
        s.otherParts).extendLease

/-- Attach under a heartbeat (Table 10.2), and rebuild what this part homes (R385, R386). -/
def State.attach (s : State) (src e until_ : Nat) (members : List Nat) : State :=
  let s := s.setDom fun d => { d with members := members, attachedUntil := until_, admission := none }
  let s := ((s.setFld F.FXT_DOM_STAT_MANAGER src).setFld F.FXT_DOM_STAT_ADMITTING 0).setEpoch e
  (s.setDomState 2).rebuild e

/-- A round this part confirmed has ended when a heartbeat of its epoch, or a later one, comes. -/
def State.roundOver (s : State) (e : Nat) : State :=
  if s.dom.admission.any fun a => decide (e < a.epoch) then s
  else (s.setDom fun d => { d with admission := none }).setFld F.FXT_DOM_STAT_ADMITTING 0

/-- HEARTBEAT: an attached worker renews or leaves, a part outside attaches when named and else asks to join. -/
def execHeartbeat (src e rUs _mapVer : Nat) (members : List Nat) (s : State) : State :=
  let until_ := s.cycles + s.skewDown (rUs * cyclesPerUs)
  let reply (s : State) : State :=
    if s.isVoter then
      let r := s.renew src e
      if r.2 then r.1.svc src (.hbAck e) else r.1
    else s.svc src (.hbAck e)
  if !s.inDomain ∨ s.isManager then s
  else
    let s := s.see e
    if s.isAttached then
      if e < s.epoch then s
      else if !members.contains s.ownPart then s.detach
      else
        let s := (s.setDom fun d => { d with members := members, attachedUntil := until_ }).roundOver e
        reply ((s.setFld F.FXT_DOM_STAT_MANAGER src).setEpoch e)
    else if e ≤ s.epoch then s
    else if members.contains s.ownPart then reply (s.attach src e until_ members)
    else (s.roundOver e).svc src (.join s.epoch s.highestGranted)

/-- HB_ACK at the manager. -/
def execHbAck (src e : Nat) (s : State) : State :=
  if !s.isManager ∨ e ≠ s.epoch then s
  else
    let s := s.setDom fun d => { d with
      acked := spSet 0 d.acked src s.cycles
      hbAcks := if s.voters.contains src && !d.hbAcks.contains src then d.hbAcks ++ [src] else d.hbAcks }
    s.extendLease

/-- MANAGER_LEASE_END. -/
def execLeaseOver (s : State) : State := if s.isManager then (s.reach s.dom.leaseEnd).detach else s

/-- ATTACHMENT_EXPIRE. -/
def execAttachEnd (s : State) : State := if s.isAttached then (s.reach s.dom.attachedUntil).detach else s

/-! ## Registries (R379) -/

/-- Write shard-map entries; the numbers that change. -/
def State.putMap (s : State) : List (Nat × Nat) → State × List Nat
  | [] => (s, [])
  | (n, h) :: t =>
    let c := s.shardHome n ≠ h
    let r := (s.setShardHome n h).putMap t
    (r.1, if c then n :: r.2 else r.2)

/-- Homes have changed for the shards of `ch`: a new home drops what it holds of them, and every part sends the digests
of its anchors to the new homes (R386). -/
def State.homesMoved (s : State) (ch : List Nat) : State :=
  if ch.isEmpty then s
  else
    let s := (s.setFld F.FXT_DOM_STAT_REFILL 1).dropEntries fun e =>
      ch.contains (shardOf e.digest) && s.homeOf e.digest == s.ownPart
    s.refillAll (fun n => ch.contains n) (dedup (ch.map s.shardHome)) s.pxi.anchors

/-- SHARD_MAP_WRITE of register `n`, entries 4n to 4n + 3. -/
def execMapWrite (f n : Nat) (v : Word32) (s : State) : State :=
  if f ≠ 0 ∨ n ≥ 1024 ∨ !s.isManager then s
  else
    let r := s.putMap ((List.range 4).map fun k => (4 * n + k, v.toNat / 256 ^ k % 256))
    if r.2.isEmpty then s
    else
      let s := r.1.setDom fun d => { d with mapVer := d.mapVer + 1 }
      (s.svcAll (.mapUpdate s.dom.mapVer s.shardMap) s.otherMembers).homesMoved r.2

/-- MAP_UPDATE: versions are applied in order. -/
def execMapUpdate (src ver : Nat) (map : List Nat) (s : State) : State :=
  if !s.inDomain ∨ s.isManager ∨ src = s.ownPart ∨ ver ≤ s.dom.mapVer then s
  else
    let r := s.putMap ((List.range map.length).zip map)
    (r.1.setDom fun d => { d with mapVer := ver }).homesMoved r.2

def State.putEps (s : State) : List (Nat × Word512) → State
  | [] => s
  | (n, e) :: t => ({ s with fxt := { s.fxt with eps := spSet 0 s.fxt.eps n e } }).putEps t

def State.putRegs (s : State) : List (Nat × Word128) → State
  | [] => s
  | (n, e) :: t => (s.setDom fun d => { d with registry := spSet 0 d.registry n e.toNat }).putRegs t

/-- REG_UPDATE. -/
def execRegUpdate (src : Nat) (eps : List (Nat × Word512)) (regs : List (Nat × Word128)) (s : State) : State :=
  if !s.inDomain ∨ s.isManager ∨ src = s.ownPart then s else (s.putEps eps).putRegs regs

/-- The endpoint entry in FXT_EP_DATA. -/
def State.epData (s : State) : Word512 :=
  BitVec.ofNat 512 (((List.range 8).map fun i => s.fld F.FXT_EP_DATA_BYTES i * 2 ^ (64 * i)).foldl (· + ·) 0)

/-- EP_WRITE: the manager distributes the entry. -/
def execEpStore (f : Nat) (s : State) : State :=
  if f ≠ 0 then s
  else
    let n := s.fld F.FXT_EP_SEL_NODE
    let e := s.epData
    let s := s.putEps [(n, e)]
    if s.isManager then s.svcAll (.regUpdate [(n, e)] []) s.otherMembers else s

def State.loadFields (s : State) (f : Fld) (v : Nat) : List Nat → State
  | [] => s
  | i :: t => (s.setFld f (v / 2 ^ (64 * i) % 2 ^ 64) i).loadFields f v t

/-- EP_LOAD. -/
def execEpFetch (f : Nat) (s : State) : State :=
  if f ≠ 0 then s else s.loadFields F.FXT_EP_DATA_BYTES (s.ep (s.fld F.FXT_EP_SEL_NODE)).toNat (List.range 8)

/-- DOM_REG_WRITE: on the manager only. -/
def execRegStore (f : Nat) (s : State) : State :=
  if f ≠ 0 ∨ !s.isManager then s
  else
    let n := s.fld F.FXT_DOM_REG_SEL_ENTRY
    let e := s.fld F.FXT_DOM_REG_DATA_BYTES 0 + s.fld F.FXT_DOM_REG_DATA_BYTES 1 * 2 ^ 64
    (s.putRegs [(n, BitVec.ofNat 128 e)]).svcAll (.regUpdate [] [(n, BitVec.ofNat 128 e)]) s.otherMembers

/-- DOM_REG_LOAD. -/
def execRegFetch (f : Nat) (s : State) : State :=
  if f ≠ 0 then s
  else s.loadFields F.FXT_DOM_REG_DATA_BYTES (spGet 0 s.dom.registry (s.fld F.FXT_DOM_REG_SEL_ENTRY)) [0, 1]

/-- REFILL at a member: INSERTs for the named part, and a reply. -/
def execRefillReq (src part : Nat) (s : State) : State :=
  if !s.inDomain then s
  else ((s.setFld F.FXT_DOM_STAT_REFILL 1).refillAll (fun _ => true) [part] s.pxi.anchors).svc src (.refillReply part)

/-- HOME_REFILL_DONE. -/
def execRefillDone (s : State) : State := s.setFld F.FXT_DOM_STAT_REFILL 0

/-! ## Rows between parts (R388) -/

/-- ROWS_REQ at the anchor part. A request of FORK_LEN 0 asks what the reference names: it is answered with the digests and pins
nothing (log entry 41). -/
def execRowsReq (src req : Nat) (ref : Word64) (forkLen : Nat) (s : State) : State :=
  match s.liveRef ref.toNat with
  | none => s.svc src (.rowsResp req St.badHandle 0 0 [] [])
  | some a =>
    if forkLen = 0 then s.svc src (.rowsResp req St.ok a.mprof a.sdom [] (a.digests.take (refDepth ref.toNat)))
    else
      let n := ((s.prof? a.mprof).map fun p => p.blocks forkLen).getD 0
      let rows := (a.ptes.filter fun e => decide (e.lpi < n)).map fun e =>
        (⟨e.lpi, e.layer, e.head, e.pfh, e.ver, ((s.frame? e.pfh).map (·.st)).getD .dropped⟩ : RowPage)
      ((s.setAnchor a.idx fun x => { x with forks := x.forks + 1 }).setDom fun d => { d with
        rowPins := d.rowPins ++ [(src, req, a.handle)] }).svc src (.rowsResp req St.ok a.mprof a.sdom rows [])

/-- The proxy of a peer's frame. -/
def State.proxyFor (s : State) (peer pfh : Nat) : Option Frame := s.tier.frames.find? fun f => f.peer == some (peer, pfh)

/-- Make proxies for the frames of the rows that have none; the peer frames newly named. -/
def State.makeProxies (s : State) (peer part sdom mprof tiles : Nat) : List RowPage → State × List Nat
  | [] => (s, [])
  | r :: t =>
    if r.pfh = 0 then s.makeProxies peer part sdom mprof tiles t
    else match s.proxyFor peer r.pfh with
      | some f => (s.setFrame f.pfh fun x => { x with st := r.state }).makeProxies peer part sdom mprof tiles t
      | none =>
        let f := emptyFrame (s.newPfh proxyTier) part sdom mprof tiles r.version s.useStamp (s.partDefaults part)
        let x := (s.addFrame { f with peer := some (peer, r.pfh), st := r.state }).makeProxies peer part sdom mprof tiles t
        (x.1, r.pfh :: x.2)

/-- Frames of the rows that have no proxy yet. -/
def State.newProxies (s : State) (peer : Nat) (rows : List RowPage) : Nat :=
  (dedup ((rows.filter fun y => y.pfh != 0 && (s.proxyFor peer y.pfh).isNone).map (·.pfh))).length

/-- The rows as local PTEs. -/
def State.rowPtes (s : State) (peer : Nat) (rows : List RowPage) : List Pte :=
  rows.map fun r =>
    ⟨r.lpi, r.layer, r.head, if r.pfh = 0 then 0 else ((s.proxyFor peer r.pfh).map (·.pfh)).getD 0, r.version, true, false, none⟩

def State.dropRows_ (s : State) (req : Nat) : State := s.setDom fun d => { d with rows := d.rows.filter fun r => r.req ≠ req }

/-- The fork ends without a child: APART unpins its anchor. -/
def State.forkFails (s : State) (src req : Nat) (k : Cmd) (st : Nat) : State :=
  (s.svcFor k.ctx src (.rowsDone req (refAnchor (dF k.desc 8 8)) [])).complete k.id st

/-- The rows of a fork have come: the checks of R69 and R218 once more, proxies, ROWS_DONE, the child. -/
def State.forkRows (s : State) (src req : Nat) (k : Cmd) (x : Ctx) (mprof sdom : Nat) (rows : List RowPage) : State :=
  let len := dForkLen k.desc
  if !x.sdomOk sdom then s.forkFails src req k St.accessDenied
  else match s.prof? mprof with
    | none => s.forkFails src req k St.badField
    | some p =>
      match s.forkCheck x mprof len (refDepth (dF k.desc 8 8) * p.B) with
      | some st => s.forkFails src req k st
      | none =>
        if !s.framesFit (s.newProxies src rows) then s.forkFails src req k St.noSpace
        else
          let m := s.makeProxies src x.r.part sdom mprof p.tiles rows
          let s := m.1.svcFor k.ctx src (.rowsDone req (refAnchor (dF k.desc 8 8)) m.2)
          s.forkChild k x p sdom len (s.partDefaults x.r.part) (s.rowPtes src rows)

/-- ROWS_RESP at the asking part: the rows of a fork, or what a reference names. -/
def execRowsResp (src req status mprof sdom : Nat) (rows : List RowPage) (digests : List Nat) (s : State) : State :=
  match s.dom.rows.find? fun r => r.req == req with
  | none => if status = St.ok ∧ digests.isEmpty then s.svc src (.rowsDone req 0 []) else s
  | some r =>
    let s := s.dropRows_ req
    match s.cmd? r.id with
    | none => if status = St.ok ∧ !r.ask then s.svc src (.rowsDone req 0 []) else s
    | some k => match s.ctx? k.ctx with
      | none => s
      | some x =>
        if status ≠ St.ok then s.finish k.id status
        else if r.ask then s.setCmd k.id fun c => { c with refInfo := some ⟨sdom, mprof, digests⟩ }
        else s.forkRows src req k x mprof sdom rows

/-- One more reference of a peer on each listed frame. -/
def State.takeRemote (s : State) (peer : Nat) : List Nat → State
  | [] => s
  | p :: t =>
    ((s.setFrame p fun f => { f with remote := spSet 0 f.remote peer (spGet 0 f.remote peer + 1) }).addRef p).takeRemote peer t

/-- The anchor pinned for a fork is unpinned. -/
def State.unpinRows (s : State) (src req : Nat) : State :=
  match s.dom.rowPins.find? fun r => r.1 == src && r.2.1 == req with
  | none => s
  | some r =>
    let s := s.setDom fun d => { d with rowPins := d.rowPins.erase r }
    match s.anchor? r.2.2 with
    | none => s
    | some a =>
      let s := s.setAnchor a.idx fun x => { x with forks := x.forks - 1 }
      s.freeIdle [a]

/-- ROWS_DONE at the anchor part. -/
def execRowsDone (src req : Nat) (frames : List Nat) (s : State) : State :=
  if s.dom.rowPins.any fun r => r.1 == src && r.2.1 == req then (s.takeRemote src frames).unpinRows src req else s

/-! ## The body of PAGE_DATA (R392, R447, R448) -/

/-- The device set of a sealed partition, and its key. -/
def State.sealSet (s : State) (part : Nat) : Option Nat := (s.part? part).bind (·.r.sealSet)
def State.kset? (s : State) (set : Nat) : Option Nat := (s.sec.ksets.find? fun k => k.1 == set).map (·.2)
def State.holdsSet (s : State) (set : Nat) : Bool := (s.kset? set).isSome

/-- Bytes 0 to 23 of the body (Table 10.7). -/
def bodyHead (b : PageBody) : List Byte :=
  leBytes 5 b.spfh ++ leBytes 1 b.tiles ++ leBytes 2 b.version ++ leBytes 2 b.mprof ++
    leBytes 1 ((if b.isSealed then 1 else 0) + if b.isExport then 2 else 0) ++ leBytes 1 0 ++ leBytes 4 b.ldec ++
    leBytes 4 b.set ++ leBytes 4 0

/-- The CHECK list as bytes. -/
def bodyChecks (b : PageBody) : List Byte := b.checks.flatMap (leBytes 4)

/-- The 96-bit IV of a sealed body that part `src` sends (R447). -/
def bodyIv (b : PageBody) (src : Nat) : List Byte := leBytes 1 src ++ leBytes 4 b.inc ++ leBytes 7 b.sealNo

/-- The key of sealed bodies: KDF(K_set, "seal", SET). -/
def State.sealKey (s : State) (set : Nat) : List Byte := kdf256 ((s.kset? set).getD 0) "seal" (leBytes 4 set)

/-- CHECK of every tile of a decoded page of `ldec` bytes, seeded with a handle and version (Table 8.6). -/
def pageChecks (pfh ver tiles ldec : Nat) (data : List Byte) : List Nat :=
  (List.range tiles).map fun k => tileCheck pfh k ver (bytesAt data (1024 * k) (liveOf ldec k))

/-- PAGE_DATA of the decoded bytes `data` of a page, sent by this part under the handle and version that `f` bears. -/
def State.pageBody (s : State) (f : Frame) (ldec : Nat) (data : List Byte) (part : Nat) (isExport : Bool) : PageBody :=
  let set := s.sealSet part
  let b : PageBody :=
    { spfh := f.pfh, tiles := f.tiles, version := f.ver, mprof := f.mprof, isSealed := set.isSome, isExport := isExport
      ldec := ldec, set := set.getD 0, checks := pageChecks f.pfh f.ver f.tiles ldec data, data := data, spart := part
      inc := s.fld F.FXT_NODE_INC, sealNo := s.sec.sealCtr }
  if b.isSealed then
    let key := s.sealKey b.set
    let c := gcmCrypt key (bodyIv b s.ownPart) data
    { b with data := c ++ gcmTag key (bodyIv b s.ownPart) (bodyHead b ++ bodyChecks b) c }
  else b

/-- Send PAGE_DATA; a sealed body takes the next value of the seal counter. -/
def State.sendPage (s : State) (ctx dst : Nat) (b : PageBody) : State :=
  (if b.isSealed then { s with sec := { s.sec with sealCtr := s.sec.sealCtr + 1 } } else s).svcFor ctx dst (.pageData b)

/-- Does the GCM tag of a sealed body verify? -/
def State.sealTagOk (s : State) (src : Nat) (b : PageBody) : Bool :=
  b.data.length == b.ldec + 16 &&
    gcmTag (s.sealKey b.set) (bodyIv b src) (bodyHead b ++ bodyChecks b) (b.data.take b.ldec) == b.data.drop b.ldec

/-- The decoded bytes a body carries. -/
def State.bodyData (s : State) (src : Nat) (b : PageBody) : List Byte :=
  if b.isSealed then gcmCrypt (s.sealKey b.set) (bodyIv b src) (b.data.take b.ldec) else b.data

/-- Open a body for a partition of this part: its bytes, or why it is refused (R392, R448, Table 8.7). Refusals of sealing count
in SEC_AUTH_STAT. -/
def State.openPage (s : State) (src : Nat) (b : PageBody) (part : Nat) : State × Except Nat (List Byte) :=
  if (b.isSealed && (!s.holdsSet b.set || s.sealSet part != some b.set)) || (!b.isSealed && (s.sealSet part).isSome) then
    (s.bump F.SEC_AUTH_STAT_SEAL_MISMATCH, .error St.sealMismatch)
  else if b.isSealed && !s.sealTagOk src b then (s.bump F.SEC_AUTH_STAT_SEAL_AUTH, .error St.memoryAuthFail)
  else
    let data := s.bodyData src b
    if data.length = b.ldec ∧ b.checks = pageChecks b.spfh b.version b.tiles b.ldec data then (s, .ok data)
    else (s.countFail .check, .error St.tileCheckFail)

/-! ## Pages between parts (R389 to R391) -/

/-- A page that cannot be given: the importer refuses it (log entry 43). -/
def noPage (pfh ver : Nat) : PageBody :=
  { spfh := pfh, tiles := 4, version := ver, mprof := 0, isSealed := false, isExport := false, ldec := 0, set := 0, checks := []
    data := [], spart := 0, inc := 0, sealNo := 0 }

/-- Give the page of frame `f`, which `g` holds, to an importer. -/
def State.givePage (s : State) (src : Nat) (f g : Frame) : State :=
  let ldec := (g.hdr?.map (·.ldec)).getD 0
  s.sendPage s.deviceCtx src (s.pageBody f ldec (memRead (s.heldPage g) 0 ldec) g.part false)

/-- PAGE_REQ at the holder: a T1 copy is verified; a page in T2 is read in place through the ladder first (R389). -/
def execPageReq (src pfh ver : Nat) (s : State) : State :=
  match s.frame? pfh with
  | none => s.svc src (.pageData (noPage pfh ver))
  | some f => match s.holder? f with
    | none => s.svc src (.pageData (noPage pfh ver))
    | some g =>
      if pgUnavailable g.st then s.svc src (.pageData (noPage pfh ver))
      else if g.reread.isSome then s
      else match g.t1 with
        | some c =>
          let v := s.verifyCopy g .t1 c none
          match v.2 with
          | none => v.1.givePage src f g
          | some why => v.1.copyFailed g .t1 why
        | none =>
          if g.st ≠ .t2Only then s
          else if g.readOk then (s.givePage src f g).setFrame g.pfh fun x => { x with readOk := false }
          else if g.reading then s
          else s.setFrame g.pfh fun x => { x with ladder := s.firstStep x, ladderFail := none, reader := none, forced := none }

/-- An import fails (R389): the second failure makes the page unavailable to the command that needs it. -/
def State.importFails (s : State) (p : Nat) : State :=
  (s.setFrame p fun f => { f with prom := false, ladder := f.ladder + 1 }).freeIfIdle p

/-- Layer of a page, from a PTE that names its frame. -/
def State.layerOf (s : State) (p : Nat) : Nat :=
  ((s.seq.recs.findSome? fun q => q.ptes.find? fun e => e.pfh == p).map (·.layer)).getD 0

/-- The writer of a page that no command of this part wrote: no context is charged for its moves. -/
def noWriter : Nat × Nat := (65536, 0)

/-- Make a local frame of `part` holding the bytes `data` of a received page in DIRTY_T1, coded with this part's tables and checked
under its own handle (R321, R389); `none` when no T1 chunk is free. -/
def State.placePage (s : State) (b : PageBody) (data : List Byte) (p : Profile) (part sdom refs : Nat) (set : Placement)
    (tids : Nat × Nat) (remote : List (Nat × Nat)) : State × Option Nat :=
  let h := s.newPfh localTier
  let enc := s.encodeTiles p (s.decoder part) tids h b.version none [] (bytesMem data) (List.range p.tiles)
  match enc.1.allocT1 part (chunksOf enc.2) with
  | (_, none) => ((s.allocT1 part (chunksOf enc.2)).1, none)
  | (s, some chunks) =>
    let c := makeCopy (s.tileKeys part) h b.version p.mprof p.ldec tids chunks enc.2
    let f := { emptyFrame h part sdom p.mprof p.tiles b.version s.useStamp set with refs := refs, remote := remote }
    ((s.addFrame f).commitWrite h c true noWriter, some h)

/-- An imported page arrives for the proxy `f`. -/
def State.importPage (s : State) (src : Nat) (f : Frame) (b : PageBody) : State :=
  match s.prof? f.mprof with
  | none => s.importFails f.pfh
  | some p =>
    if b.mprof ≠ f.mprof ∨ b.ldec ≠ p.ldec ∨ b.tiles ≠ f.tiles ∨ b.version ≠ f.ver then s.importFails f.pfh
    else match s.openPage src b f.part with
      | (s, .error _) => s.importFails f.pfh
      | (s, .ok data) =>
        if !s.frameRoom then s.importFails f.pfh
        else match s.placePage b data p f.part f.sdom 0 ⟨f.set.cls, 3, 2⟩ (s.captureTids p (s.layerOf f.pfh)) [] with
          | (s, none) => s
          | (s, some h) =>
            let s := s.setFrame f.pfh fun x => { x with prom := false, ladder := 0, imp := some h }
            (s.hotFill f.pfh s.att.ents).freeIfIdle f.pfh

/-- An exported page arrives (R391). -/
def State.receiveExport (s : State) (src : Nat) (b : PageBody) : State :=
  let no (s : State) (st : Nat) : State := s.svc src (.pageAck b.spfh 0 st)
  match (s.part? b.spart).bind (·.r.importPart), s.prof? b.mprof with
  | none, _ => no s St.accessDenied
  | _, none => no s St.badField
  | some part, some p =>
    match s.openPage src b part with
    | (s, .error st) => no s st
    | (s, .ok data) =>
      if b.ldec ≠ p.ldec ∨ b.tiles ≠ p.tiles then no s St.badField
      else if !s.frameRoom then no s St.noSpace
      else match s.placePage b data p part 0 1 (s.partDefaults part) (65535, 65535) [(src, 1)] with
        | (s, none) => no s St.noSpace
        | (s, some h) => s.svc src (.pageAck b.spfh h St.ok)

/-- PAGE_DATA. -/
def execPageData (src : Nat) (b : PageBody) (s : State) : State :=
  if b.isExport then s.receiveExport src b
  else match s.proxyFor src b.spfh with
    | none => s
    | some f => if f.prom then s.importPage src f b else s

/-- An export is over: its pin is released and the command goes on to its next page. -/
def State.exportOver (s : State) (e : Export) (moved : Bool) : State :=
  ((s.setDom fun d => { d with exports := d.exports.erase e }).setCmd e.id fun k =>
    { k with todo := k.todo.drop 1, count := if moved then k.count else k.count + 1 }).dropPin e.id

/-- Give the one remote reference on a peer's frame back; it is owed until delivered (R393). -/
def State.giveBack (s : State) (peer pfh : Nat) : State :=
  ({ s with tier := { s.tier with owed := s.tier.owed ++ [(peer, [pfh])] } }).svc peer (.refRelease [pfh])

/-- Does the PTE still name the page that was sent, and can a proxy take its place in the frame table? -/
def State.exportFits (s : State) (e : Export) (f : Frame) : Bool :=
  f.ver == e.ver &&
    s.seq.recs.any (fun q => q.idx == e.seq && ((q.pte? e.lpi e.layer e.head).map (·.pfh)) == some e.pfh) &&
    (s.frameRoom || (f.refs == 1 && f.pins == 0 && f.oldPins == 0 && !f.prom))

/-- PAGE_ACK at the exporter: the PTE names a new proxy, the local frame loses its reference (R391). A frame that the receiver has
made in vain is given back. -/
def execPageAck (src spfh newPfh status : Nat) (s : State) : State :=
  match s.dom.exports.find? fun e => e.pfh == spfh && e.peer == src with
  | none => if status = St.ok then s.giveBack src newPfh else s
  | some e =>
    if status ≠ St.ok then s.exportOver e false
    else
      let t := s.exportOver e true
      match t.frame? e.pfh with
      | none => (s.exportOver e false).giveBack src newPfh
      | some f =>
        if !t.exportFits e f then (s.exportOver e false).giveBack src newPfh
        else
          let h := t.newPfh proxyTier
          let x := emptyFrame h f.part f.sdom f.mprof f.tiles f.ver t.useStamp f.set
          let t := t.setSeq e.seq fun q => { q with
            ptes := updIf q.ptes (fun y => y.lpi == e.lpi && y.layer == e.layer && y.head == e.head) fun y => { y with pfh := h } }
          (t.dropRef e.pfh).addFrame { x with peer := some (src, newPfh), st := .dirtyT1, refs := 1 }

/-! ## References between parts (R393) -/

/-- A peer gives back one reference per listed frame. -/
def State.dropRemote (s : State) (src : Nat) : List Nat → State
  | [] => s
  | p :: t =>
    (match s.frame? p with
      | some f => if spGet 0 f.remote src = 0 then s
          else (s.setFrame p fun x => { x with remote := spSet 0 x.remote src (spGet 0 x.remote src - 1) }).dropRef p
      | none => s).dropRemote src t

/-- REF_RELEASE. -/
def execRefRelease (src : Nat) (frames : List Nat) (s : State) : State := s.dropRemote src frames

/-- REF_RELEASE_RETRY: what the peer has not acknowledged is sent again. -/
def execReleaseAgain (peer : Nat) (s : State) : State :=
  s.svcAll (.refRelease ((s.tier.owed.filter fun o => o.1 == peer).flatMap (·.2)))
    (if s.tier.owed.any fun o => o.1 == peer then [peer] else [])

/-- A release has been delivered. -/
def State.released (s : State) (peer : Nat) (frames : List Nat) : State :=
  { s with tier := { s.tier with owed := s.tier.owed.filter fun o => !(o.1 == peer && o.2.all frames.contains) } }

def State.unpinPeer (s : State) (peer : Nat) : List (Nat × Nat × Nat) → State
  | [] => s
  | r :: t => (if r.1 = peer then s.unpinRows peer r.2.1 else s).unpinPeer peer t

/-- A peer has restarted: every reference it held is released. -/
def State.peerGone (s : State) (peer : Nat) : State :=
  let fs := s.tier.frames.flatMap fun f => List.replicate (spGet 0 f.remote peer) f.pfh
  (s.dropRemote peer fs).unpinPeer peer s.dom.rowPins

/-! ## Pace notices (R394) -/

/-- Table 10.9. -/
def paceBytes (part lvl prev n nseq cycles : Nat) : List Byte :=
  leBytes 1 part ++ leBytes 1 (lvl + 16 * prev) ++ leBytes 2 0 ++ leBytes 4 n ++ leBytes 4 nseq ++ leBytes 4 0 ++
    leBytes 8 cycles ++ leBytes 8 0

/-- PACE_NOTICE_SEND. -/
def execPace (c : CmdId) (s : State) : State :=
  match s.att.plans.find? fun p => p.id == c with
  | none => s
  | some p =>
    if !p.pace ∨ p.lastLevel = s.level then s
    else
      let s := match p.lastSent with
        | none => s
        | some t => s.reach (t + max 1 (s.fld F.FXT_DOM_CFG2_PACE_GAP) * cyclesPerUs)
      let n := p.paceSeq + 1
      let own := s.fld F.FXT_NODE_NODE
      let imm := s.level % 16 + own % 256 * 256 + n % 65536 * 65536
      let b := paceBytes own s.level p.lastLevel n p.nseq s.cycles
      let m := newMsg p.pacePart p.ctx (.data p.paceRkey p.paceOff b (some (BitVec.ofNat 32 imm)))
      let u := s.post { m with pace := true }
      { u with att := { u.att with plans := updIf u.att.plans (fun x => x.id == c) fun x =>
          { x with lastLevel := s.level, lastSent := some s.cycles, paceSeq := n } } }

/-! ## What becomes of a service message (R341, R382 to R385, R393) -/

/-- A service message was acknowledged. -/
def State.svcAcked (s : State) (dst : Nat) (m : SvcMsg) : State :=
  match m with
  | .refRelease l => s.released dst l
  | _ => s

/-- Trims that were not delivered stay owed. -/
def State.trimOwed (s : State) (h fr : Nat) : State :=
  match s.anchor? h with
  | none => s
  | some a => s.setAnchor a.idx fun x => { x with trim := some (min fr (x.trim.getD fr)) }

def State.trimsOwed (s : State) : List (Nat × Nat) → State
  | [] => s
  | (h, fr) :: t => (s.trimOwed h fr).trimsOwed t

/-- A ROWS_REQ was not delivered: PEER_UNREACHABLE for a fork and a retirement; the reference is not known to be live to a lookup
or a publication (log entry 41). -/
def State.rowsFailed (s : State) (req : Nat) : State :=
  match s.dom.rows.find? fun r => r.req == req with
  | none => s
  | some r =>
    let op := ((s.cmd? r.id).map fun k => dOp k.desc).getD 0
    (s.dropRows_ req).finish r.id (if op = Op.prefixLookup ∨ op = Op.prefixPublish then St.badHandle else St.peerUnreachable)

/-- A proxy's request for its page was not delivered. -/
def State.requestFails (s : State) (peer pfh : Nat) : State :=
  match s.proxyFor peer pfh with
  | none => s
  | some f => s.importFails f.pfh

/-- A service message was given up. -/
def State.svcFailed (s : State) (dst : Nat) (m : SvcMsg) : State :=
  match m with
  | .insert req _ items =>
    let s := { s with pxi := { s.pxi with fills := s.pxi.fills.filter fun x => x.1 ≠ req } }
    (s.batchEnd req (items.map fun _ => St.peerUnreachable) []).reportLost dst
  | .retire req _ => (s.retireEnd req none).reportLost dst
  | .trim items => (s.trimsOwed items).reportLost dst
  | .rowsReq req _ _ => s.rowsFailed req
  | .pageReq pfh _ => s.requestFails dst pfh
  | .pageData b => if b.isExport then
      (match s.dom.exports.find? fun e => e.pfh == b.spfh && e.peer == dst with
        | none => s
        | some e => s.exportOver e false)
      else s
  | .cascQuery req _ _ _ _ _ => s.queryFailed req
  | .leaseReq _ _ => s | .leaseGrant _ _ => s | .heartbeat _ _ _ _ => s | .hbAck _ => s | .join _ _ => s
  | .admitMsg _ _ => s | .admitReply _ => s | .mapUpdate _ _ => s | .regUpdate _ _ => s | .lookupReq _ _ _ _ _ => s
  | .lookupResp _ _ _ => s | .insertReply _ _ _ => s | .retireReply _ _ _ => s | .refill _ => s | .refillReply _ => s
  | .rowsResp _ _ _ _ _ _ => s | .rowsDone _ _ _ => s | .pageAck _ _ _ => s | .refRelease _ => s | .cascResult _ => s
  | .lost _ => s

end Sys2Proof.Machine
end

