-- ==== Sys2Proof/Machine/Rma.lean ====
section
/-! DEFINITION. Regions, the RMA commands, their ledger of failures, and triggers (chapter 9, R350 to R363). -/

namespace Sys2Proof.Machine

/-! ## Regions (R350 to R356) -/

/-- Step 5 of REGION_REGISTER: its counter, its host range, its notification ring with the control word (R548). -/
def State.checkRegister (s : State) (k : Cmd) : Option Nat :=
  let d := k.desc
  if dF d 10 2 ≠ 0 ∧ !s.trigOwned k.ctx (dF d 10 2) then some St.accessDenied
  else if dF d 8 1 = 1 ∧ dF d 12 4 ≠ 0 ∧ dF d 16 8 + dF d 12 4 > 2 ^ 64 then some St.accessDenied
  else if dF d 32 4 ≠ 0 ∧ dF d 24 8 + 16 * dF d 32 4 + 8 > 2 ^ 64 then some St.accessDenied else none

/-- Take a region index and the generation it is issued under (R351). -/
def State.takeRegion (s : State) : Option (State × Nat × Nat) :=
  if s.fxt.freshRegion < 1048576 then
    some ({ s with fxt := { s.fxt with freshRegion := s.fxt.freshRegion + 1 } }, s.fxt.freshRegion, 0)
  else match s.fxt.freedRegions with
    | [] => none
    | (i, g) :: t => some ({ s with fxt := { s.fxt with freedRegions := t } }, i, g)

/-- The region a REGION_REGISTER describes. -/
def newRegion (d : Word512) (ctx part index gen : Nat) (chunks : List Nat) : Region :=
  { index := index, gen := gen, ctx := ctx, part := part, hostMem := decide (dF d 8 1 = 1), access := dF d 9 1 % 16
    trig := dF d 10 2, len := if dF d 8 1 = 1 then dF d 12 4 else (dF d 12 4 + 4095) / 4096 * 4096, addr := dF d 16 8
    nqAddr := dF d 24 8, nqEntries := dF d 32 4, nqVector := dF d 36 2, nqPi := 0, nqCi := 0, draining := none
    freeing := false, chunks := chunks }

/-- Allocate the region and complete with its RKEY. -/
def State.register (s : State) (k : Cmd) (part : Nat) (chunks : List Nat) : State :=
  match s.takeRegion with
  | none => s.complete k.id St.noSpace
  | some (s, i, g) =>
    let r := newRegion k.desc k.ctx part i g chunks
    let s := { s with fxt := { s.fxt with regions := s.fxt.regions ++ [r] } }
    s.complete k.id St.ok { result := r.rkey }

def registerBody (k : Cmd) (s : State) : State :=
  match s.ctx? k.ctx with
  | none => s
  | some x =>
    let d := k.desc
    if dF d 12 4 = 0 then s.complete k.id St.okEmpty
    else if s.takeRegion.isNone then s.complete k.id St.noSpace
    else if dF d 8 1 = 1 then s.register k x.r.part []
    else match s.allocT1 x.r.part ((dF d 12 4 + 4095) / 4096) with
      | (s, none) => s.waitAlloc k.id
      | (s, some chunks) => s.register k x.r.part chunks

/-- REGION_REGISTER. -/
def execRegister (c : CmdId) (s : State) : State :=
  s.runCmd c (fun d => dOp d == Op.regionRegister) State.checkRegister registerBody

def State.checkRevoke (s : State) (k : Cmd) : Option Nat :=
  if (s.region? k.ctx (dF k.desc 8 4)).isSome then none else some St.badHandle

def State.setRegion (s : State) (index : Nat) (f : Region → Region) : State :=
  { s with fxt := { s.fxt with regions := updIf s.fxt.regions (fun r => r.index == index) f } }

/-- Does a work queue that is not ABSENT hold its ring in the region? -/
def State.ringIn (s : State) (r : Region) : Bool := s.qdb.wqs.any fun w => w.region && w.rkey == r.rkey && w.ctx == r.ctx

/-- The advance of R353. -/
def revokeBody (k : Cmd) (s : State) : State :=
  if s.fxt.regions.any fun r => r.draining == some k.id then s
  else match s.region? k.ctx (dF k.desc 8 4) with
    | none => s.complete k.id St.badHandle
    | some r =>
      if s.ringIn r then s.complete k.id St.busyRetry
      else s.setRegion r.index fun x => { x with gen := (x.gen + 1) % 4096, draining := some k.id, freeing := dFlag k.desc 0 }

/-- REGION_REVOKE: the advance; the command completes with the drain. -/
def execRevoke (c : CmdId) (s : State) : State :=
  s.runCmd c (fun d => dOp d == Op.regionRevoke) State.checkRevoke revokeBody

/-- A region is gone: its bytes and chunks are released, its index waits for its turn (R351). -/
def State.freeRegion (s : State) (r : Region) : State :=
  { s with fxt := { s.fxt with
    regions := s.fxt.regions.filter fun x => x.index ≠ r.index
    mem := memZero s.fxt.mem fun a => a / 2 ^ 32 == r.index
    freedRegions := s.fxt.freedRegions ++ [(r.index, r.gen)] } }

/-- REVOKE_DRAIN_COMPLETE. -/
def execDrain (index : Nat) (s : State) : State :=
  match s.fxt.regions.find? fun r => r.index == index with
  | none => s
  | some r => match r.draining with
    | none => s
    | some c =>
      if r.freeing then (s.freeRegion r).complete c St.ok
      else (s.setRegion index fun x => { x with draining := none }).complete c St.ok { result := r.rkey }

/-! ## The operation a command or a firing performs (R357, R361) -/

/-- An RMA operation with the strides of its firing applied. -/
structure RmaOp where
  op : Nat
  node : Nat
  sp : Space
  rkey : Nat
  roff : Nat
  len : Nat
  imm : Nat
  wait : Bool
deriving DecidableEq, Repr

/-- Firing number: completed firings of a pair. -/
def Cmd.firing (k : Cmd) : Nat := if k.armed.isSome then k.count else 0

def Cmd.rma (k : Cmd) : RmaOp :=
  let d := k.armed.getD k.desc
  let n := k.firing
  let add (v st : Nat) (w : Nat) : Nat := if k.armed.isSome then (v + n * st) % 2 ^ w else v
  { op := dOp d, node := dF d 8 2
    sp := mkSpace (dF d 10 1) (dF d 12 4) (add (dF d 16 8) (dF k.desc 20 8) 64)
    rkey := dF d 24 4, roff := add (dF d 32 8) (dF k.desc 28 8) 64, len := dF d 40 4
    imm := add (dF d 44 4) (dF k.desc 36 4) 32, wait := dFlag d 0 }

/-- Steps 4 and 5 for an RMA descriptor (R357, R335). -/
def State.checkRmaD (s : State) (k : Cmd) : Option Nat :=
  let o := k.rma
  let kind := s.epKind o.node
  let ten := s.epTenant o.node
  let t := if ten = 65535 ∨ (s.ctx? k.ctx).any (fun x => x.r.tenant == ten) then none else some St.accessDenied
  if o.op = Op.rmaFlush then t
  else step45 [if o.rkey = 0 ∧ kind ≠ 3 then some St.badHandle else none,
    s.spaceCheck k.ctx o.sp (o.op == Op.rmaRead) (if o.op = Op.rmaRead ∨ o.op = Op.rmaWrite ∨ o.op = Op.rmaWriteImm then o.len else 0), t]

/-- The same when the command starts: a local region that has gone since admission was revoked (R358). -/
def State.checkRmaRun (s : State) (k : Cmd) : Option Nat :=
  let o := k.rma
  match s.checkRmaD k with
  | some st => if st = St.badHandle ∧ !(o.rkey = 0 ∧ s.epKind o.node ≠ 3) then some St.regionRevoked else some st
  | none => none

/-! ## Ends -/

/-- An operation ends: the command completes, or a pair goes on to its next firing (R361). -/
def State.rmaEnd (s : State) (k : Cmd) (status rlen : Nat) : State :=
  if k.armed.isNone then s.complete k.id status { rlen := rlen }
  else if !St.isOk status then s.complete k.id status { result := k.count }
  else if k.count + 1 ≥ max 1 (dF k.desc 10 2) then s.complete k.id status { result := k.count + 1 }
  else s.setCmd k.id fun x => { x with
    count := x.count + 1, mark := 0, reads := [], err := none, todo := [], since := s.cycles }

/-- Is the message one of the operation a command is performing? -/
def Cmd.owns (k : Cmd) (m : TxMsg) : Bool := m.cmd == some k.id && m.adm == k.adm && m.firing == k.firing

/-- Has the last packet of the message left an interface, at least once? -/
def TxMsg.wentOut (m : TxMsg) : Bool := m.sent && (m.left == 0 || decide (0 < m.tries) || m.busy.isSome)

/-- A covering flush is over (R359). -/
def State.flushSettle (s : State) (k : Cmd) : State :=
  if k.todo.isEmpty && !(s.fxt.msgs.any fun m => m.cover == some k.id) then s.rmaEnd k (k.err.getD St.ok) 0 else s

/-- Messages of the command that have not been acknowledged. -/
def State.msgsOf (s : State) (k : Cmd) : List TxMsg := s.fxt.msgs.filter k.owns

/-- The final message of a write-with-immediate whose earlier message failed never leaves (R340). -/
def State.dropHeld (s : State) (k : Cmd) : State :=
  if k.err.isSome then
    { s with fxt := { s.fxt with msgs := s.fxt.msgs.filter fun m => !(k.owns m && m.hold && !m.sent) } }
  else s

/-- Complete a posted operation whose condition holds (R342, R359). -/
def State.settleRma (s : State) (c : CmdId) : State :=
  match s.cmd? c with
  | none => s
  | some k =>
    let o := k.rma
    if k.mark ≠ 2 then s
    else if o.op = Op.rmaFlush then s.flushSettle k
    else if o.op = Op.rmaRead then
      (if (s.msgsOf k).isEmpty then s.rmaEnd k (k.err.getD St.ok) (if k.err.isSome then 0 else o.len) else s)
    else
      let held := k.err.isSome && (s.msgsOf k).any fun m => m.hold && !m.sent
      let s := s.dropHeld k
      if o.wait then (if (s.msgsOf k).isEmpty then s.rmaEnd k (k.err.getD St.ok) 0 else s)
      else if held then s.rmaEnd k (k.err.getD St.ok) 0
      else if (s.msgsOf k).all TxMsg.wentOut then s.rmaEnd k St.ok 0
      else s

/-- Key under which a flush waits for an operation that has not cut its messages yet. -/
def Cmd.key (k : Cmd) : Nat := k.adm * 65536 + k.firing

/-- A write that has started without messages yet. -/
def Cmd.unposted (k : Cmd) : Bool :=
  k.st == .running && (k.rma.op == Op.rmaWrite || k.rma.op == Op.rmaWriteImm) && k.mark != 2 &&
    (k.armed.isNone || k.mark == 1)

/-- Flushes in progress. -/
def State.flushes (s : State) : List Cmd := s.cmds.filter fun k => k.st == .running && k.rma.op == Op.rmaFlush && k.mark == 2

/-- Forget operations that a flush waited for and that ended without messages. -/
def State.pruneFlushes (s : State) : List Cmd → State
  | [] => s
  | k :: t =>
    let keep := k.todo.filter fun n => s.cmds.any fun x => x.unposted && x.key == n
    ((s.setCmd k.id fun x => { x with todo := keep }).settleRma k.id).pruneFlushes t

def State.prune (s : State) : State := s.pruneFlushes s.flushes

/-! ## What becomes of a message (R341, R342) -/

/-- Remember an uncovered failure for the next flush of the queue and node. -/
def State.noteLost (s : State) (q node st : Nat) : State :=
  if s.fxt.lost.any fun l => l.1 == q && l.2.1 == node then s
  else { s with fxt := { s.fxt with lost := s.fxt.lost ++ [(q, node, st)] } }

def State.dropMsg (s : State) (m : TxMsg) : State :=
  { s with fxt := { s.fxt with msgs := s.fxt.msgs.filter fun x => !(x.dst == m.dst && x.msgid == m.msgid) } }

def TxMsg.isData (m : TxMsg) : Bool :=
  match m.carry with
  | .data _ _ _ _ => true
  | .read _ _ _ _ _ _ => false
  | .svc _ => false

/-- Settle the command of a message and the flush that covers it. -/
def State.settleMsg (s : State) (m : TxMsg) : State :=
  let s := match m.cmd with
    | some c => s.settleRma c
    | none => s
  match m.cover with
  | some c => s.settleRma c
  | none => s

/-- A message is acknowledged, or its answer is complete. -/
def State.msgDone (s : State) (m : TxMsg) : State := (s.dropMsg m).settleMsg m

/-- A failure that comes after its command completed (Table 9.32). -/
def State.countLost (s : State) (m : TxMsg) (st : Nat) : State :=
  ((s.bump F.CTXW_FXT_FAIL_COUNT 1 0 m.ctx).setFld F.CTXW_FXT_FAIL_LAST st 0 m.ctx).setFld F.CTXW_FXT_FAIL_NODE m.dst 0 m.ctx

/-- First failure of a command. -/
def Cmd.failWith (st : Nat) (k : Cmd) : Cmd := { k with err := some (k.err.getD st) }

/-- A data or read message fails. -/
def State.msgLost (s : State) (m : TxMsg) (st : Nat) : State :=
  let s := s.dropMsg m
  if m.pace then s.bump F.FXT_DOM_EVENTS_PACE_FAIL
  else match m.cmd with
    | none => s
    | some c =>
      let live := s.cmds.find? fun k => k.owns m
      let s := match live with
        | some _ => s.setCmd c (Cmd.failWith st)
        | none => if m.isData then s.countLost m st else s
      let s := match m.cover with
        | some f => s.setCmd f (Cmd.failWith st)
        | none => if m.isData && !(live.any fun (k : Cmd) => k.rma.wait) then s.noteLost c.q m.dst st else s
      s.settleMsg m

/-! ## Running an operation -/

/-- Bytes of a message (R337). -/
def State.msgBytes (s : State) : Nat := 2 ^ min 18 (max 12 (s.fld F.FXT_FLOW_CFG_MSG_LOG2))

/-- Cut bytes into pieces of `n`. -/
def cutBytes (n : Nat) : Nat → List Byte → List (List Byte)
  | 0, _ => []
  | f + 1, l => if l.length ≤ n then [l] else l.take n :: cutBytes n f (l.drop n)

def State.postAll (s : State) : List TxMsg → State
  | [] => s
  | m :: t => (s.post m).postAll t

/-- The flush that waits for an operation. -/
def State.coverOfCmd (s : State) (k : Cmd) : Option CmdId := (s.flushes.find? fun x => x.todo.contains k.key).map (·.id)

/-- Messages of a write. -/
def State.writeMsgs (s : State) (k : Cmd) (o : RmaOp) (bytes : List Byte) : List TxMsg :=
  let ps := cutBytes s.msgBytes (bytes.length + 1) bytes
  ((List.range ps.length).zip ps).map fun x =>
    let last := x.1 + 1 = ps.length
    let imm := if o.op = Op.rmaWriteImm ∧ last then some (BitVec.ofNat 32 o.imm) else none
    let m := newMsg o.node k.ctx (.data (BitVec.ofNat 32 o.rkey) (o.roff + x.1 * s.msgBytes) x.2 imm)
    { m with cmd := some k.id, adm := k.adm, firing := k.firing, hold := decide (o.op = Op.rmaWriteImm ∧ last ∧ 1 < ps.length)
             cover := s.coverOfCmd k }

/-- Requests of a read, one per message of data (R357, Table 9.4). -/
def State.readMsgs (s : State) (k : Cmd) (o : RmaOp) : List TxMsg :=
  (List.range ((o.len + s.msgBytes - 1) / s.msgBytes)).map fun i =>
    let off := i * s.msgBytes
    let n := min s.msgBytes (o.len - off)
    let dst := match o.sp with
      | .host a => (false, 0, a + off)
      | .region r a => (true, r, a + off)
    let m := newMsg o.node k.ctx (.read (BitVec.ofNat 32 o.rkey) (o.roff + off) n dst.1 dst.2.1 dst.2.2)
    { m with cmd := some k.id, adm := k.adm, firing := k.firing }

/-- Mark an operation posted. -/
def State.posted (s : State) (c : CmdId) : State := s.setCmd c fun k => { k with mark := 2 }

/-- Begin a flush (R359): what it covers, and the failure owed to it. -/
def State.flushStart (s : State) (k : Cmd) (o : RmaOp) : State :=
  let others := s.flushes.flatMap (·.todo)
  let keys := (s.cmds.filter fun x => x.id.q == k.id.q && x.id != k.id && x.unposted && x.rma.node == o.node &&
    !others.contains x.key).map Cmd.key
  let owed := (s.fxt.lost.find? fun l => l.1 == k.id.q && l.2.1 == o.node).map (·.2.2)
  let s := { s with fxt := { s.fxt with
    lost := s.fxt.lost.filter fun l => !(l.1 == k.id.q && l.2.1 == o.node)
    msgs := updIf s.fxt.msgs (fun m => m.isData && m.dst == o.node && m.cover.isNone && (m.cmd.map CmdId.q) == some k.id.q)
      fun m => { m with cover := some k.id } } }
  (s.setCmd k.id fun x => { x with mark := 2, todo := keys, err := owed }).settleRma k.id

/-- An operation on a PCIe peer (R363). -/
def State.peerRun (s : State) (k : Cmd) (o : RmaOp) (bytes : List Byte) : State :=
  let base := dF (s.ep o.node) 40 8
  let note := dF (s.ep o.node) 48 8
  let f := s.funcOf k.ctx
  if o.op = Op.rmaFlush then
    match k.reads with
    | [] => (s.emit (.peerRead k.id base 0)).setCmd k.id fun x => { x with owed := x.owed + 1 }
    | _ :: _ => s.rmaEnd k St.ok 0
  else if o.op = Op.rmaRead then
    match k.reads with
    | [] => (s.emit (.peerRead k.id (base + o.roff) o.len)).setCmd k.id fun x => { x with owed := x.owed + 1 }
    | b :: _ => match s.spaceWrite k.id k.ctx o.sp b with
      | .error st => s.rmaEnd k st 0
      | .ok s => s.rmaEnd k St.ok o.len
  else if !s.xlatOk f (base + o.roff) bytes.length ∨ (o.op = Op.rmaWriteImm ∧ !s.xlatOk f note 4) then
    s.rmaEnd k St.accessDenied 0
  else
    let s := if bytes.isEmpty then s else (s.emit (.peerWrite (base + o.roff) bytes)).cmdHost k.id k.ctx bytes.length
    let s := if o.op = Op.rmaWriteImm then (s.emit (.peerWrite note (leBytes 4 o.imm))).cmdHost k.id k.ctx 4 else s
    s.rmaEnd k St.ok 0

/-- Is the local range of the operation, or of this firing of it, out of host memory (R548), gone or too short? -/
def State.localBad (s : State) (k : Cmd) (o : RmaOp) : Option Nat :=
  match o.sp with
  | .host a => if o.len ≠ 0 ∧ a + o.len > 2 ^ 64 then some St.accessDenied else none
  | .region r _ =>
    if (s.region? k.ctx r).isNone then some St.regionRevoked
    else if s.spaceLong k.ctx o.sp o.len then none else some St.lengthLimit

/-- Run an operation, or go on with it. -/
def State.rmaRun (s : State) (k : Cmd) : State :=
  let o := k.rma
  let kind := s.epKind o.node
  if k.mark = 2 then s.settleRma k.id
  else if kind = 0 then s.rmaEnd k St.badField 0
  else if o.op = Op.rmaFlush then (if kind = 3 then s.peerRun k o [] else s.flushStart k o)
  else if o.len > 268435456 then s.rmaEnd k St.lengthLimit 0
  else match s.localBad k o with
    | some st => s.rmaEnd k st 0
    | none =>
      if o.len = 0 ∧ o.op ≠ Op.rmaWriteImm then s.rmaEnd k St.okEmpty 0
      else if o.op = Op.rmaRead then
        (if kind = 3 then s.peerRun k o [] else ((s.postAll (s.readMsgs k o)).posted k.id).settleRma k.id)
      else if o.len ≠ 0 ∧ k.reads.isEmpty then s.spaceRead k.id k.ctx o.sp o.len
      else
        let b := (k.reads.headD []).take o.len
        if kind = 3 then s.peerRun k o b
        else ((s.postAll (s.writeMsgs k o b)).posted k.id).settleRma k.id

def rmaBody (k : Cmd) (s : State) : State := s.rmaRun k

/-- RMA_WRITE. -/
def execRmaW (c : CmdId) (s : State) : State :=
  (s.runCmd c (fun d => dOp d == Op.rmaWrite) State.checkRmaRun rmaBody).prune

/-- RMA_WRITE_IMM. -/
def execRmaI (c : CmdId) (s : State) : State :=
  (s.runCmd c (fun d => dOp d == Op.rmaWriteImm) State.checkRmaRun rmaBody).prune

/-- RMA_READ. -/
def execRmaR (c : CmdId) (s : State) : State := s.runCmd c (fun d => dOp d == Op.rmaRead) State.checkRmaRun rmaBody

/-- RMA_FLUSH. -/
def execRmaF (c : CmdId) (s : State) : State := s.runCmd c (fun d => dOp d == Op.rmaFlush) State.checkRmaRun rmaBody

/-! ## WR_ARM and its firings (R361) -/

/-- Opcodes a pair may arm. -/
def armable (op : Nat) : Bool := op == Op.rmaWrite || op == Op.rmaWriteImm || op == Op.rmaRead || op == Op.rmaFlush

/-- Steps 4 and 5 of a pair. The armed descriptor's steps 1 to 3 are checked with those of WR_ARM. -/
def State.checkArm (s : State) (k : Cmd) : Option Nat :=
  match s.checkRmaD k with
  | some st => some st
  | none => if s.trigOwned k.ctx (dF k.desc 8 2) then none else some St.accessDenied

/-- Arm the pair, or go on with a firing. -/
def armBody (k : Cmd) (s : State) : State :=
  if k.armNo = 0 then
    let n := s.fxt.armCount + 1
    ({ s with fxt := { s.fxt with armCount := n } }).setCmd k.id fun x => { x with armNo := n, since := s.cycles }
  else if k.mark = 0 then s else s.rmaRun k

/-- Goes on with a pair whose host read failed, and with the others as usual. -/
def State.armStep (s : State) (c : CmdId) (go : State → State) : State :=
  match s.cmd? c with
  | none => s
  | some k => match k.fail with
    | some st => if k.st = .running ∧ k.armed.isSome ∧ k.owed = 0 then (s.rmaEnd k st 0).prune else go s
    | none => go s

/-- WR_ARM. -/
def execArm (c : CmdId) (s : State) : State :=
  s.armStep c fun s => (s.runCmd c (fun d => dOp d == Op.wrArm) State.checkArm armBody).prune

/-- Is the threshold of the pair's next firing reached? -/
def State.reached (s : State) (k : Cmd) : Bool :=
  let t := (dF k.desc 12 4 + k.count * dF k.desc 16 4) % two32
  decide ((s.trigVal (dF k.desc 8 2) + two32 - t) % two32 < 2147483648)

/-- An armed pair that waits for a firing. -/
def Cmd.waitsFiring (k : Cmd) : Bool := dOp k.desc == Op.wrArm && k.st == .running && k.armNo != 0 && k.mark == 0

/-- TRIGGER_FIRE: the next firing starts; pairs on one counter start in the order they were armed. -/
def execFire (c : CmdId) (s : State) : State :=
  s.armStep c fun s =>
    match s.cmd? c with
    | none => s
    | some k =>
      if k.waitsFiring && s.reached k && !(s.cmds.any fun x => x.waitsFiring && s.reached x && decide (x.armNo < k.armNo) &&
          dF x.desc 8 2 == dF k.desc 8 2) then
        ((s.setCmd c fun x => { x with mark := 1 }).rmaRun { k with mark := 1 }).prune
      else if dOp k.desc = Op.wrArm ∧ k.st = .running ∧ k.mark ≠ 0 ∧ k.owed = 0 then (s.rmaRun k).prune
      else s

/-- WR_ARM_TIMEOUT. -/
def execArmEnd (c : CmdId) (s : State) : State :=
  match s.cmd? c with
  | none => s
  | some k =>
    if k.waitsFiring ∧ dF k.desc 40 4 ≠ 0 then
      (s.reach (k.since + dF k.desc 40 4 * cyclesPerUs)).rmaEnd k St.timeout 0
    else s

/-- TRIG_VAL_WRITE: outside the context's range the write is ignored. -/
def execTrigVal (f ctx : Nat) (v : Word32) (s : State) : State :=
  let n := s.fld F.CTXW_TRIG_SEL_TRIG 0 ctx
  if s.ownsWindow f ctx && n != 0 && s.trigOwned ctx n then s.setTrig n v.toNat else s

end Sys2Proof.Machine
end

