-- ==== Sys2Proof/Machine/Move.lean ====
section
/-! DEFINITION. PAGES_PLACE (R267 to R270, R290, R291, R391) and TABLE_LOAD (R309, R311 to R313). -/

namespace Sys2Proof.Machine

/-! ## Settings (R267, R269) -/

/-- Retention of a WBMODE code: NEVER, LAZY, EAGER ascend. -/
def wbRank (w : Nat) : Nat := if w = 3 then 0 else w
/-- Retention of a DROP code: PERMIT, FORBID ascend. -/
def dropRank (d : Nat) : Nat := if d = 1 then 1 else 0

/-- The settings a PAGES_PLACE names, 0 selecting the partition default. -/
def State.namedSet (s : State) (part : Nat) (d : Word512) : Placement :=
  let b := dF d 21 1
  let df := s.partDefaults part
  ⟨if b % 4 = 0 then df.cls else b % 4, if b / 4 % 4 = 0 then df.wb else b / 4 % 4,
   if b / 16 % 4 = 0 then df.drop else b / 16 % 4⟩

/-- Settings of a frame after a PAGES_PLACE: with more than one reference a setting only rises. -/
def raiseSet (refs : Nat) (old new : Placement) : Placement :=
  if refs ≤ 1 then new
  else ⟨max old.cls new.cls, if wbRank old.wb < wbRank new.wb then new.wb else old.wb,
    if dropRank old.drop < dropRank new.drop then new.drop else old.drop⟩

/-- Apply the settings to every listed frame. -/
def State.setAll (s : State) (new : Placement) : List Nat → State
  | [] => s
  | p :: t => (s.setFrame p fun f => { f with set := raiseSet f.refs f.set new }).setAll new t

/-! ## Moves -/

/-- Places a PAGES_PLACE covers: every PTE with WHOLE, else every place of its range. -/
def placePlaces (d : Word512) (p : Profile) (q : SeqRec) : List (Nat × Nat × Nat) :=
  if dFlag d 0 then q.ptes.map fun e => (e.lpi, e.layer, e.head)
  else (List.range (dF d 12 4)).flatMap fun b => (List.range (dF d 18 2)).flatMap fun l =>
    (List.range p.kvHeads).map fun h => (dF d 8 4 + b, dF d 16 2 + l, h)

/-- The page at the head of the list is done; `moved` says whether it counts. -/
def State.placed (s : State) (c : CmdId) (moved : Bool) : State :=
  (s.setCmd c fun k => { k with todo := k.todo.drop 1, mark := 1, alloc := none
                                count := if moved then k.count else k.count + 1 }).dropPin c

/-- A residency pin until the command completes, taken once, unless the counter is full (R258, R259). -/
def State.placePin (s : State) (c : CmdId) (p : Nat) : State :=
  match s.frame? p with
  | none => s
  | some f =>
    if f.pinFull || (s.cmd? c).any (fun k => k.pinned.contains p) then s
    else (s.pin p false).setCmd c fun k => { k with pinned := k.pinned ++ [p] }

/-- The page is handled in this run, or the command waits. -/
inductive Moved where
  | done (s : State)
  | wait (s : State)

/-- A copy that the command has read for its move failed its checks; as its own read, it ends the command if no copy is left. -/
def State.moveFailed (s : State) (k : Cmd) (f : Frame) (why : FailKind) : State :=
  (s.setFrame f.pfh fun x => { x with reader := some k.id }).copyFailed f .t1 why

/-- Copy a resident page to STG; its T1 copy is verified as it is read (R317, R323). -/
def State.moveT0 (s : State) (k : Cmd) (seq : Nat) (g : Frame) : Moved :=
  if g.t0 then .done (s.placed k.id true)
  else
    let v := s.verifyT1 g
    match v.2 with
    | some why => .wait (v.1.moveFailed k g why)
    | none =>
      let s := v.1.copyT0 g.pfh k.id k.ctx seq true
      .done (s.placed k.id (((s.frame? g.pfh).map (·.t0)).getD false))

/-- TARGET 0 and 1: promote if needed; for T0 copy to STG. Without a staging group TARGET 0 acts as TARGET 1. -/
def State.moveUp (s : State) (k : Cmd) (seq : Nat) (f : Frame) (t0 : Bool) : Moved :=
  let r := s.needPage f.pfh k.id k.ctx seq true
  match r.2 with
  | .gone => .done (s.placed k.id false)
  | .wait => .wait ((r.1.allocDone k.id).placePin k.id f.pfh)
  | .noSpace => .wait (r.1.waitAlloc k.id)
  | .ready g =>
    if g.st = .demoting ∨ g.st = .writing ∨ g.reread.isSome then .wait s
    else
      let s := (s.allocDone k.id).placePin k.id f.pfh
      if t0 && (s.sgroup? g.part).isSome then s.moveT0 k seq g else .done (s.placed k.id true)

/-- Is a page pinned, by a chunk, a plan or a command? -/
def Frame.isPinned (f : Frame) : Bool := decide (0 < f.pins) || decide (0 < f.oldPins)

/-- TARGET 2: a frame with one reference and no pin; a dirty page by a discretionary program. A program for which flash has no
space waits ALLOC_WAIT (R291). -/
def State.moveDown (s : State) (k : Cmd) (f : Frame) : Moved :=
  if f.st = .writing ∨ f.st = .promoting ∨ f.st = .demoting ∨ f.pgm then .wait s
  else if f.st = .t2Only ∧ k.mark = 2 then .done (s.placed k.id true)
  else if f.refs ≠ 1 ∨ f.peer.isSome ∨ f.isPinned ∨ s.pageGone f.pfh then .done (s.placed k.id false)
  else match f.st with
    | .t2Only => .done (s.placed k.id true)
    | .cleanT1 => .done ((s.setFrame f.pfh Frame.toFlash).placed k.id true)
    | .dirtyT1 =>
      if s.tier.credit < 0 then .done (s.placed k.id false)
      else if s.canProgram f .demote true then
        .wait ((s.startProgram f.pfh .demote true).setCmd k.id fun c => { c with mark := 2, alloc := none })
      else .wait (s.waitAlloc k.id)
    | .empty => .done (s.placed k.id false)
    | .writing => .wait s
    | .promoting => .wait s
    | .demoting => .wait s
    | .dropped => .done (s.placed k.id false)
    | .poisoned => .done (s.placed k.id false)

/-- TARGET 3, the page resident in T1: its copy is verified and sent; the command holds a read pin on it until PAGE_ACK or the
failure of the message ends the page's move. -/
def State.sendExport (s : State) (k : Cmd) (q : SeqRec) (f g : Frame) : Moved :=
  match q.ptes.find? fun e => e.pfh == f.pfh, (s.allocDone k.id).takePin k.id g with
  | none, _ => .done (s.placed k.id false)
  | _, none => .wait s
  | some e, some s =>
    let v := s.verifyT1 g
    match v.2 with
    | some why => .wait (v.1.moveFailed k g why)
    | none =>
      let ldec := (g.hdr?.map (·.ldec)).getD 0
      let s := v.1
      let b := s.pageBody g ldec (memRead (s.heldPage g) 0 ldec) g.part true
      .wait ((s.sendPage k.ctx (dF k.desc 22 1) b).setDom fun d => { d with exports := d.exports ++
        [({ id := k.id, seq := q.idx, lpi := e.lpi, layer := e.layer, head := e.head, pfh := g.pfh, ver := g.ver
            peer := dF k.desc 22 1 } : Export)] })

/-- TARGET 3: export to the part PEER (R391). -/
def State.moveOut (s : State) (k : Cmd) (q : SeqRec) (f : Frame) : Moved :=
  if s.dom.exports.any fun e => e.id == k.id then .wait s
  else if f.refs ≠ 1 ∨ f.peer.isSome ∨ s.pageGone f.pfh ∨ dF k.desc 22 1 = s.ownPart then .done (s.placed k.id false)
  else
    let r := s.needPage f.pfh k.id k.ctx q.idx true
    match r.2 with
    | .gone => .done (s.placed k.id false)
    | .wait => .wait (r.1.allocDone k.id)
    | .noSpace => .wait (r.1.waitAlloc k.id)
    | .ready g => if g.st = .demoting ∨ g.st = .writing ∨ g.reread.isSome then .wait s else s.sendExport k q f g

/-- One page of the move. -/
def State.moveOne (s : State) (k : Cmd) (q : SeqRec) (p : Nat) : Moved :=
  match s.frame? p with
  | none => .done (s.placed k.id false)
  | some f =>
    let t := dF k.desc 20 1
    if t ≤ 1 then s.moveUp k q.idx f (t == 0)
    else if t = 2 then s.moveDown k f
    else s.moveOut k q f

/-- Handle pages until one must wait or none is left; the fuel is the number of pages. -/
def State.moveAll (s : State) (c : CmdId) (h : Nat) : Nat → State
  | 0 => s
  | n + 1 =>
    match s.cmd? c, s.seqOf? h with
    | some k, some q =>
      match k.todo with
      | [] => s
      | p :: _ => match s.moveOne k q p with
        | .done t => t.moveAll c h n
        | .wait t => t
    | _, _ => s

/-- Complete a PAGES_PLACE whose pages are all handled. -/
def State.placeEnd (s : State) (c : CmdId) : State :=
  match s.cmd? c with
  | none => s
  | some k => if k.todo.isEmpty then
      s.finish c (if k.count = 0 then St.ok else St.okPartial) { result := if k.count = 0 then 0 else k.count % two32 }
    else s

/-- Apply the settings of a PAGES_PLACE to the frames in `ps` and, with WHOLE, to the sequence. -/
def State.placeSettings (s : State) (k : Cmd) (q : SeqRec) (ps : List Nat) : State :=
  if dFlag k.desc 2 then s
  else
    let new := s.namedSet q.part k.desc
    let s := if dFlag k.desc 0 then s.setSeq q.idx fun r => { r with defaults := new } else s
    s.setAll new (dedup (ps.filter (· ≠ 0)))

def placeBody (k : Cmd) (s : State) : State :=
  let d := k.desc
  match s.seqOf? (dHandle d) with
  | none => s.finish k.id St.badHandle
  | some q => match s.prof? q.mprof with
    | none => s.finish k.id St.badField
    | some p =>
      if k.mark = 0 then
        if !dFlag d 0 ∧ !rangeOk p q (dF d 8 4) (dF d 12 4) (dF d 16 2) (dF d 18 2) then s.complete k.id St.badField
        else if !dFlag d 0 ∧ (dF d 12 4 = 0 ∨ dF d 18 2 = 0) then s.complete k.id St.okEmpty
        else
          let ps := (placePlaces d p q).map fun x => ((q.pte? x.1 x.2.1 x.2.2).map (·.pfh)).getD 0
          let s := s.placeSettings k q ps
          if !dFlag d 1 then s.complete k.id St.ok
          else ((s.setCmd k.id fun c => { c with mark := 1, todo := ps }).moveAll k.id q.handle ps.length).placeEnd k.id
      else (s.moveAll k.id q.handle k.todo.length).placeEnd k.id

/-- PAGES_PLACE. -/
def execPlace (c : CmdId) (s : State) : State := s.runCmd c (fun d => dOp d == Op.pagesPlace) State.startCheck placeBody

/-! ## TABLE_LOAD (R306, R309, R311 to R313) -/

/-- Does a profile's layer count give `n` layer groups? -/
def layerGroups (p : Profile) : Nat := (p.layers + 2 ^ p.lgrp - 1) / 2 ^ p.lgrp

/-- Is the table held with different content? -/
def State.tableClash (s : State) (r : TableRec) : Bool :=
  (s.heldTable? r.tid).any fun t => t.tlog != r.tlog || t.freq != r.freq

/-- Step 4 of R313 beyond the descriptor: the layout, records valid and distinct, no held ID changed, every binding named. -/
def State.imageOk (s : State) (p : Profile) (img : TableSetImage) : Bool :=
  !img.reservedBad && img.tset != 0 && p.tset == img.tset && img.ngroups == layerGroups p &&
  img.tables.all tableValid && decide ((img.tables.map (·.tid)).Nodup) &&
  img.tables.all (fun r => !s.tableClash r) &&
  img.bind.all fun b => [b.1, b.2].all fun t =>
    t == 65535 || img.tables.any (fun r => r.tid == t) || (s.heldTable? t).isSome

/-- Store the records of an image and replace the bindings of its set; what nothing names any more is released (R313 step 5). -/
def State.loadTables (s : State) (img : TableSetImage) (obj : Signed) : State :=
  let s := s.storeTables (img.tables.map tableOf)
  ({ s with tab := { s.tab with sets := s.tab.sets.filter (fun (x : TableSet) => x.tset ≠ img.tset) ++
      [(⟨img.tset, img.mprof, img.bind, signedDigest obj, sigSvn obj⟩ : TableSet)] } }).pruneTables

/-- Steps 4 and 5 of a TABLE_LOAD. With LEN 0 the space is still checked (R101), its range then being empty. -/
def State.checkTable (s : State) (k : Cmd) : Option Nat :=
  let d := k.desc
  match s.ctx? k.ctx with
  | none => some St.accessDenied
  | some x =>
    let h := s.spaceCheck k.ctx (dImage d) false (dF d 24 4)
    if h = some St.badHandle then h
    else if !x.r.tableRight.contains (dF d 28 2) then some St.accessDenied
    else h

/-- Steps 3 to 5 of R313 on the bytes that were read. `bad`: copies of the store that the memory holds damaged then (R310). -/
def State.tableRun (s : State) (k : Cmd) (bad : List (Nat × Bool)) (b : List Byte) : State :=
  let d := k.desc
  let obj := signedOf b
  match s.checkSig 1 obj with
  | (s, false) => s.complete k.id St.signatureInvalid
  | (s, true) =>
    let img := imageOf b
    if img.tset ≠ dF d 8 2 ∨ img.len ≠ dF d 24 4 ∨ img.mprof ≠ dF d 28 2 then s.complete k.id St.badField
    else match s.prof? img.mprof with
      | none => s.complete k.id St.badField
      | some p => if !s.imageOk p img then s.complete k.id St.badField
        else ((s.loadTables img obj).damageTables bad).complete k.id St.ok

/-- Once nothing of the image is owed, it is judged and loaded. -/
def State.tableGo (s : State) (bad : List (Nat × Bool)) (c : CmdId) : State :=
  match s.cmd? c with
  | none => s
  | some k => match k.fail with
    | some st => s.complete c st
    | none => if k.owed = 0 then s.tableRun k bad k.reads.flatten else s

def tableBody (bad : List (Nat × Bool)) (k : Cmd) (s : State) : State :=
  let d := k.desc
  let len := dF d 24 4
  if k.mark ≠ 0 then s.tableGo bad k.id
  else if len = 0 then s.complete k.id St.okEmpty
  else if len > 4 * 2 ^ 20 ∨ !s.spaceLong k.ctx (dImage d) len then s.complete k.id St.lengthLimit
  else ((s.spaceRead k.id k.ctx (dImage d) len).setCmd k.id fun c => { c with mark := 1 }).tableGo bad k.id

/-- TABLE_LOAD. -/
def execTableF (c : CmdId) (bad : List (Nat × Bool)) (s : State) : State :=
  s.runCmd c (fun d => dOp d == Op.tableLoad) State.startCheck (tableBody bad)

end Sys2Proof.Machine
end

