-- ==== Sys2Proof/Machine/Wire.lean ====
section
/-! DEFINITION. The Lathe transport (chapter 9): sending, the destination cache and rates, replies and retransmission,
receiving with the duplicate filter and reassembly, reads by peers, and the Ethernet interfaces. -/

namespace Sys2Proof.Machine

def State.setFxt (s : State) (f : Fabric → Fabric) : State := { s with fxt := f s.fxt }

/-- `a` lies below `b` in 32-bit serial order. -/
def below (a b : Nat) : Bool := decide ((b + two32 - a) % two32 ≠ 0) && decide ((b + two32 - a) % two32 < 2147483648)

/-! ## Headers (R333) -/

def State.node (s : State) : Nat := s.fld F.FXT_NODE_NODE

/-- LOW of packets to a destination (R338). -/
def State.lowOf (s : State) (dst : Nat) : Nat :=
  match s.fxt.msgs.find? fun m => m.dst == dst with
  | some m => m.msgid
  | none => (s.dest dst).next

/-- Fill the fields of a header that hold at its leaving. -/
def State.stamp (s : State) (p : Packet) : Packet :=
  { p with src := s.node, domain := s.fld F.FXT_NODE_DOMAIN, inc := s.fld F.FXT_NODE_INC, epoch := s.epoch, low := s.lowOf p.dst }

def blankPacket (typ : PktType) (dst msgid : Nat) : Packet :=
  { typ := typ, src := 0, dst := dst, domain := 0, msgid := msgid }

/-! ## Rates (R362), in kb/s -/

/-- The starting rate: the interfaces of the IFMASK that exist. -/
def State.startRate (s : State) (node : Nat) : Nat :=
  (((List.range 64).filter fun i => dF (s.ep node) 4 8 / 2 ^ i % 2 == 1 && s.ifaceExists i).map fun i =>
    s.ifaceRate i * 8000).foldl (· + ·) 0

def State.rateOf (s : State) (node : Nat) : Nat :=
  let top := s.startRate node
  if s.fld F.FXT_CC_CFG_CC_OFF = 1 then top else min top ((s.dest node).rate.getD top)

/-- Set a destination's rate, never below 1 Gb/s. With rate control off it stays as it is. -/
def State.setRate (s : State) (node r : Nat) : State :=
  if s.fld F.FXT_CC_CFG_CC_OFF = 1 then s else s.setDest { s.dest node with rate := some (max 1000000 r) }

/-- ECE: at most once per DEC_GAP; it also restarts the wait for an increase. -/
def State.gotEce (s : State) (node : Nat) : State :=
  let d := s.dest node
  let gap := max 1 (s.fld F.FXT_CC_CFG_DEC_GAP) * cyclesPerUs
  let s := s.setDest { d with quiet := s.cycles }
  if d.decAt = 0 ∨ d.decAt + gap ≤ s.cycles then
    let r := s.rateOf node * (256 - s.fld F.FXT_CC_CFG_MD) / 256
    let t := s.setRate node r
    t.setDest { t.dest node with decAt := s.cycles }
  else s

/-- CC_RATE_INCREASE. -/
def execRateUp (node : Nat) (s : State) : State :=
  let d := s.dest node
  match d.rate with
  | none => s
  | some r =>
    let s := s.reach (d.quiet + max 1 (s.fld F.FXT_CC_CFG_INC_GAP) * cyclesPerUs)
    let t := s.setRate node (min (s.startRate node) (r + s.fld F.FXT_CC_CFG_AI * 1000000))
    t.setDest { t.dest node with quiet := s.cycles }

/-- Time at which the rate admits the next packet of `n` bytes, and the time after it. -/
def State.paceTo (s : State) (node n : Nat) : State × Nat :=
  let d := s.dest node
  let at_ := max d.freeAt s.cycles
  let r := max 1 (s.rateOf node)
  (s.setDest { d with freeAt := at_ + (n * 12000000 + r - 1) / r, turn := d.turn + 1 }, at_)

/-! ## The packets of a message (R332, R337) -/

/-- Packets of a message with their wire payload lengths. -/
def State.msgPackets (s : State) (m : TxMsg) (retx : Bool) : List (EgsBody × Nat) :=
  match m.carry with
  | .data rkey off bytes imm =>
    let ps := cutBytes s.payload (bytes.length + 1) bytes
    ((List.range ps.length).zip ps).map fun x =>
      let p := blankPacket .write m.dst m.msgid
      (.pkt { p with
        hasImm := imm.isSome, retx := retx, pkt := x.1, rkey := rkey, roff := off + x.1 * s.payload, mlen := bytes.length
        imm := imm.getD 0, payload := x.2 }, x.2.length)
  | .read rkey off len _ _ _ =>
    let p := blankPacket .readReq m.dst m.msgid
    [(.pkt { p with retx := retx, rkey := rkey, roff := off, mlen := len }, 0)]
  | .svc v =>
    let n := (svcLen v + s.payload - 1) / s.payload
    (List.range (max 1 n)).map fun i => (.svc v, min s.payload (svcLen v - i * s.payload))

/-- Bytes a message holds in the retransmit store. -/
def TxMsg.size (m : TxMsg) : Nat :=
  match m.carry with
  | .data _ _ b _ => b.length
  | .read _ _ _ _ _ _ => 0
  | .svc v => svcLen v

/-- Does the message bypass EGS (R419)? -/
def TxMsg.bypass (m : TxMsg) : Bool :=
  match m.carry with
  | .data _ _ _ _ => false
  | .read _ _ _ _ _ _ => true
  | .svc v => svcBypass v

/-- Put a packet on the wire. -/
def State.sendBody (s : State) (i dst : Nat) (b : EgsBody) (last : Bool) : State :=
  match b with
  | .pkt p => s.sendPacket i (s.stamp p)
  | .svc v => if last then s.emit (.svc dst (svcHeader v) v) else s

def State.setMsg (s : State) (m : TxMsg) (f : TxMsg → TxMsg) : State :=
  s.setFxt fun x => { x with msgs := updIf x.msgs (fun y => y.dst == m.dst && y.msgid == m.msgid) f }

/-- Queue the packets of a message to EGS, in turn over the interfaces. -/
def State.queuePackets (s : State) (m : TxMsg) (ifs : List Nat) : List (EgsBody × Nat) → State
  | [] => s
  | (b, n) :: t =>
    let len := n + s.overhead m.dst
    let i := ifs.getD ((s.dest m.dst).turn % max 1 ifs.length) 0
    let r := s.paceTo m.dst len
    (r.1.setEgs fun e => { e with queue := e.queue ++ [⟨i, m.ctx, len, r.2, m.dst, m.msgid, b⟩] }).queuePackets m ifs t

/-- Packets of a message that still wait in EGS are replaced by a resend. -/
def State.unqueue (s : State) (m : TxMsg) : State :=
  s.setEgs fun e => { e with queue := e.queue.filter fun q => !(q.dst == m.dst && q.msgid == m.msgid &&
    (match q.body with
      | .pkt p => p.typ != .readResp
      | .svc _ => true)) }

/-- Send the packets of a message, charging its payload (Table 11.5). Without an interface that carries traffic they are
lost, and the timer runs. -/
def State.transmit (s : State) (m : TxMsg) (retx : Bool) : State :=
  let ps := s.msgPackets m retx
  let ifs := if s.epKind m.dst = 1 ∨ s.epKind m.dst = 2 then s.epIfaces m.dst else []
  let s := (s.unqueue m).chargeFab m.ctx m.size true
  let s := match m.cmd with
    | some c => if s.cmds.any fun k => k.owns m then s.setCmd c fun k => { k with bytes := k.bytes + m.size } else s
    | none => s
  match ifs with
  | [] => s.setMsg m fun x => { x with sent := true, left := 0, sentAt := s.cycles }
  | i :: _ =>
    if m.bypass then
      let s := match ps with
        | (b, _) :: _ => s.sendBody i m.dst b true
        | [] => s
      s.setMsg m fun x => { x with sent := true, left := 0, sentAt := s.cycles }
    else (s.setMsg m fun x => { x with sent := true, left := ps.length, sentAt := s.cycles }).queuePackets m ifs ps

/-! ## Sending (R337 to R340) -/

/-- Messages to a destination that count against its window. -/
def State.outstanding (s : State) (dst : Nat) : Nat := (s.fxt.msgs.filter fun m => m.dst == dst && m.sent).length
def State.window (s : State) : Nat := min 4096 (max 1 (s.fld F.FXT_FLOW_CFG_WINDOW))

/-- Bytes in the retransmit store. -/
def State.stored (s : State) : Nat := ((s.fxt.msgs.filter (·.sent)).map TxMsg.size).foldl (· + ·) 0

/-- May the message leave: it is the oldest one waiting for its destination, within the window and the store, and not held
behind earlier messages of its command? -/
def State.maySend (s : State) (m : TxMsg) : Bool :=
  !m.sent &&
  (match s.fxt.msgs.find? fun x => x.dst == m.dst && !x.sent with
    | some x => x.msgid == m.msgid
    | none => false) &&
  decide (s.outstanding m.dst < s.window) &&
  decide (s.stored + m.size ≤ (s.blank.map (·.retxStore)).getD 0) &&
  !(m.hold && s.fxt.msgs.any fun x => x.cmd == m.cmd && x.adm == m.adm && x.firing == m.firing && x.msgid != m.msgid)

def State.firstSend (s : State) (m : TxMsg) : State :=
  let s := (s.bump F.FXT_TX_STAT_MESSAGES).transmit m false
  match m.cmd with
  | some c => s.settleRma c
  | none => s

def State.msg? (s : State) (dst msgid : Nat) : Option TxMsg := s.fxt.msgs.find? fun m => m.dst == dst && m.msgid == msgid

/-- MESSAGE_SEND: with its destination cached. -/
def execMsgSend (dst msgid : Nat) (s : State) : State :=
  match s.msg? dst msgid with
  | none => s
  | some m =>
    if s.maySend m ∧ s.fxt.cached.contains dst then
      ((s.setFxt fun x => { x with cached := dst :: x.cached.filter (· ≠ dst) }).bump F.FXT_DEST_STAT_HITS).firstSend m
    else s

/-- The cache with a destination loaded: the least recent entry without outstanding messages makes room. -/
def State.cacheRoom (s : State) (node : Nat) : Option (List Nat) :=
  if s.fxt.cached.length < 16384 then some (node :: s.fxt.cached)
  else match (s.fxt.cached.reverse).find? fun n => s.outstanding n == 0 with
    | none => none
    | some n => some (node :: s.fxt.cached.filter (· ≠ n))

/-- DEST_CACHE_LOAD: the missed entry is loaded, and the waiting message proceeds. -/
def execDestLoad (node : Nat) (s : State) : State :=
  if s.fxt.cached.contains node then s
  else match s.cacheRoom node with
    | none => s
    | some l =>
      let s := (s.setFxt fun x => { x with cached := l }).bump F.FXT_DEST_STAT_MISSES
      match s.fxt.msgs.find? fun m => m.dst == node && !m.sent with
      | none => s
      | some m => if s.maySend m then s.firstSend m else s

/-- A packet of a message has left an interface. -/
def State.packetLeft (s : State) (dst msgid : Nat) : State :=
  match s.msg? dst msgid with
  | none => s
  | some m =>
    let s := s.setMsg m fun x => { x with left := x.left - 1, sentAt := s.cycles }
    match m.cmd with
    | some c => s.settleRma c
    | none => s

/-- EGS_PACKET_SELECT. -/
def execSelect (i : Nat) (s : State) : State :=
  if !s.ifaceUp i then s
  else
    let r := s.pickPacket i
    match r.2 with
    | none => s
    | some h =>
      let s := r.1.takePacket h
      let last := (s.msg? h.dst h.msgid).any fun m => m.left == 1
      let t := s.sendBody i h.dst h.body last
      match h.body with
      | .svc _ => t.packetLeft h.dst h.msgid
      | .pkt p => if p.typ = .readResp then t else t.packetLeft h.dst h.msgid

/-! ## Replies and timers (R341, R349) -/

/-- A message fails. -/
def State.msgFails (s : State) (m : TxMsg) (st : Nat) : State :=
  let s := s.unqueue m
  match m.carry with
  | .svc v => (s.dropMsg m).svcFailed m.dst v
  | .data _ _ _ _ => s.msgLost m st
  | .read _ _ _ _ _ _ => s.msgLost m st

/-- Send a message again. -/
def State.resend (s : State) (m : TxMsg) : State := (s.bump F.FXT_TX_STAT_RETX).transmit m true

/-- ACK of a message. A read request is answered by its data alone. -/
def State.acked (s : State) (src msgid : Nat) : State :=
  match s.msg? src msgid with
  | none => s
  | some m =>
    if !m.sent then s
    else match m.carry with
      | .svc v => ((s.unqueue m).dropMsg m).svcAcked src v
      | .data _ _ _ _ => (s.unqueue m).msgDone m
      | .read _ _ _ _ _ _ => s

/-- A NAK. -/
def State.naked (s : State) (src msgid st : Nat) : State :=
  match s.msg? src msgid with
  | none => s
  | some m =>
    if !m.sent then s
    else if st = St.busyRetry then
      let first := (m.busy.map (·.1)).getD s.cycles
      if first + max 1 (s.fld F.FXT_RETX_CFG_BUSY_TIME) * 1000 * cyclesPerUs ≤ s.cycles then
        (s.bump F.FXT_TX_STAT_TIMEOUTS).msgFails m St.timeout
      else s.setMsg m fun x => { x with busy := some (first, s.cycles) }
    else s.msgFails m st

/-- BUSY_RESEND: BUSY_DELAY µs after the NAK; it does not count towards RETRY_MAX. -/
def execBusyAgain (dst msgid : Nat) (s : State) : State :=
  match s.msg? dst msgid with
  | none => s
  | some m => match m.busy with
    | none => s
    | some b =>
      if b.2 = 0 then s
      else
        let s := (s.reach (b.2 + max 1 (s.fld F.FXT_RETX_CFG_BUSY_DELAY) * cyclesPerUs)).resend m
        s.setMsg m fun x => { x with busy := some (b.1, 0) }

/-- BUSY_TIME_EXPIRE. -/
def execBusyEnd (dst msgid : Nat) (s : State) : State :=
  match s.msg? dst msgid with
  | none => s
  | some m => match m.busy with
    | none => s
    | some b =>
      let s := s.reach (b.1 + max 1 (s.fld F.FXT_RETX_CFG_BUSY_TIME) * 1000 * cyclesPerUs)
      (s.bump F.FXT_TX_STAT_TIMEOUTS).msgFails m St.timeout

def TxMsg.isRead (m : TxMsg) : Bool :=
  match m.carry with
  | .read _ _ _ _ _ _ => true
  | .data _ _ _ _ => false
  | .svc _ => false

/-- RTO µs without a reply: resend with the rate halved, or give up. -/
def State.timeoutMsg (s : State) (m : TxMsg) : State :=
  let s := s.reach (m.sentAt + max 1 (s.fld F.FXT_RETX_CFG_RTO) * cyclesPerUs)
  let s := s.setRate m.dst (s.rateOf m.dst / 2)
  if m.tries < s.fld F.FXT_RETX_CFG_RETRY_MAX then
    (s.setMsg m fun x => { x with tries := x.tries + 1 }).resend m
  else (s.bump F.FXT_TX_STAT_UNREACHABLE).msgFails m St.peerUnreachable

/-- Is the message's timer running: its last packet has left and no BUSY_RETRY delay runs? -/
def TxMsg.timed (m : TxMsg) : Bool :=
  m.sent && m.left == 0 && (match m.busy with
    | none => true
    | some b => b.2 == 0)

/-- RETX_TIMEOUT. -/
def execRetx (dst msgid : Nat) (s : State) : State :=
  match s.msg? dst msgid with
  | none => s
  | some m => if m.timed ∧ !m.isRead then s.timeoutMsg m else s

/-- READ_RETRY. -/
def execReadAgain (dst msgid : Nat) (s : State) : State :=
  match s.msg? dst msgid with
  | none => s
  | some m => if m.timed ∧ m.isRead then s.timeoutMsg m else s

/-! ## What an interface accepts (R330, R331, R333) -/

/-- Does MACsec accept the frame: a live association has its number, its ICV verifies and the replay window admits it? -/
def State.secOk (s : State) (x : RxFrame) (an pn : Nat) : Bool :=
  x.icvOk && (s.mka? x.iface).any fun m => m.rx.any fun r => r.an == an && r.admits (s.fld F.ETH_MACSEC_CFG_WINDOW) pn

/-- The packet number of an accepted frame counts for the replay window. -/
def State.heardPn (s : State) (x : RxFrame) : State :=
  match x.sectag with
  | none => s
  | some (an, pn) => s.setMka x.iface fun m => { m with rx := updIf m.rx (fun r => r.an == an) fun r => ⟨an, max r.pn pn⟩ }

/-- An untagged, unfragmented UDP datagram to this interface on UDP_PORT whose checksum verifies (R329, R331, R332). -/
def State.udpOk (s : State) (x : RxFrame) : Bool :=
  x.udp && !x.vlan && !x.fragment && x.udpSumOk && x.dport == s.fld F.FXT_NET_CFG_UDP_PORT

/-- Checks of the link and the header; a frame that fails one is discarded and counted. -/
def State.linkCheck (s : State) (x : RxFrame) : Option State :=
  if !s.ifaceExists x.iface ∨ s.dead ∨ s.fld F.ETH_LINK_STAT_UP x.iface = 0 then some s
  else if !x.fecOk then some (s.bump F.ETH_LINK_STAT_FEC_UNCORR 1 x.iface)
  else match x.sectag with
    | none => some (s.bump F.ETH_MACSEC_STAT_UNPROTECTED 1 x.iface)
    | some (an, pn) =>
      if !s.saLive x.iface then some s
      else if !s.secOk x an pn then some (s.bump F.ETH_MACSEC_STAT_ICV_FAIL 1 x.iface)
      else if !s.udpOk x ∨ !x.headerOk ∨ x.p.dst ≠ s.node ∨ x.p.domain ≠ s.fld F.FXT_NODE_DOMAIN then
        some ((s.heardPn x).bump F.FXT_RX_DROP_HEADER)
      else none

def State.source? (s : State) (node : Nat) : Option (Nat × Nat) := (s.fxt.sources.find? fun x => x.1 == node).map (·.2)

def State.setSource (s : State) (node inc low : Nat) : State :=
  s.setFxt fun x => { x with sources := x.sources.filter (fun y => y.1 ≠ node) ++ [(node, inc, low)] }

/-- The incarnation check (R344): `none` discards the packet. -/
def State.incCheck (s : State) (p : Packet) : Option State :=
  match s.source? p.src with
  | none => some (s.setSource p.src p.inc p.low)
  | some (inc, low) =>
    if p.inc = inc then some (if below low p.low then s.setSource p.src inc p.low else s)
    else if below inc p.inc then
      let t := (s.setSource p.src p.inc p.low).setFxt fun x => { x with
        filter := x.filter.filter fun e => e.src ≠ p.src
        reasm := x.reasm.filter fun r => r.src ≠ p.src }
      some (t.peerGone p.src)
    else none

/-- Send an ACK or a NAK on the interface the packet came by. -/
def State.answer (s : State) (x : RxFrame) (status : Nat) (ece : Bool) : State :=
  let q := blankPacket (if status = 0 then .ack else .nak) x.p.src x.p.msgid
  s.sendPacket x.iface (s.stamp { q with status := status, ece := ece })

/-! ## The region check (R343 step 4, R349) -/

def State.regionCheck (s : State) (p : Packet) (len : Nat) (write : Bool) : Except Nat Region :=
  let k := p.rkey.toNat
  match s.fxt.regions.find? fun r => r.index == k / 4096 with
  | none => .error St.badHandle
  | some r =>
    let ten := s.epTenant p.src
    match s.ctx? r.ctx with
    | none => .error St.regionRevoked
    | some x =>
      if r.gen % 4096 ≠ k % 4096 ∨ r.freeing ∨ x.st ≠ .up then .error St.regionRevoked
      else if !(if write then r.remWrite else r.remRead) ∨ !(ten = 65535 ∨ ten = x.r.tenant) then .error St.accessDenied
      else if p.roff + len > r.len then .error St.lengthLimit
      else .ok r

/-! ## The duplicate filter (R345) -/

def State.dup? (s : State) (src msgid : Nat) : Option DupEnt := s.fxt.filter.find? fun e => e.src == src && e.msgid == msgid

/-- Is an entry released? -/
def State.released? (s : State) (e : DupEnt) : Bool :=
  match s.source? e.src with
  | none => true
  | some (_, low) => below e.msgid low

/-- Make room for an entry: a free one, else the oldest released. -/
def State.filterRoom (s : State) : Option State :=
  if s.fxt.filter.length < 65536 then some s
  else match s.fxt.filter.find? s.released? with
    | none => none
    | some e => some (s.setFxt fun x => { x with filter := x.filter.erase e })

/-- Set the state of a message's entry, adding it when absent. States: 0 reassembly, 1 complete, 2 refused. -/
def State.setDup (s : State) (src msgid st status : Nat) : State :=
  let l := s.fxt.filter
  let l := if l.any (fun e => e.src == src && e.msgid == msgid) then
      updIf l (fun e => e.src == src && e.msgid == msgid) fun e => { e with st := st, status := status }
    else l ++ [⟨src, msgid, st, status⟩]
  s.setFxt fun x => { x with filter := l }

def State.dropDup (s : State) (src msgid : Nat) : State :=
  s.setFxt fun x => { x with filter := x.filter.filter fun e => !(e.src == src && e.msgid == msgid) }

def State.dropReasm (s : State) (src msgid : Nat) : State :=
  s.setFxt fun x => { x with reasm := x.reasm.filter fun r => !(r.src == src && r.msgid == msgid) }

/-- Refuse a message: recorded, counted, answered. -/
def State.refuse (s : State) (x : RxFrame) (st : Nat) : State :=
  let s := (s.dropReasm x.p.src x.p.msgid).bump F.FXT_RX_STAT_REFUSED
  (s.setDup x.p.src x.p.msgid 2 st).answer x st false

def State.busyNak (s : State) (x : RxFrame) : State := (s.bump F.FXT_RX_STAT_BUSY_NAKS).answer x St.busyRetry false

/-! ## Placing and completing (R343, R346, R347, R352) -/

/-- Place bytes in a region; `none` where the write fails translation at a host region, so that nothing is placed. -/
def State.putBytes (s : State) (r : Region) (off : Nat) (b : List Byte) : Option State :=
  let t := s.chargeFab r.ctx b.length false
  if b.isEmpty then some t
  else if r.hostMem then
    (if s.xlatOk (s.funcOf r.ctx) (r.addr + off) b.length then
      some ((t.emit (.hostWrite (s.funcOf r.ctx) (r.addr + off) b)).chargeHost r.ctx b.length) else none)
  else some (t.regionStore r off b)

def State.reasm? (s : State) (src msgid : Nat) : Option Reasm := s.fxt.reasm.find? fun r => r.src == src && r.msgid == msgid

/-- The record of a message after one more packet. -/
def Reasm.add (r : Reasm) (x : RxFrame) (now : Nat) : Reasm :=
  { r with
    got := if r.got.any fun g => g.1 == x.p.pkt then r.got else r.got ++ [(x.p.pkt, x.p.payload.length)]
    ece := r.ece || x.ce, last := now, first := if x.p.pkt = 0 then x.p.roff else r.first }

def State.setReasm (s : State) (r : Reasm) : State :=
  s.setFxt fun x => { x with reasm := x.reasm.filter (fun y => !(y.src == r.src && y.msgid == r.msgid)) ++ [r] }

/-- Every packet of the message is placed: its bytes are all here. -/
def Reasm.full (r : Reasm) (mlen : Nat) : Bool := decide (mlen ≤ (r.got.map (·.2)).foldl (· + ·) 0)

/-- How the posting of an immediate ends. -/
inductive Posted where
  | done (s : State)
  | busy (s : State)
  | denied (s : State)

/-- A notification record (Table 9.8). -/
def notifyRecord (imm : Word32) (mlen first src phase : Nat) : List Byte :=
  leBytes 4 imm.toNat ++ leBytes 4 mlen ++ leBytes 4 first ++ leBytes 2 src ++ leBytes 1 phase ++ leBytes 1 0

/-- The control word is read when the ring looks full: what host memory holds is a free value. -/
def State.readControl (s : State) (r : Region) : State :=
  if (r.nqPi + two32 - r.nqCi) % two32 < r.nqEntries then s
  else
    let ci := leNat ((List.range 4).map (Config.hostByte s.free))
    ((s.nextFree.emit (.hostFetch (s.funcOf r.ctx) (r.nqAddr + 16 * r.nqEntries) 8)).chargeHost r.ctx 8).setRegion r.index
      fun x => { x with nqCi := ci }

/-- Write a record to the notification ring, then its message. -/
def State.notify (s : State) (r : Region) (p : Packet) (first : Nat) : Posted :=
  let s := s.readControl r
  match s.fxt.regions.find? fun y => y.index == r.index with
  | none => .denied s
  | some r =>
    if (r.nqPi + two32 - r.nqCi) % two32 ≥ r.nqEntries then .busy s
    else
      let f := s.funcOf r.ctx
      let a := r.nqAddr + 16 * (r.nqPi % r.nqEntries)
      if !s.xlatOk f a 16 then .denied s
      else
        let b := notifyRecord p.imm p.mlen first p.src (phaseBit r.nqPi r.nqEntries)
        let s := ((s.emit (.hostWrite f a b)).chargeHost r.ctx 16).setRegion r.index fun x => { x with nqPi := (x.nqPi + 1) % two32 }
        .done (if r.nqVector = 65535 then s else s.emit (.msix f r.nqVector))

/-- The doorbell of every DB_IMM queue whose ring lies in the region (R84). -/
def State.ringEach (s : State) (p : Nat) : List Wq → State
  | [] => s
  | w :: t => (s.evalDoorbell w.q p).ringEach p t

/-- Deliver an immediate (R347 step 1). -/
def State.deliverImm (s : State) (r : Region) (p : Packet) (first : Nat) : Posted :=
  match s.qdb.wqs.filter fun w => w.region && w.dbImm && w.rkey == r.rkey && w.ctx == r.ctx with
  | w :: t => .done (s.ringEach p.imm.toNat (w :: t))
  | [] =>
    if r.nqEntries = 0 then .done (s.advanceTrig r.trig)
    else match s.notify r p first with
      | .done s => .done (s.advanceTrig r.trig)
      | .busy s => .busy s
      | .denied s => .denied s

/-- The message is complete: recorded and acknowledged. -/
def State.rxDone (s : State) (x : RxFrame) (ece : Bool) : State :=
  let s := (s.dropReasm x.p.src x.p.msgid).bump F.FXT_RX_STAT_MESSAGES
  (s.setDup x.p.src x.p.msgid 1 St.ok).answer x 0 ece

/-- R347 for a message whose packets are all placed; `r` is its region, none for a SERVICE message. -/
def State.rxComplete (s : State) (x : RxFrame) (r : Option Region) (w : Reasm) : State :=
  let p := x.p
  match r with
  | none => s.rxDone x w.ece
  | some r =>
    if !p.hasImm then s.rxDone x w.ece
    else if (s.source? p.src).any fun y => below p.msgid y.2 then (s.bump F.FXT_DUP_STAT_SUPPRESSED).rxDone x w.ece
    else match s.deliverImm r p w.first with
      | .done s => s.rxDone x w.ece
      | .busy s => ((s.dropReasm p.src p.msgid).dropDup p.src p.msgid).busyNak x
      | .denied s => ((s.dropReasm p.src p.msgid).dropDup p.src p.msgid).answer x St.accessDenied false

/-- Steps 5 and 6: place the packet and enter it in the message's record. A packet whose write fails translation is not placed:
its message is refused with ACCESS_DENIED, as R549 has it for a notification record, so that no immediate announces bytes that
did not arrive (R36; DESIGN CHOICE, log 44). -/
def State.rxPlace (s : State) (x : RxFrame) (r : Option Region) : State :=
  let p := x.p
  let old := s.reasm? p.src p.msgid
  if old.isNone ∧ s.fxt.reasm.length ≥ 8192 then s.bump F.FXT_RX_DROP_REASM_FULL
  else match (if (s.dup? p.src p.msgid).isSome then some s else s.filterRoom) with
    | none => s.busyNak x
    | some s =>
      let s := if (s.dup? p.src p.msgid).isSome then s else s.setDup p.src p.msgid 0 0
      match (match r with
        | some r => s.putBytes r p.roff p.payload
        | none => some s) with
      | none => s.refuse x St.accessDenied
      | some s =>
      let cord := (old.getD ⟨p.src, p.msgid, [], false, 0, p.roff⟩).add x s.cycles
      let s := s.setReasm cord
      if cord.full p.mlen then s.rxComplete x r cord else s

/-- Steps 3 and 4 for a WRITE or SERVICE packet. In HOLD and PARK it is refused with BUSY_RETRY and wakes the part (R497,
R498). -/
def State.rxData (s : State) (x : RxFrame) : State :=
  let p := x.p
  let fresh (s : State) : State :=
    if p.typ = .service then (if p.svcUnknown then s.refuse x St.badField else s.rxPlace x none)
    else match s.regionCheck p p.payload.length true with
      | .ok r => s.rxPlace x (some r)
      | .error st => match (if (s.dup? p.src p.msgid).isSome then some s else s.filterRoom) with
        | none => s.busyNak x
        | some s => s.refuse x st
  if s.asleep then (s.busyNak x).wakeFab else match s.dup? p.src p.msgid with
  | some e => if e.st = 0 then fresh s else (s.bump F.FXT_DUP_STAT_DUPLICATES).answer x e.status false
  | none => fresh s

/-! ## Reads by peers (R349) -/

/-- Bytes of a region for a peer: those of host memory are free values. -/
def State.readBytes (s : State) (r : Region) (off n : Nat) : State × List Byte :=
  if r.hostMem then
    (((s.emit (.hostFetch (s.funcOf r.ctx) (r.addr + off) n)).chargeHost r.ctx n).nextFree,
      (List.range n).map (Config.hostByte s.free))
  else (s, s.regionLoad r off n)

/-- Queue the READ_RESP packets; they belong to the context that owns the region. -/
def State.queueResp (s : State) (i ctx : Nat) (q : Packet) : List (Nat × List Byte) → State
  | [] => s
  | (k, b) :: t =>
    let len := b.length + s.overhead q.dst
    let r := s.paceTo q.dst len
    let p := { q with pkt := k, roff := q.roff + k * s.payload, payload := b }
    (r.1.setEgs fun e => { e with queue := e.queue ++ [⟨i, ctx, len, r.2, q.dst, q.msgid, .pkt p⟩] }).queueResp i ctx q t

def State.rxRead (s : State) (x : RxFrame) : State :=
  let p := x.p
  match s.regionCheck p p.mlen false with
  | .error st => (s.bump F.FXT_RX_STAT_REFUSED).answer x st false
  | .ok r =>
    if r.hostMem && !s.xlatOk (s.funcOf r.ctx) (r.addr + p.roff) p.mlen then
      (s.bump F.FXT_RX_STAT_REFUSED).answer x St.accessDenied false
    else
    let b := s.readBytes r p.roff p.mlen
    let ps := cutBytes s.payload (b.2.length + 1) b.2
    let q := { blankPacket .readResp p.src p.msgid with roff := p.roff, mlen := p.mlen }
    (b.1.chargeFab r.ctx p.mlen true).queueResp x.iface r.ctx q ((List.range ps.length).zip ps)

/-- READ_RESP: the bytes go to the requester's destination. -/
def State.rxResp (s : State) (x : RxFrame) : State :=
  let p := x.p
  match s.msg? p.src p.msgid with
  | none => s
  | some m => match m.carry, m.cmd with
    | .read _ off len isRegion lkey laddr, some c =>
      if p.roff < off ∨ p.roff + p.payload.length > off + len then s
      else
        let rel := p.roff - off
        let sp := if isRegion then Space.region lkey (laddr + rel) else Space.host (laddr + rel)
        match s.spaceWrite c m.ctx sp p.payload with
        | .error st => s.msgLost m st
        | .ok s =>
          let s := if isRegion then s.chargeFab m.ctx p.payload.length false else s
          let s := if isRegion then s.setCmd c fun k => { k with bytes := k.bytes + p.payload.length } else s
          let got := if m.got.any fun g => g.1 == rel then m.got else m.got ++ [(rel, p.payload.length)]
          if len ≤ (got.map (·.2)).foldl (· + ·) 0 then s.msgDone m
          else s.setMsg m fun y => { y with got := got }
    | _, _ => s

/-- A packet past the link: source table, then by type. -/
def State.rxPast (s : State) (x : RxFrame) : State :=
  match s.incCheck x.p with
    | none => s
    | some s =>
     let s := if s.fld F.GLB_PM_STAT_STATE = 1 then s.wakeUp 1 else s
     match x.p.typ with
      | .write => s.rxData x
      | .service => s.rxData x
      | .readReq => if s.asleep then { s with pm := { s.pm with reqs := s.pm.reqs ++ [x] } } else s.rxRead x
      | .readResp => s.rxResp x
      | .ack => (if x.p.ece then s.gotEce x.p.src else s).acked x.p.src x.p.msgid
      | .nak => (if x.p.ece then s.gotEce x.p.src else s).naked x.p.src x.p.msgid x.p.status

/-- A received packet: the checks of its link and header, then test perturbation (R537), then the packet itself and one held
back before it. -/
def State.rxIn (s : State) (x : RxFrame) : State :=
  match s.linkCheck x with
  | some s => s
  | none =>
    let s := s.heardPn x
    if !s.tstFab x.iface false then s.rxPast x
    else
      let n := s.fxt.tstRx + 1
      let s := s.setFxt fun y => { y with tstRx := n }
      if oneIn (s.fld F.TST_FAB_PERTURB_DROP) n then s
      else if oneIn (s.fld F.TST_FAB_PERTURB_REORDER) n && s.fxt.tstHeld.isNone then s.setFxt fun y => { y with tstHeld := some x }
      else match s.fxt.tstHeld with
        | none => s.rxPast x
        | some h => ((s.setFxt fun y => { y with tstHeld := none }).rxPast x).rxPast h

/-- PACKET_RX: a WRITE or SERVICE packet. -/
def execRx (x : RxFrame) (s : State) : State := if x.p.typ = .write ∨ x.p.typ = .service then s.rxIn x else s
/-- READ_REQ. -/
def execRxRead (x : RxFrame) (s : State) : State := if x.p.typ = .readReq then s.rxIn x else s
/-- READ_RESP. -/
def execRxResp (x : RxFrame) (s : State) : State := if x.p.typ = .readResp then s.rxIn x else s
/-- ACK. -/
def execRxAck (x : RxFrame) (s : State) : State := if x.p.typ = .ack then s.rxIn x else s
/-- NAK. -/
def execRxNak (x : RxFrame) (s : State) : State := if x.p.typ = .nak then s.rxIn x else s

/-- REASM_TIMEOUT: the record goes; bytes it placed remain. -/
def execReasmEnd (src msgid : Nat) (s : State) : State :=
  match s.reasm? src msgid with
  | none => s
  | some r => (s.reach (r.last + max 1 (s.fld F.FXT_RX_CFG_REASM_TIMEOUT) * cyclesPerUs)).dropReasm src msgid

/-! ## Interfaces (R328, R329, R366) -/

/-- Packets lost with an interface leave their messages to the timer. -/
def State.purgeMsgs (s : State) : List QPkt → State
  | [] => s
  | q :: t => (match q.body with
      | .svc _ => s.packetLeft q.dst q.msgid
      | .pkt p => if p.typ = PktType.readResp then s else s.packetLeft q.dst q.msgid).purgeMsgs t

/-- An interface goes down: it stops carrying traffic, and what it held queued is lost. -/
def State.ifaceDown (s : State) (i : Nat) : State :=
  let gone := s.egs.queue.filter fun q => q.iface == i
  let s := (s.setFld F.ETH_LINK_STAT_UP 0 i).saDown [i]
  (s.setEgs fun e => { e with queue := e.queue.filter fun q => q.iface ≠ i }).purgeMsgs gone

/-- ETH_LINK_LOSS. -/
def execLinkLoss (i : Nat) (s : State) : State :=
  if s.ifaceExists i ∧ s.fld F.ETH_LINK_STAT_UP i = 1 then (s.bump F.ETH_LINK_STAT_FLAPS 1 i).ifaceDown i else s

/-- ETH_LINK_UP. -/
def execLinkUp (i : Nat) (s : State) : State := if s.ifaceExists i then s.setFld F.ETH_LINK_STAT_UP 1 i else s

def State.portDown (s : State) : List Nat → State
  | [] => s
  | i :: t => (s.ifaceDown i).portDown t

/-- PORT_MODE_WRITE: a changed MODE retrains every interface of the port. -/
def execPortMode (f port : Nat) (v : Word32) (s : State) : State :=
  if f ≠ 0 ∨ port ≥ 8 then s
  else
    let m := v.toNat % 4
    let s := if m = s.fld F.ETH_PORT_CFG_MODE port then s else s.portDown ((List.range 8).map (8 * port + ·))
    ((s.setFld F.ETH_PORT_CFG_MODE m port).setFld F.ETH_PORT_CFG_PFC_EN (v.toNat / 4 % 2) port).setFld
      F.ETH_PORT_CFG_PFC_PRIO (v.toNat / 8 % 256) port

/-- The paused priorities after one entry of a PFC frame. -/
def setPause (i : Nat) (l : List (Nat × Nat)) (x : Nat × Bool) : List (Nat × Nat) :=
  let l := l.filter fun y => y ≠ (i, x.1)
  if x.2 then l ++ [(i, x.1)] else l

/-- PFC_FRAME: with PFC on, the priorities under it pause or resume. -/
def execPfc (i : Nat) (pause : List (Nat × Bool)) (s : State) : State :=
  if s.fld F.ETH_PORT_CFG_PFC_EN (i / 8) = 0 then s
  else
    let under := pause.filter fun x => s.fld F.ETH_PORT_CFG_PFC_PRIO (i / 8) / 2 ^ x.1 % 2 == 1 && decide (x.1 < 8)
    s.setFxt fun y => { y with paused := under.foldl (setPause i) y.paused }

end Sys2Proof.Machine
end

