-- ==== Sys2Proof/Machine/Share.lean ====
section
/-! DEFINITION. Sharing (chapter 11): STATS_READ, teardown and bring-up of contexts with what they release, FLR, and the
staging ownership switch. -/

namespace Sys2Proof.Machine

/-! ## STATS_READ (R416 to R418) -/

/-- Energy in µJ of a count kept in fJ. -/
def microJ (fj : Nat) : Nat := fj / 1000000000

/-- Sampled egress values of a subscriber: depth, largest delay, mean delay. -/
def State.egsStats (s : State) (sub : Nat) : Nat × Nat × Nat :=
  let x := spGet Sample.zero s.egs.subSmp sub
  (x.depth, x.delay, if x.count = 0 then 0 else x.sum / x.count)

/-- The 128-byte stats record of a context (Table 11.6); `e` are its egress samples, `span` is INTERVAL. -/
def State.statsRecord (s : State) (x : Stats) (e : Nat × Nat × Nat) (span : Nat) : List Byte :=
  let avg := if x.ae = 0 then 0 else x.thrSum / x.ae
  leBytes 8 x.ae ++ leBytes 8 x.cc ++ leBytes 8 x.host ++ leBytes 8 x.ftx ++ leBytes 8 x.frx ++ leBytes 8 x.tier ++
  leBytes 8 (sat64 (microJ x.energy)) ++ leBytes 8 x.commands ++ leBytes 8 x.chunks ++ leBytes 4 (sat32 x.stageMiss) ++
  leBytes 4 (sat32 x.profMiss) ++ leBytes 1 (avg % 16 + 16 * s.level) ++ leBytes 1 (s.fld F.PWR_STATUS_PKG_LEVEL) ++
  leBytes 2 0 ++ leBytes 4 (sat32 e.1) ++ leBytes 4 (sat32 e.2.1) ++ leBytes 4 (sat32 e.2.2) ++ leBytes 8 span ++
  leBytes 8 x.grx ++ leBytes 16 0

/-- The record of a sequence: the fields marked in the Sequence column. -/
def seqRecord (x : Stats) (span : Nat) : List Byte :=
  leBytes 8 x.ae ++ leBytes 8 x.cc ++ leBytes 24 0 ++ leBytes 8 x.tier ++ leBytes 16 0 ++ leBytes 8 x.chunks ++
  leBytes 4 (sat32 x.stageMiss) ++ leBytes 20 0 ++ leBytes 8 span ++ leBytes 8 x.grx ++ leBytes 16 0

/-- Steps 4 and 5: the sequence and the key; SCOPE 1 is the device context's alone. -/
def State.checkStats (s : State) (k : Cmd) : Option Nat :=
  let d := k.desc
  let h := if dHandle d ≠ 0 then s.seqCheck k else none
  let m := s.spaceCheck k.ctx (dStatsDst d) true 128
  if h = some St.badHandle ∨ m = some St.badHandle then some St.badHandle
  else match h with
    | some e => some e
    | none => if dF d 8 1 = 1 ∧ k.ctx ≠ s.deviceCtx then some St.accessDenied else m

/-- The record a STATS_READ returns; none for an undefined target context. -/
def State.statsFor (s : State) (k : Cmd) : Option (List Byte) :=
  let d := k.desc
  if dHandle d ≠ 0 then (s.openSeq? k.ctx (dHandle d)).map fun q => seqRecord q.stats (s.cycles - q.stats.since)
  else
    let c := if dF d 8 1 = 1 then dF d 10 2 else k.ctx
    (s.ctx? c).map fun x => match x.st, x.snap with
      | .down, some p => s.statsRecord p p.egs p.since
      | _, _ => s.statsRecord x.stats (s.egsStats c) (s.cycles - x.stats.since)

/-- The egress samples of a context start again. -/
def State.clearSamples (s : State) (c : Nat) : State :=
  s.setEgs fun e => { e with subSmp := spSet Sample.zero e.subSmp c Sample.zero }

/-- Counters of a context start again (RESET): a new interval opens, and the egress samples are cleared. -/
def State.resetStats (s : State) (c : Nat) : State := (s.setStats c fun _ => { since := s.cycles }).clearSamples c

def statsBody (k : Cmd) (s : State) : State :=
  let d := k.desc
  if dF d 24 4 < 128 ∨ !s.spaceLong k.ctx (dStatsDst d) 128 then s.complete k.id St.lengthLimit
  else match s.statsFor k with
    | none => s.complete k.id St.badField
    | some b =>
      let t := if dFlag d 0 && dHandle d == 0 && dF d 8 1 == 0 then s.resetStats k.ctx else s
      match t.spaceWrite k.id k.ctx (dStatsDst d) b with
      | .error st => s.complete k.id st
      | .ok u => u.complete k.id St.ok { rlen := 128 }

/-- STATS_READ. -/
def execStats (c : CmdId) (s : State) : State := s.runCmd c (fun d => dOp d == Op.statsRead) State.startCheck statsBody

/-! ## What a command holds beside its record -/

/-- An anchor whose publication is given up keeps the depth it reached. -/
def State.pubClean (s : State) (u : Publish) : State :=
  let s := s.setPxi fun x => { x with pubs := x.pubs.filter fun y => y.id ≠ u.id }
  match s.anchor? u.anchor, s.cmd? u.id with
  | some a, some k =>
    let deep := (u.last.map (·.depth)).getD (refDepth (dF k.desc 8 8))
    let s := s.setAnchor a.idx fun x => { x with live := deep, digests := x.digests.take deep }
    s.freeIdle (s.pxi.anchors.filter fun y => y.idx == a.idx)
  | _, _ => s

/-- Give up what a command in flight holds: its ATTEND, writes, pins, lookups, publications, exchanges, and its reads. -/
def State.abandon (s : State) (k : Cmd) : State :=
  let s := (s.dropAtt k.id).letGo k.id
  let s := match s.pub? k.id with
    | some u => s.pubClean u
    | none => s
  let s := s.setPxi fun x => { x with lookups := x.lookups.filter (fun l => l.id ≠ k.id),
                                      retires := x.retires.filter fun r => r.id ≠ k.id }
  let s := s.setDom fun d => { d with rows := d.rows.filter (fun r => r.id ≠ k.id),
                                      exports := d.exports.filter fun e => e.id ≠ k.id }
  { s with tier := { s.tier with
      frames := updIf s.tier.frames (fun f => f.reader == some k.id) fun f => { f with reader := none } } }

/-- Anchors that only a fork held up are freed. -/
def State.anchorsIdle (s : State) : State := s.freeIdle s.pxi.anchors

/-- Commands that move data through messages of their context, which teardown discards (Table 11.2 step 4). -/
def sendsData (op : Nat) : Bool :=
  op == Op.rmaWrite || op == Op.rmaWriteImm || op == Op.rmaRead || op == Op.rmaFlush || op == Op.wrArm

/-- A started command that runs to completion when its context is torn down on request or by an FLR (R117, R118). An ATTEND's
running chunks end by themselves (R142, R531); a plan ends as if another replaced it (Table 11.2 step 3). -/
def runsOn (k : Cmd) : Bool :=
  k.st == .running && !armWaiting k && dOp k.desc != Op.attend && dOp k.desc != Op.stepPlan && !sendsData (dOp k.desc)

/-- How the commands of a context end: those not started with a record of `waiting`; started ones with one of `started`, or,
where that is none, they run on without a record. One whose ring read is out gets its record when the read returns its TAG,
unless its queue is gone. -/
def State.endCmds (s : State) (started : Option Nat) (waiting : Nat) : List Cmd → State
  | [] => s
  | k :: t =>
    if k.st = .fetching ∧ (s.wq? k.id.q).isSome then s.endCmds started waiting t
    else if k.st != .running || armWaiting k then ((s.abandon k).complete k.id waiting).endCmds started waiting t
    else match started with
      | some st => ((s.abandon k).complete k.id st).endCmds started waiting t
      | none => (if runsOn k then s else (s.abandon k).retireCmd k).endCmds started waiting t

/-! ## Release (R403, Table 11.2) -/

/-- Every queue of a context becomes ABSENT. -/
def State.dropQueues (s : State) (c : Nat) : State :=
  { s with qdb := { s.qdb with
      wqs := s.qdb.wqs.filter fun w => w.ctx ≠ c
      cqs := s.qdb.cqs.filter fun q => q.id / 64 ≠ c
      eqs := s.qdb.eqs.filter fun q => q.ctx ≠ c
      qcache := s.qdb.qcache.filter fun q => !s.qdb.wqs.any fun w => w.q == q && w.ctx == c } }

def State.freeRegions (s : State) : List Region → State
  | [] => s
  | r :: t => (s.freeRegion { r with gen := if r.freeing then r.gen else (r.gen + 1) % 4096 }).freeRegions t

def State.closeSeqs (s : State) : List SeqRec → State
  | [] => s
  | r :: t => ((s.closeSeq r).removeRefs r).closeSeqs t

def State.endLeases (s : State) : List Lease → State
  | [] => s
  | l :: t => (s.endLease l (some 1)).endLeases t

/-- Does a command wait for the answer to an exchange with another part? -/
def State.exchanging (s : State) (c : CmdId) : Bool :=
  (s.pub? c).any (fun u => u.batch.isSome) || s.pxi.retires.any (fun r => r.id == c && !r.wait.isEmpty) ||
    s.pxi.lookups.any (fun l => l.id == c && !l.wait.isEmpty) || s.dom.rows.any (fun r => r.id == c) ||
    s.dom.exports.any fun e => e.id == c

/-- Commands whose exchange a discarded message belonged to will see no answer: they end. -/
def State.endExchanges (s : State) : List Cmd → State
  | [] => s
  | k :: t => (if s.exchanging k.id then (s.abandon k).retireCmd k else s).endExchanges t

/-- Step 4 of Table 11.2: a context's messages are discarded. -/
def State.dropMsgs (s : State) (c : Nat) : State :=
  let svc := s.fxt.msgs.any fun m => m.ctx == c && match m.carry with
    | .svc _ => true
    | .data _ _ _ _ => false
    | .read _ _ _ _ _ _ => false
  let s := s.setFxt fun x => { x with msgs := x.msgs.filter (fun m => m.ctx ≠ c) }
  let s := s.setEgs fun e => { e with queue := e.queue.filter fun q => q.sub ≠ c }
  if svc then s.endExchanges (s.cmds.filter fun k => k.ctx == c) else s

def State.setPwr (s : State) (f : Pwr → Pwr) : State := { s with pwr := f s.pwr }

/-- Put a setpoint raise on an AE rail. -/
def State.putRaise (s : State) (mv : Nat) : List Nat → State
  | [] => s
  | d :: t => ((s.setPwr fun p => { p with raise := spSet 0 p.raise d mv }).emit (.pmbusVout (Rail.ae d) mv)).putRaise mv t

/-- Setpoints return on the dies that no window holds any more. -/
def State.dropRaises (s : State) : State := s.putRaise 0 ((s.pwr.raise.map (·.1)).filter fun d => !s.heavyDie d)

/-- The window of a heavy-phase hint ends: the setpoints of dies that no window holds return (R472). -/
def State.heavyOver (s : State) (c : Nat) : State :=
  if (s.ctx? c).any fun x => x.heavyEnd.isSome then (s.setCtx c fun x => { x with heavyEnd := none }).dropRaises else s

/-- Steps 2 to 6 of Table 11.2. -/
def State.release (s : State) (c : Nat) : State :=
  let s := s.dropEnts fun e => e.ctx == c
  let s := s.freeRegions (s.fxt.regions.filter fun r => r.ctx == c)
  let s := s.dropMsgs c
  let s := s.closeSeqs (s.seq.recs.filter fun r => r.ctx == c && r.st == .opn)
  let s := s.endLeases (s.att.leases.filter fun l => l.ctx == c)
  let s := s.setLeases fun ls => ls.map fun l => { l with waiters := l.waiters.filter fun w => w.ctx ≠ c }
  (s.setPxi fun x => { x with cursors := x.cursors.filter fun y => y.ctx ≠ c }).heavyOver c

/-- Steps 3 and 4 of R117 and the release, once no ring read of the context is out. -/
def State.settleTear (s : State) (c : Nat) : State :=
  if s.cmds.any (fun k => k.ctx == c && k.st == CmdSt.fetching) then s
  else ((s.dropQueues c).release c).anchorsIdle

/-- The steps of R117 or R118, then the release. `cause` none: an FLR, which writes no record. -/
def State.tearDown (s : State) (c : Nat) (cause : Option Nat) : State :=
  match s.ctx? c with
  | none => s
  | some x =>
    if x.st ≠ .up then s
    else
      let s := s.setCtx c fun y => { y with st := .tearing, byFlr := cause.isNone, cause := cause.getD 0 }
      let mine := s.cmds.filter fun k => k.ctx == c
      let s := match cause with
        | none => (s.dropQueues c).endCmds none St.cancelled mine
        | some st => if st = St.ok then s.endCmds none St.cancelled mine
            else s.endCmds (some St.contextFaulted) St.contextFaulted mine
      s.settleTear c

/-- An FLR finds a context TEARING: its queues are ABSENT and nothing more is recorded (R118); Table 11.1 gives it no other
transition. -/
def State.flrTearing (s : State) (c : Nat) : State :=
  let open_ := s.cmds.any fun k => k.ctx == c && k.st == CmdSt.fetching
  let s := { s.dropQueues c with cmds := s.cmds.filter fun k => !(k.ctx == c && k.st == CmdSt.fetching) }
  if open_ then s.settleTear c else s

/-- Return the window fields of a context that CTX clears to their reset values: its blank record gives the retrieval
defaults (Table 5.9). -/
def State.loadRet (s : State) (c : Nat) (r : CtxRec) : State :=
  ((s.setFld F.CTXW_RET_CFG_TOPK r.topk 0 c).setFld F.CTXW_RET_CFG_RECENT r.recent 0 c).setFld
    F.CTXW_RET_CFG_SINK_BLK r.sinkBlk 0 c

def State.clearWindow (s : State) (c : Nat) : State :=
  match s.ctx? c with
  | none => s
  | some x => (s.clearFields fun f c' => !(f.win && c' == c && decide (Clr.rank .flr ≤ f.clr.rank))).loadRet c x.r

/-- Trigger counters of a context return to 0 (step 7). -/
def State.clearTrigs (s : State) (r : CtxRec) : State :=
  { s with fxt := { s.fxt with trig := s.fxt.trig.filter fun t => !(decide (r.trigFirst ≤ t.1) && decide (t.1 < r.trigFirst + r.trigCount)) } }

/-- A context comes UP (Table 11.1): window fields at their reset values, counters from zero. -/
def State.bringUp (s : State) (c : Nat) : State :=
  ((s.clearWindow c).clearSamples c).setCtx c fun x => { x with
    st := .up, byFlr := false, cause := 0, snap := none, stats := { since := s.cycles }, vt := 0, vtCc := 0, thrGap := 0, thrOwed := false, thrLast := 0 }

/-- CLOSING records of a context return to FREE (R39). -/
def State.freeRecs (s : State) : List SeqRec → State
  | [] => s
  | r :: t => (execRefsRemoved r.handle s).freeRecs t

/-- TEARDOWN_RELEASE_DONE (Table 11.2 steps 1 and 7): once no chunk or command of the context runs, the snapshot is taken and the
context goes DOWN, or UP after an FLR. -/
def execReleaseDone (c : Nat) (s : State) : State :=
  match s.ctx? c with
  | none => s
  | some x =>
    if x.st ≠ .tearing ∨ s.att.chunks.any (fun k => k.ctx == c) ∨ s.cmds.any (fun k => k.ctx == c) then s
    else
      let s := s.freeRecs (s.seq.recs.filter fun r => r.ctx == c)
      let snap := { x.stats with since := s.cycles - x.stats.since, egs := s.egsStats c }
      let s := (s.clearTrigs x.r).clearWindow c
      let s := if s.fld F.SCH_CTX_STAT_BUSY = 1 && s.fld F.SCH_CTX_CMD_CTX == c then s.setFld F.SCH_CTX_STAT_BUSY 0 else s
      if x.byFlr then s.bringUp c
      else
        (s.setCtx c fun y => { y with st := .down, snap := some snap, stats := {}, vt := 0, vtCc := 0 }).postEvent
          s.deviceCtx Ev.contextTornDown c (leBytes 1 x.cause)

/-- A fault tears a context down (R117); the count is RAS_ERR_CNT.CONTEXT. -/
def State.faultCtx (s : State) (c : Nat) : State :=
  match s.ctx? c with
  | none => s
  | some x => if x.st = .up then (s.tearDown c (some St.contextFaulted)).bump F.RAS_ERR_CNT_CONTEXT else s

/-- CONTEXT_FAULT_TEARDOWN. -/
def execFaultCtx (c : Nat) (s : State) : State := s.faultCtx c

/-! ## SCH_CTX_CMD (Table 11.12, R442, R497) -/

/-- State of the TDI of function `v`: 0 unlocked, 1 locked, 2 RUN, 3 ERROR. -/
def State.tdi (s : State) (v : Nat) : Nat := if v = 0 then 0 else s.fld F.SEC_TDI_STATE_STATE v
def State.setTdi (s : State) (v t : Nat) : State := if v = 0 ∨ 255 < v then s else s.setFld F.SEC_TDI_STATE_STATE t v
def State.tdiLocked (s : State) (v : Nat) : Bool := s.tdi v == 1 || s.tdi v == 2

/-- OP 1: an UP context enters TEARING with cause OK. -/
def State.schTeardown (s : State) (c : Nat) : State :=
  match s.ctx? c with
  | none => s
  | some x =>
    if x.st ≠ .up then s
    else
      let s := if s.tdiLocked x.r.func then s.setTdi x.r.func 3 else s
      (s.tearDown c (some St.ok)).setFld F.SCH_CTX_STAT_BUSY 1

/-- OP 2: a DOWN context comes UP; ignored for a context of a locked TDI. -/
def State.schBringup (s : State) (c : Nat) : State :=
  match s.ctx? c with
  | none => s
  | some x => if x.st = .down ∧ !s.tdiLocked x.r.func then s.bringUp c else s

/-- A write of SCH_CTX_CMD by the PF; in HOLD or PARK it starts an exit and takes effect after it. -/
def State.schCmd (s : State) (f c op : Nat) : State :=
  if f ≠ 0 ∨ s.fld F.SCH_CTX_STAT_BUSY = 1 then s
  else
    let s := (s.setFld F.SCH_CTX_CMD_CTX c).setFld F.SCH_CTX_CMD_OP op
    if s.asleep then
      let s := (s.setFld F.SCH_CTX_STAT_BUSY 1).wakeUp 0
      { s with pm := { s.pm with deferred := s.pm.deferred ++ [(op + 8, f, c)] } }
    else if op = 1 then s.schTeardown c else if op = 2 then s.schBringup c else s

/-- TEARDOWN. -/
def execTeardownF (f c : Nat) (s : State) : State := s.schCmd f c 1
/-- BRINGUP. -/
def execBringupF (f c : Nat) (s : State) : State := s.schCmd f c 2

/-! ## FLR (R118, R442, R494) -/

def State.tearAll (s : State) : List Ctx → State
  | [] => s
  | x :: t => (if x.st = .tearing then s.flrTearing x.r.ctx else s.tearDown x.r.ctx none).tearAll t

/-- The TDIs of reset VFs return to CONFIG_UNLOCKED without a stream. -/
def State.resetTdis (s : State) : List Nat → State
  | [] => s
  | f :: t => (((s.setTdi f 0).setFld F.SEC_TDI_STATE_STREAM 0 f).setFld F.SEC_TDI_STATE_BOUND 0 f).resetTdis t

/-- The windows of DOWN contexts return to reset values (R17). -/
def State.clearDown (s : State) : List Ctx → State
  | [] => s
  | x :: t => (if x.st = .down then s.clearWindow x.r.ctx else s).clearDown t

/-- The function's own fields, its latches and its TDI return to reset; its contexts are released. An FLR of the PF covers
every VF (Table 0.3). -/
def State.doFlr (s : State) (f : Nat) : State :=
  let hit := fun (g : Nat) => f == 0 || g == f
  let s := { s with host := { s.host with latches := s.host.latches.filter (fun l => !hit l.1),
                                          held := s.host.held.filter fun l => !hit l.1 } }
  let s := s.resetTdis (((List.range 255).map (· + 1)).filter hit)
  let mine := s.ctxs.filter fun x => hit x.r.func
  let t := (s.tearAll mine).clearDown mine
  if s.dead ∧ s.ringReads ≠ 0 then t.deadEvent else t

/-- FLR. During a mount it waits for its end; in HOLD or PARK it first wakes the part. -/
def execFlrF (f : Nat) (s : State) : State :=
  let s := s.wakeUp 2
  if s.boot.mount.isSome then { s with boot := { s.boot with waitFlr := s.boot.waitFlr ++ [f] } } else s.doFlr f

/-! ## The staging switch (R408 to R413, Table 11.3) -/

def State.setGroup (s : State) (g : Nat) (f : SGroup → SGroup) : State :=
  { s with sch := { s.sch with groups := updIf s.sch.groups (fun x => x.r.group == g) f } }

def State.group? (s : State) (g : Nat) : Option SGroup := s.sch.groups.find? fun x => x.r.group == g

/-- Has an ATTEND some chunks running or complete and others still waiting? -/
def State.split (s : State) (a : Att) : Bool :=
  let mine := s.att.chunks.filter fun k => k.att == a.id
  let waits := mine.any (fun k => k.st == .waiting) || !a.walk.isEmpty
  let begun := mine.any (fun k => k.st != .waiting) || !a.counts.isEmpty
  waits && begun

/-- Layer boundary of a partition (R410). -/
def State.boundary (s : State) (part : Nat) : Bool :=
  s.att.atts.all fun a => match s.ctx? a.ctx with
    | some x => x.r.part != part || !s.split a
    | none => true

/-- No running chunk, and no chunk that an AE error has sent back (R531), reads a T0 copy of the partition (step 3). -/
def State.drained (s : State) (part : Nat) : Bool :=
  s.att.chunks.all fun k => (k.st == .waiting && k.errors == 0) || k.pages.all fun r => !r.t0 || match s.frame? r.pfh with
    | some f => f.part != part
    | none => true

/-- STAGING_SLICE to every UP context of a partition (Table 11.4). -/
def State.sliceEvent (s : State) (part kind group len overrun owed : Nat) : List Ctx → State
  | [] => s
  | x :: t =>
    (if x.r.part = part ∧ x.st = .up then
      s.postEvent x.r.ctx Ev.stagingSlice x.r.ctx
        (leBytes 1 kind ++ leBytes 1 group ++ leBytes 2 0 ++ leBytes 4 len ++ leBytes 4 (sat32 overrun) ++ leBytes 4 (sat32 owed))
     else s).sliceEvent part kind group len overrun owed t

/-- Slice length granted to a partition: its length less its debt, never below a quarter (R412). -/
def granted (full owed : Nat) : Nat := max (full - owed) ((full + 3) / 4)

/-- Steps 4 to 6: T0 copies go, the outgoing slice is settled, the next member's begins. -/
def State.handOver (s : State) (g : SGroup) (part nominal : Nat) : State :=
  let ov := max ((s.cycles - nominal) / cyclesPerUs) g.overrun
  let debt := spGet 0 g.owed part + (ov - g.overrun)
  let s := { s with tier := { s.tier with
    frames := updIf s.tier.frames (fun f => f.part == part) fun f => { f with stg := none } } }
  let s := s.setGroup g.r.group fun x => { x with overrun := ov, owed := spSet 0 x.owed part debt }
  let s := s.sliceEvent part 1 g.r.group 0 ov debt s.ctxs
  let nh := if g.holder + 1 < g.r.members.length then g.holder + 1 else 0
  let np := g.r.members.getD nh 0
  let full := ((s.part? np).map (·.r.slice)).getD 0
  let owed := if np = part then debt else spGet 0 g.owed np
  let len := granted full owed
  let left := owed - (full - len)
  let s := s.setGroup g.r.group fun x => { x with holder := nh, phase := 3, start := s.cycles, len := len
                                                  owed := spSet 0 x.owed np left }
  s.sliceEvent np 0 g.r.group len 0 left s.ctxs

/-- Let a switch under way go as far as it can: boundary, then drain, then hand over. -/
def State.pollGroup (s : State) (g : SGroup) : State :=
  match g.out with
  | none => s
  | some (part, nominal) =>
    if g.phase = 1 ∧ s.boundary part then
      if s.drained part then s.handOver g part nominal else s.setGroup g.r.group fun x => { x with phase := 2 }
    else if g.phase = 2 ∧ s.drained part then s.handOver g part nominal
    else s

def State.pollGroups (s : State) : List SGroup → State
  | [] => s
  | g :: t => (s.pollGroup g).pollGroups t

/-- SLICE_END: the nominal end of the holder's slice. A dedicated group never switches. -/
def execSliceEnd (g : Nat) (s : State) : State :=
  match s.group? g with
  | none => s
  | some x =>
    match x.holderPart with
    | none => s
    | some p =>
      if x.r.members.length ≤ 1 ∨ (x.phase ≠ 0 ∧ x.phase ≠ 3) ∨ x.out.any (fun o => o.2 == x.start + x.len * cyclesPerUs) then s
      else
        let t := x.start + x.len * cyclesPerUs
        let s := (s.reach t).setGroup g fun y => { y with
          phase := if s.fld F.SCH_SLICE_CFG_GRACE = 0 then 2 else 1, out := some (p, t), overrun := 0 }
        match s.group? g with
        | none => s
        | some y => s.pollGroup y

/-- GRACE_EXPIRE: the switch proceeds without a boundary. -/
def execGrace (g : Nat) (s : State) : State :=
  match s.group? g with
  | none => s
  | some x => match x.out with
    | none => s
    | some o =>
      if x.phase ≠ 1 then s
      else
        let s := s.reach (o.2 + s.fld F.SCH_SLICE_CFG_GRACE * cyclesPerUs)
        (s.setGroup g fun y => { y with phase := 2 }).pollGroup { x with phase := 2 }

/-- Copy the HOT pages an entry pins or keeps into the ways (step 7). -/
def State.fillHot (s : State) (e : PlanEnt) : List PlanPage → State
  | [] => s
  | p :: t => (match (s.frame? p.pfh).bind s.holder? with
      | some f => s.copyT0 f.pfh e.plan e.ctx (e.seq % 268435456) false
      | none => s).fillHot e t

def State.fillHotAll (s : State) (part : Nat) : List PlanEnt → State
  | [] => s
  | e :: t => (if e.hot && (s.ctx? e.ctx).any (fun x => x.r.part == part) then s.fillHot e e.pins else s).fillHotAll part t

/-- STAGING_FILL_DONE. -/
def execFill (g : Nat) (s : State) : State :=
  match s.group? g with
  | none => s
  | some x => match x.holderPart with
    | none => s
    | some p => if x.phase ≠ 3 then s
        else (s.fillHotAll p s.att.ents).setGroup g fun y => { y with phase := 0 }

/-- A chunk ended: a switch that waited for it goes on. -/
def execChunkEnd (ae cycles : Nat) (fails : List PageFail) (s : State) : State :=
  let s := execChunk ae cycles fails s
  s.pollGroups s.sch.groups

end Sys2Proof.Machine
end

