-- ==== Sys2Proof/Machine/Sec.lean ====
section
/-! DEFINITION. SEC (chapter 12): TDIs and IDE, attestation, debug unlock, MKA,
and the management link with its sessions (chapter 15). -/

namespace Sys2Proof.Machine

def State.setSec (s : State) (f : Sec → Sec) : State := { s with sec := f s.sec }

/-! ## TDIs (R442, TDISP) -/

/-- LOCK_INTERFACE outside a mount. -/
def State.doLock (s : State) (v : Nat) : State :=
  if 1 ≤ v ∧ v ≤ 255 ∧ s.tdi v = 0 ∧ s.fld F.SEC_TDI_STATE_BOUND v = 1 ∧
      s.ctxs.any (fun x => x.r.func == v && x.st == .up) then s.setTdi v 1
  else s

/-- LOCK_INTERFACE: during a mount it waits for its end. -/
def execLock (v : Nat) (s : State) : State :=
  if s.boot.mount.isSome then { s with boot := { s.boot with waitLock := s.boot.waitLock ++ [v] } } else s.doLock v

/-- START_INTERFACE: CONFIG_LOCKED to RUN. -/
def execStart (v : Nat) (s : State) : State := if s.tdi v = 1 then s.setTdi v 2 else s

/-- STOP_INTERFACE: to CONFIG_UNLOCKED. -/
def execStopTdi (v : Nat) (s : State) : State := s.setTdi v 0

/-- Room for keys of a stream: selective streams, which have a requester ID, are 0 to 15; there is one link stream
(Table 12.6). -/
def State.ideRoom (s : State) (stream : Nat) (rid : Option Nat) : Bool :=
  if rid.isSome then decide (stream < 16) else !s.sec.ide.any fun y => y.1 != stream && y.2.isNone

/-- IDE_KM over an SPDM session on the DOE mailbox: keys are programmed, and on go the selective stream is bound to its
requester ID. -/
def execIde (stream : Nat) (rid : Option Nat) (go : Bool) (s : State) : State :=
  if !s.sec.spdm.contains 2 then s
  else if !go then
    if s.ideRoom stream rid then s.setSec fun x => { x with ide := x.ide.filter (fun y => y.1 ≠ stream) ++ [(stream, rid)] } else s
  else match s.sec.ide.find? fun y => y.1 == stream with
    | none => s
    | some y => match y.2 with
      | none => s
      | some v => if 1 ≤ v ∧ v ≤ 255 ∧ stream < 16 then
          (s.setFld F.SEC_TDI_STATE_STREAM stream v).setFld F.SEC_TDI_STATE_BOUND 1 v
        else s

def State.tdisToError (s : State) (p : Nat → Bool) : List Nat → State
  | [] => s
  | v :: t => (if s.tdiLocked v && p v then s.setTdi v 3 else s).tdisToError p t

/-- Every VF. -/
def allVfs : List Nat := (List.range 255).map (· + 1)

/-- IDE_INTEGRITY_FAILURE: the TDIs bound to the stream move to ERROR. -/
def execIdeFail (stream : Nat) (s : State) : State :=
  s.tdisToError (fun v => s.fld F.SEC_TDI_STATE_BOUND v == 1 && s.fld F.SEC_TDI_STATE_STREAM v == stream) allVfs

/-! ## Debug unlock (R451) -/

/-- Region bytes lie under keys that have changed: they read as free values from now on. -/
def State.scrambleRegions (s : State) : List Region → State
  | [] => s
  | r :: t => (if r.hostMem then s
      else s.regionStore r 0 ((List.range r.len).map fun i => Config.rekeyed s.free (regionKey r.index i))).scrambleRegions t

/-- The keys of every partition in `p` have changed: the regions that lie under them read as free values. Stored tiles are
decrypted and authenticated under the keys in force when they are read (R437, R438). -/
def State.keysChanged (s : State) (p : Nat → Bool) : State :=
  (s.scrambleRegions (s.fxt.regions.filter fun r => p r.part)).nextFree

/-- The part leaves its domain, as one that holds no DSS (R436). -/
def State.leaveDomain (s : State) : State :=
  if !s.inDomain then s
  else
    let s := (s.setFld F.PXI_PART_ID_IN_DOMAIN 0).setFld F.FXT_DOM_STAT_ADMITTING 0
    (s.setDom fun d => { d with members := [], election := none, admission := none, promise := none, joins := [] }).setDomState 0

/-- Tear down every UP context of a TDI that was locked or running. -/
def State.tearTdis (s : State) (was : Nat → Bool) : List Ctx → State
  | [] => s
  | x :: t => (if was x.r.func then s.tearDown x.r.ctx (some St.ok) else s).tearTdis was t

/-- Debug is unlocked until the next POR. -/
def State.unlockDebug (s : State) : State :=
  let was := s.tdiLocked
  let s := s.tdisToError (fun _ => true) allVfs
  let s := s.tearTdis was s.ctxs
  let s := (s.setFld F.SEC_STATUS_DEBUG 1).keysChanged fun _ => true
  let s := s.setSec fun x => { x with debugSeen := true, ksets := [], mka := [] }
  { s with dss := none }.leaveDomain

/-- A debug token as a signed object: the challenge and the DEVICE_ID it names, 32 bytes each, and its signature block (DESIGN
CHOICE, log entry 3). -/
def tokenOf (challenge deviceId sig : Nat) : Signed := ⟨leBytes 32 challenge ++ leBytes 32 deviceId, sig⟩

/-- A fresh 32-byte challenge. -/
def State.newChallenge (s : State) : State := (s.setSec fun x => { x with challenge := Config.random s.free % 2 ^ 256 }).nextFree

/-- A debug token is presented: Ahnoon's signature, SEC's current challenge, this part's DEVICE_ID. The answer is the status a
management session gets. -/
def State.tryToken (s : State) (challenge deviceId sig : Nat) : State × Nat :=
  match s.checkSig 0 (tokenOf challenge deviceId sig) with
  | (s, false) => (s, St.signatureInvalid)
  | (s, true) =>
    if challenge ≠ s.sec.challenge ∨ deviceId ≠ s.deviceId then (s, St.accessDenied)
    else ((if s.fld F.SEC_STATUS_DEBUG = 1 then s else s.unlockDebug).newChallenge, St.ok)

/-- DEBUG_UNLOCK, presented through JTAG. -/
def execUnlockF (challenge deviceId sig : Nat) (s : State) : State := (s.tryToken challenge deviceId sig).1

/-! ## MKA (R440) -/

def cyclesPerS : Nat := 1000000 * cyclesPerUs

/-- MKA_REKEY: a fresh SAK is distributed on an interface on which MKA runs, when MKA_REKEY has passed since the last one, or
at once when the packet number has passed 2^62. -/
def execRekey (i : Nat) (s : State) : State :=
  if s.dead then s
  else match s.mka? i with
    | none => s
    | some m =>
      let s := if 2 ^ 62 < m.txPn then s else s.reach (m.at_ + m.rekeyS * cyclesPerS)
      (s.setMka i fun m => { m with no := m.no + 1, at_ := s.cycles }).emit (.mka i (m.no + 1))

/-- A receive association goes live: of two at most, the older one ends; the part sends on the association of the same number
from then on (both ways lie under one SAK; log 108). -/
def MacSec.live (m : MacSec) (an : Nat) : MacSec :=
  if m.rx.any fun r => r.an == an then m
  else { m with rx := (m.rx ++ [(⟨an, 0⟩ : RxSa)]).drop (m.rx.length - 1), txAn := an, txPn := 0 }

/-- MKA_FRAME: SEC processes it; a receive secure association may become live. -/
def execMka (i : Nat) (live : Option Nat) (s : State) : State :=
  match live with
  | none => s
  | some an => if s.dead then s else s.setMka i fun m => m.live (an % 4)

/-! ## Attestation (R443 to R446) -/

/-- The booted firmware image and the chosen configuration image. -/
def State.fwImg? (s : State) : Option BankImage :=
  if s.fld F.SEC_STATUS_RECOVERY = 1 then none
  else (if s.fld F.SEC_STATUS_FW_BANK = 0 then s.sec.fw.1 else s.sec.fw.2).map (·.img)
def State.fwSeq (s : State) : Nat :=
  ((if s.fld F.SEC_STATUS_FW_BANK = 0 then s.sec.fw.1 else s.sec.fw.2).map (·.seq)).getD 0
def State.cfgBank? (s : State) : Option Bank :=
  (if s.fld F.SEC_STATUS_CFG_BANK = 0 then s.sec.cfg.1 else s.sec.cfg.2).filter fun b => s.sec.cfgOk && bankValid b
def State.cfgImg? (s : State) : Option BankImage := s.cfgBank?.map (·.img)

/-- Is a TST perturbation register nonzero (R536)? -/
def State.tstActive (s : State) : Bool :=
  s.regs.any fun p => decide (0xF01000 * 64 ≤ p.1) && decide (p.1 < 0xF02000 * 64)

/-- Byte 134 of the report. -/
def State.debugByte (s : State) : Nat :=
  (if s.sec.debugSeen then 1 else 0) + 2 * s.fld F.SEC_STATUS_JTAG + (if s.tstActive then 4 else 0) +
    8 * s.fld F.GLB_EXPERT_UNLOCK_UNLOCKED

/-- Channel groups of a partition as a bit mask. -/
def maskOf (l : List Nat) : Nat := ((List.range 64).map fun i => if l.contains i then 2 ^ i else 0).foldl (· + ·) 0

/-- Is the AE set named by this partition only (R400)? -/
def State.isolated (s : State) (p : PartRec) : Bool := (s.seq.parts.filter fun x => x.r.aeset == p.aeset).length == 1

/-- Partition entry (Table 12.10). -/
def State.partEntry (s : State) (p : PartRec) : List Byte :=
  let cs := s.ctxs.filter fun x => x.r.part == p.part
  let grp := s.sch.groups.find? fun g => some g.r.group == p.sgroup
  let flags := (if p.sealSet.isSome then 1 else 0) + (if s.isolated p then 2 else 0) + (if p.sgroup.isSome then 4 else 0) +
    (if cs.any fun x => s.tdiLocked x.r.func then 8 else 0)
  leBytes 1 p.part ++ leBytes 1 flags ++ leBytes 2 cs.length ++ leBytes 8 (maskOf p.cgroups) ++
  leBytes 4 (maskOf (s.setIslands p.aeset)) ++ leBytes 1 (p.sgroup.getD 255) ++ leBytes 1 ((grp.map (·.r.ways)).getD 0) ++
  leBytes 2 0 ++ leBytes 4 (p.sealSet.getD 0) ++ leBytes 4 p.kgen ++ leBytes 4 0

/-- Object entry (Table 12.11). -/
def objEntry (id svn verified digest : Nat) : List Byte :=
  leBytes 4 id ++ leBytes 4 svn ++ leBytes 1 verified ++ leBytes 31 0 ++ leBytes 32 digest

/-- Kernel variants that profiles name, each once, by ascending number. -/
def State.variants (s : State) : List Nat :=
  sortBy (fun a b => decide (a < b)) (((s.seq.profiles.map (·.kvar)).filter (· ≠ 0)).eraseDups)

/-- A variant that the blank carries no object for is listed with zeros. -/
def State.varList (s : State) : List (List Byte) :=
  s.variants.map fun v => match s.variant? v with
    | none => objEntry v 0 0 0
    | some g => objEntry v (sigSvn g) (if s.sec.verified.contains v then 1 else 0) (signedDigest g)

def State.setList (s : State) : List (List Byte) :=
  (sortBy (fun a b : TableSet => decide (a.mprof * 65536 + a.tset < b.mprof * 65536 + b.tset)) s.tab.sets).map fun t =>
    objEntry (t.mprof * 65536 + t.tset) t.svn 1 t.digest

/-- Digest of the mounted blank; zero without one. -/
def State.blankDigest (s : State) : Nat := (s.blank.map Blank.digest).getD 0
def State.fwDigest (s : State) : Nat := (s.fwImg?.map fun g => signedDigest g.obj).getD 0

/-- The attestation report (Table 12.9). -/
def State.report (s : State) : List Byte :=
  let ps := (sortBy (fun a b : Part => decide (a.r.part < b.r.part)) s.seq.parts).map (·.r)
  let slot := s.fld F.SEC_STATUS_OWNER_SLOT
  leBytes 4 1 ++ leBytes 4 (224 + 32 * ps.length) ++ leBytes 2 0x7100 ++ leBytes 1 (s.fld F.GLB_ID_STEPPING) ++ leBytes 1 0 ++
  leBytes 32 s.deviceId ++ leBytes 8 s.sec.fuses.serial ++ leBytes 4 (s.fld F.FXT_NODE_INC) ++
  leBytes 32 s.sec.romDigest ++ leBytes 32 s.fwDigest ++ leBytes 8 s.fwSeq ++ leBytes 4 (s.fld F.SEC_FW_FW_SVN) ++
  leBytes 1 (s.fld F.SEC_STATUS_FW_BANK) ++ leBytes 1 (s.fld F.SEC_STATUS_LIFECYCLE) ++ leBytes 1 s.debugByte ++
  leBytes 1 slot ++ leBytes 32 ((s.sec.fuses.owners.getD slot (0, false, false)).1) ++ leBytes 4 (s.fld F.SEC_FW_FW_MIN_SVN) ++
  leBytes 32 s.blankDigest ++ leBytes 8 s.sec.mounts ++ leBytes 2 s.varList.length ++ leBytes 2 s.setList.length ++
  leBytes 1 ps.length ++ leBytes 3 0 ++ leBytes 4 s.sec.fuses.epoch ++ ps.flatMap s.partEntry

/-- Entries 910·n to 910·n + 909 of a list. -/
def listPart (l : List (List Byte)) (n : Nat) : List Byte := ((l.drop (910 * n)).take 910).flatten

/-- Measurement block `i` (Table 12.8). -/
def State.measure (s : State) (i : Nat) : Option (List Byte) :=
  if i = 1 then some (leBytes 32 s.sec.romDigest)
  else if i = 2 then some (leBytes 32 s.fwDigest)
  else if i = 3 then some (leBytes 4 (s.fld F.SEC_FW_FW_SVN) ++ leBytes 4 (s.fld F.SEC_FW_FW_MIN_SVN))
  else if i = 4 then some (leBytes 1 (s.fld F.SEC_STATUS_LIFECYCLE) ++ leBytes 1 s.debugByte)
  else if i = 5 then some (leBytes 32 s.blankDigest)
  else if i = 0x10 then some s.report
  else if i = 0x11 ∨ i = 0x12 then some (listPart s.varList (i - 0x11))
  else if 0x13 ≤ i ∧ i ≤ 0x17 then some (listPart s.setList (i - 0x13))
  else none

def measureIndices : List Nat := [1, 2, 3, 4, 5, 0x10, 0x11, 0x12, 0x13, 0x14, 0x15, 0x16, 0x17]

/-- Every block, as index, length and bytes. -/
def State.allMeasures (s : State) : List Nat :=
  measureIndices.flatMap fun i => let b := (s.measure i).getD []; i :: b.length :: b.map (·.toNat)

/-! SPDM request codes (DSP0274; PRESUMED). -/
def Spdm.getVersion : Nat := 0x84
def Spdm.getMeasurements : Nat := 0xE0
def Spdm.keyExchange : Nat := 0xE4
def Spdm.endSession : Nat := 0xEC
/-- Requests answered by their response without effect on the state: GET_DIGESTS, GET_CERTIFICATE, CHALLENGE,
GET_CAPABILITIES, NEGOTIATE_ALGORITHMS, FINISH, HEARTBEAT, KEY_UPDATE. -/
def Spdm.plain : List Nat := [0x81, 0x82, 0x83, 0xE1, 0xE3, 0xE5, 0xE8, 0xE9]
def Spdm.error : Nat := 0x7F
def Spdm.sessionLimit : Nat := 0x0A
def Spdm.unsupported : Nat := 0x07

/-- What GET_MEASUREMENTS returns: the number of blocks for 0, one block, or all for 0xFF. -/
def State.spdmMeasures (s : State) (param : Nat) : Option (List Nat) :=
  if param = 0 then some [measureIndices.length]
  else if param = 0xFF then some s.allMeasures
  else (s.measure param).map fun b => param :: b.length :: b.map (·.toNat)

/-- SPDM_REQUEST on a transport (0 PCIe VDM, 1 I3C, 2 DOE). The responders do not run in RECOVERY, nor before boot. -/
def execSpdm (transport code param : Nat) (s : State) : State :=
  if !s.sec.booted ∨ s.fld F.SEC_STATUS_RECOVERY = 1 ∨ transport ≥ 3 then s
  else if code = Spdm.getVersion then s.emit (.spdm transport (code - 0x80) [0x13])
  else if code = Spdm.getMeasurements then
    match s.spdmMeasures param with
    | some b => s.emit (.spdm transport (code - 0x80) b)
    | none => s.emit (.spdm transport Spdm.error [Spdm.unsupported])
  else if code = Spdm.keyExchange then
    (if s.sec.spdm.length < 4 then
      (s.setSec fun x => { x with spdm := x.spdm ++ [transport] }).emit (.spdm transport (code - 0x80) [])
     else s.emit (.spdm transport Spdm.error [Spdm.sessionLimit]))
  else if code = Spdm.endSession then
    (s.setSec fun x => { x with spdm := x.spdm.erase transport }).emit (.spdm transport (code - 0x80) [])
  else if Spdm.plain.contains code then s.emit (.spdm transport (code - 0x80) [])
  else s.emit (.spdm transport Spdm.error [Spdm.unsupported])

/-! ## The management link (R452, R519) -/

/-- Is the management port on? -/
def State.mgmtOn (s : State) : Bool := s.fld F.GLB_STRAPS_MGMT_EN == 1

/-- Role of a client: its certificate chains to one of the CAs of the configuration bank and is not revoked. -/
def State.clientRole (s : State) (ca serial : Nat) : Option Nat :=
  match s.cfgImg? with
  | none => none
  | some g => if g.revoked.contains serial then none else ((g.cas.take 4).find? fun c => c.1 == ca).map (·.2)

/-- TLS_HANDSHAKE: at most 10 in a second, at most 4 sessions. -/
def execTls (ca serial : Nat) (clientOk : Bool) (s : State) : State :=
  if !s.mgmtOn ∨ s.fld F.MGT_IO_STAT_LINK_UP = 0 then s
  else
    let h := s.sec.hands
    let h := if h.1 + cyclesPerS ≤ s.cycles ∨ h.2 = 0 then (s.cycles, 0) else h
    if h.2 ≥ 10 then s
    else
      let s := s.setSec fun x => { x with hands := (h.1, h.2 + 1) }
      match s.clientRole ca serial with
      | none => s
      | some r =>
        if clientOk ∧ s.sec.sessions.length < 4 then
          s.setSec fun x => { x with sessions := x.sessions ++ [⟨firstUnused (x.sessions.map (·.id)), r, s.cycles⟩] }
        else s

/-- TLS_IDLE_TIMEOUT: a session idle for 300 s is closed. -/
def execTlsIdle (i : Nat) (s : State) : State :=
  match s.sec.sessions.find? fun x => x.id == i with
  | none => s
  | some x => (s.reach (x.lastAt + 300 * cyclesPerS)).setSec fun y => { y with sessions := y.sessions.filter fun z => z.id ≠ i }

/-- MGMT_LINK_LOSS. -/
def execMgmtLoss (s : State) : State :=
  match s.sec.linkDown with
  | none => s
  | some t =>
    ((s.reach (t + max 1 (s.fld F.MGT_IO_CFG_LINK_LOSS) * 1000 * cyclesPerUs)).setSec fun x =>
      { x with sessions := [], linkDown := none }).bump F.MGT_IO_STAT_LINK_LOSSES

/-- The status of the PHY is read: only a link at 1000 Mb/s counts as up. -/
def State.phyRead (s : State) (up : Bool) : State :=
  if !s.mgmtOn then s
  else if up then (s.setFld F.MGT_IO_STAT_LINK_UP 1).setSec fun x => { x with linkDown := none }
  else if s.fld F.MGT_IO_STAT_LINK_UP = 1 then
    (s.setFld F.MGT_IO_STAT_LINK_UP 0).setSec fun x => { x with linkDown := some s.cycles }
  else s

/-- MGMT_PHY_INT. -/
def execPhyInt (up : Bool) (s : State) : State := s.phyRead up
/-- MGMT_PHY_POLL: every 100 ms. -/
def execPhyPoll (up : Bool) (s : State) : State :=
  if !s.mgmtOn then s
  else
    let s := s.reach (s.sec.phyAt + 100000 * cyclesPerUs)
    (s.setSec fun x => { x with phyAt := s.cycles }).phyRead up

/-- MI3C_STALL_TIMEOUT: SCL has been stalled for MI3C_STALL; the partial message is discarded and counted. -/
def execMi3c (s : State) : State :=
  (s.reach (s.cycles + max 1 (s.fld F.MGT_IO_CFG_MI3C_STALL) * cyclesPerUs)).bump F.MGT_IO_STAT_MI3C_ABORTS

/-- SPI_BUSY_TIMEOUT: after SPI_BUSY the update under way fails and SPI_RST_N is pulsed. -/
def execSpiBusy (s : State) : State :=
  if s.sec.staging.isSome then
    let s := s.reach (s.cycles + max 1 (s.fld F.MGT_IO_CFG_SPI_BUSY) * 1000 * cyclesPerUs)
    ((s.setSec fun x => { x with staging := none }).bump F.MGT_IO_STAT_SPI_TIMEOUTS).emit .spiReset
  else s

end Sys2Proof.Machine
end

