-- ==== Sys2Proof/Machine/Power.lean ====
section
/-! DEFINITION. PWR (chapter 13): throttle level and its demands, the cap and thermal loops, droop, brake, PMBus telemetry,
heavy-phase hints, energy, calibration. Power is in mW, temperature in °C. -/

namespace Sys2Proof.Machine

/-! ## The level (R457, R458, R474) -/

/-- The largest of the five demands. -/
def State.demand (s : State) : Nat :=
  max (s.fld F.PWR_STATUS_L_CAP) (max (s.fld F.PWR_STATUS_L_THERM) (max (s.fld F.PWR_STATUS_L_DROOP)
    (max (s.fld F.PWR_STATUS_L_BRK) (s.fld F.PWR_FLOOR_L_FLOOR))))

/-- CAUSE of Table 13.3. -/
def State.throttleCause (s : State) : Nat :=
  let bit (v n : Nat) : Nat := if v = 0 then 0 else 2 ^ n
  bit (s.fld F.PWR_STATUS_L_CAP) 0 + bit (s.fld F.PWR_STATUS_L_THERM) 1 + bit (s.fld F.PWR_STATUS_L_DROOP) 2 +
    bit (s.fld F.PWR_STATUS_L_BRK) 3 + bit (s.fld F.PWR_FLOOR_L_FLOOR) 4 + if s.demand < s.level then 32 else 0

/-- Report the level in force to one context. -/
def State.throttleEvent (s : State) (x : Ctx) : State :=
  let c := x.r.ctx
  let cause := if c = s.deviceCtx then s.throttleCause else 0
  let gap := max 1 (s.fld F.PWR_LOOP_CFG_EVENT_GAP) * cyclesPerUs
  (s.postEvent c Ev.throttleChanged c (leBytes 1 (s.level % 16 + 16 * x.thrLast) ++ leBytes 1 cause)).setCtx c fun y =>
    { y with thrLast := s.level, thrGap := s.cycles + gap, thrOwed := false }

/-- A change of level is reported to every UP context, at most once per EVENT_GAP. -/
def State.throttleEvents (s : State) : List Ctx → State
  | [] => s
  | x :: t =>
    (if x.st ≠ .up ∨ x.thrLast = s.level ∧ x.thrGap ≤ s.cycles then s
     else if s.cycles < x.thrGap then s.setCtx x.r.ctx fun y => { y with thrOwed := true }
     else s.throttleEvent x).throttleEvents t

/-- A new level takes effect; running commands have met it. -/
def State.setLevel (s : State) (n : Nat) : State :=
  let s := s.setFld F.PWR_STATUS_LEVEL n
  let s := { s with cmds := updIf s.cmds (fun (k : Cmd) => k.st == CmdSt.running) fun k => { k with tlvl := max k.tlvl n } }
  s.throttleEvents s.ctxs

/-- Follow the demands: a rise acts at once, a fall is timed. -/
def State.relevel (s : State) : State :=
  let m := s.demand
  if s.level < m then (s.setLevel m).setPwr fun p => { p with fallFrom := none }
  else if m < s.level then s.setPwr fun p => { p with fallFrom := some (p.fallFrom.getD s.cycles) }
  else s.setPwr fun p => { p with fallFrom := none }

/-- LEVEL_FALL_STEP: every demand has been below the level for FALL_US. -/
def execFall (s : State) : State :=
  match s.pwr.fallFrom with
  | none => s
  | some t =>
    if s.level ≤ s.demand then s
    else
      let s := s.reach (t + max 1 (s.fld F.PWR_LOOP_CFG_FALL_US) * cyclesPerUs)
      ((s.setPwr fun p => { p with fallFrom := none }).setLevel (s.level - 1)).relevel

/-- THROTTLE_EVENT_GAP_END: a change inside the gap is reported, unless the level has returned. -/
def execGapEnd (c : Nat) (s : State) : State :=
  match s.ctx? c with
  | none => s
  | some x =>
    if !x.thrOwed then s
    else
      let s := (s.reach x.thrGap).setCtx c fun y => { y with thrOwed := false }
      if x.st ≠ .up ∨ x.thrLast = s.level then s else s.throttleEvent x

/-- The power registers have been written: BRK_LEVEL acts while the brake holds, and the level follows its demands. -/
def State.refreshPower (s : State) : State :=
  (if s.pwr.brk.isSome then s.setFld F.PWR_STATUS_L_BRK (s.fld F.PWR_BRK_CFG_BRK_LEVEL) else s).relevel

/-! ## Static energy (R477) -/

/-- Energy in fJ of `mw` over `dt` cycles. -/
def energyFj (mw dt : Nat) : Nat := mw * dt * 1000000 / cyclesPerUs

/-- Share of a partition in a rail's static term, as (numerator, denominator): channel groups of 64 for HBM, islands of 16 on
a die for AE, staging ways of 48 on a die for CORE; shared sets and groups divide equally. -/
def State.staticShare (s : State) (p : PartRec) (rail : Nat) : Nat × Nat :=
  if rail = Rail.hbm then (p.cgroups.length, 64)
  else if rail < 2 then
    (((s.setIslands p.aeset).filter fun i => i / 16 == rail).length,
      16 * max 1 (s.seq.parts.filter fun x => x.r.aeset == p.aeset).length)
  else if rail < 4 then
    match s.sch.groups.find? fun g => some g.r.group == p.sgroup with
    | some g => if g.r.die = rail - 2 then (g.r.ways, 48 * max 1 g.r.members.length) else (0, 1)
    | none => (0, 1)
  else (0, 1)

/-- Static energy of one rail goes to the partitions; what they do not take accrues to the system counter. -/
def State.shareRail (s : State) (rail fj : Nat) : List PartRec → State
  | [] => s.setPwr fun p => { p with sysFj := p.sysFj + fj }
  | q :: t =>
    let sh := s.staticShare q rail
    let mine := energyFj (s.pwr.stat.getD rail 0) (s.cycles - s.pwr.statAt) * sh.1 / sh.2
    (s.setPwr fun p => { p with partFj := spSet 0 p.partFj q.part (spGet 0 p.partFj q.part + mine) }).shareRail rail (fj - mine) t

def State.shareRails (s : State) : List Nat → State
  | [] => s.setPwr fun p => { p with statAt := s.cycles }
  | r :: t => (s.shareRail r (energyFj (s.pwr.stat.getD r 0) (s.cycles - s.pwr.statAt)) (s.seq.parts.map (·.r))).shareRails t

/-- Static energy up to now is shared out. -/
def State.accrue (s : State) : State := s.shareRails (List.range 8)

/-! ## Telemetry (R464, R515) -/

/-- Range of a rail, in mW (Table 13.2). -/
def railMax (r : Nat) : Nat := if r < 4 then 200000 else if r = 4 then 600000 else if r < 7 then 150000 else 100000

/-- Interval of the polls of one rail: a round of eight takes 460 µs. -/
def State.pollUs (s : State) : Nat := max 460 (max 100 (s.fld F.PWR_PMBUS_CFG_POLL))

def State.lastPoll (s : State) (r : Nat) : Nat × Nat := ((s.pwr.polls.find? fun p => p.1 == r).map (·.2)).getD (0, 0)

/-- Summed input power at the last polls. -/
def State.telemMw (s : State) : Nat := ((List.range 8).map fun r => (s.lastPoll r).1).foldl (· + ·) 0

/-- TELEM_STALE once some rail has had no valid poll for four intervals. -/
def State.staleCheck (s : State) : State :=
  if s.fld F.PWR_STATUS_TELEM_STALE = 1 then s
  else match (List.range 8).find? fun r => decide ((s.lastPoll r).2 + 4 * s.pollUs * cyclesPerUs < s.cycles) with
    | none => s
    | some r => ((s.setFld F.PWR_STATUS_TELEM_STALE 1).setPwr fun p => { p with
        fresh := [], cal := p.cal.map fun c => { c with stale := true } }).deviceEvent (devDetail 6 r 0)

/-- Energy in fJ a rail has taken in the running window since its last poll, which its power is held to. -/
def State.sinceFj (s : State) (c : CalRun) (r : Nat) : Nat :=
  energyFj (s.lastPoll r).1 (s.cycles - max (s.lastPoll r).2 c.since)

/-- A valid poll. -/
def State.goodPoll (s : State) (r mw : Nat) : State :=
  let last := s.lastPoll r
  let s := s.setPwr fun p => { p with
    polls := p.polls.filter (fun x => x.1 ≠ r) ++ [(r, mw, s.cycles)]
    cal := p.cal.map fun c => { c with telem := addRail c.telem r (s.sinceFj c r) }
    pkgFj := p.pkgFj + energyFj last.1 (s.cycles - last.2)
    fresh := if p.fresh.contains r then p.fresh else p.fresh ++ [r] }
  let s := s.setFld F.PWR_STATUS_TELEM_W (min 65535 (s.telemMw / 1000))
  if s.pwr.fresh.length = 8 then s.setFld F.PWR_STATUS_TELEM_STALE 0 else s

/-- PMBUS_POLL, POLL µs after the last one that was valid: a reply whose PEC fails, or above the rail's range, is discarded. -/
def execPoll (r mw : Nat) (pecOk : Bool) (s : State) : State :=
  if 8 ≤ r then s
  else
    let s := (s.reach ((s.lastPoll r).2 + s.pollUs * cyclesPerUs)).emit (.pmbusRead r)
    (if pecOk && decide (mw ≤ railMax r) then s.goodPoll r mw else s).staleCheck

/-- PMBUS_POLL_TIMEOUT: a poll without answer is discarded after TIMEOUT µs. -/
def execPollEnd (r : Nat) (s : State) : State :=
  if 8 ≤ r then s
  else
    let s := (s.reach ((s.lastPoll r).2 + s.pollUs * cyclesPerUs)).emit (.pmbusRead r)
    (s.reach (s.cycles + max 1 (s.fld F.PWR_PMBUS_CFG_TIMEOUT) * cyclesPerUs)).staleCheck

/-! ## The cap loop (R461, R462, R475) -/

/-- The cap as it acts, in mW. -/
def State.capMw (s : State) : Nat := 1000 * min 1200 (max 600 (s.fld F.PWR_CAP_CAP_W))

/-- pred(x) ≤ cap · num / den, cleared of fractions. -/
def predOk (p ps : Int) (n x cap num den : Nat) : Bool :=
  decide ((ps * (16 - n : Nat) + (p - ps) * (16 - x : Nat)) * den ≤ (cap * num * (16 - n) : Nat))

/-- L_cap after one period. -/
def State.nextCap (s : State) (p ps : Int) : Nat :=
  let n := s.level
  let cap := s.capMw
  let margin := min 20 (s.fld F.PWR_CAP_CAP_MARGIN)
  let l := s.fld F.PWR_STATUS_L_CAP
  if (cap : Int) < p then ((List.range (16 - n)).map (n + ·)).find? (fun x => predOk p ps n x cap 1 1) |>.getD 15
  else if 0 < l ∧ predOk p ps n (l - 1) cap (100 - margin) 100 then l - 1 else l

/-- Lower edge of a PKG_LEVEL in hundredths of the cap. -/
def pkgEdge (n : Nat) : Nat := [0, 50, 75, 95].getD n 0

/-- PKG_LEVEL that the average calls for. -/
def State.pkgClass (s : State) (avg : Nat) : Nat :=
  if s.fld F.PWR_STATUS_L_CAP ≠ 0 ∨ 95 * s.capMw ≤ avg * 100 then 3
  else if 75 * s.capMw ≤ avg * 100 then 2 else if 50 * s.capMw ≤ avg * 100 then 1 else 0

/-- R475: a rise shows at once; a level is left once the average has been 0.02 below its edge for 10 ms. -/
def State.pkgUpdate (s : State) (avg : Nat) : State :=
  let now := s.fld F.PWR_STATUS_PKG_LEVEL
  let c := s.pkgClass avg
  if now ≤ c then (s.setFld F.PWR_STATUS_PKG_LEVEL c).setPwr fun p => { p with pkgBelow := none }
  else if (pkgEdge now - 2) * s.capMw < avg * 100 then s.setPwr fun p => { p with pkgBelow := none }
  else match s.pwr.pkgBelow with
    | none => s.setPwr fun p => { p with pkgBelow := some s.cycles }
    | some t => if t + 10000 * cyclesPerUs ≤ s.cycles then
        (s.setFld F.PWR_STATUS_PKG_LEVEL c).setPwr fun p => { p with pkgBelow := none } else s

/-- Two's complement of a signed number in `n` bits. -/
def twos (n : Nat) (i : Int) : Nat := (i % (2 ^ n : Nat)).toNat

/-- PWR_CAL_STAT.ERR, renewed each second. -/
def State.errUpdate (s : State) (pm pt : Nat) : State :=
  let a := s.pwr.errAcc
  let a := (a.1, a.2.1 + pm, a.2.2 + pt)
  if a.1 + 1000000 * cyclesPerUs ≤ s.cycles then
    let e : Int := if a.2.2 = 0 then 0 else ((a.2.1 : Int) - a.2.2) * 1000 / a.2.2
    (s.setFld F.PWR_CAL_STAT_ERR (twos 16 e)).setPwr fun p => { p with errAcc := (s.cycles, 0, 0) }
  else s.setPwr fun p => { p with errAcc := a }

/-- A coefficient or a static term takes a new value (Table 13.16). -/
def Pwr.setCoef (p : Pwr) (k v : Nat) : Pwr :=
  if k < 7 then { p with coef := p.coef.set k v } else { p with stat := p.stat.set (k - 7) v }

/-- A period begins: what was written to PWR_COEF_DATA takes effect. -/
def State.takeCoefs (s : State) : State :=
  s.accrue.setPwr fun p => { p.coefNew.foldl (fun q x => q.setCoef x.1 x.2) p with coefNew := [] }

/-- Power in mW of an energy in fJ over `dt` cycles. -/
def powerMw (fj dt : Nat) : Nat := fj * cyclesPerUs / (max 1 dt * 1000000)

/-- Pm and Ps by the activity model over the last `dt` cycles: the static terms of every rail and the dynamic ones, of every rail
and of those other than AE and CORE (R462). -/
def State.modelMw (s : State) (dt : Nat) : Nat × Nat :=
  let stat := s.pwr.stat.foldl (· + ·) 0
  (stat + powerMw (s.pwr.railFj.foldl (· + ·) 0) dt, stat + powerMw ((s.pwr.railFj.drop 4).foldl (· + ·) 0) dt)

/-- CAP_LOOP_TICK: `pm` is what activity that the rows do not carry adds to the model's power over the last period, and `ps` its
part that does not scale, in mW (log 109). -/
def execTick (pm ps : Nat) (s : State) : State :=
  let from_ := s.pwr.tickAt
  let s := s.reach (from_ + max 10 (s.fld F.PWR_LOOP_CFG_PERIOD) * cyclesPerUs)
  let m := s.modelMw (s.cycles - from_)
  let pm := m.1 + pm
  let ps := m.2 + ps
  let s := (s.setPwr fun p => { p with tickAt := s.cycles, railFj := List.replicate 8 0 }).takeCoefs
  let s := s.setFld F.PWR_STATUS_MODEL_W (min 65535 (pm / 1000))
  let pt := s.telemMw
  let p := if s.fld F.PWR_STATUS_TELEM_STALE = 1 then pm * 11 / 10 else max pm pt
  let s := (s.setFld F.PWR_STATUS_L_CAP (s.nextCap p ps)).relevel
  let rec' := (s.pwr.recent.filter fun x => decide (s.cycles < x.1 + 1000 * cyclesPerUs)) ++ [(s.cycles, p)]
  let s := s.setPwr fun q => { q with recent := rec' }
  (s.pkgUpdate ((rec'.map (·.2)).foldl (· + ·) 0 / rec'.length)).errUpdate pm pt

/-! ## Heat (R465 to R467) -/

/-- Rails of a die sensor: AE and CORE of its core die, HFD, or FLD. -/
def sensorRails (n : Nat) : List Nat := if n < 16 then [0, 2] else if n < 32 then [1, 3] else if n < 36 then [5] else [7]

/-- One reading of a sensor. -/
def Sensor.read (x : Sensor) (v : Int) (railChanged : Bool) : Sensor :=
  if x.failed then x
  else
    let same := if v = x.last then (if railChanged then x.same + 1 else x.same) else 0
    { last := v, same := same, failed := decide (v < -40) || decide (150 < v) || decide (64 ≤ same) }

/-- Report the sensors that fail with this read. -/
def State.sensorEvents (s : State) : List (Nat × Sensor × Sensor) → State
  | [] => s
  | (n, old, new) :: t =>
    (if new.failed && !old.failed then
      ((s.setFld F.PWR_STATUS_SENSOR_FAIL 1).bump F.PWR_TEMP_FAILED).deviceEvent (devDetail 10 n (twos 64 new.last))
     else s).sensorEvents t

def maxInt (d : Int) (l : List Int) : Int :=
  match l with
  | [] => d
  | a :: t => t.foldl max a

/-- SENSOR_READ, every 100 µs: 40 die sensors in the order of `Pwr.sensors`, and 16 stacks. -/
def execSensors (dies stackT : List Int) (s : State) : State :=
  let s := s.reach (s.pwr.sensedAt + 100 * cyclesPerUs)
  let rails := (List.range 8).map fun r => (s.lastPoll r).1
  let moved (n : Nat) : Bool := (sensorRails n).any fun r => rails.getD r 0 != s.pwr.lastRail.getD r 0
  let olds := s.pwr.sensors
  let news := ((List.range olds.length).zip olds).map fun x => match dies[x.1]? with
    | some v => x.2.read v (moved x.1)
    | none => x.2
  let tDie := maxInt s.pwr.tDie ((news.filter fun x => !x.failed).map (·.last))
  let tHbm := maxInt s.pwr.tHbm stackT
  let hot := (List.range stackT.length).filter fun i => decide ((s.fld F.PWR_THERM_CFG_HBM_HOT : Int) ≤ stackT.getD i 0)
  let s := s.setPwr fun p => { p with sensors := news, tDie := tDie, tHbm := tHbm, hotRefresh := hot, lastRail := rails, sensedAt := s.cycles }
  let s := (s.setFld F.PWR_TEMP_DIE_MAX (twos 8 tDie)).setFld F.PWR_TEMP_HBM_MAX (twos 8 tHbm)
  let peak : Int := if s.fld F.PWR_TEMP_PEAK < 128 then s.fld F.PWR_TEMP_PEAK else (s.fld F.PWR_TEMP_PEAK : Int) - 256
  (s.setFld F.PWR_TEMP_PEAK (twos 8 (max peak tDie))).sensorEvents ((List.range olds.length).zip (olds.zip news))

/-- Have all sensors of a die failed? -/
def State.dieBlind (s : State) : Bool :=
  [(0, 16), (16, 16), (32, 4), (36, 4)].any fun d =>
    let l := (s.pwr.sensors.drop d.1).take d.2
    !l.isEmpty && l.all (·.failed)

/-- THERMAL_LOOP_TICK (R466). -/
def execTherm (s : State) : State :=
  let s := s.reach (s.pwr.thermAt + max 100 (s.fld F.PWR_LOOP_CFG_THERM_PERIOD) * cyclesPerUs)
  let s := s.setPwr fun p => { p with thermAt := s.cycles }
  let warn : Int := s.fld F.PWR_THERM_CFG_WARN
  let crit : Int := max (s.fld F.PWR_THERM_CFG_CRIT) (s.fld F.PWR_THERM_CFG_WARN)
  let hot : Int := s.fld F.PWR_THERM_CFG_HBM_HOT
  let hcrit : Int := s.fld F.PWR_THERM_CFG_HBM_CRIT
  let d := if s.dieBlind then max crit s.pwr.tDie else s.pwr.tDie
  let h := s.pwr.tHbm
  let l := s.fld F.PWR_STATUS_L_THERM
  let n := if crit ≤ d ∨ hcrit ≤ h then 15 else if warn ≤ d ∨ hot ≤ h then min 15 (l + 1)
    else if d < warn - 5 ∧ h < hot - 5 then l - 1 else l
  (s.setFld F.PWR_STATUS_L_THERM n).relevel

/-! ## Droop (R468, R469) and the ramp (R470) -/

/-- Islands whose clock is stretched now: a stretch ends with its detector, or after DROOP_HOLD ns. -/
def State.stretchedNow (s : State) : List (Nat × Nat) :=
  s.pwr.stretched.filter fun x => decide (s.cycles < x.2 + nsToCycles (s.fld F.PWR_DROOP_CFG_DROOP_HOLD))

/-- DROOP_TRIP of AE island 0 to 31 or CC island 32 to 47. -/
def execDroop (i : Nat) (s : State) : State :=
  if 48 ≤ i then s
  else
    let s := s.bump F.PWR_DROOP_STAT_STRETCHES
    let esc := max 1 (s.fld F.PWR_DROOP_CFG_DROOP_ESC)
    let w := ((s.pwr.trips.find? fun x => x.1 == i).map (·.2)).getD (s.cycles, 0)
    let w := if w.1 + 100 * cyclesPerUs ≤ s.cycles then (s.cycles, 1) else (w.1, w.2 + 1)
    let s := s.setPwr fun p => { p with
      stretched := (s.stretchedNow.filter fun x => x.1 ≠ i) ++ [(i, s.cycles)]
      trips := p.trips.filter (fun x => x.1 ≠ i) ++ [(i, w)] }
    if w.2 = esc + 1 then
      let l := s.fld F.PWR_STATUS_L_DROOP
      let s := s.setPwr fun p => { p with lastEsc := s.cycles }
      if l < 4 then ((s.setFld F.PWR_STATUS_L_DROOP (l + 1)).bump F.PWR_DROOP_STAT_ESCALATIONS).relevel else s
    else s

/-- `n` trips of each island of a list. -/
def State.tripAll (s : State) (l : List Nat) : Nat → State
  | 0 => s
  | n + 1 => (l.foldl (fun t i => execDroop i t) s).tripAll l n

/-- The trips that TST_CASC_DROOP forces: one on its target every TRIP_US, those due since the last ones at this run of the
cap loop. -/
def State.forceTrips (s : State) : State :=
  let p := s.fld F.TST_CASC_DROOP_TRIP_US * cyclesPerUs
  if p = 0 then s.setPwr fun q => { q with forcedAt := s.cycles }
  else
    let n := (s.cycles - s.pwr.forcedAt) / p
    let s := s.setPwr fun q => { q with forcedAt := q.forcedAt + n * p }
    s.tripAll (if s.fld F.TST_CASC_DROOP_ALLISL = 1 then List.range 48 else [s.fld F.TST_CASC_DROOP_ISLAND]) n

/-- STRETCH_END. -/
def execStretchEnd (i : Nat) (s : State) : State :=
  s.setPwr fun p => { p with stretched := s.stretchedNow.filter fun x => x.1 ≠ i }

/-- DROOP_DECAY: 10 ms without an escalating window. -/
def execDecay (s : State) : State :=
  let l := s.fld F.PWR_STATUS_L_DROOP
  if l = 0 then s
  else
    let s := s.reach (s.pwr.lastEsc + 10000 * cyclesPerUs)
    ((s.setPwr fun p => { p with lastEsc := s.cycles }).setFld F.PWR_STATUS_L_DROOP (l - 1)).relevel

/-- RAMP_STEP_END of a die: RAMP_NS have passed since the oldest change that counts against the limit. -/
def execRamp (die : Nat) (s : State) : State :=
  match s.sch.ramp.find? fun x => x.1 == die with
  | none => s
  | some x =>
    let s := s.reach (x.2 + nsToCycles (s.fld F.PWR_DROOP_CFG_RAMP_NS))
    { s with sch := { s.sch with ramp := s.sch.ramp.erase x } }

/-! ## The brake (R471) -/

/-- PWRBRK_ASSERT. -/
def execBrk (s : State) : State :=
  if s.pwr.brk.isSome then s
  else (s.setPwr fun p => { p with brk := some (s.cycles, false) }).refreshPower

/-- PWRBRK_RELEASE. -/
def execBrkOff (s : State) : State :=
  ((s.setPwr fun p => { p with brk := none }).setFld F.PWR_STATUS_L_BRK 0).relevel

/-- BRK_TIMEOUT. -/
def execBrkEnd (s : State) : State :=
  match s.pwr.brk with
  | none => s
  | some b =>
    if b.2 then s
    else
      let s := s.reach (b.1 + max 1 (s.fld F.PWR_BRK_CFG_BRK_TIMEOUT) * 1000 * cyclesPerUs)
      ((s.setPwr fun p => { p with brk := some (b.1, true) }).setFld F.PWR_STATUS_BRK_STUCK 1).deviceEvent (devDetail 9 0 0)

/-! ## Heavy-phase hints (R472, R296) -/

/-- Dies of a context's AE set. -/
def State.ctxDies (s : State) (c : Nat) : List Nat :=
  match s.setOf c with
  | none => []
  | some st => [0, 1].filter fun d => (s.setIslands st).any fun i => i / 16 == d

/-- The effect of a HEAVY hint. -/
def State.heavyHint (s : State) (c dur : Nat) : State :=
  match s.ctx? c with
  | none => s
  | some x =>
    if !x.r.heavy ∨ s.fld F.PWR_STATUS_L_CAP ≠ 0 ∨ s.fld F.PWR_STATUS_L_THERM ≠ 0 then s
    else
      let e := s.cycles + min dur (s.fld F.PWR_HINT_CFG_HINT_MAX) * cyclesPerUs
      (s.setCtx c fun y => { y with heavyEnd := some (max e (y.heavyEnd.getD 0)) }).putRaise
        (min 25 (s.fld F.PWR_HINT_CFG_HINT_MV)) (s.ctxDies c)

def hintHeavyBody (k : Cmd) (s : State) : State :=
  let d := dF k.desc 12 4
  if d = 0 then s.complete k.id St.okEmpty else (s.complete k.id St.ok).heavyHint k.ctx d

/-- HINT_HEAVY. -/
def execHintH (c : CmdId) (s : State) : State :=
  s.runCmd c (fun d => dOp d == Op.hint && dF d 8 1 == 3) State.checkHint hintHeavyBody

/-- HEAVY_WINDOW_END: the added energy is charged to the hinting context. -/
def execHeavyEnd (c : Nat) (s : State) : State :=
  match (s.ctx? c).bind (·.heavyEnd) with
  | none => s
  | some e => (((s.reach e).heavyOver c).addEnergy c (Config.hintEnergy s.free)).nextFree

/-! ## Calibration (R478) -/

/-- Start a run of `n` windows. -/
def State.startCal (s : State) (n : Nat) (ofMount : Bool) : State :=
  (s.setFld F.PWR_CAL_STAT_BUSY 1).setPwr fun p => { p with
    cal := some ⟨max 8 n, s.cycles, [], s.fld F.PWR_STATUS_TELEM_STALE == 1, ofMount, s.cycles, List.replicate 8 0,
      List.replicate 8 0⟩ }

/-- CAL_START: a PF write of PWR_CAL_CMD. -/
def execCalStart (f : Nat) (v : Word32) (s : State) : State :=
  if f ≠ 0 ∨ v.toNat % 2 = 0 ∨ s.fld F.PWR_CAL_STAT_BUSY = 1 then s else s.startCal (v.toNat / 256 % 256) false

/-- Fit of one rail: k_r as a fraction and S_r in mW, or none where the fit is refused. Sums are scaled by the number of
windows W so that they are whole. -/
def fitRail (ws : List CalWin) (r : Nat) : Option (Nat × Nat) :=
  let w : Int := ws.length
  let ms : List Int := ws.map fun x => (x.model.getD r 0 : Int)
  let es : List Int := ws.map fun x => (x.telem.getD r 0 : Int)
  let sm := ms.foldl (· + ·) 0
  let se := es.foldl (· + ·) 0
  let num := (List.zipWith (fun m e => (w * m - sm) * (w * e - se)) ms es).foldl (· + ·) 0
  let den := (ms.map fun m => (w * m - sm) * (w * m - sm)).foldl (· + ·) 0
  if den = 0 ∨ 2 * num < den ∨ 2 * den < num then none
  else some ((num * 1024 / den).toNat, ((se * den - num * sm) / (w * den * 10)).toNat)

/-- Apply the fit of every rail; the rails that failed as a bit mask. -/
def State.fitAll (s : State) (c : CalRun) : List Nat → State × Nat
  | [] => (s, 0)
  | r :: t => match (if c.stale then none else fitRail c.wins r) with
    | none => let x := s.fitAll c t
              (x.1, x.2 + 2 ^ r)
    | some (k, st) => (s.setPwr fun p => { p with scale := p.scale.set r k, stat := p.stat.set r st }).fitAll c t

/-- The run ends: new values for every rail at once. -/
def State.endCal (s : State) (c : CalRun) : State :=
  let r := s.takeCoefs.fitAll c (List.range 8)
  let s := (((r.1.setFld F.PWR_CAL_STAT_FAILED r.2).setFld F.PWR_CAL_STAT_BUSY 0).bump F.PWR_CAL_STAT_RUNS).setPwr fun p =>
    { p with cal := none }
  if c.ofMount then s.setFld F.GLB_MOUNT_STAT_CALIBRATED 1 else s

/-- The window that ends now: energies of each rail in µJ, with what the row adds for activity the rows do not carry and for what
the regulators saw between polls (log 109). -/
def State.calWindow (s : State) (c : CalRun) (model telem : List Nat) : CalWin :=
  { model := (List.range 8).map fun r => c.model.getD r 0 / 1000000000 + model.getD r 0
    telem := (List.range 8).map fun r => (c.telem.getD r 0 + s.sinceFj c r) / 1000000000 + telem.getD r 0 }

/-- CAL_WINDOW_END. -/
def execCalWin (model telem : List Nat) (s : State) : State :=
  match s.pwr.cal with
  | none => s
  | some c =>
    let s := s.reach (c.start + (c.wins.length + 1) * 10000 * cyclesPerUs)
    let c := { c with left := c.left - 1, wins := c.wins ++ [s.calWindow c model telem], since := s.cycles
                      model := List.replicate 8 0, telem := List.replicate 8 0 }
    let s := s.setPwr fun p => { p with cal := some c }
    if c.left = 0 then s.endCal c else s

/-! ## Coefficients (Table 13.16) -/

/-- Rail of an activity kind (Table 13.4; AE and CORE stand for the rails of die 0). -/
def kindRail (k : Nat) : Nat := [0, 2, 4, 2, 7, 6, 6].getD k 0

/-- VALUE and SCALE of the selected row. -/
def State.coefView (s : State) : Nat × Nat :=
  let k := s.fld F.PWR_COEF_SEL_KIND
  let now := if k < 7 then s.pwr.coef.getD k 0 else s.pwr.stat.getD (k - 7) 0
  (((s.pwr.coefNew.reverse.find? fun x => x.1 == k).map (·.2)).getD now,
    if k < 7 then s.pwr.scale.getD (kindRail k) 1024 else if k < 15 then s.pwr.scale.getD (k - 7) 1024 else 0)

/-- A write of VALUE: it takes effect at the next period. -/
def State.coefWrite (s : State) (v : Nat) : State :=
  let k := s.fld F.PWR_COEF_SEL_KIND
  s.setPwr fun p => { p with coefNew := p.coefNew ++ [(k, v)] }

end Sys2Proof.Machine
end

