-- ==== Sys2Proof/Machine/Faults.lean ====
section
/-! DEFINITION. Faults (chapter 16): device-level errors, fencing of cores, correctable errors, uncorrectable HBM errors and
what a retired pseudo-channel held. -/

namespace Sys2Proof.Machine

/-- Bits [51:20] of the cycle counter. -/
def State.stampHi (s : State) : Nat := s.cycles / 2 ^ 20 % 2 ^ 32

/-! ## Device-level errors (R534, R535) -/

/-- Die numbers of Table 1.1. -/
def dieHfd : Nat := 2

/-- The steps of R534. While an error is in force a further one has no effect of its own. -/
def State.deviceErr (s : State) (cause die : Nat) : State :=
  if s.dead then s
  else
    let s := ((s.setFld F.RAS_DEVICE_ERR_CAUSE cause).setFld F.RAS_DEVICE_ERR_DIE die).setFld F.RAS_DEVICE_ERR_TIME s.stampHi
    let s := { s.emit (.aer true) with dead := true }
    let s := (s.saDown (List.range 64)).endCmds (some St.deviceError) St.deviceError s.cmds
    s.deadEvent

/-- DEVICE_ERROR of a cause of Table 16.6. -/
def execDevErr (cause die : Nat) (s : State) : State := s.deviceErr cause die

/-- D2D_LINK_FAILURE. -/
def execD2d (die : Nat) (s : State) : State := s.deviceErr 1 die

/-- SYSCLK_FAULT. -/
def execSysclk (s : State) : State := (s.setFld F.MGT_IO_STAT_SYSCLK_FAULT 1).deviceErr 3 dieHfd

/-- Ask every regulator to switch off. -/
def State.offAll (s : State) : List Nat → State
  | [] => s
  | r :: t => (s.emit (.pmbusOff r)).offAll t

/-- THERMAL_TRIP (R467). -/
def execTrip (die : Nat) (s : State) : State :=
  if s.pwr.thermtrip then s
  else (((s.setPwr fun p => { p with thermtrip := true }).deviceErr 4 die).offAll (List.range 8)).setPwr fun p =>
    { p with railsOff := true }

/-- IDCODE: stepping, 0x7100, the manufacturer code and a 1 (R518). -/
def State.idcode (s : State) : Nat :=
  s.fld F.GLB_ID_STEPPING % 16 * 2 ^ 28 + 0x7100 * 4096 + Config.jtagMaker % 2048 * 2 + 1

/-- JTAG_INSTRUCTION. The instructions are numbered in the order of R518: 0 BYPASS, 1 IDCODE, 2 SAMPLE/PRELOAD, 3 EXTEST,
4 EXTEST_PULSE, 5 EXTEST_TRAIN, 6 CLAMP, 7 HIGHZ, others private. -/
def execJtag (ir : Nat) (s : State) : State :=
  if 3 ≤ ir ∧ ir ≤ 7 then { s with host := { s.host with pinsTaken := true } }.deviceErr 7 dieHfd
  else if ir = 1 then s.emit (.idcode s.idcode) else s

/-! ## Fencing (R528 to R532) -/

/-- Log and report the fence of a core. -/
def State.logFence (s : State) (unit cause code n : Nat) : State :=
  let s := ((s.setFld F.RAS_FENCE_LOG_UNIT unit).setFld F.RAS_FENCE_LOG_CAUSE cause).setFld F.RAS_FENCE_LOG_TIME s.stampHi
  ((s.bump F.RAS_ERR_CNT_CORE).emit (.aer false)).deviceEvent (devDetail code n cause)

/-- Take a bit out of a mask register. -/
def State.clearBit (s : State) (f : Fld) (n : Nat) : State :=
  let w := s.fld f (n / 64)
  if w / 2 ^ (n % 64) % 2 = 1 then s.setFld f (w - 2 ^ (n % 64)) (n / 64) else s

/-- Fail every ATTEND with chunks, and every PAGES_DELIVER that runs, of the partitions that name a set without AEs. -/
def State.failSet (s : State) (set : Nat) : List Cmd → State
  | [] => s
  | k :: t =>
    (if s.setOf k.ctx ≠ some set ∨ k.st ≠ .running then s
     else if dOp k.desc = Op.attend ∧ (s.att? k.id).any (fun a => decide (a.left ≠ 0)) then s.failAttend k.id St.deviceError
     else if dOp k.desc = Op.pagesDeliver then (s.abandon k).complete k.id St.deviceError
     else s).failSet set t

/-- The set of an island. -/
def State.islandSet (s : State) (i : Nat) : Option Nat :=
  (((s.blank.map (·.aesets)).getD []).find? fun x => x.islands.contains i).map (·.set)

/-- AESET_EMPTY when the last AE of a set is gone. -/
def State.checkEmpty (s : State) (ae : Nat) : State :=
  match s.islandSet (aeIsland ae) with
  | none => s
  | some set =>
    if !(s.setAes set).isEmpty then s
    else (s.deviceEvent (devDetail 4 set (s.seq.parts.filter fun p => p.r.aeset == set).length)).failSet set s.cmds

/-- Does the output of a chunk still matter: its ATTEND is there and its context UP? -/
def State.chunkCounts (s : State) (k : Chunk) : Bool :=
  (s.att? k.att).isSome && (s.ctx? k.ctx).any fun x => x.st == .up

/-- The chunk of a fenced AE: restarted and counted (R143), or discarded when its ATTEND is over or its context is TEARING
(R531). -/
def State.sendBack (s : State) (k : Chunk) : State :=
  let s := s.setCtx k.ctx fun x => { x with vt := x.vt - k.est * 65536 / x.weight }
  if !s.chunkCounts k then
    { s with att := { s.att with chunks := s.att.chunks.filter fun x => !x.same k } }.unpinPages k.pages
  else
    { (s.bump F.AEC_RETRY_COUNT_RETRIES) with att := { s.att with chunks := updIf s.att.chunks k.same fun x =>
      { x with st := .waiting, errors := x.errors + 1, placed := 0, checked := false, est := 0 } } }

/-- Fence an AE. -/
def State.fenceAe (s : State) (ae cause : Nat) : State :=
  ((s.clearBit F.AEC_AE_ONLINE_ONLINE ae).logFence ae cause 1 ae).checkEmpty ae

/-- AE_FENCE with its cause (1 uncorrectable, 2 threshold, 3 expander rate). A chunk that meets a third AE error is
abandoned with its context, and that AE is not fenced (R530). -/
def execAeFence (ae cause : Nat) (s : State) : State :=
  if 256 ≤ ae ∨ !s.aeOnline ae then s
  else
    let s := if cause = 3 then (s.bump F.CDC_EXP_STALL_RATE (max 1 (Config.stallCycles s.free))).nextFree else s
    match s.att.chunks.find? fun k => k.st == .running ae with
    | none => s.fenceAe ae cause
    | some k =>
      if 2 ≤ k.errors ∧ s.chunkCounts k then
        { s with att := { s.att with chunks := s.att.chunks.filter fun x => !x.same k } }.unpinPages k.pages |>.faultCtx k.ctx
      else (s.sendBack k).fenceAe ae cause

/-- Is CC `n` online? -/
def State.ccOnline (s : State) (n : Nat) : Bool := s.fld F.RAS_CC_ONLINE_ONLINE (n / 64) / 2 ^ (n % 64) % 2 = 1

/-- CC_FENCE (1 uncorrectable, 2 threshold, 4 watchdog, after CC_WDOG). The commands it held run on other CCs without a change of their
effect (R532); with none online it is a device-level error. -/
def execCcFence (cc cause : Nat) (s : State) : State :=
  if 128 ≤ cc ∨ !s.ccOnline cc then s
  else
    let s := if cause = 4 then s.reach (s.cycles + max 1 (s.fld F.RAS_CFG_CC_WDOG) * cyclesPerUs) else s
    let s := (s.clearBit F.RAS_CC_ONLINE_ONLINE cc).logFence (256 + cc) cause 2 cc
    if s.fld F.RAS_CC_ONLINE_ONLINE 0 = 0 ∧ s.fld F.RAS_CC_ONLINE_ONLINE 1 = 0 then s.deviceErr 6 (cc / 64) else s

/-! ## Correctable errors (R525, R528) -/

/-- Count one correctable error of a core in its window; the result tells whether the threshold is reached. -/
def State.coreError (s : State) (unit : Nat) : State × Bool :=
  let w := max 1 (s.fld F.RAS_CFG_CE_WINDOW) * 1000 * cyclesPerUs
  let e := (s.ras.find? fun x => x.unit == unit).getD ⟨unit, s.cycles, 0⟩
  let e : CoreErr := if e.start + w ≤ s.cycles then ⟨unit, s.cycles, 1⟩ else { e with count := e.count + 1 }
  let n := s.fld F.RAS_CFG_CE_FENCE
  ({ s with ras := s.ras.filter (fun x => x.unit ≠ unit) ++ [e] }, n != 0 && decide (n ≤ e.count))

/-- CORRECTED_ERROR. Sources: 0 a core (unit 0 to 255 AE, 256 to 383 CC), 1 HBM, 2 LDPC (unit: bits corrected), 3 die-to-die
replay, 4 PCIe replay, 5 STG, 6 CAM, 7 one copy of a table record (R310), 8 LDPC by soft decoding (unit: bits). -/
def execCorrected (unit source : Nat) (s : State) : State :=
  let s := (s.bump F.RAS_ERR_CNT_CORRECTED).emit (.aer false)
  if source = 0 then
    let r := s.coreError unit
    if !r.2 then r.1 else if unit < 256 then execAeFence unit 2 r.1 else execCcFence (unit - 256) 2 r.1
  else if source = 1 then s.bump F.HBM_ECC_STAT_CORRECTED
  else if source = 2 then s.bumpUnits F.FLS_LDPC_STAT_BITS 1024 unit
  else if source = 7 then s.bump F.TCK_HDR_STAT_TABLE_CRC
  else if source = 8 then (s.bumpUnits F.FLS_LDPC_STAT_BITS 1024 unit).bump F.FLS_LDPC_STAT_SOFT
  else s

/-! ## Uncorrectable HBM errors (R282, R526, R533) -/

/-- Tear down every listed context that owns a lost structure; the number torn down. -/
def State.loseCtxs (s : State) (pc : Nat) : List Ctx → State × Nat
  | [] => (s, 0)
  | x :: t =>
    if x.st = .up && Config.structIn 1 pc x.r.ctx then
      let r := (s.faultCtx x.r.ctx).loseCtxs pc t
      (r.1, r.2 + 1)
    else s.loseCtxs pc t

/-- Re-insert the lost digests that this part homes. -/
def State.reinsertLost (s : State) (lost : List DirEnt) : List Anchor → State
  | [] => s
  | a :: t =>
    (s.reinsert a (a.liveDigests.filter fun x => s.homeOf x.2 == s.ownPart &&
      lost.any fun e => e.digest == x.2 && e.sdom == a.sdom && e.mprof == a.mprof)).reinsertLost lost t

/-- Structures of a retired pseudo-channel (Table 16.5). Those of two copies are recopied, and nothing is lost. -/
def State.loseStructs (s : State) (pc : Nat) : State :=
  let g := pc / 16
  if ((s.blank.map (·.sysGroups)).getD []).contains g then
    let lost := s.pxi.dir.filter fun e => Config.structIn 0 pc e.bucket
    let s := s.dropEntries fun e => Config.structIn 0 pc e.bucket
    let s := if lost.isEmpty then s else (s.setFld F.FXT_DOM_STAT_REFILL 1).reinsertLost lost s.pxi.anchors
    let r := s.loseCtxs pc s.ctxs
    if r.2 = 0 then r.1 else r.1.deviceEvent (devDetail 5 pc r.2)
  else
    let parts := (s.seq.parts.filter fun p => p.r.cgroups.contains g).map (·.r.part)
    let s := s.freeRegions (s.fxt.regions.filter fun r => !r.hostMem && r.chunks.any fun c => chunkPc c == pc)
    -- plan descriptors kept there are discarded: ATTENDs walk the pages again
    let mine := fun (e : PlanEnt) => (s.ctx? e.ctx).any fun x => parts.contains x.r.part
    { s with att := { s.att with ents := updIf s.att.ents mine fun e => { e with descs := [] } } }

def State.pcCount (s : State) (pc : Nat) : Nat := spGet 0 s.tier.pcErrors pc

/-- Retire a pseudo-channel with everything it held; `bad` names the frames whose copies there fail. -/
def State.retireAll (s : State) (pc : Nat) (bad : List Nat) : State :=
  if s.pcRetired pc ∨ 1024 ≤ pc then s
  else ((s.retirePc pc bad).loseStructs pc).deviceEvent (devDetail 3 pc (s.pcCount pc))

/-- HBM_UNCORRECTABLE on a pseudo-channel, met on the stored bytes of the frame `met` (0: none): the copy is rejected, and at the
threshold the pseudo-channel is retired; `bad` names further frames whose copies there fail when they are moved out (R282). -/
def execHbmErr (pc met : Nat) (bad : List Nat) (s : State) : State :=
  if 1024 ≤ pc then s
  else
    let s := s.bump F.HBM_ECC_STAT_UNCORRECTED
    let s := { s with tier := { s.tier with pcErrors := spSet 0 s.tier.pcErrors pc (s.pcCount pc + 1) } }
    let at_ := decide (max 1 (s.fld F.HBM_RETIRE_CFG_THRESHOLD) ≤ s.pcCount pc)
    let s := match s.frame? met with
      | none => s
      | some f =>
        let here := (f.t1.any fun c => c.hdr.chunk.any fun x => chunkPc x == pc) && f.reread.isNone
        -- a dirty page whose copy fails in a channel that is retired now becomes DROPPED below (R282)
        if here && !(at_ && f.st == .dirtyT1 && !f.t0) then s.copyFailed f .t1 .hbm else s
    if at_ then s.retireAll pc (met :: bad) else s

/-- HBM_RETIRE_CMD: an expert write of the PF with the key. -/
def execRetireF (f : Nat) (v : Word32) (s : State) : State :=
  if f = 0 ∧ s.fld F.GLB_EXPERT_UNLOCK_UNLOCKED = 1 ∧ v.toNat / 65536 = 0x7E71 then s.retireAll (v.toNat % 1024) [] else s

/-- PMBUS_ALERT (R515): the alerting rail is read with STATUS_WORD and reported. -/
def execAlert (rail word : Nat) (s : State) : State := (s.emit (.pmbusRead rail)).deviceEvent (devDetail 8 rail word)

/-! ## Tables that fail in both copies (R310) -/

/-- A running chunk needs a table whose record fails RCRC in both copies: a device-level error. -/
def State.checkTables (s : State) : State :=
  match s.att.chunks.find? fun k => k.st != .waiting && (s.chunkTids k).flatten.any fun t => s.tableLoad t == .bad with
  | some (k : Chunk) => s.deviceErr 2 (match k.st with
      | .running a => aeDie a
      | .waiting => dieHfd)
  | none => s

/-- CHUNK_PLACEMENT_ROUND; expanders load the tables of the chunks placed. -/
def execRoundF (set : Nat) (s : State) : State := (execRound set s).checkTables

end Sys2Proof.Machine
end

