-- ==== Sys2Proof/Machine/Mount.lean ====
section
/-! DEFINITION. Mounting a blank (chapter 14): the checks of R487, the steps of Table 14.6, re-mounts, and the warm restart of
Table 7.8. -/

namespace Sys2Proof.Machine

/-! ## Well-formed blanks (R487 check 4) -/

def noDup (l : List Nat) : Bool := decide l.Nodup

/-- A directory entry is well formed: a type of Table 14.5, the scope that goes with it, an aligned section inside the blank. -/
def sectOk (b : Blank) (e : Sect) : Bool :=
  decide (1 ≤ e.typ ∧ e.typ ≤ 12) && (if e.typ == 2 || e.typ == 5 then decide (e.part < 64) else e.part == 255) &&
    e.reserved == 0 && e.off % 64 == 0 && decide (64 + 16 * b.nsect ≤ e.off) && decide (e.off + e.len ≤ b.obj.body.length) &&
    (e.typ != 6 || e.len == 256 * e.count) && (e.typ != 11 || decide (432 * e.count ≤ e.len))

/-- The records that the directory counts are those the sections hold (log entry 3). -/
def countsOk (b : Blank) : Bool :=
  b.countOf 3 == b.aesets.length && b.countOf 4 == b.sgroups.length && b.countOf 8 == b.sdoms.length &&
    b.countOf 2 == b.partitions.length && b.countOf 5 == b.contexts.length &&
    (List.range 64).all fun p =>
      ((b.sectsOf 2 p).map (·.count)).sum == (b.partitions.filter fun r => r.part == p).length &&
      ((b.sectsOf 5 p).map (·.count)).sum == (b.contexts.filter fun r => r.part == p).length

/-- The table-set images fill their sections. -/
def tsetCutOk (b : Blank) : Bool :=
  (b.sects 7).all fun e => ((cutImages e.count (b.bytesOf e)).map (·.length)).sum == e.len

/-- Tables 14.3 and 14.4, on this stepping. -/
def State.headerOk (s : State) (b : Blank) : Bool :=
  b.magic == 0x4B4E4C42 && b.format == 1 && b.partNumber == 0x7100 && decide (b.minStepping ≤ s.fld F.GLB_ID_STEPPING) &&
    b.headerZero && decide (1 ≤ b.nsect ∧ b.nsect ≤ 4096) && b.length == b.obj.body.length + 800 &&
    b.dir.all (sectOk b) && countsOk b && tsetCutOk b && !b.malformed

/-- Partitions and the owners of the 64 channel groups (R397); their records fit the record table, whose indices 1 to 2^28 − 1
a handle can name (R37, R38). -/
def partsOk (b : Blank) : Bool :=
  decide ((b.partitions.map (·.records)).sum ≤ b.records) &&
  noDup (b.partitions.map (·.part)) && b.partitions.all (fun p => decide (p.part < 64) && !p.cgroups.isEmpty &&
    b.aesets.any (fun a => a.set == p.aeset) && decide (p.defaults.cls ≤ 3 ∧ p.defaults.wb ≤ 3 ∧ p.defaults.drop ≤ 2)) &&
  noDup (b.sysGroups ++ b.partitions.flatMap (·.cgroups)) &&
  (b.sysGroups ++ b.partitions.flatMap (·.cgroups)).all fun g => decide (g < 64)

/-- AE sets: nonempty unions of whole islands, disjoint (R398). -/
def aesetsOk (b : Blank) : Bool :=
  noDup (b.aesets.map (·.set)) && b.aesets.all (fun a => decide (a.set < 32) && !a.islands.isEmpty) &&
  noDup (b.aesets.flatMap (·.islands)) && (b.aesets.flatMap (·.islands)).all fun i => decide (i < 32)

/-- The ways of a staging group. -/
def SGroupRec.wayList (g : SGroupRec) : List Nat := (List.range g.ways).map (g.wayFirst + ·)

/-- Staging groups: 16 to 48 ways of one die, disjoint; one to eight members, each naming the group. -/
def sgroupsOk (b : Blank) : Bool :=
  noDup (b.sgroups.map (·.group)) && b.sgroups.all (fun g =>
    decide (g.group < 16 ∧ g.die < 2 ∧ 16 ≤ g.ways ∧ g.ways ≤ 48 ∧ 48 * g.die ≤ g.wayFirst ∧ g.wayFirst + g.ways ≤ 48 * g.die + 48) &&
    !g.members.isEmpty && decide (g.members.length ≤ 8) && noDup g.members &&
    g.members.all fun m => b.partitions.any fun p => p.part == m && p.sgroup == some g.group && decide (1000 ≤ p.slice ∧ p.slice ≤ 1000000)) &&
  noDup (b.sgroups.flatMap SGroupRec.wayList) &&
  b.partitions.all fun p => match p.sgroup with
    | none => true
    | some g => b.sgroups.any fun x => x.group == g && x.members.contains p.part

/-- Trigger ranges are within 1 to 65,535. -/
def trigOk (c : CtxRec) : Bool := c.trigCount == 0 || (decide (1 ≤ c.trigFirst) && decide (c.trigFirst + c.trigCount ≤ 65536))

/-- Do the trigger ranges of two contexts overlap (R360)? -/
def trigMeet (a b : CtxRec) : Bool :=
  a.trigCount != 0 && b.trigCount != 0 && decide (a.trigFirst < b.trigFirst + b.trigCount) && decide (b.trigFirst < a.trigFirst + a.trigCount)

def pairwiseOk {α : Type} (bad : α → α → Bool) : List α → Bool
  | [] => true
  | a :: t => t.all (fun b => !bad a b) && pairwiseOk bad t

/-- One context record (R44, R63, R111, R170). -/
def ctxOk (b : Blank) (c : CtxRec) : Bool :=
  decide (c.ctx < 4096 ∧ c.func ≤ b.vfCount ∧ c.tenant < 65536 ∧ 1 ≤ c.maxC ∧ c.maxC ≤ 65536 ∧ c.minC ≤ c.maxC ∧ 1 ≤ c.weight ∧ c.weight ≤ 65535) &&
  b.partitions.any (fun p => p.part == c.part) &&
  (if c.retrieval then c.maxBlocks == 0 else decide (1 ≤ c.maxBlocks ∧ c.maxBlocks ≤ 4194304)) &&
  decide (c.topk ≤ 4096 ∧ c.recent ≤ 4096 ∧ c.sinkBlk ≤ 255 ∧ c.maxTopk ≤ 4096) &&
  trigOk c && (c.sdom :: c.nameable).all (fun d => b.sdoms.any fun x => x.1 == d) &&
  c.publish.all fun d => (c.sdom :: c.nameable).contains d

/-- Contexts: each queue group is held once, the guarantees fit, the device context is the PF's (R74, R111, R116, R360). -/
def ctxsOk (b : Blank) : Bool :=
  noDup (b.contexts.map (·.ctx)) && b.contexts.all (ctxOk b) && noDup (b.contexts.flatMap (·.groups)) &&
  (b.contexts.flatMap (·.groups)).all (fun g => decide (g < 2048)) &&
  decide ((b.contexts.map (·.minC)).foldl (· + ·) 0 ≤ 65536) && pairwiseOk trigMeet b.contexts &&
  b.contexts.any fun c => c.ctx == b.deviceCtx && c.func == 0

/-- Distinct kernel variants named by profiles (R445). -/
def variantCount (l : List Profile) : Nat := ((l.map (·.kvar)).filter (· ≠ 0)).eraseDups.length

/-- Profiles (R50, R60, R124, R445) and sharing domains. -/
def profilesOk (b : Blank) (ps : List Profile) : Bool :=
  noDup (ps.map (·.mprof)) && ps.all Profile.valid && decide (variantCount ps ≤ 1024) &&
  noDup (b.sdoms.map (·.1)) && b.sdoms.all fun d => decide (d.1 < 65536)

/-- The tables that the flash table area holds (R309). -/
def State.areaTables (s : State) : List Table := s.jrnl.shown.flatMap (·.tables)

/-- The table held under an ID: at a full mount what the table area holds, which the restart gives back (R309). -/
def State.mountTable? (s : State) (full : Bool) (t : Nat) : Option Table :=
  if full then findTable s.areaTables t else s.heldTable? t

/-- Two records of one ID differ. -/
def recClash (a b : TableRec) : Bool := a.tid == b.tid && (a.tlog != b.tlog || a.freq != b.freq)

/-- A record clashes with a held table. -/
def State.heldClash (s : State) (full : Bool) (r : TableRec) : Bool :=
  (s.mountTable? full r.tid).any fun t => t.tlog != r.tlog || t.freq != r.freq

/-- One table-set image of a blank (R309, R312, R313). -/
def State.tsetOk (s : State) (full : Bool) (ps : List Profile) (ids : List Nat) (g : TableSetImage) : Bool :=
  !g.reservedBad && g.tset != 0 && ps.any (fun p => p.mprof == g.mprof && p.tset == g.tset && g.ngroups == layerGroups p) &&
    g.tables.all tableValid && noDup (g.tables.map (·.tid)) && g.tables.all (fun r => !s.heldClash full r) &&
    g.bind.all fun x => [x.1, x.2].all fun t => t == 65535 || ids.contains t || (s.mountTable? full t).isSome

/-- Table sets of the blank. -/
def State.tsetsOk (s : State) (ps : List Profile) (gs : List TableSetImage) (full : Bool) : Bool :=
  noDup (gs.map (·.tset)) && pairwiseOk recClash (gs.flatMap (·.tables)) &&
    gs.all (s.tsetOk full ps ((gs.flatMap (·.tables)).map (·.tid)))

/-- Sizes of the GLOBAL section (records: R37, R38), with room in the system groups for second copies (R211, R215, R533; log entry 45). -/
def globalOk (b : Blank) : Bool :=
  decide (b.records < 2 ^ 28 ∧ b.dirLog2 ≤ 27 ∧ b.anchors ≤ 16777216 ∧ b.frames ≤ 2 ^ 36 ∧ b.vfCount ≤ 255) &&
  isPow2In b.bar0Pages 1 4096 && isPow2In b.bar2Pages 1 2048 &&
  decide (min b.records residentMax * 256 + 2 ^ b.dirLog2 * 512 + 2 * (b.frames * 64 + 65536 * 256 + 4096 * 528 + 65536 * 64 + b.retxStore) ≤
    b.sysGroups.length * 2 ^ 34)

/-- The NET section, MKA settings and power limits. -/
def netOk (b : Blank) : Bool :=
  decide (b.portModes.length ≤ 8) && b.portModes.all (fun m => decide (m ≤ 3)) && b.svcs.all (fun x => decide (x.1 < 512)) &&
  b.subs.all (fun x => decide (x.1 < 4096)) && b.endpoints.all (fun x => decide (x.1 < 65536)) && decide (b.node < 65536) &&
  b.mka.all fun m => decide (m.iface < 64 ∧ 1 ≤ m.cknLen ∧ m.cknLen ≤ 32 ∧ 1 ≤ m.rekeyS ∧ m.rekeyS ≤ 86400)

/-- The DOMAIN section (R369) and the cascade settings (R241). -/
def domOk (b : Blank) : Bool :=
  (match b.domain with
    | none => true
    | some d => noDup d.members && d.members.contains d.partId && d.members.all (fun p => decide (p < 256)) &&
      !d.voters.isEmpty && noDup d.voters && d.voters.all d.members.contains && noDup (d.ranks.map (·.1)) &&
      d.ranks.all fun r => d.voters.contains r.1 && decide (r.2 ≤ 7)) &&
  (match b.cascade with
    | none => true
    | some c => decide (c.position < 8) && c.members / 2 ^ c.position % 2 == 1 && decide (c.members < 256)) &&
  (b.shardMap.isEmpty || (b.shardMap.length == 4096 && b.shardMap.all fun p => decide (p < 256)))

/-- Key records are as Table 12.4 lays them out. -/
def keysOk (l : List KeyRec) : Bool := l.all fun k => decide (1 ≤ k.kind ∧ k.kind ≤ 3) && !k.reservedBad

def State.blankOk (s : State) (b : Blank) (full : Bool) : Bool :=
  let ps := b.profiles
  s.headerOk b && partsOk b && aesetsOk b && sgroupsOk b && ctxsOk b && profilesOk b ps && s.tsetsOk ps b.tsets full &&
    globalOk b && netOk b && domOk b && keysOk b.keys

/-! ## Key records (R436) -/

/-- Records addressed to this part; while debug is unlocked SEC opens none (R451). -/
def State.myKeys (s : State) (b : Blank) : List KeyRec :=
  if s.fld F.SEC_STATUS_DEBUG = 1 then [] else b.keys.filter fun k => k.target == s.deviceId

/-- They open, but for records identical to those of the mounted blank, which are not opened again (Table 14.6). -/
def State.keysOpen (s : State) (b : Blank) : Bool :=
  let old := (s.blank.map Blank.keys).getD []
  (s.myKeys b).all fun k => old.contains k || (s.openRec k).isSome

/-- The key of one kind and ID. -/
def State.openKey (s : State) (b : Blank) (kind id : Nat) : Option Nat :=
  ((s.myKeys b).find? fun k => k.kind == kind && (kind == 1 || k.id == id)).bind s.openRec

/-! ## Re-mounts (R489) -/

def inMask (m p : Nat) : Bool := m / 2 ^ p % 2 == 1

/-- The partition-scoped sections of one partition: their bytes, and the records they hold. -/
def blankScoped (b : Blank) (p : Nat) : List (List Byte) × List PartRec × List CtxRec :=
  ((b.sectsOf 2 p ++ b.sectsOf 5 p).map b.bytesOf, b.partitions.filter fun x => x.part == p, b.contexts.filter fun c => c.part == p)

/-- What the global sections say, without what a re-mount may change. -/
def blankGlobals (b : Blank) : Blank := { b with obj := ⟨[], 0⟩, partitions := [], contexts := [], variants := [] }

/-- Types of the global sections that a re-mount leaves byte-identical: all but GLOBAL, which may move channel groups, and
PROFILE and TSET, which may add records. -/
def fixedSects : List Nat := [3, 4, 8, 9, 10, 11, 12]

/-- The conditions of R489; `issuer` is the context that posted the command. -/
def remountOk (old new : Blank) (mask : Nat) (issuer : Option Nat) : Bool :=
  blankGlobals old == blankGlobals new && fixedSects.all (fun t => old.secBytes t == new.secBytes t) &&
  old.profRecs.all (fun p => new.profRecs.contains p) && old.tsetBytes.all (fun t => new.tsetBytes.contains t) &&
  old.variants.all (fun v => new.variants.contains v) &&
  (List.range 64).all (fun p => inMask mask p || blankScoped old p == blankScoped new p) &&
  new.contexts.all (fun c => old.contexts.all fun o => o.ctx != c.ctx || o.part == c.part || (inMask mask o.part && inMask mask c.part)) &&
  match issuer with
  | none => true
  | some i => new.contexts.find? (fun c => c.ctx == i) == old.contexts.find? fun c => c.ctx == i

/-- Would the re-mount change a partition that holds a context of a locked TDI (R442)? -/
def State.remountLocked (s : State) (old new : Blank) (mask : Nat) : Bool :=
  (List.range 64).any fun p => inMask mask p && blankScoped old p != blankScoped new p &&
    s.ctxs.any fun x => x.r.part == p && s.tdiLocked x.r.func

/-! ## The checks of R487 from the third on -/

/-- Least BLANK_SVN of the booted configuration bank; none is required without one. -/
def State.minBlankSvn (s : State) : Nat := (s.cfgImg?.map (·.minBlankSvn)).getD 0

/-- Checks 3 to 6; the status of the first that fails. A rejected signature is counted. -/
def State.mountChecks (s : State) (b : Blank) (full : Bool) (mask : Nat) (issuer : Option Nat) : State × Option Nat :=
  let signed := b.tsetBytes.all (fun g => s.sigOk 1 (signedOf g)) && decide (s.minBlankSvn ≤ b.svn)
  match s.checkSig 1 b.obj with
  | (s, false) => (s, some St.signatureInvalid)
  | (s, true) =>
    if !signed then (s.bump F.SEC_AUTH_STAT_SIG_FAIL, some St.signatureInvalid)
    else if !s.blankOk b full then (s, some St.badField)
    else if !s.keysOpen b then (s, some St.signatureInvalid)
    else if full then (s, none)
    else match s.blank with
      | none => (s, some St.badField)
      | some old =>
        if !remountOk old b mask issuer then (s, some St.badField)
        else if s.remountLocked old b mask then (s, some St.accessDenied) else (s, none)

/-! ## Taking a mount up -/

def State.setBoot (s : State) (f : Boot → Boot) : State := { s with boot := f s.boot }
def State.mountResult (s : State) (st : Nat) : State := s.setFld F.GLB_MOUNT_STAT_RESULT st

/-- CONTEXT records of the mounted blank. -/
def State.oldCtxs (s : State) : List CtxRec := (s.blank.map (·.contexts)).getD []

/-- Contexts whose record a re-mount changes, or which it no longer defines. -/
def State.changedCtxs (s : State) (b : Blank) (mask : Nat) : List Ctx :=
  s.ctxs.filter fun x => inMask mask x.r.part &&
    (b.contexts.find? fun c => c.ctx == x.r.ctx) != s.oldCtxs.find? fun c => c.ctx == x.r.ctx

def State.tearEach (s : State) : List Ctx → State
  | [] => s
  | x :: t => (s.tearDown x.r.ctx (some St.ok)).tearEach t

/-- Begin the steps from 4 on (Table 14.6): a re-mount first tears down the contexts that change. -/
def State.beginMount (s : State) (cmd : Option CmdId) (mgmt : Option (Nat × Nat)) (b : Blank) (full : Bool) (mask : Nat) : State :=
  let s := (s.setFld F.GLB_MOUNT_STAT_BUSY 1).setBoot fun x => { x with mount := some ⟨cmd, mgmt, b, !full, mask, 4, []⟩ }
  if full then s.setFld F.GLB_BOOT_STAT_PHASE 5 else s.tearEach (s.changedCtxs b mask)

/-- Does a mount run, or a staging switch that a re-mount of the mask must let finish (R414, R491)? -/
def State.mountWaits (s : State) (full : Bool) (mask : Nat) : Bool :=
  s.boot.mount.isSome || (full && decide (s.fld F.GLB_BOOT_STAT_PHASE < 4)) ||
    (!full && s.sch.groups.any fun g => g.out.isSome && g.r.members.any (inMask mask))

/-! ## Step 4: evacuation, zeroing, scrubbing (R449, R490) -/

/-- Does a new record change a key of its partition? -/
def keyChange (o n : PartRec) : Bool := o.plabel != n.plabel || o.kgen != n.kgen || o.sealSet != n.sealSet

def State.maskAll (s : State) : List Frame → State
  | [] => s
  | f :: t => (s.maskFrame f).maskAll t

/-- The frames of a scrubbed partition are freed without being read (R449); chunks that held them read them masked, and entries
that named them hold no page (log entry 46). -/
def State.scrubPart (s : State) (p : Nat) : State :=
  let mine (f : Frame) : Bool := f.part == p && f.peer.isNone
  let gone := (s.tier.frames.filter mine).map (·.pfh)
  let s := (s.maskAll (s.tier.frames.filter mine)).removeFrames mine
  let cut := fun (e : Pte) => if gone.contains e.pfh then e.dropped else e
  let s := { s with seq := { s.seq with recs := s.seq.recs.map fun (r : SeqRec) => { r with ptes := r.ptes.map cut } } }
  let s := s.setPxi fun x => { x with anchors := x.anchors.map fun (a : Anchor) => { a with ptes := a.ptes.map cut } }
  { s with tier := { s.tier with frames := s.tier.frames.map fun (f : Frame) =>
      if (f.imp.any fun i => gone.contains i) then { f with imp := none } else f } }

/-- HBM regions with a chunk in channel groups that leave a partition. -/
def State.leavingRegions (s : State) (part : Nat) : List Region :=
  s.fxt.regions.filter fun r => r.part == part && !r.hostMem && r.chunks.any (s.mustLeave part)

/-- Step 4 for one partition of a re-mount: it takes its new record; the frames of channel groups that leave it are evacuated
(R490), the groups being healthy; changed keys scrub it. -/
def State.remountPart (s : State) (b : Blank) (o : Part) : State :=
  match b.partitions.find? fun (p : PartRec) => p.part == o.r.part with
  | none => (s.scrubPart o.r.part).freeRegions (s.fxt.regions.filter fun r => r.part == o.r.part && !r.hostMem)
  | some n =>
    let s := s.setPart o.r.part fun x => { x with r := n }
    let s := (s.clearRetired []).freeRegions (s.leavingRegions o.r.part)
    if keyChange o.r n then (s.scrubPart o.r.part).keysChanged (· == o.r.part) else s

/-- Step 4 for the partitions of a re-mount. -/
def State.remountParts (s : State) (b : Blank) (ps : List Part) : State :=
  ps.foldl (fun s o => s.remountPart b o) s

/-! ## Step 5: keys, profiles, table sets -/

/-- The table set of an image. -/
def tableSetOf (g : TableSetImage) (obj : Signed) : TableSet := ⟨g.tset, g.mprof, g.bind, signedDigest obj, sigSvn obj⟩

/-- Load the table sets of a blank that are not loaded: all their records, then their bindings. What nothing names is released
once a full mount has restored its frames (R309). -/
def State.loadSets (s : State) (objs : List (List Byte)) : State :=
  let new := (objs.map fun b => (imageOf b, signedOf b)).filter fun x => !s.tab.sets.any fun y => y.tset == x.1.tset
  let s := s.storeTables (new.flatMap fun x => x.1.tables.map tableOf)
  { s with tab := { s.tab with sets := s.tab.sets ++ new.map fun x => tableSetOf x.1 x.2 } }

/-- Keys are opened, profiles stored, new table sets loaded; hot-set slots of profiles that are gone are invalidated. -/
def State.mountStores (s : State) (b : Blank) (full : Bool) : State :=
  let ks := (s.myKeys b).filterMap fun (k : KeyRec) => if k.kind = 2 then (s.openRec k).map fun v => (k.id, v) else none
  let dss := s.openKey b 1 0
  let s := if full then { (s.setSec fun x => { x with ksets := ks }) with dss := dss } else s
  let ps := b.profiles
  let hot := s.att.hot.filter fun (h : HotSlot) => ps.any fun (p : Profile) => p.mprof == h.mprof
  ({ s with seq := { s.seq with profiles := ps }, att := { s.att with hot := hot } }).loadSets b.tsetBytes

/-! ## Step 6: registers -/

/-- Write a field of several instances from a list. -/
def State.setFlds (s : State) (f : Fld) : List (Nat × Nat) → State
  | [] => s
  | (i, v) :: t => (s.setFld f v i).setFlds f t

def State.setShards (s : State) : List (Nat × Nat) → State
  | [] => s
  | (n, v) :: t => (s.setShardHome n v).setShards t

/-- The part's place in its domain: none without a DOMAIN section or without a DSS (R436). -/
def State.mountDomain (s : State) (b : Blank) : State :=
  let s := s.setFld F.FXT_NODE_NODE b.node
  match b.domain with
  | none => s
  | some d =>
    let s := (s.setFld F.PXI_PART_ID_PART_ID d.partId).setFld F.FXT_NODE_DOMAIN d.tag
    if s.dss.isNone then s.setShards ((List.range 4096).map fun n => (n, d.partId))
    else
      let s := (s.setFld F.PXI_PART_ID_IN_DOMAIN 1).setShards ((List.range 4096).zip b.shardMap)
      let s := (s.setFld F.FXT_DOM_CFG_LEASE_MS d.leaseMs).setFld F.FXT_DOM_CFG_SKEW_PPM d.skewPpm
      let s := (s.setFld F.FXT_DOM_CFG_ELECT_GAP d.electGap).setFld F.FXT_DOM_CFG_ADMIT_WINDOW d.admitWindow
      let s := s.setFld F.FXT_DOM_ROLE_VOTER (if d.voters.contains d.partId then 1 else 0)
      let s := match d.ranks.find? fun r => r.1 == d.partId with
        | none => s
        | some r => (s.setFld F.FXT_DOM_ROLE_CANDIDATE 1).setFld F.FXT_DOM_ROLE_RANK r.2
      (s.setFld F.FXT_DOM_STAT_STATE 1).setDom fun x => { x with since := s.cycles, holdUntil := s.cycles + s.leaseUp }

def State.mountCascade (s : State) (b : Blank) : State :=
  match b.cascade with
  | none => s
  | some c =>
    let s := ((s.setFld F.PXI_PART_ID_IN_CASCADE 1).setFld F.PXI_CASC_CFG_ENABLE 1).setFld F.PXI_CASC_CFG_POSITION c.position
    let s := ((s.setFld F.PXI_CASC_CFG_MEMBERS c.members).setFld F.PXI_CASC_PARTS_PART_0 (c.parts.getD 0 0)).setFld
      F.PXI_CASC_PARTS_PART_1 (c.parts.getD 1 0)
    let s := (s.setFld F.PXI_CASC_PARTS_PART_2 (c.parts.getD 2 0)).setFld F.PXI_CASC_PARTS_PART_3 (c.parts.getD 3 0)
    let s := (s.setFld F.PXI_CASC_PARTS_PART_4 (c.parts.getD 4 0)).setFld F.PXI_CASC_PARTS_PART_5 (c.parts.getD 5 0)
    (s.setFld F.PXI_CASC_PARTS_PART_6 (c.parts.getD 6 0)).setFld F.PXI_CASC_PARTS_PART_7 (c.parts.getD 7 0)

/-- The CAK of an interface: its own record, or the one derived from the DSS (R440, Table 12.3). -/
def State.cakOf (s : State) (b : Blank) (m : MkaRec) : Option Nat :=
  if m.fromDss then s.dss.map fun d => beNat (kdf256 d "mka cak" (leBytes m.cknLen m.ckn)) else s.openKey b 3 m.iface

/-- MKA starts on every interface that has a CAK. -/
def State.startMka (s : State) (b : Blank) : List MkaRec → State
  | [] => s
  | m :: t => (match s.cakOf b m with
    | none => s
    | some k => (s.setSec fun x => { x with
        mka := x.mka.filter (fun (y : MacSec) => y.iface ≠ m.iface) ++ [(⟨m.iface, k, m.rekeyS, 1, s.cycles, 1, 0, []⟩ : MacSec)] }).emit
          (.mka m.iface 1)).startMka b t

def State.setSubs (s : State) : List (Nat × EgsEntry) → State
  | [] => s
  | (n, e) :: t => (s.setSub n e).setSubs t

def State.setSvcs (s : State) : List (Nat × EgsEntry) → State
  | [] => s
  | (n, e) :: t => (s.setSvc n e).setSvcs t

/-- Registers a full mount takes from the blank (Table 14.5). -/
def State.mountRegs (s : State) (b : Blank) : State :=
  let s := (s.setFld F.PXI_DIR_CFG_LOG2_BUCKETS b.dirLog2).setFld F.PXI_ANCHOR_OCC_MAX b.anchors
  let s := (s.setFld F.TIER_ENDURANCE_CFG_RATE b.rate).setFld F.TIER_ENDURANCE_CFG_DEPTH b.depth
  let s := { s with tier := { s.tier with credit := creditCap s } }
  let s := (s.setFlds F.ETH_PORT_CFG_MODE ((List.range 8).zip b.portModes)).setFld F.ETH_MAC_BASE_MAC b.macBase
  let s := (s.setFld F.PWR_CAP_CAP_W b.capW).setFld F.PWR_CAP_CAP_MARGIN b.capMargin
  let s := (s.setFld F.PWR_THERM_CFG_WARN b.therm).setFld F.PWR_THERM_CFG_CRIT (b.therm / 256)
  let s := (s.setFld F.PWR_THERM_CFG_HBM_HOT (b.therm / 65536)).setFld F.PWR_THERM_CFG_HBM_CRIT (b.therm / 16777216)
  let s := (s.setSvcs b.svcs).setSubs b.subs
  let s := s.setFxt fun x => { x with eps := b.endpoints.foldl (fun l e => spSet 0 l e.1 e.2) x.eps }
  ((s.mountDomain b).mountCascade b).startMka b b.mka

/-! ### Record indices of the partitions (R37 to R39) -/

/-- The first `n` indices of a list of ranges, and the rest. -/
def splitRanges : Nat → List (Nat × Nat) → List (Nat × Nat) × List (Nat × Nat)
  | _, [] => ([], [])
  | n, (b, c) :: t =>
    if n = 0 then ([], (b, c) :: t)
    else if c ≤ n then let r := splitRanges (n - c) t; ((b, c) :: r.1, r.2)
    else ([(b, n)], (b + n, c - n) :: t)

/-- Indices in a list of ranges. -/
def rangesLen (l : List (Nat × Nat)) : Nat := (l.map (·.2)).sum

/-- Give back what partition `p` holds beyond `want` free indices, with the generations they are next issued under. -/
def Seqs.shrink (q : Seqs) (p : Part) (want : Nat) : Seqs × Part :=
  let cut := splitRanges (want - p.freed.length) p.fresh
  ({ q with pool := q.pool ++ p.freed.drop want, spare := q.spare ++ cut.2 },
   { p with freed := p.freed.take want, fresh := cut.1 })

/-- Give partition `p` indices until `want` are free: unused ranges given back, indices given back, then ones never had. -/
def Seqs.grow (q : Seqs) (p : Part) (want : Nat) : Seqs × Part :=
  let n := want - (p.freed.length + rangesLen p.fresh)
  let cut := splitRanges n q.spare
  let n := n - rangesLen cut.1
  let back := q.pool.take n
  let n := min (n - back.length) (2 ^ 28 - q.top)
  ({ q with spare := cut.2, pool := q.pool.drop back.length, top := q.top + n },
   { p with fresh := p.fresh ++ cut.1 ++ (if n = 0 then [] else [(q.top, n)]), freed := p.freed ++ back })

/-- Records of a partition in use. -/
def Seqs.used (q : Seqs) (part : Nat) : Nat := (q.recs.filter fun r => r.part == part).length

/-- Partitions a blank no longer defines, and those with fewer records, give indices back. -/
def Seqs.shrinkAll (q : Seqs) (rs : List PartRec) : List Part → Seqs
  | [] => { q with parts := [] }
  | p :: t =>
    let r := rs.find? fun r => r.part == p.r.part
    let x := q.shrink p ((r.map (·.records)).getD 0 - q.used p.r.part)
    let y := x.1.shrinkAll rs t
    match r with
    | none => y
    | some r => { y with parts := { x.2 with r := r } :: y.parts }

/-- Each partition of a blank has indices for its records. -/
def Seqs.growAll (q : Seqs) (old : List Part) : List PartRec → Seqs
  | [] => { q with parts := [] }
  | r :: t =>
    let p := (old.find? fun p => p.r.part == r.part).getD ⟨r, [], [], 0⟩
    let x := q.grow p (r.records - q.used r.part)
    let y := x.1.growAll old t
    { y with parts := x.2 :: y.parts }

/-- Partitions take their new records. -/
def Seqs.mountParts (q : Seqs) (rs : List PartRec) : Seqs :=
  let q := q.shrinkAll rs q.parts
  q.growAll q.parts rs

/-- A context as a blank defines it, DOWN. -/
def newCtx (r : CtxRec) : Ctx := { r := r, st := .down }

/-- Contexts after a re-mount: unchanged ones stay, changed and new ones are DOWN until step 8, the others are gone. -/
def mountCtxs (old : List Ctx) (recs new : List CtxRec) : List Ctx :=
  new.map fun r => match old.find? fun x => x.r.ctx == r.ctx && recs.contains r with
    | some x => x
    | none => newCtx r

/-- A staging group at the start of its first member's slice. -/
def State.newGroup (s : State) (b : Blank) (g : SGroupRec) : SGroup :=
  { r := g, holder := 0, phase := 0, start := s.cycles, overrun := 0, owed := [], out := none, prio := []
    len := ((b.partitions.find? fun p => some p.part == g.members.head?).map (·.slice)).getD 0 }

/-- Step 6. -/
def State.mountTables (s : State) (m : Mount) : State :=
  let b := m.img
  let s := if m.remount then s
    else ({ s with sch := { s.sch with groups := b.sgroups.map (s.newGroup b) } }).mountRegs b
  let recs := if m.remount then s.oldCtxs else []
  let ups := (b.contexts.filter fun c => !recs.contains c).map (·.ctx)
  let s := { s with blank := some b, seq := s.seq.mountParts b.partitions
                    ctxs := if m.remount then mountCtxs s.ctxs recs b.contexts else s.ctxs }
  s.setBoot fun x => { x with mount := some { m with ups := ups, step := if m.remount then 8 else 7 } }

/-! ## Step 7: warm restart (R285 to R289) -/

/-- Bytes 2 to 15 of two profile records agree. -/
def sameGeometry (a b : Profile) : Bool :=
  a.layers == b.layers && a.kvHeads == b.kvHeads && a.qpk == b.qpk && a.hdim == b.hdim && a.kfmt == b.kfmt && a.vfmt == b.vfmt &&
    a.qfmts == b.qfmts && a.block == b.block && a.lgrp == b.lgrp && a.tset == b.tset

/-- R288: may an anchor of a segment be restored? -/
def State.anchorStays (s : State) (m : MapSeg) (a : Anchor) : Bool :=
  m.kmap == s.kmapKey &&
  (match s.prof? a.mprof, m.profs.find? fun p => p.mprof == a.mprof with
    | some p, some q => sameGeometry p q
    | _, _ => false) &&
  ((s.blank.map (·.sdoms)).getD []).any (fun d => d.1 == a.sdom) &&
  match s.part? a.part with
  | none => false
  | some p => m.keys.contains (s.partKey p.r)

/-- A frame as restart gives it back: T2_ONLY when its T2 copy holds the current version, DROPPED otherwise (R287). -/
def restored (refs : Nat) (f : Frame) : Frame :=
  let g := { f.onMap with refs := refs, writer := noWriter }
  if (f.t2.any fun c => c.hdr.ver == f.ver) then { g with st := .t2Only } else g.gone .dropped

/-- Rows of the anchors that name a frame. -/
def rowRefs (l : List Anchor) (p : Nat) : Nat := ((l.flatMap (·.ptes)).filter fun e => e.pfh == p).length

/-- Entries of an anchor that name no restored frame, a proxy or a frame that was not journalled, hold no page (R393). -/
def Anchor.cutLost (frames : List Nat) (a : Anchor) : Anchor :=
  { a with forks := 0, remote := [], trim := none
           ptes := a.ptes.map fun e => if e.pfh = 0 ∨ frames.contains e.pfh then e else e.dropped }

/-- Indices below `n` that no anchor holds. -/
def freeIndices (l : List Anchor) (n : Nat) : List (Nat × Nat) :=
  ((List.range n).filter fun i => i != 0 && !l.any fun a => a.idx == i).map fun i => (i, 0)

/-- The frames that the segments of the map hold, each once. -/
def mapFrames (l : List MapSeg) : List Frame :=
  (l.flatMap (·.frames)).foldl (fun a f => if a.any fun x => x.pfh == f.pfh then a else a ++ [f]) []

/-- Steps 1 to 3 of Table 7.8, from the map as R285 reads it. The anchors of a lost segment cannot be counted. -/
def State.restart (s : State) : State :=
  let segs := s.jrnl.shown
  let s := s.storeTables (segs.flatMap (·.tables))
  let fs := mapFrames segs
  let all := segs.flatMap (·.anchors)
  let keep := segs.flatMap fun m => (m.anchors.filter (s.anchorStays m)).map (Anchor.cutLost (fs.map (·.pfh)))
  let n := (keep.map (·.idx)).foldl max 0 + 1
  let back := (fs.filter fun f => rowRefs keep f.pfh != 0).map fun f => restored (rowRefs keep f.pfh) f
  let s := s.setPxi fun x => { x with anchors := keep, freshAnchor := n, freedAnchors := freeIndices keep n }
  let s := { s with tier := { s.tier with frames := back } }
  let s := (s.setFld F.FLS_RESTORE_STAT_ANCHORS keep.length).bump F.FLS_RESTORE_STAT_DISCARDED (all.length - keep.length)
  (s.bump F.FLS_RESTORE_STAT_BAD_BANKS (s.jrnl.badBanks + s.jrnl.lostSegs.length)).pruneTables

/-! ## Steps 8 to 10 -/

def State.upEach (s : State) : List Nat → State
  | [] => s
  | c :: t => (s.bringUp c).upEach t

def State.flrEach (s : State) : List Nat → State
  | [] => s
  | f :: t => (s.doFlr f).flrEach t

def State.lockEach (s : State) : List Nat → State
  | [] => s
  | v :: t => (s.doLock v).lockEach t

/-- The bootstrap context is released without an event, and the contexts of the blank take its place (R486). -/
def State.leaveBootstrap (s : State) (b : Blank) : State :=
  let s := s.tearDown 0 (some St.ok)
  let s := s.freeRecs (s.seq.recs.filter fun r => r.ctx == 0)
  { s with ctxs := b.contexts.map newCtx }

/-- Step 8 (RESULT is bytes 0 to 7 of the blank's digest): contexts come UP, the mount is complete and is answered, and what waited for its end is done. -/
def State.mountDone (s : State) (m : Mount) : State :=
  let dig := m.img.digest
  let s := match m.cmd with
    | none => s
    | some c => s.complete c St.ok { result := dig % 2 ^ 64 }
  let s := if m.remount then s else s.leaveBootstrap m.img
  let s := s.upEach m.ups
  let s := match m.mgmt with
    | none => s
    | some r => s.emit (.mgmt r.1 0x13 r.2 St.ok [])
  let src := if m.cmd.isNone ∧ m.mgmt.isNone then 1 else 2
  let s := ((s.setFld F.GLB_MOUNT_STAT_MOUNTED 1).setFld F.GLB_MOUNT_STAT_BUSY 0).mountResult St.ok
  let s := (s.setFld F.GLB_MOUNT_STAT_SOURCE src).setFlds F.GLB_BLANK_DIGEST_DIGEST
    ((List.range 4).map fun i => (i, dig / 2 ^ (64 * i) % 2 ^ 64))
  let s := if m.remount then s
    else (s.setFld F.GLB_BOOT_STAT_PHASE 6).setFld F.GLB_BOOT_STAT_READY_AT (s.cycles / 2 ^ 20)
  let s := s.setSec fun x => { x with mounts := x.mounts + 1 }
  let s := s.setBoot fun x => { x with mount := none, tail := if m.remount then some (x.tail.getD 10) else some 9 }
  let fl := s.boot.waitFlr
  let lk := s.boot.waitLock
  let s := s.setBoot fun x => { x with waitFlr := [], waitLock := [] }
  (s.flrEach fl).lockEach lk

/-- The live digests of every anchor are inserted, each under its own epoch (R289). -/
def State.reinsertAll (s : State) : List Anchor → State
  | [] => s
  | a :: t => (s.reinsert a a.liveDigests).reinsertAll t

/-- Step 9: outside a domain the digests of every anchor are inserted; in a domain the home refill of the first admission
does it, and the step ends with it. -/
def State.mountStep9 (s : State) : State :=
  if s.inDomain && (s.readOnly || s.fld F.FXT_DOM_STAT_REFILL == 1) then s
  else
    let s := if s.inDomain then s else s.reinsertAll s.pxi.anchors
    ((s.setFld F.FLS_RESTORE_STAT_DONE 1).setFld F.GLB_MOUNT_STAT_RESTORED 1).setBoot fun x => { x with tail := some 10 }

/-- Step 10: a calibration run of 8 windows; it waits for a run under way. -/
def State.mountStep10 (s : State) : State :=
  if s.fld F.PWR_CAL_STAT_BUSY = 1 then s else (s.startCal 8 true).setBoot fun x => { x with tail := none }

/-- MOUNT_STEP_COMPLETE: the step in progress completes and the next begins. Step 4 of a re-mount ends once the contexts torn
down have been released. -/
def execMountStep (s : State) : State :=
  match s.boot.mount with
  | none =>
    if s.boot.tail = some 9 then s.mountStep9 else if s.boot.tail = some 10 then s.mountStep10 else s
  | some m =>
    let next := fun (t : State) (n : Nat) => t.setBoot fun x => { x with mount := some { m with step := n } }
    if m.step = 4 then
      if m.remount then
        if (s.changedCtxs m.img m.pmask).any (fun x => x.st != .down) then s
        else next (s.remountParts m.img (s.seq.parts.filter fun p => inMask m.pmask p.r.part)) 5
      else next s 5
    else if m.step = 5 then next (s.mountStores m.img (!m.remount)) 6
    else if m.step = 6 then s.mountTables m
    else if m.step = 7 then next s.restart 8
    else s.mountDone m

/-! ## BLANK_MOUNT (R486 to R491) -/

def dMode (d : Word512) : Nat := dF d 8 1
def dMask (d : Word512) : Nat := dF d 28 8
def dBlankLen (d : Word512) : Nat := dF d 24 4

/-- Steps 4 and 5 of R101. -/
def State.checkMount (s : State) (k : Cmd) : Option Nat :=
  if dF k.desc 9 1 = 2 then none else s.spaceCheck k.ctx (dBlank k.desc) false (dBlankLen k.desc)

/-- A mount command fails; a mount that was only to be verified leaves RESULT as it is. -/
def State.mountFails (s : State) (k : Cmd) (st : Nat) : State :=
  (if dFlag k.desc 0 then s else s.mountResult st).complete k.id st

/-- The blank is there: header length, checks, then the mount. -/
def State.mountRun (s : State) (k : Cmd) (b : Blank) (len : Option Nat) : State :=
  let d := k.desc
  let full := dMode d = 0
  if len.any (fun n => n != b.length) then s.mountFails k St.lengthLimit
  else match s.mountChecks b full (dMask d) (if full then none else some k.ctx) with
    | (s, some st) => s.mountFails k st
    | (s, none) =>
      if dFlag d 0 then s.complete k.id St.ok
      else if !full ∧ dMask d = 0 then s.complete k.id St.okEmpty
      else s.beginMount (some k.id) none b full (dMask d)

/-- Once nothing of the image is owed: the bytes that were read are the blank. -/
def State.mountGo (s : State) (c : CmdId) (img : Blank) : State :=
  match s.cmd? c with
  | none => s
  | some k => match k.fail with
    | some st => s.mountFails k st
    | none => if k.owed = 0 then s.mountRun k { img with obj := signedOf k.reads.flatten } (some (dBlankLen k.desc)) else s

/-- BLANK_MOUNT once it runs: it waits for an earlier mount, checks MODE and LEN, reads the image, and mounts it. -/
def mountBody (img : Blank) (k : Cmd) (s : State) : State :=
  let d := k.desc
  let full := decide (dMode d = 0)
  let len := dBlankLen d
  if (s.boot.mount.any fun m => m.cmd == some k.id) || s.mountWaits full (dMask d) then s
  else if full ≠ s.blank.isNone then s.mountFails k St.badField
  else if dF d 9 1 = 2 then
    match s.cfgImg?.bind (·.blank) with
    | none => s.mountFails k St.badField
    | some b => s.mountRun k b none
  else if k.mark ≠ 0 then s.mountGo k.id img
  else if len = 0 then s.complete k.id St.okEmpty
  else if len > 536870912 ∨ !s.spaceLong k.ctx (dBlank d) len then s.mountFails k St.lengthLimit
  else ((s.spaceRead k.id k.ctx (dBlank d) len).setCmd k.id fun c => { c with mark := 1 }).mountGo k.id img

/-- BLANK_MOUNT; `img` says beside the bytes read what their sections mean whose records have no layout (log entry 3). -/
def execMountF (c : CmdId) (img : Blank) (s : State) : State :=
  s.runCmd c (fun d => dOp d == Op.blankMount) State.startCheck (mountBody img)

end Sys2Proof.Machine
end

