-- ==== Sys2Proof/Machine/Fetch.lean ====
section
/-! DEFINITION. Ring reads and host reads as they return (R90, R101, R104, R361), and FENCE. -/

namespace Sys2Proof.Machine

/-! ## Steps 4 and 5 of R101, by opcode -/

/-- The object checks of a command, made when its descriptor arrives (R547) and again when it starts. -/
def State.objCheck (s : State) (k : Cmd) : Option Nat :=
  let op := dOp k.desc
  if op = Op.seqOpen then s.checkSeqOpen k
  else if op = Op.seqFork then s.checkFork k
  else if op = Op.seqClose ∨ op = Op.pagesPlace ∨ op = Op.pagesDrop then s.seqCheck k
  else if op = Op.kvAppend then s.checkAppend k
  else if op = Op.hint then s.checkHint k
  else if op = Op.statsRead then s.checkStats k
  else if op = Op.stepPlan then s.checkPlan k
  else if op = Op.attend then s.checkAttend k
  else if op = Op.pagesDeliver then s.checkDeliver k
  else if op = Op.prefixLookup then s.checkLookup k
  else if op = Op.pxiNext then s.checkNext k
  else if op = Op.prefixPublish then s.checkPublish k
  else if op = Op.prefixRetire then s.checkRetire k
  else if op = Op.tableLoad then s.checkTable k
  else if op = Op.regionRegister then s.checkRegister k
  else if op = Op.regionRevoke then s.checkRevoke k
  else if op = Op.wrArm then s.checkArm k
  else if op = Op.blankMount then s.checkMount k
  else if isClassF op then s.checkRmaD k
  else none

/-- Is the queue the bootstrap context's (R486)? -/
def State.bootQueue (s : State) : Bool := s.blank.isNone

/-- Steps 1 to 5 for a descriptor that has arrived; an armed descriptor passes steps 1 to 3 with its WR_ARM (R361). -/
def State.fetchCheck (s : State) (k : Cmd) : Option Nat :=
  let f := s.funcOf k.ctx
  match staticCheck f s.bootQueue k.desc with
  | some st => some st
  | none => match k.armed with
    | some a => if !armable (dOp a) then some St.badField else match staticCheck f s.bootQueue a with
      | some st => some st
      | none => s.objCheck k
    | none => s.objCheck k

/-- The list of an ATTEND with BATCH or of a STEP_PLAN: its range is checked, then it is read (R149, R160, R547). -/
def State.readList (s : State) (k : Cmd) : State :=
  if !hasList k.desc then s
  else match s.spaceCheck k.ctx (listSpace k.desc) false (listBytes k.desc) with
    | some st => s.complete k.id st
    | none =>
      if !s.spaceLong k.ctx (listSpace k.desc) (listBytes k.desc) then s.complete k.id St.lengthLimit
      else s.spaceRead k.id k.ctx (listSpace k.desc) (listBytes k.desc)

/-- The status with which a command whose ring read was out ends when it returns: a device-level error is in force (R534), its
context is torn down (R117), or its queue drains (R87). -/
def State.endsOnArrival (s : State) (k : Cmd) : Option Nat :=
  if s.dead then some St.deviceError
  else match (s.ctx? k.ctx).filter fun x => x.st != .up with
    | some x => some (if x.cause = St.ok then St.cancelled else St.contextFaulted)
    | none => if (s.wq? k.id.q).any fun w => w.st == .draining then some St.cancelled else none

/-- A whole command has arrived: it completes at the first failing check, or waits for its start. -/
def State.arrived (s : State) (k : Cmd) : State :=
  match s.fetchCheck k with
  | some st => s.complete k.id st
  | none => (s.setCmd k.id fun x => { x with st := .waiting }).readList k

/-! ## The two slots of a WR_ARM (R361) -/

/-- The pair's second slot has arrived by a fetch of its own, or is still out: in either case it joins the pair. -/
def State.absorb (s : State) (q idx : Nat) : State :=
  { s with cmds := s.cmds.filter fun x => !(x.id == ⟨q, idx⟩ && x.st == CmdSt.fetching) }

/-- A WR_ARM has arrived. Its slot is fetched only together with the next one: where that slot is not posted yet the
WR_ARM counts as not fetched; else the pair is one command, and the second slot is read for it. -/
def State.armArrived (s : State) (k : Cmd) (w : Wq) : State :=
  let nxt := (k.id.idx + 1) % two32
  if w.pi = nxt then
    ({ s with cmds := s.cmds.filter fun x => x.id ≠ k.id }).setWq w.q fun x => { x with fi := k.id.idx }
  else
    let s := (s.absorb w.q nxt).setWq w.q fun x => { x with fi := if x.fi = nxt then (nxt + 1) % two32 else x.fi }
    let s := s.setCmd k.id fun x => { x with armed := some 0 }
    if w.region then s else s.emit (.ringRead k.id (w.slotAddr nxt) 64)

/-! ## RING_READ_COMPLETE and RING_READ_TIMEOUT -/

/-- Does an earlier slot of the queue still wait for its ring read? Descriptors pass to CCX in ring order (R105). -/
def State.ringBehind (s : State) (k : Cmd) : Bool := (s.earlier k).any fun x => x.st == CmdSt.fetching

/-- A failed ring read: the queue stops, and the slots fetched from this one on count as not fetched. -/
def State.ringFail (s : State) (k : Cmd) (reason : Nat) : State :=
  let s := { s with cmds := s.cmds.filter fun x => !(x.id.q == k.id.q && x.st == CmdSt.fetching && decide (k.adm ≤ x.adm)) }
  (s.setWq k.id.q fun x => { x with fi := k.id.idx }).stopQueue k.id.q reason

/-- The slot's 64 bytes have arrived; they are host bytes of the context (Table 11.5) unless the ring lies in a region. -/
def State.slotData (s : State) (k : Cmd) (w : Wq) (bytes : List Byte) : State :=
  let d := BitVec.ofNat 512 (leNat (bytesAt bytes 0 64))
  let s := if w.region then s else s.chargeHost k.ctx 64
  if k.armed.isSome then
    let s := s.setCmd k.id fun x => { x with armed := some d }
    match s.endsOnArrival k with
    | some st => s.complete k.id st
    | none => s.arrived { k with armed := some d }
  else
    let s := s.setCmd k.id fun x => { x with desc := d }
    match s.endsOnArrival k with
    | some st => (if dOp d = Op.wrArm then s.absorb w.q ((k.id.idx + 1) % two32) else s).complete k.id st
    | none => if dOp d = Op.wrArm then s.armArrived { k with desc := d } w else s.arrived { k with desc := d }

/-- What waited for the ring read of a command: the release of its context (R117), or the DEVICE_ERROR event (R534). -/
def State.ringOver (s : State) (k : Cmd) : State :=
  let s := if s.tearing k.ctx then s.settleTear k.ctx else s
  if s.dead then s.deadEvent else s

/-- RING_READ_COMPLETE. The slot of a ring in a region is read from the region. -/
def execRing (c : CmdId) (r : HostRead) (s : State) : State :=
  match s.cmd? c, s.wq? c.q with
  | some k, some w =>
    if k.st ≠ .fetching ∨ s.ringBehind k then s
    else State.ringOver (k := k) <| if w.region then
      match s.region? k.ctx w.rkey with
      | none => s.ringFail k St.accessDenied
      | some g =>
        let idx := if k.armed.isSome then (c.idx + 1) % two32 else c.idx
        s.slotData k w (s.regionLoad g (w.slotAddr idx) 64)
    else match r with
      | .data bytes => s.slotData k w bytes
      | _ => s.ringFail k St.accessDenied
  | _, _ => s

/-- RING_READ_TIMEOUT. -/
def execRingLate (c : CmdId) (s : State) : State :=
  match s.cmd? c, s.wq? c.q with
  | some k, some w =>
    if k.st ≠ .fetching ∨ s.ringBehind k ∨ w.region then s else (s.ringFail k St.timeout).ringOver k
  | _, _ => s

/-! ## HOST_READ_COMPLETE and HOST_ACCESS_TIMEOUT (R104) -/

/-- A host access of a command failed: the command completes; its queue does not stop. -/
def State.hostFail (s : State) (k : Cmd) (status : Nat) : State :=
  if k.st = .running ∧ k.armed.isSome then (s.rmaEnd k status 0).prune
  else if dOp k.desc = Op.blankMount then s.mountFails k status
  else (s.finish k.id status).prune

/-- HOST_READ_COMPLETE: the data of the oldest read the command still waits for. -/
def execHostRead (c : CmdId) (r : HostRead) (s : State) : State :=
  match s.cmd? c with
  | none => s
  | some k =>
    if k.owed = 0 then s
    else match r with
      | .data bytes =>
        (s.setCmd c fun x => { x with reads := x.reads ++ [bytes], owed := x.owed - 1 }).cmdHost c k.ctx bytes.length
      | _ => s.hostFail { k with owed := k.owed - 1 } St.accessDenied

/-- HOST_ACCESS_TIMEOUT. -/
def execHostLate (c : CmdId) (s : State) : State :=
  match s.cmd? c with
  | none => s
  | some k => if k.owed = 0 then s else s.hostFail k St.timeout

/-- FENCE (R108). -/
def execFenceF (c : CmdId) (s : State) : State :=
  s.runCmd c (fun d => dOp d == Op.fence) (fun _ _ => none) State.fenceBody

end Sys2Proof.Machine
end

