-- ==== Sys2Proof/Machine/Boot.lean ====
section
/-! DEFINITION. POR and FUND, SEC's boot ROM, HBM training, the PCIe link and the flash modules (chapter 14, R430, R432). -/

namespace Sys2Proof.Machine

/-! ## The boot ROM (R430, R432, Table 12.2) -/

/-- The valid banks of a pair in the order they are tried: the larger SEQ first. -/
def bankOrder (a b : Option Bank) : List (Nat × Bank) :=
  let va := (a.filter bankValid).map fun x => (0, x)
  let vb := (b.filter bankValid).map fun x => (1, x)
  match va, vb with
  | some x, some y => if x.2.seq < y.2.seq then [y, x] else [x, y]
  | some x, none => [x]
  | none, some y => [y]
  | none, none => []

/-- The first good bank: signed by `signer`, its SVN at least `min`. A bank whose signature is rejected is counted. -/
def State.pickBank (s : State) (signer min : Nat) : List (Nat × Bank) → State × Option (Nat × Bank)
  | [] => (s, none)
  | x :: t =>
    match s.checkSig signer x.2.img.obj with
    | (s, true) => if min ≤ sigSvn x.2.img.obj then (s, some x) else s.pickBank signer min t
    | (s, false) => s.pickBank signer min t

/-- Slots after the configuration bank's own that hold the digest it names. -/
def enrolSlot (owners : List (Nat × Bool × Bool)) (slot digest : Nat) : Option Nat :=
  (List.range owners.length).find? fun i => decide (slot < i) && match owners[i]? with
    | some o => o.1 == digest && !o.2.2
    | none => false

/-- Enable slot `n` and revoke every earlier one. -/
def enrolOwners (owners : List (Nat × Bool × Bool)) (n : Nat) : List (Nat × Bool × Bool) :=
  (owners.zip (List.range owners.length)).map fun p =>
    if p.2 < n then (p.1.1, false, true) else if p.2 = n then (p.1.1, true, false) else p.1

/-- R430: a chosen configuration bank that names the digest of a later slot enrols it. -/
def State.enrol (s : State) (g : BankImage) : State :=
  match g.ownerDigest.bind (enrolSlot s.sec.fuses.owners (sigSlot g.obj)) with
  | none => s
  | some n => (s.setSec fun x => { x with fuses := { x.fuses with owners := enrolOwners x.fuses.owners n } }).setFld
      F.SEC_STATUS_OWNER_SLOT n

/-- The PF's bootstrap context (R486). -/
def bootstrapRec : CtxRec :=
  { ctx := 0, part := 0, func := 0, tenant := 0, retrieval := false, maxBlocks := 1, topk := 0, recent := 0, sinkBlk := 0,
    maxTopk := 0, maxC := 16, minC := 0, weight := 1, groups := [0], trigFirst := 0, trigCount := 0, seqLimit := 0,
    sdom := 0, nameable := [], publish := [], tableRight := [], heavy := false }

/-- The configuration bank is chosen by the same rule, under the owner's key. -/
def State.chooseCfg (s : State) : State :=
  match s.pickBank 1 0 (bankOrder s.sec.cfg.1 s.sec.cfg.2) with
  | (s, none) => s
  | (s, some c) => ((s.setFld F.SEC_STATUS_CFG_BANK c.1).setSec fun x => { x with cfgOk := true }).enrol c.2.img

/-- Boot of a firmware bank: the configuration bank, the incarnation, the bootstrap context (Table 12.2). -/
def State.bootOn (s : State) (n : Nat) (b : Bank) : State :=
  let s := ((s.setFld F.SEC_STATUS_FW_BANK n).setFld F.SEC_FW_FW_SVN (sigSvn b.img.obj)).chooseCfg
  let s := (s.bump F.FXT_NODE_INC).setSec fun x => { x with booted := true }
  let s := { s with ctxs := [{ r := bootstrapRec, st := .up }] }
  s.setFld F.GLB_BOOT_STAT_PHASE (if s.boot.trained then 3 else 2)

/-- Boot; without a good firmware bank the part enters RECOVERY, where the configuration bank still names the clients of the
management port. -/
def State.bootRom (s : State) : State :=
  match s.pickBank 0 (s.fld F.SEC_FW_FW_MIN_SVN) (bankOrder s.sec.fw.1 s.sec.fw.2) with
  | (s, some x) => s.bootOn x.1 x.2
  | (s, none) => (s.chooseCfg.setFld F.SEC_STATUS_RECOVERY 1).setFld F.GLB_BOOT_STAT_PHASE 7

/-! ## What POR and FUND leave (R492, R499, Tables 0.3 and 14.10) -/

/-- SEC's own state after a reset: fuses, ROM and SPI NOR are kept, every key and session goes, a new challenge is drawn. -/
def Sec.restart (x : Sec) (free : Nat) : Sec :=
  { Sec.reset with fuses := x.fuses, romRoots := x.romRoots, romDigest := x.romDigest, fw := x.fw, cfg := x.cfg,
                   keyNo := x.keyNo + 1, challenge := Config.random free % 2 ^ 256 }

/-- The voter's memory across a reset: the highest epoch it granted, to whom forgotten (R375). -/
def Dom.keptGrants (d : Dom) : List (Nat × Nat) :=
  let h := (d.grants.map (·.2)).foldl max 0
  if h = 0 then [] else [(256, h)]

/-- The state after a reset that clears fields of severity `rank` and below, before boot. The waiting commands, what has been
sent, the fuses, SPI NOR and the contents of flash stay, a journal commit under way being cut off (R285). -/
def State.wiped (s : State) (rank now : Nat) : State :=
  let j := s.jrnl.cut s.kmapKey s.mapSegs (Config.programsDone (s.free + 1))
  let s := s.clearFields fun f _ => decide (f.clr.rank < rank)
  { s with cycles := now, free := s.free + 2, dead := false
           host := { HostIf.reset with out := s.host.out, xlatFail := s.host.xlatFail }
           qdb := Qdb.reset, cmds := [], ctxs := [], seq := Seqs.reset, tier := { Tiers.reset with stripes := s.tier.stripes }, att := Attn.reset
           tab := Tables.reset, fxt := Fabric.reset, rem := [], blank := none
           sch := Sched.reset, pwr := Pwr.reset now, pxi := Pxi.reset, dom := Dom.reset now s.dom.keptGrants, dss := none
           jrnl := { j with lastAt := now }, egs := Egs.reset, sec := s.sec.restart s.free, boot := Boot.reset
           pm := Pm.reset, ras := [] }

/-- Cause bits of a POR: 0 a rail, 1 POR_N, 2 power back after THERMTRIP_N. -/
def porCause (c : Nat) : Fld :=
  if c = 0 then F.GLB_RESET_CAUSE_RAIL else if c = 1 then F.GLB_RESET_CAUSE_PIN else F.GLB_RESET_CAUSE_THERM

/-- POR: POR_N is released. The cycle counter starts from 0 and the straps (bits as in GLB_STRAPS) are sampled. -/
def execPorF (cause straps : Nat) (s : State) : State :=
  let s := (s.wiped 2 0).setFld (porCause cause) 1
  let s := (s.setFld F.GLB_STRAPS_BOOT_MOUNT straps).setFld F.GLB_STRAPS_LANES (straps / 2)
  (s.setFld F.GLB_STRAPS_MGMT_EN (straps / 8)).bootRom

/-- A fundamental reset: HBM stays trained and its retirements persist; the pins a tester has taken stay taken (R518). -/
def State.doFund (s : State) (cause : Fld) : State :=
  if s.pwr.railsOff then s
  else
    let t := (s.putRaise 0 (s.pwr.raise.map (·.1))).wiped 3 s.cycles
    let t := { t with dead := s.host.pinsTaken, host := { t.host with pinsTaken := s.host.pinsTaken }
                      tier := { t.tier with pcErrors := s.tier.pcErrors }, boot := { t.boot with trained := s.boot.trained }
                      sec := { t.sec with debugSeen := s.sec.debugSeen, mounts := s.sec.mounts } }
    let t := t.setPwr fun p => { p with thermtrip := s.pwr.thermtrip, brk := s.pwr.brk.map fun _ => (s.cycles, false) }
    (t.setFld cause 1).bootRom.refreshPower

/-- FUND by PERST#. -/
def execFundF (s : State) : State := s.doFund F.GLB_RESET_CAUSE_PERST

/-! ## Training and the link (R482, R483) -/

/-- HBM_TRAINING_DONE. -/
def execTrained (s : State) : State :=
  if s.fld F.GLB_BOOT_STAT_PHASE = 2 then
    (s.setBoot fun x => { x with trained := true }).setFld F.GLB_BOOT_STAT_PHASE 3
  else s

/-- PCIE_LINK_UP. -/
def execPcieUp (s : State) : State := s.setBoot fun x => { x with linkUp := true }

/-! ## Flash modules (R484, Table 14.2) -/

/-- Bytes of a target of a module. -/
def targetBytes (d : List Byte) : Nat := leAt d 8 2 * leAt d 10 2 * leAt d 12 4

/-- The conditions of R484 on an identity that answered. -/
def moduleOk (m : Nat) (d : List Byte) : Bool :=
  d.length == 1024 && leAt d 0 4 == 0x444D4659 && leAt d 4 1 == 1 && leAt d 5 1 == m && decide (leAt d 6 1 < 16) &&
    decide (1 ≤ leAt d 7 1 ∧ leAt d 7 1 ≤ 32) && leAt d 8 2 == 16384 && decide (1 ≤ targetBytes d ∧ targetBytes d ≤ 2 ^ 39) &&
    leAt d 17 3 == 0 && (bytesAt d 40 980).all (· == 0) && leAt d 1020 4 == crc32c (bytesAt d 0 1020)

/-- Enabled channels of a module. -/
def moduleChannels (d : List Byte) : Nat := leAt d 6 1 % 16

def bitCount4 (n : Nat) : Nat := n % 2 + n / 2 % 2 + n / 4 % 2 + n / 8 % 2

/-- An accepted module: its 4 KiB chunks, and the geometry of its targets. -/
def moduleOf (m : Nat) (d : List Byte) : FlashMod :=
  ⟨m, bitCount4 (moduleChannels d) * leAt d 7 1 * targetBytes d / 4096, leAt d 10 2, leAt d 12 4⟩

/-- Set a bit of a mask register that is clear. -/
def State.addBit (s : State) (f : Fld) (n : Nat) : State :=
  if s.fld f / 2 ^ n % 2 = 1 then s else s.setFld f (s.fld f + 2 ^ n)

/-- POPULATED: every group all of whose 16 channels are enabled. -/
def State.groupsNow (s : State) : State :=
  let en := s.fld F.FLS_CHAN_STAT_ENABLED
  s.setFld F.FLS_GROUPS_POPULATED
    (((List.range 4).map fun g => if en / 65536 ^ g % 65536 = 65535 then 2 ^ g else 0).foldl (· + ·) 0)

/-- A module is accepted: its channels are enabled. -/
def State.acceptModule (s : State) (m : Nat) (d : List Byte) : State :=
  let s := s.setFld F.FLS_CHAN_STAT_ENABLED (s.fld F.FLS_CHAN_STAT_ENABLED + moduleChannels d * 16 ^ m)
  ({ s with tier := { s.tier with modules := s.tier.modules ++ [moduleOf m d] } }.addBit F.FLS_GROUPS_MODULES m).groupsNow

/-- A module is rejected: it is marked and reported. -/
def State.rejectModule (s : State) (m : Nat) : State :=
  (s.addBit F.MGT_MODULE_STAT_REJECTED m).deviceEvent (devDetail 7 m 0)

/-- Step 6 of Table 14.1: with BOOT_MOUNT set, the blank of the chosen configuration bank is mounted. -/
def State.bootMount (s : State) : State :=
  match s.cfgImg?.bind (·.blank) with
  | none => s
  | some b =>
    if s.fld F.GLB_STRAPS_BOOT_MOUNT = 0 then s
    else match s.mountChecks b true 0 none with
      | (s, some st) => s.mountResult st
      | (s, none) => s.beginMount none none b true 0

/-- MODULE_IDENTITY_READ: the outcome for one module slot; `ident` is none when no attempt was answered. Once all 16 have been
read the part awaits or mounts a blank. -/
def execModule (m : Nat) (ident : Option (List Byte)) (s : State) : State :=
  if s.fld F.GLB_BOOT_STAT_PHASE ≠ 3 ∨ 16 ≤ m ∨ s.boot.modsRead.contains m then s
  else
    let s := s.setBoot fun x => { x with modsRead := x.modsRead ++ [m] }
    let s := match ident with
      | none => s.rejectModule m
      | some d =>
        let s := s.addBit F.MGT_MODULE_STAT_PRESENT m
        if moduleOk m d then s.acceptModule m d else s.rejectModule m
    if s.boot.modsRead.length = 16 then (s.setFld F.GLB_BOOT_STAT_PHASE 4).bootMount else s

end Sys2Proof.Machine
end

