-- ==== Sys2Proof/Machine/LowPower.lean ====
section
/-! DEFINITION. Low-power states (R495 to R498). -/

namespace Sys2Proof.Machine

def State.setPm (s : State) (f : Pm → Pm) : State := { s with pm := f s.pm }

/-! ## IDLE -/

/-- No command in flight; no chunk, walk, promotion or program. -/
def State.quiet (s : State) : Bool :=
  s.cmds.isEmpty && s.att.chunks.isEmpty && s.att.atts.isEmpty && s.tier.frames.all (fun f => f.st != .promoting && !f.pgm) &&
    s.tier.zombie.isEmpty && s.jrnl.busy.isNone

/-- IDLE_ENTRY: the part has been quiet for IDLE_US. -/
def execIdle (s : State) : State :=
  if s.fld F.GLB_PM_CTL_AUTO_IDLE = 1 ∧ s.fld F.GLB_PM_STAT_STATE = 0 ∧ s.quiet then
    (s.reach (s.cycles + max 1 (s.fld F.GLB_PM_CTL_IDLE_US) * cyclesPerUs)).setFld F.GLB_PM_STAT_STATE 1
  else s

/-! ## TARGET (R496) -/

/-- An entry to HOLD (1) or PARK (2) begins. -/
def State.startEntry (s : State) (t : Nat) : State :=
  (s.setFld F.GLB_PM_STAT_STATE 4).setPm fun p => { p with entering := some (t, s.cycles) }

/-- The controller acts on a TARGET of 0, 1 or 2; 3 acts as 0. -/
def State.actTarget (s : State) (t : Nat) : State :=
  let st := s.fld F.GLB_PM_STAT_STATE
  if 4 ≤ st then s.setPm fun p => { p with held := some t }
  else if t = 1 then
    if st = 2 then s
    else if st = 3 then (s.wakeUp 3).setPm fun p => { p with after := some 1 }
    else s.startEntry 1
  else if t = 2 then (if st = 3 then s else s.startEntry 2)
  else s.wakeUp 3

/-! ## Entry (R495) -/

/-- Step 3: no command is in flight but WR_ARM pairs that wait. -/
def State.cmdsDrained (s : State) : Bool := s.cmds.all armWaiting

/-- A map commit that begins now and completes, after one under way; the map is written out whether or not it has changed. -/
def State.commitNow (s : State) : State :=
  let s := s.endCommit
  if s.flashGroups.isEmpty then s else s.startCommit.endCommit

/-- A staging group whose holder and debts are reset. -/
def SGroup.parked (now : Nat) (full : Nat) (g : SGroup) : SGroup :=
  { g with holder := 0, phase := 0, start := now, len := full, owed := [], out := none, overrun := 0, prio := [] }

/-- The slice of a group's first member. -/
def State.firstSlice (s : State) (g : SGroup) : Nat := ((g.r.members.head?.bind s.part?).map (·.r.slice)).getD 0

def State.parkGroups (s : State) : State :=
  { s with sch := { s.sch with groups := s.sch.groups.map fun (g : SGroup) => g.parked s.cycles (s.firstSlice g) } }

/-- Steps 4 and 5 for PARK: the journal commits, T0 copies, the CAM, the hot set, the expanders' tables and the staging holders go. -/
def State.park (s : State) : State :=
  let s := s.commitNow
  let s := { s with tier := { s.tier with frames := s.tier.frames.map fun (f : Frame) => { f with stg := none } } }
  let s := s.setPxi fun x => { x with cam := [], dir := x.dir.map fun (e : DirEnt) => { e with cam := none } }
  let s := { s with att := { s.att with hot := [], loading := [] }, tab := { s.tab with expander := [] } }
  s.parkGroups.clearFields fun f _ => f.clr != Clr.park

/-- The controller acts on the TARGET written last during an entry or an exit, as if written now. -/
def State.actHeld (s : State) : State :=
  match s.pm.held with
  | none => s
  | some t => (((s.setPm fun p => { p with held := none }).setFld F.GLB_PM_CTL_TARGET t)).actTarget t

/-- LOWPOWER_DRAIN_DONE: the entry completes. -/
def execDrainDone (s : State) : State :=
  match s.pm.entering with
  | none => s
  | some e =>
    if s.fld F.GLB_PM_STAT_STATE ≠ 4 ∨ s.entryWaits ∨ !s.cmdsDrained then s
    else
      let s := if e.1 = 2 then s.park else s
      let s := ((s.setFld F.GLB_PM_STAT_STATE (e.1 + 1)).setFld F.GLB_PM_STAT_RESULT St.ok).bump F.GLB_PM_STAT_ENTRIES
      (s.setPm fun p => { p with entering := none }).actHeld

/-- LOWPOWER_DRAIN_TIMEOUT: the entry is abandoned. -/
def execDrainEnd (s : State) : State :=
  match s.pm.entering with
  | none => s
  | some e =>
    if s.fld F.GLB_PM_STAT_STATE ≠ 4 ∨ s.entryWaits ∨ s.cmdsDrained then s
    else
      let s := s.reach (e.2 + max 1 (s.fld F.GLB_PM_CFG_DRAIN) * 1000 * cyclesPerUs)
      let s := ((s.setFld F.GLB_PM_STAT_STATE 0).setFld F.GLB_PM_STAT_RESULT St.timeout).setFld F.GLB_PM_CTL_TARGET 0
      (s.setPm fun p => { p with entering := none }).actHeld

/-! ## Exit (R496 to R498) -/

/-- WAKE: a wake event (0 doorbell or queue write, 1 fabric message, 2 FLR, 3 TARGET written 0). -/
def execWakeEvent (cause : Nat) (s : State) : State :=
  if cause = 0 then s.wakeDb
  else if cause = 1 then s.wakeFab
  else if cause = 2 then s.wakeUp 2
  else if cause = 3 then (s.setFld F.GLB_PM_CTL_TARGET 0).actTarget 0
  else s

/-- An operation deferred to the end of the exit: codes 1 to 5 of CTXW_QCMD, 9 and 10 of SCH_CTX_CMD. -/
def State.runDeferred (s : State) : List (Nat × Nat × Nat) → State
  | [] => s
  | (op, f, c) :: t =>
    (if op < 8 then
      let s := s.setFld F.CTXW_QSTAT_BUSY 0 0 c
      if op = 1 then execCreateF f c s else if op = 2 then execDestroyF f c s else if op = 3 then execStopF f c s
      else if op = 4 then execResumeF f c s else execQueryF f c s
     else (s.setFld F.SCH_CTX_STAT_BUSY 0).schCmd f c (op - 8)).runDeferred t

/-- READ_REQ packets that waited for the exit are answered. -/
def State.answerReqs (s : State) : List RxFrame → State
  | [] => s
  | x :: t => (s.rxRead x).answerReqs t

/-- LOWPOWER_EXIT_DONE. -/
def execExitDone (s : State) : State :=
  if s.fld F.GLB_PM_STAT_STATE ≠ 5 then s
  else
    let ops := s.pm.deferred
    let reqs := s.pm.reqs
    let next := s.pm.after
    let s := (s.setFld F.GLB_PM_STAT_STATE 0).setPm fun p => { p with after := none, deferred := [], reqs := [] }
    let s := (s.runDeferred ops).answerReqs reqs
    if s.pm.held.isSome then s.actHeld
    else match next with
      | none => s
      | some t => s.startEntry t

end Sys2Proof.Machine
end

