-- ==== Sys2Proof/Machine/RegAcc.lean ====
section
/-! DEFINITION. Register accesses of the host (R5 to R18, R536, R540 to R546): the address maps, the access codes, half accesses,
what registers show that is held elsewhere, and what a write of a register does beside storing its fields. -/

namespace Sys2Proof.Machine

/-! ## Address maps (R540 to R543) -/

/-- Contexts of a function, ascending. -/
def State.funcCtxs (s : State) (f : Nat) : List Nat :=
  sortBy (fun a b : Nat => decide (a < b)) ((s.ctxs.filter fun x => x.r.func == f).map (·.r.ctx))

/-- The offset in the whole map that an access of function `f` at `off` reaches. A page of the PF's map that shows the window of a
VF's context, and a page of a VF with no context behind it, reach nothing. -/
def State.mapAddr (s : State) (f off : Nat) : Option Nat :=
  if f = 0 then
    if off < 0x1000000 then some off
    else if off < 0x2000000 ∧ s.ownsWindow 0 ((off - 0x1000000) / 0x1000) then some off
    else none
  else if off / 0x1000 < (s.blank.map (·.bar0Pages)).getD 0 then
    (s.funcCtxs f)[off / 0x1000]?.map fun c => windowBase c + off % 0x1000
  else none

/-- Registers that can be reached before boot is complete, and in RECOVERY (R483). -/
def earlyRegs : List Nat := [0x0, 0x10, 0x20, 0x30, 0xC00000]

/-- A register is live: boot, expert lock (R5), debug for the perturbation registers (R536). -/
def State.regLive (s : State) (r : RegD) : Bool :=
  (s.sec.booted || (!r.win && earlyRegs.contains r.addr)) && (!r.expert || s.fld F.GLB_EXPERT_UNLOCK_UNLOCKED == 1) &&
    (r.win || decide (r.addr < 0xF01000) || decide (0xF02000 ≤ r.addr) || s.fld F.SEC_STATUS_DEBUG == 1)

/-- Where a 32-bit access falls: register, index, context, and whether it is the upper half of a 64-bit register. -/
structure RegHit where
  r : RegD
  i : Nat
  c : Nat
  upper : Bool
deriving DecidableEq, Repr

/-- The register at a mapped offset, if it is live. -/
def State.hitAt (s : State) (a : Nat) : Option RegHit :=
  let h : Option RegHit := match findReg a with
    | some p => some ⟨p.1, p.2.1, p.2.2, false⟩
    | none => if a < 4 then none else match findReg (a - 4) with
      | some p => if p.1.bytes = 8 then some ⟨p.1, p.2.1, p.2.2, true⟩ else none
      | none => none
  h.filter fun x => s.regLive x.r

/-! ## What registers show of state held elsewhere -/

/-- Window registers of context `c`. -/
def State.winView (s : State) (a i c : Nat) : List (Fld × Nat) :=
  match s.ctx? c with
  | none => []
  | some x =>
    if a = 0x0 then
      [(F.CTXW_INFO_CTX, c), (F.CTXW_INFO_PART, x.r.part), (F.CTXW_INFO_FUNC, x.r.func),
       (F.CTXW_INFO_CLASS, if x.r.retrieval then 1 else 0),
       (F.CTXW_INFO_DEVCTX, if s.blank.isSome && c == s.deviceCtx then 1 else 0)]
    else if a = 0x8 then [(F.CTXW_INFLIGHT_COUNT, s.countOf c), (F.CTXW_INFLIGHT_MAX, x.r.maxC)]
    else if a = 0x100 then
      match s.cq? (c * 64 + i) with
      | none => []
      | some q => [(F.CTXW_CQ_DB_CI, q.ci), (F.CTXW_CQ_DB_ARM, if q.arm then 1 else 0)]
    else if a = 0x300 then
      match s.eq? c with
      | none => []
      | some q => [(F.CTXW_EQ_DB_CI, q.ci), (F.CTXW_EQ_DB_ARM, if q.arm then 1 else 0)]
    else if a = 0x418 then [(F.CTXW_CLASS_LIMIT_MAX_BLOCKS, if x.r.retrieval then 0 else x.r.maxBlocks)]
    else if a = 0x420 then
      if x.r.retrieval then [(F.CTXW_RET_CFG_MAX_TOPK, x.r.maxTopk)]
      else [(F.CTXW_RET_CFG_TOPK, 0), (F.CTXW_RET_CFG_RECENT, 0), (F.CTXW_RET_CFG_SINK_BLK, 0), (F.CTXW_RET_CFG_MAX_TOPK, 0)]
    else if a = 0x428 then
      [(F.CTXW_RCP_STAT_LEASES, (s.att.leases.filter fun l => l.ctx == c).length),
       (F.CTXW_RCP_STAT_WAITERS, ((s.att.leases.flatMap (·.waiters)).filter fun w => w.ctx == c).length)]
    else if a = 0x500 then [(F.CTXW_TRIG_RANGE_FIRST, x.r.trigFirst), (F.CTXW_TRIG_RANGE_COUNT, x.r.trigCount)]
    else if a = 0x50C then
      let n := s.fld F.CTXW_TRIG_SEL_TRIG 0 c
      [(F.CTXW_TRIG_VAL_VALUE, if n != 0 && s.trigOwned c n then s.trigVal n else 0)]
    else if a = 0x600 then
      [(F.CTXW_DOM_STAT_STATE, s.fld F.FXT_DOM_STAT_STATE), (F.CTXW_DOM_STAT_EPOCH, s.fld F.FXT_DOM_STAT_EPOCH)]
    else if a = 0x700 then [(F.CTXW_SHARE_WEIGHT, x.r.weight), (F.CTXW_SHARE_TENANT, x.r.tenant)]
    else []

/-- CREDIT in MiB, two's complement. -/
def State.creditMib (s : State) : Nat := twos 32 (s.tier.credit / (15000000 * 1048576 : Nat))

/-- The owner of a channel group: partition, system flag, assigned flag. -/
def State.cgOwner (s : State) (g : Nat) : Nat × Nat × Nat :=
  if ((s.blank.map (·.sysGroups)).getD []).contains g then (0, 1, 1)
  else match s.seq.parts.find? fun p => p.r.cgroups.contains g with
    | some p => (p.r.part, 0, 1)
    | none => (0, 0, 0)

def State.cgView (s : State) (i : Nat) : List (Fld × Nat) :=
  let o0 := s.cgOwner (4 * i)
  let o1 := s.cgOwner (4 * i + 1)
  let o2 := s.cgOwner (4 * i + 2)
  let o3 := s.cgOwner (4 * i + 3)
  [(F.HBM_CG_OWNER_PART_0, o0.1), (F.HBM_CG_OWNER_SYSTEM_0, o0.2.1), (F.HBM_CG_OWNER_ASSIGNED_0, o0.2.2),
   (F.HBM_CG_OWNER_PART_1, o1.1), (F.HBM_CG_OWNER_SYSTEM_1, o1.2.1), (F.HBM_CG_OWNER_ASSIGNED_1, o1.2.2),
   (F.HBM_CG_OWNER_PART_2, o2.1), (F.HBM_CG_OWNER_SYSTEM_2, o2.2.1), (F.HBM_CG_OWNER_ASSIGNED_2, o2.2.2),
   (F.HBM_CG_OWNER_PART_3, o3.1), (F.HBM_CG_OWNER_SYSTEM_3, o3.2.1), (F.HBM_CG_OWNER_ASSIGNED_3, o3.2.2)]

/-- TABLE_PROBE: is the ID held, bound, named by how many frames? -/
def State.probeView (s : State) : List (Fld × Nat) :=
  let t := s.fld F.CDC_TABLE_PROBE_TID
  [(F.CDC_TABLE_PROBE_HELD, if (s.heldTable? t).isSome then 1 else 0),
   (F.CDC_TABLE_PROBE_BOUND, if s.tidBound t then 1 else 0),
   (F.CDC_TABLE_PROBE_FRAMES, min (2 ^ 30 - 1) (s.tier.frames.filter fun f => f.tids.contains t).length)]

/-- SCH_SGROUP of group `i`. -/
def State.sgView (s : State) (i : Nat) : List (Fld × Nat) :=
  match s.group? i with
  | none => []
  | some g => [(F.SCH_SGROUP_DIE, g.r.die), (F.SCH_SGROUP_WAY_FIRST, g.r.wayFirst), (F.SCH_SGROUP_WAYS, g.r.ways),
      (F.SCH_SGROUP_HOLDER, g.holderPart.getD 0), (F.SCH_SGROUP_PHASE, g.phase)]

/-- Debt of member `k` of group `i`, in units of 64 µs. -/
def State.owedOf (s : State) (i k : Nat) : Nat :=
  match s.group? i with
  | none => 0
  | some g => match g.r.members[k]? with
    | none => 0
    | some p => min 255 (spGet 0 g.owed p / 64)

def State.owedView (s : State) (i : Nat) : List (Fld × Nat) :=
  [(F.SCH_SGROUP_OWED_OWED_0, s.owedOf i 0), (F.SCH_SGROUP_OWED_OWED_1, s.owedOf i 1), (F.SCH_SGROUP_OWED_OWED_2, s.owedOf i 2),
   (F.SCH_SGROUP_OWED_OWED_3, s.owedOf i 3), (F.SCH_SGROUP_OWED_OWED_4, s.owedOf i 4), (F.SCH_SGROUP_OWED_OWED_5, s.owedOf i 5),
   (F.SCH_SGROUP_OWED_OWED_6, s.owedOf i 6), (F.SCH_SGROUP_OWED_OWED_7, s.owedOf i 7)]

/-- SCH_PART of partition `i`. -/
def State.partView (s : State) (i : Nat) : List (Fld × Nat) :=
  match s.part? i with
  | none => []
  | some p => [(F.SCH_PART_AESET, p.r.aeset), (F.SCH_PART_DEFINED, 1), (F.SCH_PART_SGROUP, p.r.sgroup.getD 0),
      (F.SCH_PART_HAS_SG, if p.r.sgroup.isSome then 1 else 0), (F.SCH_PART_SLICE, p.r.slice)]

/-- State of the last context written to SCH_CTX_CMD. -/
def State.lastCtxState (s : State) : Nat :=
  if s.fld F.SCH_CTX_CMD_OP = 0 then 0
  else match s.ctx? (s.fld F.SCH_CTX_CMD_CTX) with
    | none => 0
    | some x => match x.st with
      | .down => 0
      | .up => 1
      | .tearing => 2

/-- SCH_SHARE_DATA of the selected context. -/
def State.shareView (s : State) : List (Fld × Nat) :=
  match s.ctx? (s.fld F.SCH_SHARE_SEL_CTX) with
  | none => []
  | some x => [(F.SCH_SHARE_DATA_WEIGHT, x.r.weight), (F.SCH_SHARE_DATA_VT, x.vt / 65536)]

/-- Members of the domain whose part IDs lie in word `n`. -/
def State.memberWord (s : State) (n : Nat) : Nat :=
  ((List.range 64).map fun b => if s.dom.members.contains (64 * n + b) then 2 ^ b else 0).foldl (· + ·) 0

/-- Block registers. -/
def State.blkView (s : State) (a i : Nat) : List (Fld × Nat) :=
  if a = 0x8 then [(F.GLB_FABRIC_CYCLES_COUNT, s.cycles)]
  else if a = 0x200000 then [(F.QDB_STAT_INFLIGHT, s.total)]
  else if a = 0x300100 then
    [(F.SCH_AESET_ISLANDS, maskOf (s.setIslands i)), (F.SCH_AESET_USERS, (s.seq.parts.filter fun p => p.r.aeset == i).length)]
  else if a = 0x300400 then s.partView i
  else if a = 0x300800 then s.sgView i
  else if a = 0x300880 then s.owedView i
  else if a = 0x300A04 then [(F.SCH_CTX_STAT_STATE, s.lastCtxState)]
  else if a = 0x301000 then
    [(F.SCH_SET_STAT_ACTIVE, (s.ctxs.filter fun x => x.active && s.setOf x.r.ctx == some i).length)]
  else if a = 0x380008 then s.shareView
  else if a = 0x500120 then [(F.PXI_CAM_OCC_ROWS, s.pxi.cam.length)]
  else if a = 0x500208 then [(F.PXI_DIR_OCC_ENTRIES, s.pxi.dir.length)]
  else if a = 0x500210 then [(F.PXI_ANCHOR_OCC_LIVE, s.pxi.anchors.length)]
  else if a = 0x580000 then [(F.PXI_CAM_GROUP_OCC_ROWS, (s.pxi.cam.filter fun r => r.row / 32768 == i).length)]
  else if a = 0x600000 then [(F.TIER_STATE_CNT_FRAMES, (s.tier.frames.filter fun f => pgCode f.st == i).length)]
  else if a = 0x600120 then [(F.TIER_ENDURANCE_STAT_CREDIT, s.creditMib)]
  else if a = 0x700000 then s.cgView i
  else if a = 0x800108 then [(F.FLS_SPACE_FREE_CHUNKS, s.flashFree)]
  else if a = 0x900000 then [(F.CDC_TABLE_OCC_TABLES, s.heldTables.length), (F.CDC_TABLE_OCC_SETS, s.tab.sets.length)]
  else if a = 0x980008 then s.probeView
  else if a = 0xA00110 then [(F.FXT_DUP_STAT_UNRELEASED, (s.fxt.filter.filter fun e => !s.released? e).length)]
  else if a = 0xA0040C then
    if s.voters.isEmpty then [] else [(F.FXT_DOM_ROLE_VOTERS, s.voters.length), (F.FXT_DOM_ROLE_QUORUM, s.quorum)]
  else if a = 0xA00410 then [(F.FXT_DOM_STAT_COUNT, s.dom.members.length)]
  else if a = 0xA00420 then [(F.FXT_DOM_MEMBERS_SET, s.memberWord i)]
  else if a = 0xB40100 then [(F.ETH_LINK_STAT_SA_LIVE, if s.saLive i then 1 else 0)]
  else if a = 0xC00040 then [(F.SEC_DEVICE_ID_DIGEST, s.deviceId / 2 ^ (64 * i))]
  else if a = 0xD00040 then [(F.PWR_PKG_ENERGY_UJ, microJ s.pwr.pkgFj)]
  else if a = 0xD00048 then [(F.PWR_SYS_ENERGY_UJ, microJ s.accrue.pwr.sysFj)]
  else if a = 0xD01000 then [(F.PWR_PART_ENERGY_UJ, microJ (spGet 0 s.accrue.pwr.partFj i))]
  else if a = 0xD80028 then [(F.PWR_COEF_DATA_VALUE, s.coefView.1), (F.PWR_COEF_DATA_SCALE, s.coefView.2)]
  else []

/-- The value a read of a register returns: each field's, WO fields as zero. -/
def State.readReg (s : State) (r : RegD) (i c : Nat) : Nat :=
  let v := if r.win then s.winView r.addr i c else s.blkView r.addr i
  (r.flds.map fun f =>
    if f.acc = .wo then 0
    else (match v.find? fun p => p.1 == f with
      | some p => p.2 % 2 ^ f.width
      | none => s.fld f i c) * 2 ^ f.lo).foldl (· + ·) 0

/-! ## Reads (R10 to R14) -/

/-- A 32-bit read at a mapped offset, and what it returns. -/
def State.read32 (s : State) (f a : Nat) : State × Nat :=
  match s.hitAt a with
  | none => (s, 0)
  | some h =>
    let v := s.readReg h.r h.i h.c
    if h.upper then
      match s.host.latches.find? fun l => l.1 == f && l.2.1 == a with
      | some l => (s.setHost fun x => { x with latches := x.latches.filter fun l => l.1 != f || l.2.1 != a }, l.2.2.toNat)
      | none => (s, v / two32)
    else if h.r.bytes = 8 then
      (s.setHost fun x => { x with latches := x.latches.filter (fun l => l.1 != f || l.2.1 != a + 4) ++
        [(f, a + 4, BitVec.ofNat 32 (v / two32))] }, v % two32)
    else (s, v)

/-- A read of `bytes` (4 or 8) at a mapped offset. -/
def State.readAt (s : State) (f a bytes : Nat) : State × Nat :=
  if bytes = 4 then s.read32 f a
  else match s.hitAt a with
    | some h => if h.r.bytes = 8 then (s.dropHalves f a, s.readReg h.r h.i h.c)
      else
        let l := s.read32 f a
        let u := l.1.read32 f (a + 4)
        (u.1, l.2 + u.2 * two32)
    | none =>
      let u := s.read32 f (a + 4)
      (u.1, u.2 * two32)

/-- BAD_REGISTER_ACCESS: reads as zero, a write is discarded. -/
def execBadAccess (f off bytes : Nat) (isWrite : Bool) (s : State) : State :=
  if accessOk off bytes then s
  else
    let s := s.badAccess off bytes
    if isWrite then s else s.emit (.regData f 0)

/-- LOWER_HALF_READ and every other read of a register, in BAR0 or (`bar2`) of a doorbell, where R12 does not apply (R81);
the value goes to the function that reads. -/
def execRegRead (f off bytes : Nat) (bar2 : Bool) (s : State) : State :=
  if !accessOk off bytes then execBadAccess f off bytes false s
  else if bar2 then s.emit (.regData f (BitVec.ofNat 64 (s.bar2Read f off bytes)))
  else match s.mapAddr f off with
    | none => s.emit (.regData f 0)
    | some a => let p := s.readAt f a bytes; p.1.emit (.regData f (BitVec.ofNat 64 p.2))

/-! ## Writes -/

/-- One field after a write of `v`, of whose bits only those of `m` are written (R12, R14). -/
def Fld.written (f : Fld) (old v m : Nat) : Nat :=
  let fm := m / 2 ^ f.lo % 2 ^ f.width
  let x := v / 2 ^ f.lo % 2 ^ f.width
  match f.acc with
  | .rw => old - Nat.land old fm + Nat.land x fm
  | .w1c => old - Nat.land old (Nat.land x fm)
  | .w1s => Nat.lor old (Nat.land x fm)
  | .ro => old
  | .wo => old
  | .rwl => old

/-- The bits a write reaches: all of the register, or its upper half. -/
def writeMask (upperOnly : Bool) : Nat := if upperOnly then 2 ^ 64 - 2 ^ 32 else 2 ^ 64 - 1

/-- Store the fields of a register. -/
def State.writeFlds (s : State) (i c v m : Nat) : List Fld → State
  | [] => s
  | f :: t =>
    (if f.acc = .rw ∨ f.acc = .w1c ∨ f.acc = .w1s then s.setFld f (f.written (s.fld f i c) v m) i c else s).writeFlds i c v m t

/-- The whole value of a register after a write, from its value before. -/
def merged (old v m : Nat) : Nat := old - Nat.land old m + Nat.land v m

/-- CTXW_RCP_ATTR (Table 5.6, R548); `v` is the whole new value. -/
def State.rcpAttr (s : State) (c v : Nat) : State :=
  let en0 := s.fld F.CTXW_RCP_ATTR_ENABLE 0 c
  let en := v / 2 ^ 17 % 2
  let n := v % 2 ^ 17
  let base := s.fld F.CTXW_RCP_BASE_ADDR 0 c * 16
  let s := (s.setFld F.CTXW_RCP_ATTR_MODE (v / 2 ^ 18) 0 c).setFld F.CTXW_RCP_ATTR_LEASE_TIME (v / 2 ^ 32) 0 c
  if en0 = 1 then (if en = 1 then s else s.setFld F.CTXW_RCP_ATTR_ENABLE 0 0 c)
  else
    let s := s.setFld F.CTXW_RCP_ATTR_ENTRIES n 0 c
    if en = 1 ∧ isPow2In n 16 65536 ∧ base % min (16 * n) 4096 = 0 ∧ base + 16 * n ≤ 2 ^ 64 then
      ((s.setFld F.CTXW_RCP_ATTR_ENABLE 1 0 c).setFld F.CTXW_RCP_IDX_PI 0 0 c).setFld F.CTXW_RCP_IDX_CI 0 0 c
    else s

/-- RCP_ATTR_WRITE: a 64-bit write of the register. -/
def execRcpAttr (f c : Nat) (v : Word64) (s : State) : State :=
  if s.ownsWindow f c then (s.dropHalves f (windowBase c + 0x408)).rcpAttr c v.toNat else s

/-- A queue operation by its OP code. -/
def State.qCmd (s : State) (f c op : Nat) : State :=
  if op = 1 then execCreateF f c s else if op = 2 then execDestroyF f c s else if op = 3 then execStopF f c s
  else if op = 4 then execResumeF f c s else if op = 5 then execQueryF f c s else s

/-- A write of a window register of a context that `f` owns. -/
def State.writeWin (s : State) (f : Nat) (h : RegHit) (v : Nat) (upperOnly : Bool) : State :=
  let a := h.r.addr
  let m := writeMask upperOnly
  let c := h.c
  let gen := s.writeFlds h.i c v m h.r.flds
  if a = 0x10 ∨ a = 0x18 ∨ a = 0x20 ∨ a = 0x28 ∨ a = 0x2C then
    if s.fld F.CTXW_QSTAT_BUSY 0 c = 1 then s else gen.wakeDb
  else if a = 0x30 then s.qCmd f c (v % 16)
  else if a = 0x100 then
    (s.cqDb c h.i (if upperOnly then none else some (v % two32)) (decide (v / two32 % 2 = 1))).wakeDb
  else if a = 0x300 then (s.eqDb c (if upperOnly then none else some (v % two32)) (decide (v / two32 % 2 = 1))).wakeDb
  else if a = 0x400 then if s.fld F.CTXW_RCP_ATTR_ENABLE 0 c = 1 then s else gen
  else if a = 0x408 then s.rcpAttr c (merged (s.readReg h.r h.i c) v m)
  else if a = 0x410 then
    if ciOk (s.fld F.CTXW_RCP_IDX_CI 0 c) (s.fld F.CTXW_RCP_IDX_PI 0 c) (v / two32 % two32) then gen else s
  else if a = 0x420 then if (s.ctx? c).any fun x => x.r.retrieval then gen else s
  else if a = 0x50C then execTrigVal f c (BitVec.ofNat 32 v) s
  else gen

/-- EXPERT_UNLOCK_WRITE (R8). -/
def execUnlockWrite (f : Nat) (v : Word32) (s : State) : State :=
  if f ≠ 0 ∨ !s.sec.booted ∨ s.fld F.GLB_EXPERT_UNLOCK_LOCKED_OUT = 1 then s
  else if v.toNat / 65536 = 0xA71E then s.setFld F.GLB_EXPERT_UNLOCK_UNLOCKED v.toNat
  else
    let s := s.setHost fun h => { h with wrongKeys := h.wrongKeys + 1 }
    if 4 ≤ s.host.wrongKeys then s.setFld F.GLB_EXPERT_UNLOCK_LOCKED_OUT 1 else s

/-- A write of PWR registers acts at once on what follows from them. -/
def State.powerWritten (s : State) : State := s.refreshPower

/-- CAP_WRITE: PWR_CAP; the cap loop uses it at its next period. -/
def State.capWrite (s : State) (v : Nat) : State :=
  (s.setFld F.PWR_CAP_CAP_W v).setFld F.PWR_CAP_CAP_MARGIN (v / 65536)

/-- PM_TARGET_WRITE: the whole of GLB_PM_CTL. -/
def State.pmCtl (s : State) (v : Nat) : State :=
  let s := (s.setFld F.GLB_PM_CTL_TARGET v).setFld F.GLB_PM_CTL_AUTO_IDLE (v / 4)
  let s := (s.setFld F.GLB_PM_CTL_WAKE_DB (v / 8)).setFld F.GLB_PM_CTL_WAKE_FABRIC (v / 16)
  (s.setFld F.GLB_PM_CTL_IDLE_US (v / 256)).actTarget (if v % 4 = 3 then 0 else v % 4)

/-- PXI_CASC_CFG: POSITION is fixed while ENABLE is 1; ENABLE 0 releases every line. -/
def State.cascCfg (s : State) (h : RegHit) (v m : Nat) : State :=
  let was := s.fld F.PXI_CASC_CFG_ENABLE
  let pos := s.fld F.PXI_CASC_CFG_POSITION
  let s := s.writeFlds 0 0 v m h.r.flds
  let s := if was = 1 then s.setFld F.PXI_CASC_CFG_POSITION pos else s
  if was = 1 ∧ s.fld F.PXI_CASC_CFG_ENABLE = 0 then
    ((s.cascEnd none true).cascGiveUp s.pxi.lookups).setCasc fun _ => Casc.reset
  else s

/-- SCH_SHARE_DATA: the weight of the selected context, from the next placement round on. -/
def State.shareWrite (s : State) (v : Nat) : State :=
  s.setCtx (s.fld F.SCH_SHARE_SEL_CTX) fun x => { x with r := { x.r with weight := v % 65536 } }

/-- A write of a block register by the PF. -/
def State.writeBlk (s : State) (h : RegHit) (v : Nat) (upperOnly : Bool) : State :=
  let a := h.r.addr
  let m := writeMask upperOnly
  let w := BitVec.ofNat 32 v
  let gen := s.writeFlds h.i 0 v m h.r.flds
  if a = 0x40 then execUnlockWrite 0 w s
  else if a = 0x100 then s.pmCtl v
  else if a = 0x300A00 then
    let op := v / 4096 % 16
    if op = 1 ∨ op = 2 then s.schCmd 0 (v % 4096) op else s
  else if a = 0x380008 then if upperOnly then s else s.shareWrite v
  else if a = 0x501000 then execMapWrite 0 h.i w s
  else if a = 0x500300 then s.cascCfg h v m
  else if a = 0x600100 then gen.burlAll gen.tier.frames
  else if a = 0x780000 then execRetireF 0 w s
  else if a = 0xA00204 then if v % 4 = 1 then execEpStore 0 s else if v % 4 = 2 then execEpFetch 0 s else s
  else if a = 0xA0044C then if v % 4 = 1 then execRegStore 0 s else if v % 4 = 2 then execRegFetch 0 s else s
  else if a = 0xB00104 then if v % 4 = 1 then execSubWrite 0 s else if v % 4 = 2 then execSubLoad 0 s else s
  else if a = 0xB00204 then if v % 4 = 1 then execSvcWrite 0 s else if v % 4 = 2 then execSvcLoad 0 s else s
  else if a = 0xB00300 then execSampleSel 0 w s
  else if a = 0xB40000 then execPortMode 0 h.i w s
  else if a = 0xD00000 then s.capWrite v
  else if a = 0xD00100 then execCalStart 0 w s
  else if a = 0xD80028 then if upperOnly then s else s.coefWrite (v % two32)
  else if a = 0xF01020 then if gen.fld F.TST_TILE_FAIL_COUNT = 0 then gen.setFld F.TST_TILE_FAIL_MODE 0 else gen
  else if a = 0xF02010 then
    if ciOk (s.fld F.TST_TRACE_IDX_CI) (s.fld F.TST_TRACE_IDX_PI) (v / two32 % two32) then gen else s
  else if 0xD00000 ≤ a ∧ a < 0xE00000 then gen.powerWritten
  else gen

/-- A write that takes effect on a register. -/
def State.writeReg (s : State) (f : Nat) (h : RegHit) (v : Nat) (upperOnly : Bool) : State :=
  if h.r.win then s.writeWin f h v upperOnly else s.writeBlk h v upperOnly

/-- A 32-bit write at a mapped offset (R12). -/
def State.write32 (s : State) (f a v : Nat) : State :=
  match s.hitAt a with
  | none => s
  | some h =>
    if h.upper then
      match s.host.held.find? fun l => l.1 == f && l.2.1 == a - 4 with
      | some l =>
        (s.setHost fun x => { x with held := x.held.filter fun l => l.1 != f || l.2.1 != a - 4 }).writeReg f h
          (l.2.2.toNat + v * two32) false
      | none => s.writeReg f h (v * two32) true
    else if h.r.bytes = 8 then
      s.setHost fun x => { x with held := x.held.filter (fun l => l.1 != f || l.2.1 != a) ++ [(f, a, BitVec.ofNat 32 v)] }
    else s.writeReg f h v false

/-- A write of `bytes` (4 or 8) at a mapped offset. -/
def State.writeAt (s : State) (f a bytes v : Nat) : State :=
  if bytes = 4 then s.write32 f a (v % two32)
  else match s.hitAt a with
    | some h => if h.r.bytes = 8 then (s.dropHalves f a).writeReg f h v false
      else (s.write32 f a (v % two32)).write32 f (a + 4) (v / two32)
    | none => s.write32 f (a + 4) (v / two32)

/-- REGISTER_WRITE. -/
def execRegWrite (f off bytes : Nat) (v : Word64) (s : State) : State :=
  if !accessOk off bytes then execBadAccess f off bytes true s
  else match s.mapAddr f off with
    | none => s
    | some a => s.writeAt f a bytes v.toNat

/-! ## Rows that are writes of one register -/

/-- A row of a block register: the PF's, after boot, and for an expert register while unlocked. -/
def State.pfWrite (s : State) (f : Nat) (expert : Bool) (op : State → State) : State :=
  if f = 0 ∧ s.sec.booted ∧ (!expert ∨ s.fld F.GLB_EXPERT_UNLOCK_UNLOCKED = 1) then op s else s

/-- CAP_WRITE. -/
def execCapWrite (f : Nat) (v : Word32) (s : State) : State := s.pfWrite f false fun s => s.capWrite v.toNat
/-- PM_TARGET_WRITE. -/
def execPmTarget (f : Nat) (v : Word32) (s : State) : State := s.pfWrite f false fun s => s.pmCtl v.toNat

end Sys2Proof.Machine
end

