-- ==== Sys2Proof/Machine/Mgmt.lean ====
section
/-! DEFINITION. Requests on the management port (R433, R449 to R453, R520, Table 15.8). -/

namespace Sys2Proof.Machine

/-- Answer a request. -/
def State.reply (s : State) (sess typ req st : Nat) (body : List Nat := []) : State := s.emit (.mgmt sess typ req st body)

/-- A request of TYPE `typ` arrives on a session: its role must reach `role`; in RECOVERY only what `inRec` allows is accepted. -/
def State.request (s : State) (sess req typ role : Nat) (inRec : Bool) (op : State → State) : State :=
  match s.sec.sessions.find? fun x => x.id == sess with
  | none => s
  | some x =>
    let t := s.setSec fun y => { y with sessions := updIf y.sessions (fun z => z.id == sess) fun z => { z with lastAt := s.cycles } }
    let rec_ := s.fld F.SEC_STATUS_RECOVERY == 1
    if x.role < role || (rec_ && !inRec) then t.reply sess typ req St.accessDenied else op t

/-! ## OBSERVE -/

/-- Values of BAR0 offsets as the PF reads them; the PF's latches are neither used nor disturbed. -/
def State.mgmtReads (s : State) : List (Nat × Nat) → State × List Nat
  | [] => (s, [])
  | p :: t =>
    let ok := accessOk p.1 p.2
    let v := if !ok then 0 else match s.mapAddr 0 p.1 with
      | none => 0
      | some a => ((s.setHost fun h => { h with latches := [] }).readAt 0 a p.2).2
    let r := (if ok then s else s.badAccess p.1 p.2).mgmtReads t
    (r.1, v :: r.2)

/-- REG_READ. -/
def execMgmtRead (sess req : Nat) (pairs : List (Nat × Nat)) (s : State) : State :=
  s.request sess req 0x0001 0 true fun s =>
    if 64 < pairs.length then s.reply sess 0x0001 req St.badField
    else let r := s.mgmtReads pairs; r.1.reply sess 0x0001 req St.ok r.2

/-- TELEMETRY. -/
def execTelemetry (sess req : Nat) (s : State) : State :=
  s.request sess req 0x0002 0 false fun s => s.reply sess 0x0002 req St.ok
    [s.readReg R.PWR_STATUS 0 0, s.readReg R.PWR_TEMP 0 0, s.readReg R.PWR_PKG_ENERGY 0 0, s.readReg R.GLB_PM_STAT 0 0,
     s.readReg R.GLB_BOOT_STAT 0 0]

/-- ATTEST: every measurement block, signed with the alias key (shown as its number) over the nonce and the blocks. -/
def execAttest (sess req nonce : Nat) (s : State) : State :=
  s.request sess req 0x0003 0 true fun s => s.reply sess 0x0003 req St.ok (nonce :: s.sec.keyNo :: s.allMeasures)

/-- DEBUG_CHALLENGE. -/
def execChallenge (sess req : Nat) (s : State) : State :=
  s.request sess req 0x0004 0 false fun s => s.reply sess 0x0004 req St.ok [s.sec.challenge]

/-! ## OPERATE -/

/-- SET_CAP (R461). -/
def execSetCap (sess req watts : Nat) (s : State) : State :=
  s.request sess req 0x0010 1 false fun s =>
    if 2048 ≤ watts then s.reply sess 0x0010 req St.badField
    else (s.setFld F.PWR_CAP_CAP_W watts).reply sess 0x0010 req St.ok

/-- RESET: the response, then FUND. -/
def execMgmtReset (sess req : Nat) (s : State) : State :=
  s.request sess req 0x0011 1 false fun s => (s.reply sess 0x0011 req St.ok).doFund F.GLB_RESET_CAUSE_MGMT

/-- Does a write of this kind go to bank B? To the bank that did not boot; with none booted, to bank A. -/
def State.stageToB (s : State) (isCfg : Bool) : Bool :=
  if isCfg then s.sec.cfgOk && s.fld F.SEC_STATUS_CFG_BANK == 0 else s.sec.booted && s.fld F.SEC_STATUS_FW_BANK == 0

def bankSeq (b : Option Bank) : Nat := (b.map (·.seq)).getD 0

/-- SEQ of an update: one above that of the booted bank, with none booted one above both. -/
def State.stageSeq (s : State) (isCfg : Bool) : Nat :=
  let p := if isCfg then s.sec.cfg else s.sec.fw
  let booted := if isCfg then s.sec.cfgOk else s.sec.booted
  if !booted then max (bankSeq p.1) (bankSeq p.2) + 1
  else if s.stageToB isCfg then bankSeq p.1 + 1 else bankSeq p.2 + 1

/-- Change the bank that an update writes. -/
def State.setBank (s : State) (isCfg : Bool) (f : Option Bank → Option Bank) : State :=
  let b := s.stageToB isCfg
  let upd := fun (p : Option Bank × Option Bank) => if b then (p.1, f p.2) else (f p.1, p.2)
  s.setSec fun x => if isCfg then { x with cfg := upd x.cfg } else { x with fw := upd x.fw }

/-- One piece of an update: the bank's trailer no longer matches until the final piece has been written (R433). -/
def State.stagePiece (s : State) (isCfg : Bool) (off len : Nat) (final : Option BankImage) : State :=
  let seq := s.stageSeq isCfg
  match final with
  | some g =>
    (s.setBank isCfg fun _ => some (newBank g seq)).setSec fun x => { x with staging := none }
  | none =>
    let w := match s.sec.staging with
      | some t => if t.isCfg = isCfg then t.written else 0
      | none => 0
    (s.setBank isCfg fun o => o.map tornBank).setSec fun x =>
      { x with staging := some ⟨isCfg, max w (off + len)⟩ }

/-- STAGE: a piece must lie within its bank (Table 15.7). -/
def execStage (sess req : Nat) (isCfg : Bool) (off len : Nat) (final : Option BankImage) (s : State) : State :=
  let rec_ := s.fld F.SEC_STATUS_RECOVERY == 1
  s.request sess req 0x0012 (if rec_ then 2 else 1) (!isCfg) fun s =>
    if (if isCfg then 67108864 else 33554432) < off + len then s.reply sess 0x0012 req St.badField
    else (s.stagePiece isCfg off len final).reply sess 0x0012 req St.ok

/-- MOUNT: as a BLANK_MOUNT with SPACE 2; it is answered when the mount completes. -/
def execMgmtMount (sess req mode pmask : Nat) (s : State) : State :=
  if s.mountWaits (decide (mode = 0)) pmask then s
  else s.request sess req 0x0013 1 false fun s =>
    let fails := fun (s : State) (st : Nat) => (s.mountResult st).reply sess 0x0013 req st
    let full := decide (mode = 0)
    if 1 < mode ∨ full ≠ s.blank.isNone then fails s St.badField
    else match s.cfgImg?.bind (·.blank) with
      | none => fails s St.badField
      | some b => match s.mountChecks b full pmask none with
        | (s, some st) => fails s st
        | (s, none) =>
          if !full ∧ pmask = 0 then s.reply sess 0x0013 req St.okEmpty
          else s.beginMount none (some (sess, req)) b full pmask

/-! ## OWNER -/

/-- COMMIT_SVN: FW_MIN_SVN takes the SVN of the running firmware; it only rises. -/
def execCommitSvn (sess req : Nat) (s : State) : State :=
  s.request sess req 0x0020 2 false fun s =>
    (s.setFld F.SEC_FW_FW_MIN_SVN (max (s.fld F.SEC_FW_FW_MIN_SVN) (s.fld F.SEC_FW_FW_SVN))).reply sess 0x0020 req St.ok

/-- DEBUG_TOKEN. -/
def execToken (sess req challenge deviceId sig : Nat) (s : State) : State :=
  s.request sess req 0x0021 2 false fun s => let r := s.tryToken challenge deviceId sig; r.1.reply sess 0x0021 req r.2

/-- Advance STORAGE_EPOCH, or burn UDS when no step is left (R450). -/
def State.spendEpoch (s : State) : State :=
  let n := s.fld F.SEC_STATUS_EPOCH_LEFT
  if n = 0 then s.setSec fun x => { x with fuses := { x.fuses with uds := udsBurned } }
  else (s.setFld F.SEC_STATUS_EPOCH_LEFT (n - 1)).setSec fun x => { x with fuses := { x.fuses with epoch := x.fuses.epoch + 1 } }

/-- DECOMMISSION (Table 12.12): configuration banks and journal root banks are erased; what unsealed partitions stored cannot be
decrypted any more. -/
def execDecommission (sess req : Nat) (s : State) : State :=
  s.request sess req 0x0022 2 false fun s =>
    let s := s.spendEpoch.setSec fun x => { x with cfg := (none, none), cfgOk := false }
    let s := { s with jrnl := { s.jrnl with roots := [], busy := none } }
    let plain := (s.seq.parts.filter fun p => p.r.sealSet.isNone).map (·.r.part)
    (s.keysChanged plain.contains).reply sess 0x0022 req St.ok

/-- RETURN: LIFECYCLE becomes RETURNED and UDS is burned. -/
def execReturn (sess req : Nat) (s : State) : State :=
  s.request sess req 0x0023 2 false fun s =>
    ((s.setFld F.SEC_STATUS_LIFECYCLE 2).setSec fun x => { x with fuses := { x.fuses with uds := udsBurned } }).reply sess 0x0023 req St.ok

end Sys2Proof.Machine
end

