-- ==== Sys2Proof/Machine/Trace.lean ====
section
/-! DEFINITION. The frame records the trace facility copies (R257, R538), and what a service message or an arriving frame
meets in the low-power states and after a device-level error (R497, R498, R535). -/

namespace Sys2Proof.Machine

/-- Is the facility tracing frame records at all? -/
def State.tracesFrames (s : State) : Bool :=
  s.fld F.SEC_STATUS_DEBUG == 1 && s.fld F.TST_TRACE_CTL_ENABLE == 1 && s.fld F.TST_TRACE_CTL_KIND == 1

/-- Copy the records of the frames that differ from what they were. -/
def State.traceChanged (s : State) (old : List Frame) : List Frame → State
  | [] => s
  | f :: t =>
    (if old.contains f then s else s.traceRec 1 f.writer.1 (frameRecord f)).traceChanged old t

/-- A step from `s` has led to `t`: the frame records it changed are traced. -/
def State.traced (s t : State) : State := if t.tracesFrames then t.traceChanged s.tier.frames t.tier.frames else t

/-- IDLE ends at any fabric arrival (R498). -/
def State.idleWake (s : State) : State := if s.fld F.GLB_PM_STAT_STATE = 1 then s.wakeUp 1 else s

/-- A SERVICE message of types 0x01 to 0x08: answered in every low-power state, and not after a device-level error. -/
def State.memberMsg (s : State) (op : State → State) : State := if s.dead then s else op s.idleWake

/-- A SERVICE message of another type: refused in HOLD and PARK, where it is a wake event; not heard after a device-level
error, for MACsec has stopped. -/
def State.peerMsg (s : State) (op : State → State) : State :=
  if s.dead then s else if s.asleep then s.wakeFab else op s.idleWake

/-- A packet that reaches an interface. -/
def State.arrival (s : State) (op : State → State) : State := if s.dead then s else op s.idleWake

/-- A happening of the domain's own clocks: it sends messages, and none leaves after a device-level error (R535). -/
def State.domClock (s : State) (op : State → State) : State := if s.dead then s else op s

end Sys2Proof.Machine
end

