-- ==== Sys2Proof/Machine/RowsAccess.lean ====
section
/-! DEFINITION. The meanings of the commands: accesses to registers, queue windows and doorbells. Each is one definition over the operations of its
family; `traced` adds the frame records a step changes (R538). -/

namespace Sys2Proof.Machine

/-- EXPERT_UNLOCK_WRITE (R8). -/
def rowExpertUnlockWrite (f : Nat) (v : Word32) (s : State) : Host.Outcome State Fault Refusal :=
  .next (execUnlockWrite f v s)

/-- REGISTER_WRITE (R10). -/
def rowRegisterWrite (f off bytes : Nat) (v : Word64) (s : State) : Host.Outcome State Fault Refusal :=
  .next (s.traced (execRegWrite f off bytes v s))

/-- LOWER_HALF_READ (R12). -/
def rowLowerHalfRead (f : Nat) (off : BarAddr) (bytes : Nat) (s : State) : Host.Outcome State Fault Refusal :=
  .next (match off with
    | .bar0 o => execRegRead f o bytes false s
    | .bar2 o => execRegRead f o bytes true s)

/-- BAD_REGISTER_ACCESS (R13). -/
def rowBadRegisterAccess (f off bytes : Nat) (isWrite : Bool) (s : State) : Host.Outcome State Fault Refusal :=
  .next (execBadAccess f off bytes isWrite s)

/-- DOORBELL_WRITE (R82). -/
def rowDoorbellWrite (f off bytes : Nat) (v : Word64) (s : State) : Host.Outcome State Fault Refusal :=
  .next (execDoorbell f off bytes v s)

/-- CREATE (R86). -/
def rowCreate (f ctx : Nat) (s : State) : Host.Outcome State Fault Refusal := .next (execCreateF f ctx s)

/-- DESTROY (R87). -/
def rowDestroy (f ctx : Nat) (s : State) : Host.Outcome State Fault Refusal := .next (execDestroyF f ctx s)

/-- STOP (R85). -/
def rowStop (f ctx : Nat) (s : State) : Host.Outcome State Fault Refusal := .next (execStopF f ctx s)

/-- RESUME (R85). -/
def rowResume (f ctx : Nat) (s : State) : Host.Outcome State Fault Refusal := .next (execResumeF f ctx s)

/-- QUERY (R550). -/
def rowQuery (f ctx : Nat) (s : State) : Host.Outcome State Fault Refusal := .next (execQueryF f ctx s)

/-- QUEUE_DRAINED (R90). -/
def rowQueueDrained (q : Nat) (s : State) : Host.Outcome State Fault Refusal := .next (execDrained q s)

/-- CQ_DOORBELL_WRITE (R96). -/
def rowCqDoorbellWrite (f ctx n : Nat) (v : Word64) (s : State) : Host.Outcome State Fault Refusal :=
  .next (execCqDb f ctx n v s)

/-- EQ_DOORBELL_WRITE (R98). -/
def rowEqDoorbellWrite (f ctx : Nat) (v : Word64) (s : State) : Host.Outcome State Fault Refusal :=
  .next (execEqDb f ctx v s)

/-- MSIX_HOLD_EXPIRE (R98). -/
def rowMsixHoldExpire (ctx : Nat) (isEq : Bool) (n : Nat) (s : State) : Host.Outcome State Fault Refusal :=
  .next (execHold ctx isEq n s)

/-- RCP_ATTR_WRITE (R199). -/
def rowRcpAttrWrite (f ctx : Nat) (v : Word64) (s : State) : Host.Outcome State Fault Refusal :=
  .next (execRcpAttr f ctx v s)

/-- TRIG_VAL_WRITE (R360). -/
def rowTrigValWrite (f ctx : Nat) (v : Word32) (s : State) : Host.Outcome State Fault Refusal :=
  .next (execTrigVal f ctx v s)

/-- TEARDOWN (R401). -/
def rowTeardown (f ctx : Nat) (s : State) : Host.Outcome State Fault Refusal :=
  .next (s.traced (s.pfWrite f false (execTeardownF f ctx)))

/-- BRINGUP (R401). -/
def rowBringup (f ctx : Nat) (s : State) : Host.Outcome State Fault Refusal :=
  .next (s.pfWrite f false (execBringupF f ctx))

/-- EP_WRITE (R335). -/
def rowEpWrite (f : Nat) (s : State) : Host.Outcome State Fault Refusal := .next (s.pfWrite f false (execEpStore f))

/-- EP_LOAD (R335). -/
def rowEpLoad (f : Nat) (s : State) : Host.Outcome State Fault Refusal := .next (s.pfWrite f false (execEpFetch f))

/-- DOM_REG_WRITE (R379). -/
def rowDomRegWrite (f : Nat) (s : State) : Host.Outcome State Fault Refusal :=
  .next (s.pfWrite f false (execRegStore f))

/-- DOM_REG_LOAD (R379). -/
def rowDomRegLoad (f : Nat) (s : State) : Host.Outcome State Fault Refusal := .next (s.pfWrite f false (execRegFetch f))

/-- EGS_SUB_WRITE (R422). -/
def rowEgsSubWrite (f : Nat) (s : State) : Host.Outcome State Fault Refusal :=
  .next (s.pfWrite f false (execSubWrite f))

/-- EGS_SUB_LOAD (R427). -/
def rowEgsSubLoad (f : Nat) (s : State) : Host.Outcome State Fault Refusal := .next (s.pfWrite f false (execSubLoad f))

/-- EGS_SVC_WRITE (R422). -/
def rowEgsSvcWrite (f : Nat) (s : State) : Host.Outcome State Fault Refusal :=
  .next (s.pfWrite f false (execSvcWrite f))

/-- EGS_SVC_LOAD (R427). -/
def rowEgsSvcLoad (f : Nat) (s : State) : Host.Outcome State Fault Refusal := .next (s.pfWrite f false (execSvcLoad f))

/-- EGS_SAMPLE_SELECT (R427). -/
def rowEgsSampleSelect (f : Nat) (v : Word32) (s : State) : Host.Outcome State Fault Refusal :=
  .next (s.pfWrite f false (execSampleSel f v))

/-- CAL_START (R478). -/
def rowCalStart (f : Nat) (v : Word32) (s : State) : Host.Outcome State Fault Refusal :=
  .next (s.pfWrite f false (execCalStart f v))

/-- CAP_WRITE (R461). -/
def rowCapWrite (f : Nat) (v : Word32) (s : State) : Host.Outcome State Fault Refusal := .next (execCapWrite f v s)

/-- HBM_RETIRE_CMD (R282). -/
def rowHbmRetireCmd (f : Nat) (v : Word32) (s : State) : Host.Outcome State Fault Refusal :=
  .next (s.traced (s.pfWrite f true (execRetireF f v)))

/-- PM_TARGET_WRITE (R496). -/
def rowPmTargetWrite (f : Nat) (v : Word32) (s : State) : Host.Outcome State Fault Refusal :=
  .next (s.traced (execPmTarget f v s))

/-- SHARD_MAP_WRITE (R379). -/
def rowShardMapWrite (f n : Nat) (v : Word32) (s : State) : Host.Outcome State Fault Refusal :=
  .next (s.pfWrite f false (execMapWrite f n v))

/-- PORT_MODE_WRITE (R328). -/
def rowPortModeWrite (f port : Nat) (v : Word32) (s : State) : Host.Outcome State Fault Refusal :=
  .next (s.pfWrite f false (execPortMode f port v))

end Sys2Proof.Machine
end

