-- ==== Sys2Proof/Machine/RowsCmd.lean ====
section
/-! DEFINITION. The meanings of the commands: fetching, and the commands of work queues. Each is one definition over the operations of its
family; `traced` adds the frame records a step changes (R538). -/

namespace Sys2Proof.Machine

/-- DESCRIPTOR_FETCH (R111). -/
def rowDescriptorFetch (s : State) : Host.Outcome State Fault Refusal := .next (execFetch s)

/-- RING_READ_COMPLETE (R90). -/
def rowRingReadComplete (c : CmdId) (r : HostRead) (s : State) : Host.Outcome State Fault Refusal :=
  .next (execRing c r s)

/-- RING_READ_TIMEOUT (R90). -/
def rowRingReadTimeout (c : CmdId) (s : State) : Host.Outcome State Fault Refusal := .next (execRingLate c s)

/-- HOST_ACCESS_TIMEOUT (R104). -/
def rowHostAccessTimeout (c : CmdId) (s : State) : Host.Outcome State Fault Refusal :=
  .next (s.traced (execHostLate c s))

/-- SEQ_OPEN (R68). -/
def rowSeqOpen (c : CmdId) (s : State) : Host.Outcome State Fault Refusal := .next (execOpen c s)

/-- SEQ_FORK (R69). -/
def rowSeqFork (c : CmdId) (s : State) : Host.Outcome State Fault Refusal := .next (s.traced (execFork c s))

/-- SEQ_CLOSE (R70). -/
def rowSeqClose (c : CmdId) (s : State) : Host.Outcome State Fault Refusal := .next (s.traced (execClose c s))

/-- SEQ_REFERENCES_REMOVED (R70). -/
def rowSeqReferencesRemoved (seq : Nat) (s : State) : Host.Outcome State Fault Refusal :=
  .next (s.traced (execRefsRemoved seq s))

/-- SPILLED_RECORD_RESTORE (R38). -/
def rowSpilledRecordRestore (seq : Nat) (s : State) : Host.Outcome State Fault Refusal := .next (execRestore seq s)

/-- KV_APPEND (R71). -/
def rowKvAppend (c : CmdId) (s : State) : Host.Outcome State Fault Refusal := .next (s.traced (execAppend c s))

/-- KV_APPEND_REFILL (R196). -/
def rowKvAppendRefill (c : CmdId) (s : State) : Host.Outcome State Fault Refusal := .next (s.traced (execRefill c s))

/-- FENCE (R108). -/
def rowFence (c : CmdId) (s : State) : Host.Outcome State Fault Refusal := .next (execFenceF c s)

/-- HINT_COLD (R296). -/
def rowHintCold (c : CmdId) (s : State) : Host.Outcome State Fault Refusal := .next (s.traced (execHintC c s))

/-- HINT_WARM (R296). -/
def rowHintWarm (c : CmdId) (s : State) : Host.Outcome State Fault Refusal := .next (s.traced (execHintW c s))

/-- HINT_HEAVY (R472). -/
def rowHintHeavy (c : CmdId) (s : State) : Host.Outcome State Fault Refusal := .next (execHintH c s)

/-- HEAVY_WINDOW_END (R472). -/
def rowHeavyWindowEnd (ctx : Nat) (s : State) : Host.Outcome State Fault Refusal := .next (execHeavyEnd ctx s)

/-- STATS_READ (R416). -/
def rowStatsRead (c : CmdId) (s : State) : Host.Outcome State Fault Refusal := .next (execStats c s)

/-- STEP_PLAN (R159). -/
def rowStepPlan (c : CmdId) (s : State) : Host.Outcome State Fault Refusal := .next (s.traced (execPlan c s))

/-- PLAN_PIN_EXPIRE (R164). -/
def rowPlanPinExpire (c : CmdId) (s : State) : Host.Outcome State Fault Refusal := .next (s.traced (execPinExpire c s))

/-- ATTEND (R148). -/
def rowAttend (c : CmdId) (s : State) : Host.Outcome State Fault Refusal := .next (s.traced (execAttendF c s))

/-- PROFILE_LOAD_DONE (R61). -/
def rowProfileLoadDone (mprof : Nat) (s : State) : Host.Outcome State Fault Refusal :=
  .next (s.traced (execProfLoad mprof s))

/-- PIN_WAIT_RESUME (R259). -/
def rowPinWaitResume (pfh : Nat) (s : State) : Host.Outcome State Fault Refusal :=
  .next (s.traced (execPinResume pfh s))

/-- CHUNK_PLACEMENT_ROUND (R404). -/
def rowChunkPlacementRound (set : Nat) (s : State) : Host.Outcome State Fault Refusal :=
  .next (s.traced (execRoundF set s))

/-- CHUNK_COMPLETE (R146). -/
def rowChunkComplete (ae cycles : Nat) (fails : List PageFail) (s : State) : Host.Outcome State Fault Refusal :=
  .next (s.traced (execChunkEnd ae cycles fails s))

/-- LEASE_EXPIRE (R194). -/
def rowLeaseExpire (slot : Nat) (s : State) : Host.Outcome State Fault Refusal := .next (s.traced (execLeaseEnd slot s))

/-- PAGES_DELIVER (R294). -/
def rowPagesDeliver (c : CmdId) (s : State) : Host.Outcome State Fault Refusal := .next (s.traced (execDeliver c s))

/-- PAGES_PLACE (R291). -/
def rowPagesPlace (c : CmdId) (s : State) : Host.Outcome State Fault Refusal := .next (s.traced (execPlace c s))

/-- PAGES_DROP (R292). -/
def rowPagesDrop (c : CmdId) (s : State) : Host.Outcome State Fault Refusal := .next (s.traced (execDrop c s))

/-- PREFIX_LOOKUP (R224). -/
def rowPrefixLookup (c : CmdId) (s : State) : Host.Outcome State Fault Refusal := .next (s.traced (execLookupF c s))

/-- PXI_NEXT (R231). -/
def rowPxiNext (c : CmdId) (s : State) : Host.Outcome State Fault Refusal := .next (s.traced (execNext c s))

/-- PREFIX_PUBLISH (R234). -/
def rowPrefixPublish (c : CmdId) (s : State) : Host.Outcome State Fault Refusal := .next (s.traced (execPublish c s))

/-- PREFIX_RETIRE (R238). -/
def rowPrefixRetire (c : CmdId) (s : State) : Host.Outcome State Fault Refusal := .next (s.traced (execRetireCmd c s))

/-- CURSOR_EXPIRE (R226). -/
def rowCursorExpire (slot : Nat) (s : State) : Host.Outcome State Fault Refusal :=
  .next (s.traced (execCursorEnd slot s))

/-- TABLE_LOAD (R313). -/
def rowTableLoad (c : CmdId) (bad : List (Nat × Bool)) (s : State) : Host.Outcome State Fault Refusal :=
  .next (execTableF c bad s)

/-- REGION_REGISTER (R355). -/
def rowRegionRegister (c : CmdId) (s : State) : Host.Outcome State Fault Refusal := .next (execRegister c s)

/-- REGION_REVOKE (R353). -/
def rowRegionRevoke (c : CmdId) (s : State) : Host.Outcome State Fault Refusal := .next (execRevoke c s)

/-- REVOKE_DRAIN_COMPLETE (R353). -/
def rowRevokeDrainComplete (index : Nat) (s : State) : Host.Outcome State Fault Refusal := .next (execDrain index s)

/-- RMA_WRITE (R357). -/
def rowRmaWrite (c : CmdId) (s : State) : Host.Outcome State Fault Refusal := .next (execRmaW c s)

/-- RMA_WRITE_IMM (R340). -/
def rowRmaWriteImm (c : CmdId) (s : State) : Host.Outcome State Fault Refusal := .next (execRmaI c s)

/-- RMA_READ (R357). -/
def rowRmaRead (c : CmdId) (s : State) : Host.Outcome State Fault Refusal := .next (execRmaR c s)

/-- RMA_FLUSH (R359). -/
def rowRmaFlush (c : CmdId) (s : State) : Host.Outcome State Fault Refusal := .next (execRmaF c s)

/-- WR_ARM (R361). -/
def rowWrArm (c : CmdId) (s : State) : Host.Outcome State Fault Refusal := .next (execArm c s)

/-- TRIGGER_FIRE (R361). -/
def rowTriggerFire (c : CmdId) (s : State) : Host.Outcome State Fault Refusal := .next (execFire c s)

/-- WR_ARM_TIMEOUT (R361). -/
def rowWrArmTimeout (c : CmdId) (s : State) : Host.Outcome State Fault Refusal := .next (execArmEnd c s)

/-- BLANK_MOUNT (R488). -/
def rowBlankMount (c : CmdId) (img : Blank) (s : State) : Host.Outcome State Fault Refusal :=
  .next (s.traced (execMountF c img s))

/-- MOUNT_STEP_COMPLETE (R488). -/
def rowMountStepComplete (s : State) : Host.Outcome State Fault Refusal := .next (s.traced (execMountStep s))

/-- HOST_READ_COMPLETE (R104). -/
def rowHostReadComplete (c : CmdId) (r : HostRead) (s : State) : Host.Outcome State Fault Refusal :=
  .next (s.traced (execHostRead c r s))

end Sys2Proof.Machine
end

