-- ==== Sys2Proof/Machine/RowsDom.lean ====
section
/-! DEFINITION. The meanings of the commands: the domain and the cascade. Each is one definition over the operations of its
family; `traced` adds the frame records a step changes (R538). -/

namespace Sys2Proof.Machine

/-- LEASE_REQ (R374). -/
def rowLeaseReq (src epoch rank : Nat) (s : State) : Host.Outcome State Fault Refusal :=
  .next (s.memberMsg (execLeaseReq src epoch rank))

/-- LEASE_GRANT (R374). -/
def rowLeaseGrant (src epoch highest : Nat) (s : State) : Host.Outcome State Fault Refusal :=
  .next (s.memberMsg (execLeaseGrant src epoch highest))

/-- ELECTION_START (R374). -/
def rowElectionStart (s : State) : Host.Outcome State Fault Refusal := .next (s.domClock execElect)

/-- ELECTION_RETRY (R374). -/
def rowElectionRetry (s : State) : Host.Outcome State Fault Refusal := .next (s.domClock execElectAgain)

/-- VOTER_PROMISE_LAPSE (R374). -/
def rowVoterPromiseLapse (s : State) : Host.Outcome State Fault Refusal := .next (s.domClock execPromiseLapse)

/-- VOTER_HOLD_END (R375). -/
def rowVoterHoldEnd (s : State) : Host.Outcome State Fault Refusal := .next (s.domClock execHoldEnd)

/-- HEARTBEAT_TIMER (R373). -/
def rowHeartbeatTimer (s : State) : Host.Outcome State Fault Refusal := .next (s.domClock execBeat)

/-- HEARTBEAT (R373). -/
def rowHeartbeat (src epoch rUs mapVer : Nat) (members : List Nat) (s : State) : Host.Outcome State Fault Refusal :=
  .next (s.traced (s.memberMsg (execHeartbeat src epoch rUs mapVer members)))

/-- HB_ACK (R373). -/
def rowHbAck (src epoch : Nat) (s : State) : Host.Outcome State Fault Refusal :=
  .next (s.memberMsg (execHbAck src epoch))

/-- MANAGER_LEASE_END (R370). -/
def rowManagerLeaseEnd (s : State) : Host.Outcome State Fault Refusal := .next (s.traced (execLeaseOver s))

/-- ATTACHMENT_EXPIRE (R373). -/
def rowAttachmentExpire (s : State) : Host.Outcome State Fault Refusal := .next (s.traced (execAttachEnd s))

/-- MEMBER_LOST (R377). -/
def rowMemberLost (part : Nat) (s : State) : Host.Outcome State Fault Refusal :=
  .next (s.traced (s.domClock (execMemberLost part)))

/-- JOIN (R378). -/
def rowJoin (src lastEpoch highest : Nat) (s : State) : Host.Outcome State Fault Refusal :=
  .next (s.memberMsg (execJoin src lastEpoch highest))

/-- ADMIT (R376). -/
def rowAdmit (src epoch : Nat) (_members : List Nat) (s : State) : Host.Outcome State Fault Refusal :=
  .next (s.memberMsg (execAdmit src epoch))

/-- ADMIT_WINDOW_END (R376). -/
def rowAdmitWindowEnd (s : State) : Host.Outcome State Fault Refusal := .next (s.traced (s.domClock execRoundEnd))

/-- MAP_UPDATE (R379). -/
def rowMapUpdate (src ver : Nat) (map : List Nat) (s : State) : Host.Outcome State Fault Refusal :=
  .next (s.memberMsg (execMapUpdate src ver map))

/-- REG_UPDATE (R379). -/
def rowRegUpdate (src : Nat) (eps : List (Nat × Word512)) (regs : List (Nat × Word128)) (s : State) : Host.Outcome
    State Fault Refusal :=
  .next (s.memberMsg (execRegUpdate src eps regs))

/-- LOOKUP_REQ (R381). -/
def rowLookupReq (src req sdom mprof : Nat) (camOnly : Bool) (items : List (Nat × Nat)) (s : State) : Host.Outcome
    State Fault Refusal :=
  .next (s.peerMsg (execLookupReq src req sdom mprof camOnly items))

/-- LOOKUP_RESP (R381). -/
def rowLookupResp (_src req : Nat) (l : LookupHits) (s : State) : Host.Outcome State Fault Refusal :=
  .next (s.traced (s.peerMsg (execLookupResp req l.cam l.hits)))

/-- REMOTE_LOOKUP_TIMEOUT (R381). -/
def rowRemoteLookupTimeout (c : CmdId) (s : State) : Host.Outcome State Fault Refusal :=
  .next (s.traced (execRemoteTimeout c s))

/-- INSERT (R380). -/
def rowInsert (src req : Nat) (b : InsertBatch) (s : State) : Host.Outcome State Fault Refusal :=
  .next (s.peerMsg (execInsert src req b.fill b.items))

/-- RETIRE (R380). -/
def rowRetire (src req : Nat) (key : RetireKey) (s : State) : Host.Outcome State Fault Refusal :=
  .next (s.traced (s.peerMsg (execRetire src req key)))

/-- TRIM (R385). -/
def rowTrim (src : Nat) (items : List (Nat × Nat)) (s : State) : Host.Outcome State Fault Refusal :=
  .next (s.peerMsg (execTrim src items))

/-- REFILL (R386). -/
def rowRefill (src part : Nat) (s : State) : Host.Outcome State Fault Refusal :=
  .next (s.peerMsg (execRefillReq src part))

/-- HOME_REFILL_DONE (R386). -/
def rowHomeRefillDone (s : State) : Host.Outcome State Fault Refusal := .next (execRefillDone s)

/-- ROWS_REQ (R388). -/
def rowRowsReq (src req : Nat) (ref : Word64) (forkLen : Nat) (s : State) : Host.Outcome State Fault Refusal :=
  .next (s.traced (s.peerMsg (execRowsReq src req ref forkLen)))

/-- ROWS_RESP (R388). -/
def rowRowsResp (src req status mprof sdom : Nat) (b : RowsBody) (s : State) : Host.Outcome State Fault Refusal :=
  .next (s.traced (s.peerMsg (execRowsResp src req status mprof sdom b.rows b.digests)))

/-- ROWS_DONE (R388). -/
def rowRowsDone (src req : Nat) (_anchor : Nat) (frames : List Nat) (s : State) : Host.Outcome State Fault Refusal :=
  .next (s.traced (s.peerMsg (execRowsDone src req frames)))

/-- PAGE_REQ (R389). -/
def rowPageReq (src pfh version : Nat) (s : State) : Host.Outcome State Fault Refusal :=
  .next (s.traced (s.peerMsg (execPageReq src pfh version)))

/-- PAGE_DATA (R389). -/
def rowPageData (src : Nat) (body : PageBody) (s : State) : Host.Outcome State Fault Refusal :=
  .next (s.traced (s.peerMsg (execPageData src body)))

/-- PAGE_ACK (R391). -/
def rowPageAck (src spfh newPfh status : Nat) (s : State) : Host.Outcome State Fault Refusal :=
  .next (s.traced (s.peerMsg (execPageAck src spfh newPfh status)))

/-- REF_RELEASE (R393). -/
def rowRefRelease (src : Nat) (frames : List Nat) (s : State) : Host.Outcome State Fault Refusal :=
  .next (s.traced (s.peerMsg (execRefRelease src frames)))

/-- REF_RELEASE_RETRY (R393). -/
def rowRefReleaseRetry (peer : Nat) (s : State) : Host.Outcome State Fault Refusal :=
  .next (s.domClock (execReleaseAgain peer))

/-- CASC_CLAIM (R244). -/
def rowCascClaim (c : CascTry) (s : State) : Host.Outcome State Fault Refusal := .next (execClaim c.cmd c.rivals s)

/-- CASC_QUERY (R244). -/
def rowCascQuery (src : PeerReq) (sdom mprof limit : Nat) (camOnly : Bool) (items : List (Nat × Nat)) (s : State) : Host.Outcome
    State Fault Refusal :=
  .next (execCascQ src.part src.req sdom mprof limit camOnly items s)

/-- CASC_MEMBER_SEARCH_DONE (R244). -/
def rowCascMemberSearchDone (s : State) : Host.Outcome State Fault Refusal := .next (execSearchDone s)

/-- CASC_ARBITRATION (R244). -/
def rowCascArbitration (others : List (Nat × Nat)) (s : State) : Host.Outcome State Fault Refusal :=
  .next (execArb others s)

/-- CASC_RESULT (R244). -/
def rowCascResult (_src : Nat) (ref : Word64) (s : State) : Host.Outcome State Fault Refusal :=
  .next (s.peerMsg (execCascR ref))

/-- CASC_STROBE_TIMEOUT (R246). -/
def rowCascStrobeTimeout (s : State) : Host.Outcome State Fault Refusal := .next (execStrobe s)

/-- CASC_RDY_TIMEOUT (R246). -/
def rowCascRdyTimeout (s : State) : Host.Outcome State Fault Refusal := .next (execRdyOut s)

/-- CASC_STUCK_CLAIM (R246). -/
def rowCascStuckClaim (s : State) : Host.Outcome State Fault Refusal := .next (execStuck s)

/-- CASC_CLAIM_OBSERVED (R244). -/
def rowCascClaimObserved (x : CascSeen) (s : State) : Host.Outcome State Fault Refusal :=
  .next (execObserved x.position x.query s)

/-- CASC_CLAIM_RELEASED (R246). -/
def rowCascClaimReleased (s : State) : Host.Outcome State Fault Refusal := .next (execReleased s)

/-- INSERT_REPLY (R382). -/
def rowInsertReply (_src : Nat) (req : Nat) (statuses : List Nat) (refs : List Word64) (s : State) : Host.Outcome
    State Fault Refusal :=
  .next (s.traced (s.peerMsg (execInsertReply req statuses refs)))

/-- RETIRE_REPLY (R383). -/
def rowRetireReply (_src : Nat) (req status count : Nat) (s : State) : Host.Outcome State Fault Refusal :=
  .next (s.traced (s.peerMsg (execRetireReply req status count)))

/-- ADMIT_REPLY (R376). -/
def rowAdmitReply (src epoch : Nat) (s : State) : Host.Outcome State Fault Refusal :=
  .next (s.memberMsg (execAdmitReply src epoch))

end Sys2Proof.Machine
end

