-- ==== Sys2Proof/Machine/RowsFab.lean ====
section
/-! DEFINITION. The meanings of the commands: the Lathe transport and the interfaces. Each is one definition over the operations of its
family; `traced` adds the frame records a step changes (R538). -/

namespace Sys2Proof.Machine

/-- MESSAGE_SEND (R337). -/
def rowMessageSend (dst msgid : Nat) (s : State) : Host.Outcome State Fault Refusal := .next (execMsgSend dst msgid s)

/-- DEST_CACHE_LOAD (R339). -/
def rowDestCacheLoad (node : Nat) (s : State) : Host.Outcome State Fault Refusal := .next (execDestLoad node s)

/-- EGS_PACKET_SELECT (R421). -/
def rowEgsPacketSelect (iface : Nat) (s : State) : Host.Outcome State Fault Refusal :=
  .next (s.domClock (execSelect iface))

/-- PACKET_RX (R343). -/
def rowPacketRx (x : RxFrame) (s : State) : Host.Outcome State Fault Refusal := .next (s.arrival (execRx x))

/-- READ_REQ (R349). -/
def rowReadReq (x : RxFrame) (s : State) : Host.Outcome State Fault Refusal := .next (s.arrival (execRxRead x))

/-- READ_RESP (R349). -/
def rowReadResp (x : RxFrame) (s : State) : Host.Outcome State Fault Refusal := .next (s.arrival (execRxResp x))

/-- ACK (R341). -/
def rowAck (x : RxFrame) (s : State) : Host.Outcome State Fault Refusal := .next (s.traced (s.arrival (execRxAck x)))

/-- NAK (R341). -/
def rowNak (x : RxFrame) (s : State) : Host.Outcome State Fault Refusal := .next (s.traced (s.arrival (execRxNak x)))

/-- RETX_TIMEOUT (R341). -/
def rowRetxTimeout (dst msgid : Nat) (s : State) : Host.Outcome State Fault Refusal :=
  .next (s.traced (execRetx dst msgid s))

/-- BUSY_RESEND (R341). -/
def rowBusyResend (dst msgid : Nat) (s : State) : Host.Outcome State Fault Refusal := .next (execBusyAgain dst msgid s)

/-- BUSY_TIME_EXPIRE (R341). -/
def rowBusyTimeExpire (dst msgid : Nat) (s : State) : Host.Outcome State Fault Refusal :=
  .next (s.traced (execBusyEnd dst msgid s))

/-- READ_RETRY (R349). -/
def rowReadRetry (dst msgid : Nat) (s : State) : Host.Outcome State Fault Refusal := .next (execReadAgain dst msgid s)

/-- REASM_TIMEOUT (R346). -/
def rowReasmTimeout (src msgid : Nat) (s : State) : Host.Outcome State Fault Refusal := .next (execReasmEnd src msgid s)

/-- CC_RATE_INCREASE (R362). -/
def rowCcRateIncrease (node : Nat) (s : State) : Host.Outcome State Fault Refusal := .next (execRateUp node s)

/-- MKA_REKEY (R440). -/
def rowMkaRekey (iface : Nat) (s : State) : Host.Outcome State Fault Refusal := .next (execRekey iface s)

/-- EGS_SAMPLE (R424). -/
def rowEgsSample (s : State) : Host.Outcome State Fault Refusal := .next (execEgsTick s)

/-- PACE_NOTICE_SEND (R394). -/
def rowPaceNoticeSend (plan : CmdId) (s : State) : Host.Outcome State Fault Refusal := .next (execPace plan s)

/-- ETH_LINK_LOSS (R366). -/
def rowEthLinkLoss (iface : Nat) (s : State) : Host.Outcome State Fault Refusal := .next (execLinkLoss iface s)

/-- ETH_LINK_UP (R329). -/
def rowEthLinkUp (iface : Nat) (s : State) : Host.Outcome State Fault Refusal := .next (execLinkUp iface s)

/-- MKA_FRAME (R440). -/
def rowMkaFrame (iface : Nat) (live : Option Nat) (s : State) : Host.Outcome State Fault Refusal :=
  .next (s.arrival (execMka iface live))

/-- PFC_FRAME (R329). -/
def rowPfcFrame (iface : Nat) (pause : List (Nat × Bool)) (s : State) : Host.Outcome State Fault Refusal :=
  .next (s.arrival (execPfc iface pause))

end Sys2Proof.Machine
end

