-- ==== Sys2Proof/Machine/RowsPower.lean ====
section
/-! DEFINITION. The meanings of the commands: power, resets, low-power states. Each is one definition over the operations of its
family; `traced` adds the frame records a step changes (R538). -/

namespace Sys2Proof.Machine

/-- CAP_LOOP_TICK (R462). -/
def rowCapLoopTick (pm ps : Nat) (s : State) : Host.Outcome State Fault Refusal := .next (execTick pm ps s).forceTrips

/-- LEVEL_FALL_STEP (R458). -/
def rowLevelFallStep (s : State) : Host.Outcome State Fault Refusal := .next (execFall s)

/-- THROTTLE_EVENT_GAP_END (R474). -/
def rowThrottleEventGapEnd (ctx : Nat) (s : State) : Host.Outcome State Fault Refusal := .next (execGapEnd ctx s)

/-- SENSOR_READ (R465). -/
def rowSensorRead (dies stackTemps : List Int) (s : State) : Host.Outcome State Fault Refusal :=
  .next (execSensors dies stackTemps s)

/-- THERMAL_LOOP_TICK (R466). -/
def rowThermalLoopTick (s : State) : Host.Outcome State Fault Refusal := .next (execTherm s)

/-- THERMAL_TRIP (R467). -/
def rowThermalTrip (die : Nat) (s : State) : Host.Outcome State Fault Refusal := .next (s.traced (execTrip die s))

/-- DROOP_TRIP (R468). -/
def rowDroopTrip (island : Nat) (s : State) : Host.Outcome State Fault Refusal := .next (execDroop island s)

/-- STRETCH_END (R468). -/
def rowStretchEnd (island : Nat) (s : State) : Host.Outcome State Fault Refusal := .next (execStretchEnd island s)

/-- DROOP_DECAY (R469). -/
def rowDroopDecay (s : State) : Host.Outcome State Fault Refusal := .next (execDecay s)

/-- PWRBRK_ASSERT (R471). -/
def rowPwrbrkAssert (s : State) : Host.Outcome State Fault Refusal := .next (execBrk s)

/-- PWRBRK_RELEASE (R471). -/
def rowPwrbrkRelease (s : State) : Host.Outcome State Fault Refusal := .next (execBrkOff s)

/-- BRK_TIMEOUT (R471). -/
def rowBrkTimeout (s : State) : Host.Outcome State Fault Refusal := .next (execBrkEnd s)

/-- PMBUS_POLL (R464). -/
def rowPmbusPoll (rail mw : Nat) (pecOk : Bool) (s : State) : Host.Outcome State Fault Refusal :=
  .next (execPoll rail mw pecOk s)

/-- PMBUS_POLL_TIMEOUT (R464). -/
def rowPmbusPollTimeout (rail : Nat) (s : State) : Host.Outcome State Fault Refusal := .next (execPollEnd rail s)

/-- PMBUS_ALERT (R515). -/
def rowPmbusAlert (rail statusWord : Nat) (s : State) : Host.Outcome State Fault Refusal :=
  .next (execAlert rail statusWord s)

/-- CAL_WINDOW_END (R478). -/
def rowCalWindowEnd (model telem : List Nat) (s : State) : Host.Outcome State Fault Refusal :=
  .next (execCalWin model telem s)

/-- POR (R482). -/
def rowPor (cause straps : Nat) (s : State) : Host.Outcome State Fault Refusal := .next (execPorF cause straps s)

/-- FUND (R492). -/
def rowFund (s : State) : Host.Outcome State Fault Refusal := .next (execFundF s)

/-- HBM_TRAINING_DONE (R482). -/
def rowHbmTrainingDone (s : State) : Host.Outcome State Fault Refusal := .next (execTrained s)

/-- PCIE_LINK_UP (R483). -/
def rowPcieLinkUp (s : State) : Host.Outcome State Fault Refusal := .next (execPcieUp s)

/-- MODULE_IDENTITY_READ (R484). -/
def rowModuleIdentityRead (module : Nat) (ident : Option (List Byte)) (s : State) : Host.Outcome State Fault Refusal :=
  .next (execModule module ident s)

/-- IDLE_ENTRY (R495). -/
def rowIdleEntry (s : State) : Host.Outcome State Fault Refusal := .next (execIdle s)

/-- LOWPOWER_DRAIN_DONE (R495). -/
def rowLowpowerDrainDone (s : State) : Host.Outcome State Fault Refusal := .next (s.traced (execDrainDone s))

/-- LOWPOWER_DRAIN_TIMEOUT (R495). -/
def rowLowpowerDrainTimeout (s : State) : Host.Outcome State Fault Refusal := .next (execDrainEnd s)

/-- WAKE (R498). -/
def rowWake (cause : Nat) (s : State) : Host.Outcome State Fault Refusal := .next (s.traced (execWakeEvent cause s))

/-- LOWPOWER_EXIT_DONE (R496). -/
def rowLowpowerExitDone (s : State) : Host.Outcome State Fault Refusal := .next (s.traced (execExitDone s))

end Sys2Proof.Machine
end

