-- ==== Sys2Proof/Machine/RowsSec.lean ====
section
/-! DEFINITION. The meanings of the commands: security, the management port, and the pins beside them. Each is one definition over the operations of its
family; `traced` adds the frame records a step changes (R538). -/

namespace Sys2Proof.Machine

/-- SPDM_REQUEST (R443). -/
def rowSpdmRequest (transport code param : Nat) (s : State) : Host.Outcome State Fault Refusal :=
  .next (execSpdm transport code param s)

/-- LOCK_INTERFACE (R442). -/
def rowLockInterface (vf : Nat) (s : State) : Host.Outcome State Fault Refusal := .next (execLock vf s)

/-- IDE_KM (R441). -/
def rowIdeKm (stream : Nat) (rid : Option Nat) (go : Bool) (s : State) : Host.Outcome State Fault Refusal :=
  .next (execIde stream rid go s)

/-- DEBUG_UNLOCK (R451). -/
def rowDebugUnlock (challenge deviceId sig : Nat) (s : State) : Host.Outcome State Fault Refusal :=
  .next (s.traced (execUnlockF challenge deviceId sig s))

/-- TLS_HANDSHAKE (R452). -/
def rowTlsHandshake (caDigest serial : Nat) (clientOk : Bool) (s : State) : Host.Outcome State Fault Refusal :=
  .next (execTls caDigest serial clientOk s)

/-- TLS_IDLE_TIMEOUT (R452). -/
def rowTlsIdleTimeout (session : Nat) (s : State) : Host.Outcome State Fault Refusal := .next (execTlsIdle session s)

/-- MGMT_LINK_LOSS (R519). -/
def rowMgmtLinkLoss (s : State) : Host.Outcome State Fault Refusal := .next (execMgmtLoss s)

/-- REG_READ (R520). -/
def rowRegRead (session req : Nat) (pairs : List (Nat × Nat)) (s : State) : Host.Outcome State Fault Refusal :=
  .next (execMgmtRead session req pairs s)

/-- TELEMETRY (R520). -/
def rowTelemetry (session req : Nat) (s : State) : Host.Outcome State Fault Refusal :=
  .next (execTelemetry session req s)

/-- ATTEST (R520). -/
def rowAttest (session req nonce : Nat) (s : State) : Host.Outcome State Fault Refusal :=
  .next (execAttest session req nonce s)

/-- DEBUG_CHALLENGE (R520). -/
def rowDebugChallenge (session req : Nat) (s : State) : Host.Outcome State Fault Refusal :=
  .next (execChallenge session req s)

/-- SET_CAP (R461). -/
def rowSetCap (session req watts : Nat) (s : State) : Host.Outcome State Fault Refusal :=
  .next (execSetCap session req watts s)

/-- RESET (R520). -/
def rowReset (session req : Nat) (s : State) : Host.Outcome State Fault Refusal := .next (execMgmtReset session req s)

/-- STAGE (R433). -/
def rowStage (session req : Nat) (isCfg : Bool) (off len : Nat) (final : Option BankImage) (s : State) : Host.Outcome
    State Fault Refusal :=
  .next (execStage session req isCfg off len final s)

/-- MOUNT (R520). -/
def rowMount (session req mode pmask : Nat) (s : State) : Host.Outcome State Fault Refusal :=
  .next (s.traced (execMgmtMount session req mode pmask s))

/-- COMMIT_SVN (R433). -/
def rowCommitSvn (session req : Nat) (s : State) : Host.Outcome State Fault Refusal :=
  .next (execCommitSvn session req s)

/-- DEBUG_TOKEN (R451). -/
def rowDebugToken (session req challenge deviceId sig : Nat) (s : State) : Host.Outcome State Fault Refusal :=
  .next (s.traced (execToken session req challenge deviceId sig s))

/-- DECOMMISSION (R449). -/
def rowDecommission (session req : Nat) (s : State) : Host.Outcome State Fault Refusal :=
  .next (s.traced (execDecommission session req s))

/-- RETURN (R449). -/
def rowReturnStep (session req : Nat) (s : State) : Host.Outcome State Fault Refusal :=
  .next (s.traced (execReturn session req s))

/-- MI3C_STALL_TIMEOUT (R514). -/
def rowMi3cStallTimeout (s : State) : Host.Outcome State Fault Refusal := .next (execMi3c s)

/-- SPI_BUSY_TIMEOUT (R517). -/
def rowSpiBusyTimeout (s : State) : Host.Outcome State Fault Refusal := .next (execSpiBusy s)

/-- JTAG_INSTRUCTION (R518). -/
def rowJtagInstruction (ir : Nat) (s : State) : Host.Outcome State Fault Refusal := .next (s.traced (execJtag ir s))

/-- CORRECTED_ERROR (R525). -/
def rowCorrectedError (unit source : Nat) (s : State) : Host.Outcome State Fault Refusal :=
  .next (s.traced (execCorrected unit source s))

/-- MGMT_PHY_INT (R519). -/
def rowMgmtPhyInt (linkUp : Bool) (s : State) : Host.Outcome State Fault Refusal := .next (execPhyInt linkUp s)

/-- MGMT_PHY_POLL (R519). -/
def rowMgmtPhyPoll (linkUp : Bool) (s : State) : Host.Outcome State Fault Refusal := .next (execPhyPoll linkUp s)

/-- START_INTERFACE (R442). -/
def rowStartInterface (vf : Nat) (s : State) : Host.Outcome State Fault Refusal := .next (execStart vf s)

/-- STOP_INTERFACE (R442). -/
def rowStopInterface (vf : Nat) (s : State) : Host.Outcome State Fault Refusal := .next (execStopTdi vf s)

/-- IDE_INTEGRITY_FAILURE (R442). -/
def rowIdeIntegrityFailure (stream : Nat) (s : State) : Host.Outcome State Fault Refusal := .next (execIdeFail stream s)

/-- RAMP_STEP_END (R470). -/
def rowRampStepEnd (die : Nat) (s : State) : Host.Outcome State Fault Refusal := .next (execRamp die s)

end Sys2Proof.Machine
end

