-- ==== Sys2Proof/Machine/RowsTier.lean ====
section
/-! DEFINITION. The meanings of the commands: tiers, flash, staging, faults. Each is one definition over the operations of its
family; `traced` adds the frame records a step changes (R538). -/

namespace Sys2Proof.Machine

/-- PROMOTION_COMPLETE (R262). -/
def rowPromotionComplete (pfh : Nat) (s : State) : Host.Outcome State Fault Refusal :=
  .next (s.traced (execPromo pfh s))

/-- FLASH_READ_COMPLETE (R278). -/
def rowFlashReadComplete (pfh : Nat) (e : LadderEnd) (s : State) : Host.Outcome State Fault Refusal :=
  .next (s.traced (execFlashRead pfh e s))

/-- RB_TIMEOUT (R280). -/
def rowRbTimeout (channel target pfh : Nat) (s : State) : Host.Outcome State Fault Refusal :=
  .next (s.traced (execRb channel target pfh s))

/-- LOWER_COPY_READ_COMPLETE (R323). -/
def rowLowerCopyReadComplete (pfh : Nat) (fail : Option FailKind) (s : State) : Host.Outcome State Fault Refusal :=
  .next (s.traced (execLower pfh fail s))

/-- FLASH_PROGRAM_COMPLETE (R275). -/
def rowFlashProgramComplete (pfh : Nat) (s : State) : Host.Outcome State Fault Refusal :=
  .next (s.traced (execProg pfh s))

/-- EAGER_WRITEBACK_START (R274). -/
def rowEagerWritebackStart (pfh : Nat) (s : State) : Host.Outcome State Fault Refusal :=
  .next (s.traced (execEager pfh s))

/-- T1_EVICTION (R271). -/
def rowT1Eviction (part : Nat) (s : State) : Host.Outcome State Fault Refusal := .next (s.traced (execEvict part s))

/-- T1_ALLOC_RESUME (R272). -/
def rowT1AllocResume (part : Nat) (s : State) : Host.Outcome State Fault Refusal :=
  .next (s.traced (execResumeT1 part s))

/-- ALLOC_WAIT_EXPIRE (R272). -/
def rowAllocWaitExpire (c : CmdId) (s : State) : Host.Outcome State Fault Refusal := .next (s.traced (execAllocEnd c s))

/-- FLASH_RESERVE_RECLAIM (R273). -/
def rowFlashReserveReclaim (s : State) : Host.Outcome State Fault Refusal := .next (s.traced (execReclaim s))

/-- CREDIT_ACCRUE (R277). -/
def rowCreditAccrue (us : Nat) (s : State) : Host.Outcome State Fault Refusal := .next (s.traced (execCredit us s))

/-- HBM_UNCORRECTABLE (R526). -/
def rowHbmUncorrectable (pc : Nat) (l : PcLoss) (s : State) : Host.Outcome State Fault Refusal :=
  .next (s.traced (execHbmErr pc l.pfh l.bad s))

/-- JOURNAL_COMMIT (R284). -/
def rowJournalCommit (s : State) : Host.Outcome State Fault Refusal := .next (execCommit s)

/-- JOURNAL_COMMIT_COMPLETE (R284). -/
def rowJournalCommitComplete (s : State) : Host.Outcome State Fault Refusal := .next (execCommitDone s)

/-- SLICE_END (R411). -/
def rowSliceEnd (group : Nat) (s : State) : Host.Outcome State Fault Refusal := .next (s.traced (execSliceEnd group s))

/-- GRACE_EXPIRE (R411). -/
def rowGraceExpire (group : Nat) (s : State) : Host.Outcome State Fault Refusal := .next (s.traced (execGrace group s))

/-- STAGING_FILL_DONE (R411). -/
def rowStagingFillDone (group : Nat) (s : State) : Host.Outcome State Fault Refusal :=
  .next (s.traced (execFill group s))

/-- CONTEXT_FAULT_TEARDOWN (R117). -/
def rowContextFaultTeardown (ctx : Nat) (s : State) : Host.Outcome State Fault Refusal :=
  .next (s.traced (execFaultCtx ctx s))

/-- TEARDOWN_RELEASE_DONE (R403). -/
def rowTeardownReleaseDone (ctx : Nat) (s : State) : Host.Outcome State Fault Refusal :=
  .next (s.traced (execReleaseDone ctx s))

/-- FLR (R118). -/
def rowFlr (func : Nat) (s : State) : Host.Outcome State Fault Refusal := .next (s.traced (execFlrF func s))

/-- AE_FENCE (R529). -/
def rowAeFence (ae cause : Nat) (s : State) : Host.Outcome State Fault Refusal :=
  .next (s.traced (execAeFence ae cause s))

/-- CC_FENCE (R532). -/
def rowCcFence (cc cause : Nat) (s : State) : Host.Outcome State Fault Refusal :=
  .next (s.traced (execCcFence cc cause s))

/-- DEVICE_ERROR (R534). -/
def rowDeviceError (cause die : Nat) (s : State) : Host.Outcome State Fault Refusal :=
  .next (s.traced (execDevErr cause die s))

/-- D2D_LINK_FAILURE (R24). -/
def rowD2dLinkFailure (die : Nat) (s : State) : Host.Outcome State Fault Refusal := .next (s.traced (execD2d die s))

/-- SYSCLK_FAULT (R534). -/
def rowSysclkFault (s : State) : Host.Outcome State Fault Refusal := .next (s.traced (execSysclk s))

end Sys2Proof.Machine
end

