-- ==== Sys2Proof/Machine/Dispatch.lean ====
section
/-! DEFINITION. The one place where a command meets its meaning: one arm per row of the table, in its order. -/

namespace Sys2Proof.Machine

def exec (i : Instr) (s : State) : Host.Outcome State Fault Refusal :=
  match i with
  | .expertUnlockWrite f v => Sys2Proof.Machine.rowExpertUnlockWrite f v s
  | .registerWrite f off bytes v => Sys2Proof.Machine.rowRegisterWrite f off bytes v s
  | .lowerHalfRead f off bytes => Sys2Proof.Machine.rowLowerHalfRead f off bytes s
  | .badRegisterAccess f off bytes isWrite => Sys2Proof.Machine.rowBadRegisterAccess f off bytes isWrite s
  | .doorbellWrite f off bytes v => Sys2Proof.Machine.rowDoorbellWrite f off bytes v s
  | .create f ctx => Sys2Proof.Machine.rowCreate f ctx s
  | .destroy f ctx => Sys2Proof.Machine.rowDestroy f ctx s
  | .stop f ctx => Sys2Proof.Machine.rowStop f ctx s
  | .resume f ctx => Sys2Proof.Machine.rowResume f ctx s
  | .query f ctx => Sys2Proof.Machine.rowQuery f ctx s
  | .queueDrained q => Sys2Proof.Machine.rowQueueDrained q s
  | .cqDoorbellWrite f ctx n v => Sys2Proof.Machine.rowCqDoorbellWrite f ctx n v s
  | .eqDoorbellWrite f ctx v => Sys2Proof.Machine.rowEqDoorbellWrite f ctx v s
  | .msixHoldExpire ctx isEq n => Sys2Proof.Machine.rowMsixHoldExpire ctx isEq n s
  | .rcpAttrWrite f ctx v => Sys2Proof.Machine.rowRcpAttrWrite f ctx v s
  | .trigValWrite f ctx v => Sys2Proof.Machine.rowTrigValWrite f ctx v s
  | .teardown f ctx => Sys2Proof.Machine.rowTeardown f ctx s
  | .bringup f ctx => Sys2Proof.Machine.rowBringup f ctx s
  | .epWrite f => Sys2Proof.Machine.rowEpWrite f s
  | .epLoad f => Sys2Proof.Machine.rowEpLoad f s
  | .domRegWrite f => Sys2Proof.Machine.rowDomRegWrite f s
  | .domRegLoad f => Sys2Proof.Machine.rowDomRegLoad f s
  | .egsSubWrite f => Sys2Proof.Machine.rowEgsSubWrite f s
  | .egsSubLoad f => Sys2Proof.Machine.rowEgsSubLoad f s
  | .egsSvcWrite f => Sys2Proof.Machine.rowEgsSvcWrite f s
  | .egsSvcLoad f => Sys2Proof.Machine.rowEgsSvcLoad f s
  | .egsSampleSelect f v => Sys2Proof.Machine.rowEgsSampleSelect f v s
  | .calStart f v => Sys2Proof.Machine.rowCalStart f v s
  | .capWrite f v => Sys2Proof.Machine.rowCapWrite f v s
  | .hbmRetireCmd f v => Sys2Proof.Machine.rowHbmRetireCmd f v s
  | .pmTargetWrite f v => Sys2Proof.Machine.rowPmTargetWrite f v s
  | .shardMapWrite f n v => Sys2Proof.Machine.rowShardMapWrite f n v s
  | .portModeWrite f port v => Sys2Proof.Machine.rowPortModeWrite f port v s
  | .descriptorFetch => Sys2Proof.Machine.rowDescriptorFetch s
  | .ringReadComplete c r => Sys2Proof.Machine.rowRingReadComplete c r s
  | .ringReadTimeout c => Sys2Proof.Machine.rowRingReadTimeout c s
  | .hostAccessTimeout c => Sys2Proof.Machine.rowHostAccessTimeout c s
  | .seqOpen c => Sys2Proof.Machine.rowSeqOpen c s
  | .seqFork c => Sys2Proof.Machine.rowSeqFork c s
  | .seqClose c => Sys2Proof.Machine.rowSeqClose c s
  | .seqReferencesRemoved seq => Sys2Proof.Machine.rowSeqReferencesRemoved seq s
  | .spilledRecordRestore seq => Sys2Proof.Machine.rowSpilledRecordRestore seq s
  | .kvAppend c => Sys2Proof.Machine.rowKvAppend c s
  | .kvAppendRefill c => Sys2Proof.Machine.rowKvAppendRefill c s
  | .fence c => Sys2Proof.Machine.rowFence c s
  | .hintCold c => Sys2Proof.Machine.rowHintCold c s
  | .hintWarm c => Sys2Proof.Machine.rowHintWarm c s
  | .hintHeavy c => Sys2Proof.Machine.rowHintHeavy c s
  | .heavyWindowEnd ctx => Sys2Proof.Machine.rowHeavyWindowEnd ctx s
  | .statsRead c => Sys2Proof.Machine.rowStatsRead c s
  | .stepPlan c => Sys2Proof.Machine.rowStepPlan c s
  | .planPinExpire c => Sys2Proof.Machine.rowPlanPinExpire c s
  | .attend c => Sys2Proof.Machine.rowAttend c s
  | .profileLoadDone mprof => Sys2Proof.Machine.rowProfileLoadDone mprof s
  | .pinWaitResume pfh => Sys2Proof.Machine.rowPinWaitResume pfh s
  | .chunkPlacementRound set => Sys2Proof.Machine.rowChunkPlacementRound set s
  | .chunkComplete ae cycles fails => Sys2Proof.Machine.rowChunkComplete ae cycles fails s
  | .leaseExpire slot => Sys2Proof.Machine.rowLeaseExpire slot s
  | .pagesDeliver c => Sys2Proof.Machine.rowPagesDeliver c s
  | .pagesPlace c => Sys2Proof.Machine.rowPagesPlace c s
  | .pagesDrop c => Sys2Proof.Machine.rowPagesDrop c s
  | .prefixLookup c => Sys2Proof.Machine.rowPrefixLookup c s
  | .pxiNext c => Sys2Proof.Machine.rowPxiNext c s
  | .prefixPublish c => Sys2Proof.Machine.rowPrefixPublish c s
  | .prefixRetire c => Sys2Proof.Machine.rowPrefixRetire c s
  | .cursorExpire slot => Sys2Proof.Machine.rowCursorExpire slot s
  | .tableLoad c img => Sys2Proof.Machine.rowTableLoad c img s
  | .regionRegister c => Sys2Proof.Machine.rowRegionRegister c s
  | .regionRevoke c => Sys2Proof.Machine.rowRegionRevoke c s
  | .revokeDrainComplete index => Sys2Proof.Machine.rowRevokeDrainComplete index s
  | .rmaWrite c => Sys2Proof.Machine.rowRmaWrite c s
  | .rmaWriteImm c => Sys2Proof.Machine.rowRmaWriteImm c s
  | .rmaRead c => Sys2Proof.Machine.rowRmaRead c s
  | .rmaFlush c => Sys2Proof.Machine.rowRmaFlush c s
  | .wrArm c => Sys2Proof.Machine.rowWrArm c s
  | .triggerFire c => Sys2Proof.Machine.rowTriggerFire c s
  | .wrArmTimeout c => Sys2Proof.Machine.rowWrArmTimeout c s
  | .blankMount c img => Sys2Proof.Machine.rowBlankMount c img s
  | .mountStepComplete => Sys2Proof.Machine.rowMountStepComplete s
  | .messageSend dst msgid => Sys2Proof.Machine.rowMessageSend dst msgid s
  | .destCacheLoad node => Sys2Proof.Machine.rowDestCacheLoad node s
  | .egsPacketSelect iface => Sys2Proof.Machine.rowEgsPacketSelect iface s
  | .packetRx x => Sys2Proof.Machine.rowPacketRx x s
  | .readReq x => Sys2Proof.Machine.rowReadReq x s
  | .readResp x => Sys2Proof.Machine.rowReadResp x s
  | .ack x => Sys2Proof.Machine.rowAck x s
  | .nak x => Sys2Proof.Machine.rowNak x s
  | .retxTimeout dst msgid => Sys2Proof.Machine.rowRetxTimeout dst msgid s
  | .busyResend dst msgid => Sys2Proof.Machine.rowBusyResend dst msgid s
  | .busyTimeExpire dst msgid => Sys2Proof.Machine.rowBusyTimeExpire dst msgid s
  | .readRetry dst msgid => Sys2Proof.Machine.rowReadRetry dst msgid s
  | .reasmTimeout src msgid => Sys2Proof.Machine.rowReasmTimeout src msgid s
  | .ccRateIncrease node => Sys2Proof.Machine.rowCcRateIncrease node s
  | .mkaRekey iface => Sys2Proof.Machine.rowMkaRekey iface s
  | .egsSample => Sys2Proof.Machine.rowEgsSample s
  | .paceNoticeSend plan => Sys2Proof.Machine.rowPaceNoticeSend plan s
  | .leaseReq src epoch rank => Sys2Proof.Machine.rowLeaseReq src epoch rank s
  | .leaseGrant src epoch highest => Sys2Proof.Machine.rowLeaseGrant src epoch highest s
  | .electionStart => Sys2Proof.Machine.rowElectionStart s
  | .electionRetry => Sys2Proof.Machine.rowElectionRetry s
  | .voterPromiseLapse => Sys2Proof.Machine.rowVoterPromiseLapse s
  | .voterHoldEnd => Sys2Proof.Machine.rowVoterHoldEnd s
  | .heartbeatTimer => Sys2Proof.Machine.rowHeartbeatTimer s
  | .heartbeat src epoch rUs mapVer members => Sys2Proof.Machine.rowHeartbeat src epoch rUs mapVer members s
  | .hbAck src epoch => Sys2Proof.Machine.rowHbAck src epoch s
  | .managerLeaseEnd => Sys2Proof.Machine.rowManagerLeaseEnd s
  | .attachmentExpire => Sys2Proof.Machine.rowAttachmentExpire s
  | .memberLost part => Sys2Proof.Machine.rowMemberLost part s
  | .join src lastEpoch highest => Sys2Proof.Machine.rowJoin src lastEpoch highest s
  | .admitMsg src epoch members => Sys2Proof.Machine.rowAdmit src epoch members s
  | .admitWindowEnd => Sys2Proof.Machine.rowAdmitWindowEnd s
  | .mapUpdate src ver map => Sys2Proof.Machine.rowMapUpdate src ver map s
  | .regUpdate src eps regs => Sys2Proof.Machine.rowRegUpdate src eps regs s
  | .lookupReq src req sdom mprof camOnly items => Sys2Proof.Machine.rowLookupReq src req sdom mprof camOnly items s
  | .lookupResp src req hits => Sys2Proof.Machine.rowLookupResp src req hits s
  | .remoteLookupTimeout c => Sys2Proof.Machine.rowRemoteLookupTimeout c s
  | .insert src req items => Sys2Proof.Machine.rowInsert src req items s
  | .retire src req key => Sys2Proof.Machine.rowRetire src req key s
  | .trim src items => Sys2Proof.Machine.rowTrim src items s
  | .refill src part => Sys2Proof.Machine.rowRefill src part s
  | .homeRefillDone => Sys2Proof.Machine.rowHomeRefillDone s
  | .rowsReq src req ref forkLen => Sys2Proof.Machine.rowRowsReq src req ref forkLen s
  | .rowsResp src req status mprof sdom rows => Sys2Proof.Machine.rowRowsResp src req status mprof sdom rows s
  | .rowsDone src req anchor frames => Sys2Proof.Machine.rowRowsDone src req anchor frames s
  | .pageReq src pfh version => Sys2Proof.Machine.rowPageReq src pfh version s
  | .pageData src body => Sys2Proof.Machine.rowPageData src body s
  | .pageAck src spfh newPfh status => Sys2Proof.Machine.rowPageAck src spfh newPfh status s
  | .refRelease src frames => Sys2Proof.Machine.rowRefRelease src frames s
  | .refReleaseRetry peer => Sys2Proof.Machine.rowRefReleaseRetry peer s
  | .cascClaim c => Sys2Proof.Machine.rowCascClaim c s
  | .cascQuery src sdom mprof limit camOnly items => Sys2Proof.Machine.rowCascQuery src sdom mprof limit camOnly items s
  | .cascMemberSearchDone => Sys2Proof.Machine.rowCascMemberSearchDone s
  | .cascArbitration others => Sys2Proof.Machine.rowCascArbitration others s
  | .cascResult src ref => Sys2Proof.Machine.rowCascResult src ref s
  | .cascStrobeTimeout => Sys2Proof.Machine.rowCascStrobeTimeout s
  | .cascRdyTimeout => Sys2Proof.Machine.rowCascRdyTimeout s
  | .cascStuckClaim => Sys2Proof.Machine.rowCascStuckClaim s
  | .promotionComplete pfh => Sys2Proof.Machine.rowPromotionComplete pfh s
  | .flashReadComplete pfh e => Sys2Proof.Machine.rowFlashReadComplete pfh e s
  | .rbTimeout channel target pfh => Sys2Proof.Machine.rowRbTimeout channel target pfh s
  | .lowerCopyReadComplete pfh fail => Sys2Proof.Machine.rowLowerCopyReadComplete pfh fail s
  | .flashProgramComplete pfh => Sys2Proof.Machine.rowFlashProgramComplete pfh s
  | .eagerWritebackStart pfh => Sys2Proof.Machine.rowEagerWritebackStart pfh s
  | .t1Eviction part => Sys2Proof.Machine.rowT1Eviction part s
  | .t1AllocResume part => Sys2Proof.Machine.rowT1AllocResume part s
  | .allocWaitExpire c => Sys2Proof.Machine.rowAllocWaitExpire c s
  | .flashReserveReclaim => Sys2Proof.Machine.rowFlashReserveReclaim s
  | .creditAccrue us => Sys2Proof.Machine.rowCreditAccrue us s
  | .hbmUncorrectable pc pfh => Sys2Proof.Machine.rowHbmUncorrectable pc pfh s
  | .journalCommit => Sys2Proof.Machine.rowJournalCommit s
  | .journalCommitComplete => Sys2Proof.Machine.rowJournalCommitComplete s
  | .sliceEnd group => Sys2Proof.Machine.rowSliceEnd group s
  | .graceExpire group => Sys2Proof.Machine.rowGraceExpire group s
  | .stagingFillDone group => Sys2Proof.Machine.rowStagingFillDone group s
  | .contextFaultTeardown ctx => Sys2Proof.Machine.rowContextFaultTeardown ctx s
  | .teardownReleaseDone ctx => Sys2Proof.Machine.rowTeardownReleaseDone ctx s
  | .flr func => Sys2Proof.Machine.rowFlr func s
  | .aeFence ae cause => Sys2Proof.Machine.rowAeFence ae cause s
  | .ccFence cc cause => Sys2Proof.Machine.rowCcFence cc cause s
  | .deviceError cause die => Sys2Proof.Machine.rowDeviceError cause die s
  | .d2dLinkFailure die => Sys2Proof.Machine.rowD2dLinkFailure die s
  | .sysclkFault => Sys2Proof.Machine.rowSysclkFault s
  | .capLoopTick pm ps => Sys2Proof.Machine.rowCapLoopTick pm ps s
  | .levelFallStep => Sys2Proof.Machine.rowLevelFallStep s
  | .throttleEventGapEnd ctx => Sys2Proof.Machine.rowThrottleEventGapEnd ctx s
  | .sensorRead dies stackTemps => Sys2Proof.Machine.rowSensorRead dies stackTemps s
  | .thermalLoopTick => Sys2Proof.Machine.rowThermalLoopTick s
  | .thermalTrip die => Sys2Proof.Machine.rowThermalTrip die s
  | .droopTrip island => Sys2Proof.Machine.rowDroopTrip island s
  | .stretchEnd island => Sys2Proof.Machine.rowStretchEnd island s
  | .droopDecay => Sys2Proof.Machine.rowDroopDecay s
  | .pwrbrkAssert => Sys2Proof.Machine.rowPwrbrkAssert s
  | .pwrbrkRelease => Sys2Proof.Machine.rowPwrbrkRelease s
  | .brkTimeout => Sys2Proof.Machine.rowBrkTimeout s
  | .pmbusPoll rail mw pecOk => Sys2Proof.Machine.rowPmbusPoll rail mw pecOk s
  | .pmbusPollTimeout rail => Sys2Proof.Machine.rowPmbusPollTimeout rail s
  | .pmbusAlert rail statusWord => Sys2Proof.Machine.rowPmbusAlert rail statusWord s
  | .calWindowEnd model telem => Sys2Proof.Machine.rowCalWindowEnd model telem s
  | .por cause straps => Sys2Proof.Machine.rowPor cause straps s
  | .fund => Sys2Proof.Machine.rowFund s
  | .hbmTrainingDone => Sys2Proof.Machine.rowHbmTrainingDone s
  | .pcieLinkUp => Sys2Proof.Machine.rowPcieLinkUp s
  | .moduleIdentityRead module ident => Sys2Proof.Machine.rowModuleIdentityRead module ident s
  | .idleEntry => Sys2Proof.Machine.rowIdleEntry s
  | .lowpowerDrainDone => Sys2Proof.Machine.rowLowpowerDrainDone s
  | .lowpowerDrainTimeout => Sys2Proof.Machine.rowLowpowerDrainTimeout s
  | .wake cause => Sys2Proof.Machine.rowWake cause s
  | .lowpowerExitDone => Sys2Proof.Machine.rowLowpowerExitDone s
  | .spdmRequest transport code param => Sys2Proof.Machine.rowSpdmRequest transport code param s
  | .lockInterface vf => Sys2Proof.Machine.rowLockInterface vf s
  | .ideKm stream rid go => Sys2Proof.Machine.rowIdeKm stream rid go s
  | .debugUnlock challenge deviceId sig => Sys2Proof.Machine.rowDebugUnlock challenge deviceId sig s
  | .tlsHandshake caDigest serial clientOk => Sys2Proof.Machine.rowTlsHandshake caDigest serial clientOk s
  | .tlsIdleTimeout session => Sys2Proof.Machine.rowTlsIdleTimeout session s
  | .mgmtLinkLoss => Sys2Proof.Machine.rowMgmtLinkLoss s
  | .regRead session req pairs => Sys2Proof.Machine.rowRegRead session req pairs s
  | .telemetry session req => Sys2Proof.Machine.rowTelemetry session req s
  | .attest session req nonce => Sys2Proof.Machine.rowAttest session req nonce s
  | .debugChallenge session req => Sys2Proof.Machine.rowDebugChallenge session req s
  | .setCap session req watts => Sys2Proof.Machine.rowSetCap session req watts s
  | .reset session req => Sys2Proof.Machine.rowReset session req s
  | .stage session req isCfg off len final => Sys2Proof.Machine.rowStage session req isCfg off len final s
  | .mount session req mode pmask => Sys2Proof.Machine.rowMount session req mode pmask s
  | .commitSvn session req => Sys2Proof.Machine.rowCommitSvn session req s
  | .debugToken session req challenge deviceId sig => Sys2Proof.Machine.rowDebugToken session req challenge deviceId sig s
  | .decommission session req => Sys2Proof.Machine.rowDecommission session req s
  | .returnStep session req => Sys2Proof.Machine.rowReturnStep session req s
  | .mi3cStallTimeout => Sys2Proof.Machine.rowMi3cStallTimeout s
  | .spiBusyTimeout => Sys2Proof.Machine.rowSpiBusyTimeout s
  | .jtagInstruction ir => Sys2Proof.Machine.rowJtagInstruction ir s
  | .correctedError unit source => Sys2Proof.Machine.rowCorrectedError unit source s
  | .ethLinkLoss iface => Sys2Proof.Machine.rowEthLinkLoss iface s
  | .ethLinkUp iface => Sys2Proof.Machine.rowEthLinkUp iface s
  | .mkaFrame iface live => Sys2Proof.Machine.rowMkaFrame iface live s
  | .pfcFrame iface pause => Sys2Proof.Machine.rowPfcFrame iface pause s
  | .mgmtPhyInt linkUp => Sys2Proof.Machine.rowMgmtPhyInt linkUp s
  | .mgmtPhyPoll linkUp => Sys2Proof.Machine.rowMgmtPhyPoll linkUp s
  | .cascClaimObserved position => Sys2Proof.Machine.rowCascClaimObserved position s
  | .cascClaimReleased => Sys2Proof.Machine.rowCascClaimReleased s
  | .hostReadComplete c r => Sys2Proof.Machine.rowHostReadComplete c r s
  | .insertReply src req statuses refs => Sys2Proof.Machine.rowInsertReply src req statuses refs s
  | .retireReply src req status count => Sys2Proof.Machine.rowRetireReply src req status count s
  | .admitReply src epoch => Sys2Proof.Machine.rowAdmitReply src epoch s
  | .startInterface vf => Sys2Proof.Machine.rowStartInterface vf s
  | .stopInterface vf => Sys2Proof.Machine.rowStopInterface vf s
  | .ideIntegrityFailure stream => Sys2Proof.Machine.rowIdeIntegrityFailure stream s
  | .rampStepEnd die => Sys2Proof.Machine.rowRampStepEnd die s

end Sys2Proof.Machine
end

