-- ==== Sys2Proof/Machine/Step.lean ====
section
/-! DEFINITION. A step: the command at the front of the queue runs on the state with the rest of the queue. -/

namespace Sys2Proof.Machine

/-- Idle for one always-on cycle (DESIGN CHOICE, log entry 6). -/
def State.idle (s : State) : State := { s with cycles := s.cycles + 1 }

/-- One step. -/
def step (s : State) : Host.Outcome State Fault Refusal :=
  match s.pending with
  | [] => .next s.idle
  | c :: t => exec c { s with pending := t }

/-- The state with the command a word spells in front of its queue; no word spells one. -/
def State.withFetchWord (s : State) (nbits w : Nat) : State :=
  match decodeTableWord nbits w with
  | some c => { s with pending := c :: s.pending }
  | none => s

end Sys2Proof.Machine
end

