-- ==== Sys2Proof/Laws/Sparse.lean ====
section
/-! SUPPORT. Sparse data: what a store leaves at its key and elsewhere, and that every operation keeps the canonical form. -/

namespace Sys2Proof.Machine

variable {α : Type}

/-! ## Reading after writing -/

theorem spGet_spIns_same (d v : α) (k : Nat) (l : List (Nat × α)) (h : ∀ p ∈ l, p.1 ≠ k) :
    spGet d (spIns k v l) k = v := by
  induction l with
  | nil => simp [spIns, spGet]
  | cons p t ih =>
    obtain ⟨a, x⟩ := p
    have ha : a ≠ k := h (a, x) (by simp)
    simp only [spIns]
    split
    · simp [spGet]
    · simp [spGet, ha, ih fun q hq => h q (by simp [hq])]

theorem spGet_spIns_ne (d v : α) {k j : Nat} (h : j ≠ k) (l : List (Nat × α)) : spGet d (spIns k v l) j = spGet d l j := by
  induction l with
  | nil => simp [spIns, spGet, Ne.symm h]
  | cons p t ih =>
    simp only [spIns]
    split
    · simp [spGet, Ne.symm h]
    · simp [spGet, ih]

theorem spGet_absent (d : α) (k : Nat) (l : List (Nat × α)) (h : ∀ p ∈ l, p.1 ≠ k) : spGet d l k = d := by
  induction l with
  | nil => rfl
  | cons p t ih => simp [spGet, h p (by simp), ih fun q hq => h q (by simp [hq])]

theorem spGet_filter_ne (d : α) {k j : Nat} (h : j ≠ k) (l : List (Nat × α)) :
    spGet d (l.filter fun p => p.1 != k) j = spGet d l j := by
  induction l with
  | nil => rfl
  | cons p t ih =>
    by_cases hk : p.1 = k
    · simp [spGet, hk, Ne.symm h, ih]
    · simp [spGet, hk, ih]

variable [DecidableEq α]

@[simp] theorem spGet_spSet_same (d v : α) (l : List (Nat × α)) (k : Nat) : spGet d (spSet d l k v) k = v := by
  have h : ∀ p ∈ l.filter (fun p => p.1 != k), p.1 ≠ k := by simp
  simp only [spSet]
  split
  · rw [spGet_absent d k _ h]; exact Eq.symm ‹_›
  · exact spGet_spIns_same d v k _ h

theorem spGet_spSet_ne (d e v : α) {j k : Nat} (h : j ≠ k) (l : List (Nat × α)) : spGet e (spSet d l k v) j = spGet e l j := by
  simp only [spSet]
  split
  · exact spGet_filter_ne e h l
  · rw [spGet_spIns_ne e v h, spGet_filter_ne e h]

/-! ## Canonical form -/

theorem spWf_cons (d : α) (a : Nat) (v : α) (t : List (Nat × α)) :
    spWf d ((a, v) :: t) = true ↔ v ≠ d ∧ spAbove a t = true ∧ spWf d t = true := by simp [spWf, and_assoc]

omit [DecidableEq α] in
theorem spAbove_filter (a : Nat) (l : List (Nat × α)) (p : Nat × α → Bool) (h : spAbove a l = true) :
    spAbove a (l.filter p) = true := by
  simp only [spAbove, List.all_eq_true] at h ⊢
  exact fun x hx => h x (List.mem_filter.mp hx).1

theorem spWf_filter (d : α) (l : List (Nat × α)) (p : Nat × α → Bool) (h : spWf d l = true) : spWf d (l.filter p) = true := by
  induction l with
  | nil => simp [spWf]
  | cons x t ih =>
    obtain ⟨a, v⟩ := x
    rw [spWf_cons] at h
    rw [List.filter_cons]
    split
    · rw [spWf_cons]
      exact ⟨h.1, spAbove_filter a t p h.2.1, ih h.2.2⟩
    · exact ih h.2.2

omit [DecidableEq α] in
theorem spAbove_spIns (a k : Nat) (v : α) (l : List (Nat × α)) (hk : a < k) (h : spAbove a l = true) :
    spAbove a (spIns k v l) = true := by
  induction l with
  | nil => simp [spAbove, spIns, hk]
  | cons p t ih =>
    simp only [spAbove, List.all_cons, Bool.and_eq_true, decide_eq_true_eq] at h
    simp only [spIns]
    split
    · simp only [spAbove, List.all_cons, Bool.and_eq_true, decide_eq_true_eq]
      exact ⟨hk, h⟩
    · simp only [spAbove, List.all_cons, Bool.and_eq_true, decide_eq_true_eq]
      exact ⟨h.1, ih h.2⟩

theorem spWf_spIns (d v : α) (k : Nat) (hv : v ≠ d) (l : List (Nat × α)) (hl : ∀ p ∈ l, p.1 ≠ k) (h : spWf d l = true) :
    spWf d (spIns k v l) = true := by
  induction l with
  | nil => simp [spWf, spIns, hv, spAbove]
  | cons p t ih =>
    obtain ⟨a, x⟩ := p
    have hc := (spWf_cons d a x t).mp h
    have ha : a ≠ k := hl (a, x) (by simp)
    simp only [spIns]
    split
    · next hlt =>
      rw [spWf_cons]
      refine ⟨hv, ?_, h⟩
      have hab := hc.2.1
      simp only [spAbove, List.all_eq_true, decide_eq_true_eq, List.all_cons, Bool.and_eq_true] at hab ⊢
      exact ⟨hlt, fun y hy => lt_trans hlt (hab y hy)⟩
    · next hge =>
      rw [spWf_cons]
      exact ⟨hc.1, spAbove_spIns a k v t (by simp at hge; omega) hc.2.1, ih (fun q hq => hl q (by simp [hq])) hc.2.2⟩

theorem spSet_wf (d v : α) (l : List (Nat × α)) (k : Nat) (h : spWf d l = true) : spWf d (spSet d l k v) = true := by
  simp only [spSet]
  split
  · exact spWf_filter d l _ h
  · exact spWf_spIns d v k ‹_› _ (by simp) (spWf_filter d l _ h)

/-! ## Byte memory -/

theorem memWrite_wf (m : List (Nat × Byte)) (a : Nat) (bs : List Byte) (h : spWf 0 m = true) :
    spWf 0 (memWrite m a bs) = true := by
  induction bs generalizing m a with
  | nil => exact h
  | cons b t ih => exact ih _ _ (spSet_wf 0 b m a h)

theorem memZero_wf (m : List (Nat × Byte)) (p : Nat → Bool) (h : spWf 0 m = true) : spWf 0 (memZero m p) = true :=
  spWf_filter 0 m _ h

/-- A write leaves every byte outside it alone. -/
theorem memWrite_other (m : List (Nat × Byte)) (a : Nat) (bs : List Byte) (j : Nat) (h : j < a ∨ a + bs.length ≤ j) :
    spGet 0 (memWrite m a bs) j = spGet 0 m j := by
  induction bs generalizing m a with
  | nil => rfl
  | cons b t ih =>
    simp only [List.length_cons] at h
    rw [memWrite, ih _ _ (by omega), spGet_spSet_ne 0 0 b (by omega)]

/-- Each byte written is read back. -/
theorem memWrite_at (m : List (Nat × Byte)) (a : Nat) (bs : List Byte) (i : Nat) (h : i < bs.length) :
    spGet 0 (memWrite m a bs) (a + i) = bs[i] := by
  induction bs generalizing m a i with
  | nil => simp at h
  | cons b t ih =>
    rw [memWrite]
    cases i with
    | zero => rw [memWrite_other _ _ _ _ (by omega)]; simp
    | succ n =>
      have hn : n < t.length := by simpa using h
      rw [show a + (n + 1) = a + 1 + n by omega, ih _ _ n hn]
      simp

theorem memRead_memWrite (m : List (Nat × Byte)) (a : Nat) (bs : List Byte) : memRead (memWrite m a bs) a bs.length = bs := by
  apply List.ext_getElem
  · simp [memRead]
  · intro i h _
    simp only [memRead, List.getElem_map, List.getElem_range]
    exact memWrite_at m a bs i (by simpa [memRead] using h)

/-! ## Register fields -/

/-- A field reads back what was set, to its width. -/
@[simp] theorem fld_setFld_same (s : State) (f : Fld) (v i c : Nat) : (s.setFld f v i c).fld f i c = v % 2 ^ f.width := by
  simp [State.fld, State.setFld]

/-- Setting a field leaves every field with another key alone. -/
theorem fld_setFld_ne (s : State) (f g : Fld) (v i c j e : Nat) (h : g.key j e ≠ f.key i c) :
    (s.setFld f v i c).fld g j e = s.fld g j e := by
  simp [State.fld, State.setFld, spGet_spSet_ne _ _ _ h]

end Sys2Proof.Machine
end

