-- ==== Sys2Proof/Laws/State.lean ====
section
/-! SUPPORT. One lemma per field per update of the state: what an update leaves alone. -/

namespace Sys2Proof.Machine

variable (s : State)

/-! ### setFld changes only `regs` -/

@[simp] theorem setFld_pending (f : Fld) (v i c : Nat) : (s.setFld f v i c).pending = s.pending := rfl
@[simp] theorem setFld_cycles (f : Fld) (v i c : Nat) : (s.setFld f v i c).cycles = s.cycles := rfl
@[simp] theorem setFld_free (f : Fld) (v i c : Nat) : (s.setFld f v i c).free = s.free := rfl
@[simp] theorem setFld_dead (f : Fld) (v i c : Nat) : (s.setFld f v i c).dead = s.dead := rfl
@[simp] theorem setFld_host (f : Fld) (v i c : Nat) : (s.setFld f v i c).host = s.host := rfl
@[simp] theorem setFld_qdb (f : Fld) (v i c : Nat) : (s.setFld f v i c).qdb = s.qdb := rfl
@[simp] theorem setFld_cmds (f : Fld) (v i c : Nat) : (s.setFld f v i c).cmds = s.cmds := rfl
@[simp] theorem setFld_ctxs (f : Fld) (v i c : Nat) : (s.setFld f v i c).ctxs = s.ctxs := rfl
@[simp] theorem setFld_seq (f : Fld) (v i c : Nat) : (s.setFld f v i c).seq = s.seq := rfl
@[simp] theorem setFld_tier (f : Fld) (v i c : Nat) : (s.setFld f v i c).tier = s.tier := rfl
@[simp] theorem setFld_att (f : Fld) (v i c : Nat) : (s.setFld f v i c).att = s.att := rfl
@[simp] theorem setFld_tab (f : Fld) (v i c : Nat) : (s.setFld f v i c).tab = s.tab := rfl
@[simp] theorem setFld_fxt (f : Fld) (v i c : Nat) : (s.setFld f v i c).fxt = s.fxt := rfl
@[simp] theorem setFld_rem (f : Fld) (v i c : Nat) : (s.setFld f v i c).rem = s.rem := rfl
@[simp] theorem setFld_blank (f : Fld) (v i c : Nat) : (s.setFld f v i c).blank = s.blank := rfl
@[simp] theorem setFld_sch (f : Fld) (v i c : Nat) : (s.setFld f v i c).sch = s.sch := rfl
@[simp] theorem setFld_pwr (f : Fld) (v i c : Nat) : (s.setFld f v i c).pwr = s.pwr := rfl
@[simp] theorem setFld_pxi (f : Fld) (v i c : Nat) : (s.setFld f v i c).pxi = s.pxi := rfl
@[simp] theorem setFld_dom (f : Fld) (v i c : Nat) : (s.setFld f v i c).dom = s.dom := rfl
@[simp] theorem setFld_dss (f : Fld) (v i c : Nat) : (s.setFld f v i c).dss = s.dss := rfl
@[simp] theorem setFld_jrnl (f : Fld) (v i c : Nat) : (s.setFld f v i c).jrnl = s.jrnl := rfl
@[simp] theorem setFld_egs (f : Fld) (v i c : Nat) : (s.setFld f v i c).egs = s.egs := rfl
@[simp] theorem setFld_sec (f : Fld) (v i c : Nat) : (s.setFld f v i c).sec = s.sec := rfl
@[simp] theorem setFld_boot (f : Fld) (v i c : Nat) : (s.setFld f v i c).boot = s.boot := rfl
@[simp] theorem setFld_pm (f : Fld) (v i c : Nat) : (s.setFld f v i c).pm = s.pm := rfl
@[simp] theorem setFld_ras (f : Fld) (v i c : Nat) : (s.setFld f v i c).ras = s.ras := rfl

/-! ### emit changes only `host` -/

@[simp] theorem emit_pending (o : Out) : (s.emit o).pending = s.pending := rfl
@[simp] theorem emit_cycles (o : Out) : (s.emit o).cycles = s.cycles := rfl
@[simp] theorem emit_regs (o : Out) : (s.emit o).regs = s.regs := rfl
@[simp] theorem emit_free (o : Out) : (s.emit o).free = s.free := rfl
@[simp] theorem emit_dead (o : Out) : (s.emit o).dead = s.dead := rfl
@[simp] theorem emit_qdb (o : Out) : (s.emit o).qdb = s.qdb := rfl
@[simp] theorem emit_cmds (o : Out) : (s.emit o).cmds = s.cmds := rfl
@[simp] theorem emit_ctxs (o : Out) : (s.emit o).ctxs = s.ctxs := rfl
@[simp] theorem emit_seq (o : Out) : (s.emit o).seq = s.seq := rfl
@[simp] theorem emit_tier (o : Out) : (s.emit o).tier = s.tier := rfl
@[simp] theorem emit_att (o : Out) : (s.emit o).att = s.att := rfl
@[simp] theorem emit_tab (o : Out) : (s.emit o).tab = s.tab := rfl
@[simp] theorem emit_fxt (o : Out) : (s.emit o).fxt = s.fxt := rfl
@[simp] theorem emit_rem (o : Out) : (s.emit o).rem = s.rem := rfl
@[simp] theorem emit_blank (o : Out) : (s.emit o).blank = s.blank := rfl
@[simp] theorem emit_sch (o : Out) : (s.emit o).sch = s.sch := rfl
@[simp] theorem emit_pwr (o : Out) : (s.emit o).pwr = s.pwr := rfl
@[simp] theorem emit_pxi (o : Out) : (s.emit o).pxi = s.pxi := rfl
@[simp] theorem emit_dom (o : Out) : (s.emit o).dom = s.dom := rfl
@[simp] theorem emit_dss (o : Out) : (s.emit o).dss = s.dss := rfl
@[simp] theorem emit_jrnl (o : Out) : (s.emit o).jrnl = s.jrnl := rfl
@[simp] theorem emit_egs (o : Out) : (s.emit o).egs = s.egs := rfl
@[simp] theorem emit_sec (o : Out) : (s.emit o).sec = s.sec := rfl
@[simp] theorem emit_boot (o : Out) : (s.emit o).boot = s.boot := rfl
@[simp] theorem emit_pm (o : Out) : (s.emit o).pm = s.pm := rfl
@[simp] theorem emit_ras (o : Out) : (s.emit o).ras = s.ras := rfl

/-! ### setCmd changes only `cmds` -/

@[simp] theorem setCmd_pending (c : CmdId) (f : Cmd → Cmd) : (s.setCmd c f).pending = s.pending := rfl
@[simp] theorem setCmd_cycles (c : CmdId) (f : Cmd → Cmd) : (s.setCmd c f).cycles = s.cycles := rfl
@[simp] theorem setCmd_regs (c : CmdId) (f : Cmd → Cmd) : (s.setCmd c f).regs = s.regs := rfl
@[simp] theorem setCmd_free (c : CmdId) (f : Cmd → Cmd) : (s.setCmd c f).free = s.free := rfl
@[simp] theorem setCmd_dead (c : CmdId) (f : Cmd → Cmd) : (s.setCmd c f).dead = s.dead := rfl
@[simp] theorem setCmd_host (c : CmdId) (f : Cmd → Cmd) : (s.setCmd c f).host = s.host := rfl
@[simp] theorem setCmd_qdb (c : CmdId) (f : Cmd → Cmd) : (s.setCmd c f).qdb = s.qdb := rfl
@[simp] theorem setCmd_ctxs (c : CmdId) (f : Cmd → Cmd) : (s.setCmd c f).ctxs = s.ctxs := rfl
@[simp] theorem setCmd_seq (c : CmdId) (f : Cmd → Cmd) : (s.setCmd c f).seq = s.seq := rfl
@[simp] theorem setCmd_tier (c : CmdId) (f : Cmd → Cmd) : (s.setCmd c f).tier = s.tier := rfl
@[simp] theorem setCmd_att (c : CmdId) (f : Cmd → Cmd) : (s.setCmd c f).att = s.att := rfl
@[simp] theorem setCmd_tab (c : CmdId) (f : Cmd → Cmd) : (s.setCmd c f).tab = s.tab := rfl
@[simp] theorem setCmd_fxt (c : CmdId) (f : Cmd → Cmd) : (s.setCmd c f).fxt = s.fxt := rfl
@[simp] theorem setCmd_rem (c : CmdId) (f : Cmd → Cmd) : (s.setCmd c f).rem = s.rem := rfl
@[simp] theorem setCmd_blank (c : CmdId) (f : Cmd → Cmd) : (s.setCmd c f).blank = s.blank := rfl
@[simp] theorem setCmd_sch (c : CmdId) (f : Cmd → Cmd) : (s.setCmd c f).sch = s.sch := rfl
@[simp] theorem setCmd_pwr (c : CmdId) (f : Cmd → Cmd) : (s.setCmd c f).pwr = s.pwr := rfl
@[simp] theorem setCmd_pxi (c : CmdId) (f : Cmd → Cmd) : (s.setCmd c f).pxi = s.pxi := rfl
@[simp] theorem setCmd_dom (c : CmdId) (f : Cmd → Cmd) : (s.setCmd c f).dom = s.dom := rfl
@[simp] theorem setCmd_dss (c : CmdId) (f : Cmd → Cmd) : (s.setCmd c f).dss = s.dss := rfl
@[simp] theorem setCmd_jrnl (c : CmdId) (f : Cmd → Cmd) : (s.setCmd c f).jrnl = s.jrnl := rfl
@[simp] theorem setCmd_egs (c : CmdId) (f : Cmd → Cmd) : (s.setCmd c f).egs = s.egs := rfl
@[simp] theorem setCmd_sec (c : CmdId) (f : Cmd → Cmd) : (s.setCmd c f).sec = s.sec := rfl
@[simp] theorem setCmd_boot (c : CmdId) (f : Cmd → Cmd) : (s.setCmd c f).boot = s.boot := rfl
@[simp] theorem setCmd_pm (c : CmdId) (f : Cmd → Cmd) : (s.setCmd c f).pm = s.pm := rfl
@[simp] theorem setCmd_ras (c : CmdId) (f : Cmd → Cmd) : (s.setCmd c f).ras = s.ras := rfl

/-! ### setCtx changes only `ctxs` -/

@[simp] theorem setCtx_pending (c : Nat) (f : Ctx → Ctx) : (s.setCtx c f).pending = s.pending := rfl
@[simp] theorem setCtx_cycles (c : Nat) (f : Ctx → Ctx) : (s.setCtx c f).cycles = s.cycles := rfl
@[simp] theorem setCtx_regs (c : Nat) (f : Ctx → Ctx) : (s.setCtx c f).regs = s.regs := rfl
@[simp] theorem setCtx_free (c : Nat) (f : Ctx → Ctx) : (s.setCtx c f).free = s.free := rfl
@[simp] theorem setCtx_dead (c : Nat) (f : Ctx → Ctx) : (s.setCtx c f).dead = s.dead := rfl
@[simp] theorem setCtx_host (c : Nat) (f : Ctx → Ctx) : (s.setCtx c f).host = s.host := rfl
@[simp] theorem setCtx_qdb (c : Nat) (f : Ctx → Ctx) : (s.setCtx c f).qdb = s.qdb := rfl
@[simp] theorem setCtx_cmds (c : Nat) (f : Ctx → Ctx) : (s.setCtx c f).cmds = s.cmds := rfl
@[simp] theorem setCtx_seq (c : Nat) (f : Ctx → Ctx) : (s.setCtx c f).seq = s.seq := rfl
@[simp] theorem setCtx_tier (c : Nat) (f : Ctx → Ctx) : (s.setCtx c f).tier = s.tier := rfl
@[simp] theorem setCtx_att (c : Nat) (f : Ctx → Ctx) : (s.setCtx c f).att = s.att := rfl
@[simp] theorem setCtx_tab (c : Nat) (f : Ctx → Ctx) : (s.setCtx c f).tab = s.tab := rfl
@[simp] theorem setCtx_fxt (c : Nat) (f : Ctx → Ctx) : (s.setCtx c f).fxt = s.fxt := rfl
@[simp] theorem setCtx_rem (c : Nat) (f : Ctx → Ctx) : (s.setCtx c f).rem = s.rem := rfl
@[simp] theorem setCtx_blank (c : Nat) (f : Ctx → Ctx) : (s.setCtx c f).blank = s.blank := rfl
@[simp] theorem setCtx_sch (c : Nat) (f : Ctx → Ctx) : (s.setCtx c f).sch = s.sch := rfl
@[simp] theorem setCtx_pwr (c : Nat) (f : Ctx → Ctx) : (s.setCtx c f).pwr = s.pwr := rfl
@[simp] theorem setCtx_pxi (c : Nat) (f : Ctx → Ctx) : (s.setCtx c f).pxi = s.pxi := rfl
@[simp] theorem setCtx_dom (c : Nat) (f : Ctx → Ctx) : (s.setCtx c f).dom = s.dom := rfl
@[simp] theorem setCtx_dss (c : Nat) (f : Ctx → Ctx) : (s.setCtx c f).dss = s.dss := rfl
@[simp] theorem setCtx_jrnl (c : Nat) (f : Ctx → Ctx) : (s.setCtx c f).jrnl = s.jrnl := rfl
@[simp] theorem setCtx_egs (c : Nat) (f : Ctx → Ctx) : (s.setCtx c f).egs = s.egs := rfl
@[simp] theorem setCtx_sec (c : Nat) (f : Ctx → Ctx) : (s.setCtx c f).sec = s.sec := rfl
@[simp] theorem setCtx_boot (c : Nat) (f : Ctx → Ctx) : (s.setCtx c f).boot = s.boot := rfl
@[simp] theorem setCtx_pm (c : Nat) (f : Ctx → Ctx) : (s.setCtx c f).pm = s.pm := rfl
@[simp] theorem setCtx_ras (c : Nat) (f : Ctx → Ctx) : (s.setCtx c f).ras = s.ras := rfl

/-! ### setStats changes only `ctxs` -/

@[simp] theorem setStats_pending (c : Nat) (f : Stats → Stats) : (s.setStats c f).pending = s.pending := rfl
@[simp] theorem setStats_cycles (c : Nat) (f : Stats → Stats) : (s.setStats c f).cycles = s.cycles := rfl
@[simp] theorem setStats_regs (c : Nat) (f : Stats → Stats) : (s.setStats c f).regs = s.regs := rfl
@[simp] theorem setStats_free (c : Nat) (f : Stats → Stats) : (s.setStats c f).free = s.free := rfl
@[simp] theorem setStats_dead (c : Nat) (f : Stats → Stats) : (s.setStats c f).dead = s.dead := rfl
@[simp] theorem setStats_host (c : Nat) (f : Stats → Stats) : (s.setStats c f).host = s.host := rfl
@[simp] theorem setStats_qdb (c : Nat) (f : Stats → Stats) : (s.setStats c f).qdb = s.qdb := rfl
@[simp] theorem setStats_cmds (c : Nat) (f : Stats → Stats) : (s.setStats c f).cmds = s.cmds := rfl
@[simp] theorem setStats_seq (c : Nat) (f : Stats → Stats) : (s.setStats c f).seq = s.seq := rfl
@[simp] theorem setStats_tier (c : Nat) (f : Stats → Stats) : (s.setStats c f).tier = s.tier := rfl
@[simp] theorem setStats_att (c : Nat) (f : Stats → Stats) : (s.setStats c f).att = s.att := rfl
@[simp] theorem setStats_tab (c : Nat) (f : Stats → Stats) : (s.setStats c f).tab = s.tab := rfl
@[simp] theorem setStats_fxt (c : Nat) (f : Stats → Stats) : (s.setStats c f).fxt = s.fxt := rfl
@[simp] theorem setStats_rem (c : Nat) (f : Stats → Stats) : (s.setStats c f).rem = s.rem := rfl
@[simp] theorem setStats_blank (c : Nat) (f : Stats → Stats) : (s.setStats c f).blank = s.blank := rfl
@[simp] theorem setStats_sch (c : Nat) (f : Stats → Stats) : (s.setStats c f).sch = s.sch := rfl
@[simp] theorem setStats_pwr (c : Nat) (f : Stats → Stats) : (s.setStats c f).pwr = s.pwr := rfl
@[simp] theorem setStats_pxi (c : Nat) (f : Stats → Stats) : (s.setStats c f).pxi = s.pxi := rfl
@[simp] theorem setStats_dom (c : Nat) (f : Stats → Stats) : (s.setStats c f).dom = s.dom := rfl
@[simp] theorem setStats_dss (c : Nat) (f : Stats → Stats) : (s.setStats c f).dss = s.dss := rfl
@[simp] theorem setStats_jrnl (c : Nat) (f : Stats → Stats) : (s.setStats c f).jrnl = s.jrnl := rfl
@[simp] theorem setStats_egs (c : Nat) (f : Stats → Stats) : (s.setStats c f).egs = s.egs := rfl
@[simp] theorem setStats_sec (c : Nat) (f : Stats → Stats) : (s.setStats c f).sec = s.sec := rfl
@[simp] theorem setStats_boot (c : Nat) (f : Stats → Stats) : (s.setStats c f).boot = s.boot := rfl
@[simp] theorem setStats_pm (c : Nat) (f : Stats → Stats) : (s.setStats c f).pm = s.pm := rfl
@[simp] theorem setStats_ras (c : Nat) (f : Stats → Stats) : (s.setStats c f).ras = s.ras := rfl

/-! ### setWq changes only `qdb` -/

@[simp] theorem setWq_pending (q : Nat) (f : Wq → Wq) : (s.setWq q f).pending = s.pending := rfl
@[simp] theorem setWq_cycles (q : Nat) (f : Wq → Wq) : (s.setWq q f).cycles = s.cycles := rfl
@[simp] theorem setWq_regs (q : Nat) (f : Wq → Wq) : (s.setWq q f).regs = s.regs := rfl
@[simp] theorem setWq_free (q : Nat) (f : Wq → Wq) : (s.setWq q f).free = s.free := rfl
@[simp] theorem setWq_dead (q : Nat) (f : Wq → Wq) : (s.setWq q f).dead = s.dead := rfl
@[simp] theorem setWq_host (q : Nat) (f : Wq → Wq) : (s.setWq q f).host = s.host := rfl
@[simp] theorem setWq_cmds (q : Nat) (f : Wq → Wq) : (s.setWq q f).cmds = s.cmds := rfl
@[simp] theorem setWq_ctxs (q : Nat) (f : Wq → Wq) : (s.setWq q f).ctxs = s.ctxs := rfl
@[simp] theorem setWq_seq (q : Nat) (f : Wq → Wq) : (s.setWq q f).seq = s.seq := rfl
@[simp] theorem setWq_tier (q : Nat) (f : Wq → Wq) : (s.setWq q f).tier = s.tier := rfl
@[simp] theorem setWq_att (q : Nat) (f : Wq → Wq) : (s.setWq q f).att = s.att := rfl
@[simp] theorem setWq_tab (q : Nat) (f : Wq → Wq) : (s.setWq q f).tab = s.tab := rfl
@[simp] theorem setWq_fxt (q : Nat) (f : Wq → Wq) : (s.setWq q f).fxt = s.fxt := rfl
@[simp] theorem setWq_rem (q : Nat) (f : Wq → Wq) : (s.setWq q f).rem = s.rem := rfl
@[simp] theorem setWq_blank (q : Nat) (f : Wq → Wq) : (s.setWq q f).blank = s.blank := rfl
@[simp] theorem setWq_sch (q : Nat) (f : Wq → Wq) : (s.setWq q f).sch = s.sch := rfl
@[simp] theorem setWq_pwr (q : Nat) (f : Wq → Wq) : (s.setWq q f).pwr = s.pwr := rfl
@[simp] theorem setWq_pxi (q : Nat) (f : Wq → Wq) : (s.setWq q f).pxi = s.pxi := rfl
@[simp] theorem setWq_dom (q : Nat) (f : Wq → Wq) : (s.setWq q f).dom = s.dom := rfl
@[simp] theorem setWq_dss (q : Nat) (f : Wq → Wq) : (s.setWq q f).dss = s.dss := rfl
@[simp] theorem setWq_jrnl (q : Nat) (f : Wq → Wq) : (s.setWq q f).jrnl = s.jrnl := rfl
@[simp] theorem setWq_egs (q : Nat) (f : Wq → Wq) : (s.setWq q f).egs = s.egs := rfl
@[simp] theorem setWq_sec (q : Nat) (f : Wq → Wq) : (s.setWq q f).sec = s.sec := rfl
@[simp] theorem setWq_boot (q : Nat) (f : Wq → Wq) : (s.setWq q f).boot = s.boot := rfl
@[simp] theorem setWq_pm (q : Nat) (f : Wq → Wq) : (s.setWq q f).pm = s.pm := rfl
@[simp] theorem setWq_ras (q : Nat) (f : Wq → Wq) : (s.setWq q f).ras = s.ras := rfl

/-! ### setCq changes only `qdb` -/

@[simp] theorem setCq_pending (i : Nat) (f : Cq → Cq) : (s.setCq i f).pending = s.pending := rfl
@[simp] theorem setCq_cycles (i : Nat) (f : Cq → Cq) : (s.setCq i f).cycles = s.cycles := rfl
@[simp] theorem setCq_regs (i : Nat) (f : Cq → Cq) : (s.setCq i f).regs = s.regs := rfl
@[simp] theorem setCq_free (i : Nat) (f : Cq → Cq) : (s.setCq i f).free = s.free := rfl
@[simp] theorem setCq_dead (i : Nat) (f : Cq → Cq) : (s.setCq i f).dead = s.dead := rfl
@[simp] theorem setCq_host (i : Nat) (f : Cq → Cq) : (s.setCq i f).host = s.host := rfl
@[simp] theorem setCq_cmds (i : Nat) (f : Cq → Cq) : (s.setCq i f).cmds = s.cmds := rfl
@[simp] theorem setCq_ctxs (i : Nat) (f : Cq → Cq) : (s.setCq i f).ctxs = s.ctxs := rfl
@[simp] theorem setCq_seq (i : Nat) (f : Cq → Cq) : (s.setCq i f).seq = s.seq := rfl
@[simp] theorem setCq_tier (i : Nat) (f : Cq → Cq) : (s.setCq i f).tier = s.tier := rfl
@[simp] theorem setCq_att (i : Nat) (f : Cq → Cq) : (s.setCq i f).att = s.att := rfl
@[simp] theorem setCq_tab (i : Nat) (f : Cq → Cq) : (s.setCq i f).tab = s.tab := rfl
@[simp] theorem setCq_fxt (i : Nat) (f : Cq → Cq) : (s.setCq i f).fxt = s.fxt := rfl
@[simp] theorem setCq_rem (i : Nat) (f : Cq → Cq) : (s.setCq i f).rem = s.rem := rfl
@[simp] theorem setCq_blank (i : Nat) (f : Cq → Cq) : (s.setCq i f).blank = s.blank := rfl
@[simp] theorem setCq_sch (i : Nat) (f : Cq → Cq) : (s.setCq i f).sch = s.sch := rfl
@[simp] theorem setCq_pwr (i : Nat) (f : Cq → Cq) : (s.setCq i f).pwr = s.pwr := rfl
@[simp] theorem setCq_pxi (i : Nat) (f : Cq → Cq) : (s.setCq i f).pxi = s.pxi := rfl
@[simp] theorem setCq_dom (i : Nat) (f : Cq → Cq) : (s.setCq i f).dom = s.dom := rfl
@[simp] theorem setCq_dss (i : Nat) (f : Cq → Cq) : (s.setCq i f).dss = s.dss := rfl
@[simp] theorem setCq_jrnl (i : Nat) (f : Cq → Cq) : (s.setCq i f).jrnl = s.jrnl := rfl
@[simp] theorem setCq_egs (i : Nat) (f : Cq → Cq) : (s.setCq i f).egs = s.egs := rfl
@[simp] theorem setCq_sec (i : Nat) (f : Cq → Cq) : (s.setCq i f).sec = s.sec := rfl
@[simp] theorem setCq_boot (i : Nat) (f : Cq → Cq) : (s.setCq i f).boot = s.boot := rfl
@[simp] theorem setCq_pm (i : Nat) (f : Cq → Cq) : (s.setCq i f).pm = s.pm := rfl
@[simp] theorem setCq_ras (i : Nat) (f : Cq → Cq) : (s.setCq i f).ras = s.ras := rfl

/-! ### setEq changes only `qdb` -/

@[simp] theorem setEq_pending (c : Nat) (f : Eq → Eq) : (s.setEq c f).pending = s.pending := rfl
@[simp] theorem setEq_cycles (c : Nat) (f : Eq → Eq) : (s.setEq c f).cycles = s.cycles := rfl
@[simp] theorem setEq_regs (c : Nat) (f : Eq → Eq) : (s.setEq c f).regs = s.regs := rfl
@[simp] theorem setEq_free (c : Nat) (f : Eq → Eq) : (s.setEq c f).free = s.free := rfl
@[simp] theorem setEq_dead (c : Nat) (f : Eq → Eq) : (s.setEq c f).dead = s.dead := rfl
@[simp] theorem setEq_host (c : Nat) (f : Eq → Eq) : (s.setEq c f).host = s.host := rfl
@[simp] theorem setEq_cmds (c : Nat) (f : Eq → Eq) : (s.setEq c f).cmds = s.cmds := rfl
@[simp] theorem setEq_ctxs (c : Nat) (f : Eq → Eq) : (s.setEq c f).ctxs = s.ctxs := rfl
@[simp] theorem setEq_seq (c : Nat) (f : Eq → Eq) : (s.setEq c f).seq = s.seq := rfl
@[simp] theorem setEq_tier (c : Nat) (f : Eq → Eq) : (s.setEq c f).tier = s.tier := rfl
@[simp] theorem setEq_att (c : Nat) (f : Eq → Eq) : (s.setEq c f).att = s.att := rfl
@[simp] theorem setEq_tab (c : Nat) (f : Eq → Eq) : (s.setEq c f).tab = s.tab := rfl
@[simp] theorem setEq_fxt (c : Nat) (f : Eq → Eq) : (s.setEq c f).fxt = s.fxt := rfl
@[simp] theorem setEq_rem (c : Nat) (f : Eq → Eq) : (s.setEq c f).rem = s.rem := rfl
@[simp] theorem setEq_blank (c : Nat) (f : Eq → Eq) : (s.setEq c f).blank = s.blank := rfl
@[simp] theorem setEq_sch (c : Nat) (f : Eq → Eq) : (s.setEq c f).sch = s.sch := rfl
@[simp] theorem setEq_pwr (c : Nat) (f : Eq → Eq) : (s.setEq c f).pwr = s.pwr := rfl
@[simp] theorem setEq_pxi (c : Nat) (f : Eq → Eq) : (s.setEq c f).pxi = s.pxi := rfl
@[simp] theorem setEq_dom (c : Nat) (f : Eq → Eq) : (s.setEq c f).dom = s.dom := rfl
@[simp] theorem setEq_dss (c : Nat) (f : Eq → Eq) : (s.setEq c f).dss = s.dss := rfl
@[simp] theorem setEq_jrnl (c : Nat) (f : Eq → Eq) : (s.setEq c f).jrnl = s.jrnl := rfl
@[simp] theorem setEq_egs (c : Nat) (f : Eq → Eq) : (s.setEq c f).egs = s.egs := rfl
@[simp] theorem setEq_sec (c : Nat) (f : Eq → Eq) : (s.setEq c f).sec = s.sec := rfl
@[simp] theorem setEq_boot (c : Nat) (f : Eq → Eq) : (s.setEq c f).boot = s.boot := rfl
@[simp] theorem setEq_pm (c : Nat) (f : Eq → Eq) : (s.setEq c f).pm = s.pm := rfl
@[simp] theorem setEq_ras (c : Nat) (f : Eq → Eq) : (s.setEq c f).ras = s.ras := rfl

/-! ### setSeq changes only `seq` -/

@[simp] theorem setSeq_pending (i : Nat) (f : SeqRec → SeqRec) : (s.setSeq i f).pending = s.pending := rfl
@[simp] theorem setSeq_cycles (i : Nat) (f : SeqRec → SeqRec) : (s.setSeq i f).cycles = s.cycles := rfl
@[simp] theorem setSeq_regs (i : Nat) (f : SeqRec → SeqRec) : (s.setSeq i f).regs = s.regs := rfl
@[simp] theorem setSeq_free (i : Nat) (f : SeqRec → SeqRec) : (s.setSeq i f).free = s.free := rfl
@[simp] theorem setSeq_dead (i : Nat) (f : SeqRec → SeqRec) : (s.setSeq i f).dead = s.dead := rfl
@[simp] theorem setSeq_host (i : Nat) (f : SeqRec → SeqRec) : (s.setSeq i f).host = s.host := rfl
@[simp] theorem setSeq_qdb (i : Nat) (f : SeqRec → SeqRec) : (s.setSeq i f).qdb = s.qdb := rfl
@[simp] theorem setSeq_cmds (i : Nat) (f : SeqRec → SeqRec) : (s.setSeq i f).cmds = s.cmds := rfl
@[simp] theorem setSeq_ctxs (i : Nat) (f : SeqRec → SeqRec) : (s.setSeq i f).ctxs = s.ctxs := rfl
@[simp] theorem setSeq_tier (i : Nat) (f : SeqRec → SeqRec) : (s.setSeq i f).tier = s.tier := rfl
@[simp] theorem setSeq_att (i : Nat) (f : SeqRec → SeqRec) : (s.setSeq i f).att = s.att := rfl
@[simp] theorem setSeq_tab (i : Nat) (f : SeqRec → SeqRec) : (s.setSeq i f).tab = s.tab := rfl
@[simp] theorem setSeq_fxt (i : Nat) (f : SeqRec → SeqRec) : (s.setSeq i f).fxt = s.fxt := rfl
@[simp] theorem setSeq_rem (i : Nat) (f : SeqRec → SeqRec) : (s.setSeq i f).rem = s.rem := rfl
@[simp] theorem setSeq_blank (i : Nat) (f : SeqRec → SeqRec) : (s.setSeq i f).blank = s.blank := rfl
@[simp] theorem setSeq_sch (i : Nat) (f : SeqRec → SeqRec) : (s.setSeq i f).sch = s.sch := rfl
@[simp] theorem setSeq_pwr (i : Nat) (f : SeqRec → SeqRec) : (s.setSeq i f).pwr = s.pwr := rfl
@[simp] theorem setSeq_pxi (i : Nat) (f : SeqRec → SeqRec) : (s.setSeq i f).pxi = s.pxi := rfl
@[simp] theorem setSeq_dom (i : Nat) (f : SeqRec → SeqRec) : (s.setSeq i f).dom = s.dom := rfl
@[simp] theorem setSeq_dss (i : Nat) (f : SeqRec → SeqRec) : (s.setSeq i f).dss = s.dss := rfl
@[simp] theorem setSeq_jrnl (i : Nat) (f : SeqRec → SeqRec) : (s.setSeq i f).jrnl = s.jrnl := rfl
@[simp] theorem setSeq_egs (i : Nat) (f : SeqRec → SeqRec) : (s.setSeq i f).egs = s.egs := rfl
@[simp] theorem setSeq_sec (i : Nat) (f : SeqRec → SeqRec) : (s.setSeq i f).sec = s.sec := rfl
@[simp] theorem setSeq_boot (i : Nat) (f : SeqRec → SeqRec) : (s.setSeq i f).boot = s.boot := rfl
@[simp] theorem setSeq_pm (i : Nat) (f : SeqRec → SeqRec) : (s.setSeq i f).pm = s.pm := rfl
@[simp] theorem setSeq_ras (i : Nat) (f : SeqRec → SeqRec) : (s.setSeq i f).ras = s.ras := rfl

/-! ### setPart changes only `seq` -/

@[simp] theorem setPart_pending (p : Nat) (f : Part → Part) : (s.setPart p f).pending = s.pending := rfl
@[simp] theorem setPart_cycles (p : Nat) (f : Part → Part) : (s.setPart p f).cycles = s.cycles := rfl
@[simp] theorem setPart_regs (p : Nat) (f : Part → Part) : (s.setPart p f).regs = s.regs := rfl
@[simp] theorem setPart_free (p : Nat) (f : Part → Part) : (s.setPart p f).free = s.free := rfl
@[simp] theorem setPart_dead (p : Nat) (f : Part → Part) : (s.setPart p f).dead = s.dead := rfl
@[simp] theorem setPart_host (p : Nat) (f : Part → Part) : (s.setPart p f).host = s.host := rfl
@[simp] theorem setPart_qdb (p : Nat) (f : Part → Part) : (s.setPart p f).qdb = s.qdb := rfl
@[simp] theorem setPart_cmds (p : Nat) (f : Part → Part) : (s.setPart p f).cmds = s.cmds := rfl
@[simp] theorem setPart_ctxs (p : Nat) (f : Part → Part) : (s.setPart p f).ctxs = s.ctxs := rfl
@[simp] theorem setPart_tier (p : Nat) (f : Part → Part) : (s.setPart p f).tier = s.tier := rfl
@[simp] theorem setPart_att (p : Nat) (f : Part → Part) : (s.setPart p f).att = s.att := rfl
@[simp] theorem setPart_tab (p : Nat) (f : Part → Part) : (s.setPart p f).tab = s.tab := rfl
@[simp] theorem setPart_fxt (p : Nat) (f : Part → Part) : (s.setPart p f).fxt = s.fxt := rfl
@[simp] theorem setPart_rem (p : Nat) (f : Part → Part) : (s.setPart p f).rem = s.rem := rfl
@[simp] theorem setPart_blank (p : Nat) (f : Part → Part) : (s.setPart p f).blank = s.blank := rfl
@[simp] theorem setPart_sch (p : Nat) (f : Part → Part) : (s.setPart p f).sch = s.sch := rfl
@[simp] theorem setPart_pwr (p : Nat) (f : Part → Part) : (s.setPart p f).pwr = s.pwr := rfl
@[simp] theorem setPart_pxi (p : Nat) (f : Part → Part) : (s.setPart p f).pxi = s.pxi := rfl
@[simp] theorem setPart_dom (p : Nat) (f : Part → Part) : (s.setPart p f).dom = s.dom := rfl
@[simp] theorem setPart_dss (p : Nat) (f : Part → Part) : (s.setPart p f).dss = s.dss := rfl
@[simp] theorem setPart_jrnl (p : Nat) (f : Part → Part) : (s.setPart p f).jrnl = s.jrnl := rfl
@[simp] theorem setPart_egs (p : Nat) (f : Part → Part) : (s.setPart p f).egs = s.egs := rfl
@[simp] theorem setPart_sec (p : Nat) (f : Part → Part) : (s.setPart p f).sec = s.sec := rfl
@[simp] theorem setPart_boot (p : Nat) (f : Part → Part) : (s.setPart p f).boot = s.boot := rfl
@[simp] theorem setPart_pm (p : Nat) (f : Part → Part) : (s.setPart p f).pm = s.pm := rfl
@[simp] theorem setPart_ras (p : Nat) (f : Part → Part) : (s.setPart p f).ras = s.ras := rfl

/-! ### setFrame changes only `tier` -/

@[simp] theorem setFrame_pending (p : Nat) (f : Frame → Frame) : (s.setFrame p f).pending = s.pending := rfl
@[simp] theorem setFrame_cycles (p : Nat) (f : Frame → Frame) : (s.setFrame p f).cycles = s.cycles := rfl
@[simp] theorem setFrame_regs (p : Nat) (f : Frame → Frame) : (s.setFrame p f).regs = s.regs := rfl
@[simp] theorem setFrame_free (p : Nat) (f : Frame → Frame) : (s.setFrame p f).free = s.free := rfl
@[simp] theorem setFrame_dead (p : Nat) (f : Frame → Frame) : (s.setFrame p f).dead = s.dead := rfl
@[simp] theorem setFrame_host (p : Nat) (f : Frame → Frame) : (s.setFrame p f).host = s.host := rfl
@[simp] theorem setFrame_qdb (p : Nat) (f : Frame → Frame) : (s.setFrame p f).qdb = s.qdb := rfl
@[simp] theorem setFrame_cmds (p : Nat) (f : Frame → Frame) : (s.setFrame p f).cmds = s.cmds := rfl
@[simp] theorem setFrame_ctxs (p : Nat) (f : Frame → Frame) : (s.setFrame p f).ctxs = s.ctxs := rfl
@[simp] theorem setFrame_seq (p : Nat) (f : Frame → Frame) : (s.setFrame p f).seq = s.seq := rfl
@[simp] theorem setFrame_att (p : Nat) (f : Frame → Frame) : (s.setFrame p f).att = s.att := rfl
@[simp] theorem setFrame_tab (p : Nat) (f : Frame → Frame) : (s.setFrame p f).tab = s.tab := rfl
@[simp] theorem setFrame_fxt (p : Nat) (f : Frame → Frame) : (s.setFrame p f).fxt = s.fxt := rfl
@[simp] theorem setFrame_rem (p : Nat) (f : Frame → Frame) : (s.setFrame p f).rem = s.rem := rfl
@[simp] theorem setFrame_blank (p : Nat) (f : Frame → Frame) : (s.setFrame p f).blank = s.blank := rfl
@[simp] theorem setFrame_sch (p : Nat) (f : Frame → Frame) : (s.setFrame p f).sch = s.sch := rfl
@[simp] theorem setFrame_pwr (p : Nat) (f : Frame → Frame) : (s.setFrame p f).pwr = s.pwr := rfl
@[simp] theorem setFrame_pxi (p : Nat) (f : Frame → Frame) : (s.setFrame p f).pxi = s.pxi := rfl
@[simp] theorem setFrame_dom (p : Nat) (f : Frame → Frame) : (s.setFrame p f).dom = s.dom := rfl
@[simp] theorem setFrame_dss (p : Nat) (f : Frame → Frame) : (s.setFrame p f).dss = s.dss := rfl
@[simp] theorem setFrame_jrnl (p : Nat) (f : Frame → Frame) : (s.setFrame p f).jrnl = s.jrnl := rfl
@[simp] theorem setFrame_egs (p : Nat) (f : Frame → Frame) : (s.setFrame p f).egs = s.egs := rfl
@[simp] theorem setFrame_sec (p : Nat) (f : Frame → Frame) : (s.setFrame p f).sec = s.sec := rfl
@[simp] theorem setFrame_boot (p : Nat) (f : Frame → Frame) : (s.setFrame p f).boot = s.boot := rfl
@[simp] theorem setFrame_pm (p : Nat) (f : Frame → Frame) : (s.setFrame p f).pm = s.pm := rfl
@[simp] theorem setFrame_ras (p : Nat) (f : Frame → Frame) : (s.setFrame p f).ras = s.ras := rfl

/-! ### reach changes only `cycles` -/

@[simp] theorem reach_pending (t : Nat) : (s.reach t).pending = s.pending := rfl
@[simp] theorem reach_regs (t : Nat) : (s.reach t).regs = s.regs := rfl
@[simp] theorem reach_free (t : Nat) : (s.reach t).free = s.free := rfl
@[simp] theorem reach_dead (t : Nat) : (s.reach t).dead = s.dead := rfl
@[simp] theorem reach_host (t : Nat) : (s.reach t).host = s.host := rfl
@[simp] theorem reach_qdb (t : Nat) : (s.reach t).qdb = s.qdb := rfl
@[simp] theorem reach_cmds (t : Nat) : (s.reach t).cmds = s.cmds := rfl
@[simp] theorem reach_ctxs (t : Nat) : (s.reach t).ctxs = s.ctxs := rfl
@[simp] theorem reach_seq (t : Nat) : (s.reach t).seq = s.seq := rfl
@[simp] theorem reach_tier (t : Nat) : (s.reach t).tier = s.tier := rfl
@[simp] theorem reach_att (t : Nat) : (s.reach t).att = s.att := rfl
@[simp] theorem reach_tab (t : Nat) : (s.reach t).tab = s.tab := rfl
@[simp] theorem reach_fxt (t : Nat) : (s.reach t).fxt = s.fxt := rfl
@[simp] theorem reach_rem (t : Nat) : (s.reach t).rem = s.rem := rfl
@[simp] theorem reach_blank (t : Nat) : (s.reach t).blank = s.blank := rfl
@[simp] theorem reach_sch (t : Nat) : (s.reach t).sch = s.sch := rfl
@[simp] theorem reach_pwr (t : Nat) : (s.reach t).pwr = s.pwr := rfl
@[simp] theorem reach_pxi (t : Nat) : (s.reach t).pxi = s.pxi := rfl
@[simp] theorem reach_dom (t : Nat) : (s.reach t).dom = s.dom := rfl
@[simp] theorem reach_dss (t : Nat) : (s.reach t).dss = s.dss := rfl
@[simp] theorem reach_jrnl (t : Nat) : (s.reach t).jrnl = s.jrnl := rfl
@[simp] theorem reach_egs (t : Nat) : (s.reach t).egs = s.egs := rfl
@[simp] theorem reach_sec (t : Nat) : (s.reach t).sec = s.sec := rfl
@[simp] theorem reach_boot (t : Nat) : (s.reach t).boot = s.boot := rfl
@[simp] theorem reach_pm (t : Nat) : (s.reach t).pm = s.pm := rfl
@[simp] theorem reach_ras (t : Nat) : (s.reach t).ras = s.ras := rfl

/-! ### nextFree changes only `free` -/

@[simp] theorem nextFree_pending : (s.nextFree).pending = s.pending := rfl
@[simp] theorem nextFree_cycles : (s.nextFree).cycles = s.cycles := rfl
@[simp] theorem nextFree_regs : (s.nextFree).regs = s.regs := rfl
@[simp] theorem nextFree_dead : (s.nextFree).dead = s.dead := rfl
@[simp] theorem nextFree_host : (s.nextFree).host = s.host := rfl
@[simp] theorem nextFree_qdb : (s.nextFree).qdb = s.qdb := rfl
@[simp] theorem nextFree_cmds : (s.nextFree).cmds = s.cmds := rfl
@[simp] theorem nextFree_ctxs : (s.nextFree).ctxs = s.ctxs := rfl
@[simp] theorem nextFree_seq : (s.nextFree).seq = s.seq := rfl
@[simp] theorem nextFree_tier : (s.nextFree).tier = s.tier := rfl
@[simp] theorem nextFree_att : (s.nextFree).att = s.att := rfl
@[simp] theorem nextFree_tab : (s.nextFree).tab = s.tab := rfl
@[simp] theorem nextFree_fxt : (s.nextFree).fxt = s.fxt := rfl
@[simp] theorem nextFree_rem : (s.nextFree).rem = s.rem := rfl
@[simp] theorem nextFree_blank : (s.nextFree).blank = s.blank := rfl
@[simp] theorem nextFree_sch : (s.nextFree).sch = s.sch := rfl
@[simp] theorem nextFree_pwr : (s.nextFree).pwr = s.pwr := rfl
@[simp] theorem nextFree_pxi : (s.nextFree).pxi = s.pxi := rfl
@[simp] theorem nextFree_dom : (s.nextFree).dom = s.dom := rfl
@[simp] theorem nextFree_dss : (s.nextFree).dss = s.dss := rfl
@[simp] theorem nextFree_jrnl : (s.nextFree).jrnl = s.jrnl := rfl
@[simp] theorem nextFree_egs : (s.nextFree).egs = s.egs := rfl
@[simp] theorem nextFree_sec : (s.nextFree).sec = s.sec := rfl
@[simp] theorem nextFree_boot : (s.nextFree).boot = s.boot := rfl
@[simp] theorem nextFree_pm : (s.nextFree).pm = s.pm := rfl
@[simp] theorem nextFree_ras : (s.nextFree).ras = s.ras := rfl

/-! ### setTrig changes only `fxt` -/

@[simp] theorem setTrig_pending (n v : Nat) : (s.setTrig n v).pending = s.pending := rfl
@[simp] theorem setTrig_cycles (n v : Nat) : (s.setTrig n v).cycles = s.cycles := rfl
@[simp] theorem setTrig_regs (n v : Nat) : (s.setTrig n v).regs = s.regs := rfl
@[simp] theorem setTrig_free (n v : Nat) : (s.setTrig n v).free = s.free := rfl
@[simp] theorem setTrig_dead (n v : Nat) : (s.setTrig n v).dead = s.dead := rfl
@[simp] theorem setTrig_host (n v : Nat) : (s.setTrig n v).host = s.host := rfl
@[simp] theorem setTrig_qdb (n v : Nat) : (s.setTrig n v).qdb = s.qdb := rfl
@[simp] theorem setTrig_cmds (n v : Nat) : (s.setTrig n v).cmds = s.cmds := rfl
@[simp] theorem setTrig_ctxs (n v : Nat) : (s.setTrig n v).ctxs = s.ctxs := rfl
@[simp] theorem setTrig_seq (n v : Nat) : (s.setTrig n v).seq = s.seq := rfl
@[simp] theorem setTrig_tier (n v : Nat) : (s.setTrig n v).tier = s.tier := rfl
@[simp] theorem setTrig_att (n v : Nat) : (s.setTrig n v).att = s.att := rfl
@[simp] theorem setTrig_tab (n v : Nat) : (s.setTrig n v).tab = s.tab := rfl
@[simp] theorem setTrig_rem (n v : Nat) : (s.setTrig n v).rem = s.rem := rfl
@[simp] theorem setTrig_blank (n v : Nat) : (s.setTrig n v).blank = s.blank := rfl
@[simp] theorem setTrig_sch (n v : Nat) : (s.setTrig n v).sch = s.sch := rfl
@[simp] theorem setTrig_pwr (n v : Nat) : (s.setTrig n v).pwr = s.pwr := rfl
@[simp] theorem setTrig_pxi (n v : Nat) : (s.setTrig n v).pxi = s.pxi := rfl
@[simp] theorem setTrig_dom (n v : Nat) : (s.setTrig n v).dom = s.dom := rfl
@[simp] theorem setTrig_dss (n v : Nat) : (s.setTrig n v).dss = s.dss := rfl
@[simp] theorem setTrig_jrnl (n v : Nat) : (s.setTrig n v).jrnl = s.jrnl := rfl
@[simp] theorem setTrig_egs (n v : Nat) : (s.setTrig n v).egs = s.egs := rfl
@[simp] theorem setTrig_sec (n v : Nat) : (s.setTrig n v).sec = s.sec := rfl
@[simp] theorem setTrig_boot (n v : Nat) : (s.setTrig n v).boot = s.boot := rfl
@[simp] theorem setTrig_pm (n v : Nat) : (s.setTrig n v).pm = s.pm := rfl
@[simp] theorem setTrig_ras (n v : Nat) : (s.setTrig n v).ras = s.ras := rfl

/-! ### setDest changes only `fxt` -/

@[simp] theorem setDest_pending (d : Dest) : (s.setDest d).pending = s.pending := rfl
@[simp] theorem setDest_cycles (d : Dest) : (s.setDest d).cycles = s.cycles := rfl
@[simp] theorem setDest_regs (d : Dest) : (s.setDest d).regs = s.regs := rfl
@[simp] theorem setDest_free (d : Dest) : (s.setDest d).free = s.free := rfl
@[simp] theorem setDest_dead (d : Dest) : (s.setDest d).dead = s.dead := rfl
@[simp] theorem setDest_host (d : Dest) : (s.setDest d).host = s.host := rfl
@[simp] theorem setDest_qdb (d : Dest) : (s.setDest d).qdb = s.qdb := rfl
@[simp] theorem setDest_cmds (d : Dest) : (s.setDest d).cmds = s.cmds := rfl
@[simp] theorem setDest_ctxs (d : Dest) : (s.setDest d).ctxs = s.ctxs := rfl
@[simp] theorem setDest_seq (d : Dest) : (s.setDest d).seq = s.seq := rfl
@[simp] theorem setDest_tier (d : Dest) : (s.setDest d).tier = s.tier := rfl
@[simp] theorem setDest_att (d : Dest) : (s.setDest d).att = s.att := rfl
@[simp] theorem setDest_tab (d : Dest) : (s.setDest d).tab = s.tab := rfl
@[simp] theorem setDest_rem (d : Dest) : (s.setDest d).rem = s.rem := rfl
@[simp] theorem setDest_blank (d : Dest) : (s.setDest d).blank = s.blank := rfl
@[simp] theorem setDest_sch (d : Dest) : (s.setDest d).sch = s.sch := rfl
@[simp] theorem setDest_pwr (d : Dest) : (s.setDest d).pwr = s.pwr := rfl
@[simp] theorem setDest_pxi (d : Dest) : (s.setDest d).pxi = s.pxi := rfl
@[simp] theorem setDest_dom (d : Dest) : (s.setDest d).dom = s.dom := rfl
@[simp] theorem setDest_dss (d : Dest) : (s.setDest d).dss = s.dss := rfl
@[simp] theorem setDest_jrnl (d : Dest) : (s.setDest d).jrnl = s.jrnl := rfl
@[simp] theorem setDest_egs (d : Dest) : (s.setDest d).egs = s.egs := rfl
@[simp] theorem setDest_sec (d : Dest) : (s.setDest d).sec = s.sec := rfl
@[simp] theorem setDest_boot (d : Dest) : (s.setDest d).boot = s.boot := rfl
@[simp] theorem setDest_pm (d : Dest) : (s.setDest d).pm = s.pm := rfl
@[simp] theorem setDest_ras (d : Dest) : (s.setDest d).ras = s.ras := rfl

/-! ### setFxt changes only `fxt` -/

@[simp] theorem setFxt_pending (f : Fabric → Fabric) : (s.setFxt f).pending = s.pending := rfl
@[simp] theorem setFxt_cycles (f : Fabric → Fabric) : (s.setFxt f).cycles = s.cycles := rfl
@[simp] theorem setFxt_regs (f : Fabric → Fabric) : (s.setFxt f).regs = s.regs := rfl
@[simp] theorem setFxt_free (f : Fabric → Fabric) : (s.setFxt f).free = s.free := rfl
@[simp] theorem setFxt_dead (f : Fabric → Fabric) : (s.setFxt f).dead = s.dead := rfl
@[simp] theorem setFxt_host (f : Fabric → Fabric) : (s.setFxt f).host = s.host := rfl
@[simp] theorem setFxt_qdb (f : Fabric → Fabric) : (s.setFxt f).qdb = s.qdb := rfl
@[simp] theorem setFxt_cmds (f : Fabric → Fabric) : (s.setFxt f).cmds = s.cmds := rfl
@[simp] theorem setFxt_ctxs (f : Fabric → Fabric) : (s.setFxt f).ctxs = s.ctxs := rfl
@[simp] theorem setFxt_seq (f : Fabric → Fabric) : (s.setFxt f).seq = s.seq := rfl
@[simp] theorem setFxt_tier (f : Fabric → Fabric) : (s.setFxt f).tier = s.tier := rfl
@[simp] theorem setFxt_att (f : Fabric → Fabric) : (s.setFxt f).att = s.att := rfl
@[simp] theorem setFxt_tab (f : Fabric → Fabric) : (s.setFxt f).tab = s.tab := rfl
@[simp] theorem setFxt_rem (f : Fabric → Fabric) : (s.setFxt f).rem = s.rem := rfl
@[simp] theorem setFxt_blank (f : Fabric → Fabric) : (s.setFxt f).blank = s.blank := rfl
@[simp] theorem setFxt_sch (f : Fabric → Fabric) : (s.setFxt f).sch = s.sch := rfl
@[simp] theorem setFxt_pwr (f : Fabric → Fabric) : (s.setFxt f).pwr = s.pwr := rfl
@[simp] theorem setFxt_pxi (f : Fabric → Fabric) : (s.setFxt f).pxi = s.pxi := rfl
@[simp] theorem setFxt_dom (f : Fabric → Fabric) : (s.setFxt f).dom = s.dom := rfl
@[simp] theorem setFxt_dss (f : Fabric → Fabric) : (s.setFxt f).dss = s.dss := rfl
@[simp] theorem setFxt_jrnl (f : Fabric → Fabric) : (s.setFxt f).jrnl = s.jrnl := rfl
@[simp] theorem setFxt_egs (f : Fabric → Fabric) : (s.setFxt f).egs = s.egs := rfl
@[simp] theorem setFxt_sec (f : Fabric → Fabric) : (s.setFxt f).sec = s.sec := rfl
@[simp] theorem setFxt_boot (f : Fabric → Fabric) : (s.setFxt f).boot = s.boot := rfl
@[simp] theorem setFxt_pm (f : Fabric → Fabric) : (s.setFxt f).pm = s.pm := rfl
@[simp] theorem setFxt_ras (f : Fabric → Fabric) : (s.setFxt f).ras = s.ras := rfl

/-! ### setPxi changes only `pxi` -/

@[simp] theorem setPxi_pending (f : Pxi → Pxi) : (s.setPxi f).pending = s.pending := rfl
@[simp] theorem setPxi_cycles (f : Pxi → Pxi) : (s.setPxi f).cycles = s.cycles := rfl
@[simp] theorem setPxi_regs (f : Pxi → Pxi) : (s.setPxi f).regs = s.regs := rfl
@[simp] theorem setPxi_free (f : Pxi → Pxi) : (s.setPxi f).free = s.free := rfl
@[simp] theorem setPxi_dead (f : Pxi → Pxi) : (s.setPxi f).dead = s.dead := rfl
@[simp] theorem setPxi_host (f : Pxi → Pxi) : (s.setPxi f).host = s.host := rfl
@[simp] theorem setPxi_qdb (f : Pxi → Pxi) : (s.setPxi f).qdb = s.qdb := rfl
@[simp] theorem setPxi_cmds (f : Pxi → Pxi) : (s.setPxi f).cmds = s.cmds := rfl
@[simp] theorem setPxi_ctxs (f : Pxi → Pxi) : (s.setPxi f).ctxs = s.ctxs := rfl
@[simp] theorem setPxi_seq (f : Pxi → Pxi) : (s.setPxi f).seq = s.seq := rfl
@[simp] theorem setPxi_tier (f : Pxi → Pxi) : (s.setPxi f).tier = s.tier := rfl
@[simp] theorem setPxi_att (f : Pxi → Pxi) : (s.setPxi f).att = s.att := rfl
@[simp] theorem setPxi_tab (f : Pxi → Pxi) : (s.setPxi f).tab = s.tab := rfl
@[simp] theorem setPxi_fxt (f : Pxi → Pxi) : (s.setPxi f).fxt = s.fxt := rfl
@[simp] theorem setPxi_rem (f : Pxi → Pxi) : (s.setPxi f).rem = s.rem := rfl
@[simp] theorem setPxi_blank (f : Pxi → Pxi) : (s.setPxi f).blank = s.blank := rfl
@[simp] theorem setPxi_sch (f : Pxi → Pxi) : (s.setPxi f).sch = s.sch := rfl
@[simp] theorem setPxi_pwr (f : Pxi → Pxi) : (s.setPxi f).pwr = s.pwr := rfl
@[simp] theorem setPxi_dom (f : Pxi → Pxi) : (s.setPxi f).dom = s.dom := rfl
@[simp] theorem setPxi_dss (f : Pxi → Pxi) : (s.setPxi f).dss = s.dss := rfl
@[simp] theorem setPxi_jrnl (f : Pxi → Pxi) : (s.setPxi f).jrnl = s.jrnl := rfl
@[simp] theorem setPxi_egs (f : Pxi → Pxi) : (s.setPxi f).egs = s.egs := rfl
@[simp] theorem setPxi_sec (f : Pxi → Pxi) : (s.setPxi f).sec = s.sec := rfl
@[simp] theorem setPxi_boot (f : Pxi → Pxi) : (s.setPxi f).boot = s.boot := rfl
@[simp] theorem setPxi_pm (f : Pxi → Pxi) : (s.setPxi f).pm = s.pm := rfl
@[simp] theorem setPxi_ras (f : Pxi → Pxi) : (s.setPxi f).ras = s.ras := rfl

/-! ### setDom changes only `dom` -/

@[simp] theorem setDom_pending (f : Dom → Dom) : (s.setDom f).pending = s.pending := rfl
@[simp] theorem setDom_cycles (f : Dom → Dom) : (s.setDom f).cycles = s.cycles := rfl
@[simp] theorem setDom_regs (f : Dom → Dom) : (s.setDom f).regs = s.regs := rfl
@[simp] theorem setDom_free (f : Dom → Dom) : (s.setDom f).free = s.free := rfl
@[simp] theorem setDom_dead (f : Dom → Dom) : (s.setDom f).dead = s.dead := rfl
@[simp] theorem setDom_host (f : Dom → Dom) : (s.setDom f).host = s.host := rfl
@[simp] theorem setDom_qdb (f : Dom → Dom) : (s.setDom f).qdb = s.qdb := rfl
@[simp] theorem setDom_cmds (f : Dom → Dom) : (s.setDom f).cmds = s.cmds := rfl
@[simp] theorem setDom_ctxs (f : Dom → Dom) : (s.setDom f).ctxs = s.ctxs := rfl
@[simp] theorem setDom_seq (f : Dom → Dom) : (s.setDom f).seq = s.seq := rfl
@[simp] theorem setDom_tier (f : Dom → Dom) : (s.setDom f).tier = s.tier := rfl
@[simp] theorem setDom_att (f : Dom → Dom) : (s.setDom f).att = s.att := rfl
@[simp] theorem setDom_tab (f : Dom → Dom) : (s.setDom f).tab = s.tab := rfl
@[simp] theorem setDom_fxt (f : Dom → Dom) : (s.setDom f).fxt = s.fxt := rfl
@[simp] theorem setDom_rem (f : Dom → Dom) : (s.setDom f).rem = s.rem := rfl
@[simp] theorem setDom_blank (f : Dom → Dom) : (s.setDom f).blank = s.blank := rfl
@[simp] theorem setDom_sch (f : Dom → Dom) : (s.setDom f).sch = s.sch := rfl
@[simp] theorem setDom_pwr (f : Dom → Dom) : (s.setDom f).pwr = s.pwr := rfl
@[simp] theorem setDom_pxi (f : Dom → Dom) : (s.setDom f).pxi = s.pxi := rfl
@[simp] theorem setDom_dss (f : Dom → Dom) : (s.setDom f).dss = s.dss := rfl
@[simp] theorem setDom_jrnl (f : Dom → Dom) : (s.setDom f).jrnl = s.jrnl := rfl
@[simp] theorem setDom_egs (f : Dom → Dom) : (s.setDom f).egs = s.egs := rfl
@[simp] theorem setDom_sec (f : Dom → Dom) : (s.setDom f).sec = s.sec := rfl
@[simp] theorem setDom_boot (f : Dom → Dom) : (s.setDom f).boot = s.boot := rfl
@[simp] theorem setDom_pm (f : Dom → Dom) : (s.setDom f).pm = s.pm := rfl
@[simp] theorem setDom_ras (f : Dom → Dom) : (s.setDom f).ras = s.ras := rfl

/-! ### setEgs changes only `egs` -/

@[simp] theorem setEgs_pending (f : Egs → Egs) : (s.setEgs f).pending = s.pending := rfl
@[simp] theorem setEgs_cycles (f : Egs → Egs) : (s.setEgs f).cycles = s.cycles := rfl
@[simp] theorem setEgs_regs (f : Egs → Egs) : (s.setEgs f).regs = s.regs := rfl
@[simp] theorem setEgs_free (f : Egs → Egs) : (s.setEgs f).free = s.free := rfl
@[simp] theorem setEgs_dead (f : Egs → Egs) : (s.setEgs f).dead = s.dead := rfl
@[simp] theorem setEgs_host (f : Egs → Egs) : (s.setEgs f).host = s.host := rfl
@[simp] theorem setEgs_qdb (f : Egs → Egs) : (s.setEgs f).qdb = s.qdb := rfl
@[simp] theorem setEgs_cmds (f : Egs → Egs) : (s.setEgs f).cmds = s.cmds := rfl
@[simp] theorem setEgs_ctxs (f : Egs → Egs) : (s.setEgs f).ctxs = s.ctxs := rfl
@[simp] theorem setEgs_seq (f : Egs → Egs) : (s.setEgs f).seq = s.seq := rfl
@[simp] theorem setEgs_tier (f : Egs → Egs) : (s.setEgs f).tier = s.tier := rfl
@[simp] theorem setEgs_att (f : Egs → Egs) : (s.setEgs f).att = s.att := rfl
@[simp] theorem setEgs_tab (f : Egs → Egs) : (s.setEgs f).tab = s.tab := rfl
@[simp] theorem setEgs_fxt (f : Egs → Egs) : (s.setEgs f).fxt = s.fxt := rfl
@[simp] theorem setEgs_rem (f : Egs → Egs) : (s.setEgs f).rem = s.rem := rfl
@[simp] theorem setEgs_blank (f : Egs → Egs) : (s.setEgs f).blank = s.blank := rfl
@[simp] theorem setEgs_sch (f : Egs → Egs) : (s.setEgs f).sch = s.sch := rfl
@[simp] theorem setEgs_pwr (f : Egs → Egs) : (s.setEgs f).pwr = s.pwr := rfl
@[simp] theorem setEgs_pxi (f : Egs → Egs) : (s.setEgs f).pxi = s.pxi := rfl
@[simp] theorem setEgs_dom (f : Egs → Egs) : (s.setEgs f).dom = s.dom := rfl
@[simp] theorem setEgs_dss (f : Egs → Egs) : (s.setEgs f).dss = s.dss := rfl
@[simp] theorem setEgs_jrnl (f : Egs → Egs) : (s.setEgs f).jrnl = s.jrnl := rfl
@[simp] theorem setEgs_sec (f : Egs → Egs) : (s.setEgs f).sec = s.sec := rfl
@[simp] theorem setEgs_boot (f : Egs → Egs) : (s.setEgs f).boot = s.boot := rfl
@[simp] theorem setEgs_pm (f : Egs → Egs) : (s.setEgs f).pm = s.pm := rfl
@[simp] theorem setEgs_ras (f : Egs → Egs) : (s.setEgs f).ras = s.ras := rfl

/-! ### setBoot changes only `boot` -/

@[simp] theorem setBoot_pending (f : Boot → Boot) : (s.setBoot f).pending = s.pending := rfl
@[simp] theorem setBoot_cycles (f : Boot → Boot) : (s.setBoot f).cycles = s.cycles := rfl
@[simp] theorem setBoot_regs (f : Boot → Boot) : (s.setBoot f).regs = s.regs := rfl
@[simp] theorem setBoot_free (f : Boot → Boot) : (s.setBoot f).free = s.free := rfl
@[simp] theorem setBoot_dead (f : Boot → Boot) : (s.setBoot f).dead = s.dead := rfl
@[simp] theorem setBoot_host (f : Boot → Boot) : (s.setBoot f).host = s.host := rfl
@[simp] theorem setBoot_qdb (f : Boot → Boot) : (s.setBoot f).qdb = s.qdb := rfl
@[simp] theorem setBoot_cmds (f : Boot → Boot) : (s.setBoot f).cmds = s.cmds := rfl
@[simp] theorem setBoot_ctxs (f : Boot → Boot) : (s.setBoot f).ctxs = s.ctxs := rfl
@[simp] theorem setBoot_seq (f : Boot → Boot) : (s.setBoot f).seq = s.seq := rfl
@[simp] theorem setBoot_tier (f : Boot → Boot) : (s.setBoot f).tier = s.tier := rfl
@[simp] theorem setBoot_att (f : Boot → Boot) : (s.setBoot f).att = s.att := rfl
@[simp] theorem setBoot_tab (f : Boot → Boot) : (s.setBoot f).tab = s.tab := rfl
@[simp] theorem setBoot_fxt (f : Boot → Boot) : (s.setBoot f).fxt = s.fxt := rfl
@[simp] theorem setBoot_rem (f : Boot → Boot) : (s.setBoot f).rem = s.rem := rfl
@[simp] theorem setBoot_blank (f : Boot → Boot) : (s.setBoot f).blank = s.blank := rfl
@[simp] theorem setBoot_sch (f : Boot → Boot) : (s.setBoot f).sch = s.sch := rfl
@[simp] theorem setBoot_pwr (f : Boot → Boot) : (s.setBoot f).pwr = s.pwr := rfl
@[simp] theorem setBoot_pxi (f : Boot → Boot) : (s.setBoot f).pxi = s.pxi := rfl
@[simp] theorem setBoot_dom (f : Boot → Boot) : (s.setBoot f).dom = s.dom := rfl
@[simp] theorem setBoot_dss (f : Boot → Boot) : (s.setBoot f).dss = s.dss := rfl
@[simp] theorem setBoot_jrnl (f : Boot → Boot) : (s.setBoot f).jrnl = s.jrnl := rfl
@[simp] theorem setBoot_egs (f : Boot → Boot) : (s.setBoot f).egs = s.egs := rfl
@[simp] theorem setBoot_sec (f : Boot → Boot) : (s.setBoot f).sec = s.sec := rfl
@[simp] theorem setBoot_pm (f : Boot → Boot) : (s.setBoot f).pm = s.pm := rfl
@[simp] theorem setBoot_ras (f : Boot → Boot) : (s.setBoot f).ras = s.ras := rfl

/-! ### setHost changes only `host` -/

@[simp] theorem setHost_pending (f : HostIf → HostIf) : (s.setHost f).pending = s.pending := rfl
@[simp] theorem setHost_cycles (f : HostIf → HostIf) : (s.setHost f).cycles = s.cycles := rfl
@[simp] theorem setHost_regs (f : HostIf → HostIf) : (s.setHost f).regs = s.regs := rfl
@[simp] theorem setHost_free (f : HostIf → HostIf) : (s.setHost f).free = s.free := rfl
@[simp] theorem setHost_dead (f : HostIf → HostIf) : (s.setHost f).dead = s.dead := rfl
@[simp] theorem setHost_qdb (f : HostIf → HostIf) : (s.setHost f).qdb = s.qdb := rfl
@[simp] theorem setHost_cmds (f : HostIf → HostIf) : (s.setHost f).cmds = s.cmds := rfl
@[simp] theorem setHost_ctxs (f : HostIf → HostIf) : (s.setHost f).ctxs = s.ctxs := rfl
@[simp] theorem setHost_seq (f : HostIf → HostIf) : (s.setHost f).seq = s.seq := rfl
@[simp] theorem setHost_tier (f : HostIf → HostIf) : (s.setHost f).tier = s.tier := rfl
@[simp] theorem setHost_att (f : HostIf → HostIf) : (s.setHost f).att = s.att := rfl
@[simp] theorem setHost_tab (f : HostIf → HostIf) : (s.setHost f).tab = s.tab := rfl
@[simp] theorem setHost_fxt (f : HostIf → HostIf) : (s.setHost f).fxt = s.fxt := rfl
@[simp] theorem setHost_rem (f : HostIf → HostIf) : (s.setHost f).rem = s.rem := rfl
@[simp] theorem setHost_blank (f : HostIf → HostIf) : (s.setHost f).blank = s.blank := rfl
@[simp] theorem setHost_sch (f : HostIf → HostIf) : (s.setHost f).sch = s.sch := rfl
@[simp] theorem setHost_pwr (f : HostIf → HostIf) : (s.setHost f).pwr = s.pwr := rfl
@[simp] theorem setHost_pxi (f : HostIf → HostIf) : (s.setHost f).pxi = s.pxi := rfl
@[simp] theorem setHost_dom (f : HostIf → HostIf) : (s.setHost f).dom = s.dom := rfl
@[simp] theorem setHost_dss (f : HostIf → HostIf) : (s.setHost f).dss = s.dss := rfl
@[simp] theorem setHost_jrnl (f : HostIf → HostIf) : (s.setHost f).jrnl = s.jrnl := rfl
@[simp] theorem setHost_egs (f : HostIf → HostIf) : (s.setHost f).egs = s.egs := rfl
@[simp] theorem setHost_sec (f : HostIf → HostIf) : (s.setHost f).sec = s.sec := rfl
@[simp] theorem setHost_boot (f : HostIf → HostIf) : (s.setHost f).boot = s.boot := rfl
@[simp] theorem setHost_pm (f : HostIf → HostIf) : (s.setHost f).pm = s.pm := rfl
@[simp] theorem setHost_ras (f : HostIf → HostIf) : (s.setHost f).ras = s.ras := rfl

/-! ### setPm changes only `pm` -/

@[simp] theorem setPm_pending (f : Pm → Pm) : (s.setPm f).pending = s.pending := rfl
@[simp] theorem setPm_cycles (f : Pm → Pm) : (s.setPm f).cycles = s.cycles := rfl
@[simp] theorem setPm_regs (f : Pm → Pm) : (s.setPm f).regs = s.regs := rfl
@[simp] theorem setPm_free (f : Pm → Pm) : (s.setPm f).free = s.free := rfl
@[simp] theorem setPm_dead (f : Pm → Pm) : (s.setPm f).dead = s.dead := rfl
@[simp] theorem setPm_host (f : Pm → Pm) : (s.setPm f).host = s.host := rfl
@[simp] theorem setPm_qdb (f : Pm → Pm) : (s.setPm f).qdb = s.qdb := rfl
@[simp] theorem setPm_cmds (f : Pm → Pm) : (s.setPm f).cmds = s.cmds := rfl
@[simp] theorem setPm_ctxs (f : Pm → Pm) : (s.setPm f).ctxs = s.ctxs := rfl
@[simp] theorem setPm_seq (f : Pm → Pm) : (s.setPm f).seq = s.seq := rfl
@[simp] theorem setPm_tier (f : Pm → Pm) : (s.setPm f).tier = s.tier := rfl
@[simp] theorem setPm_att (f : Pm → Pm) : (s.setPm f).att = s.att := rfl
@[simp] theorem setPm_tab (f : Pm → Pm) : (s.setPm f).tab = s.tab := rfl
@[simp] theorem setPm_fxt (f : Pm → Pm) : (s.setPm f).fxt = s.fxt := rfl
@[simp] theorem setPm_rem (f : Pm → Pm) : (s.setPm f).rem = s.rem := rfl
@[simp] theorem setPm_blank (f : Pm → Pm) : (s.setPm f).blank = s.blank := rfl
@[simp] theorem setPm_sch (f : Pm → Pm) : (s.setPm f).sch = s.sch := rfl
@[simp] theorem setPm_pwr (f : Pm → Pm) : (s.setPm f).pwr = s.pwr := rfl
@[simp] theorem setPm_pxi (f : Pm → Pm) : (s.setPm f).pxi = s.pxi := rfl
@[simp] theorem setPm_dom (f : Pm → Pm) : (s.setPm f).dom = s.dom := rfl
@[simp] theorem setPm_dss (f : Pm → Pm) : (s.setPm f).dss = s.dss := rfl
@[simp] theorem setPm_jrnl (f : Pm → Pm) : (s.setPm f).jrnl = s.jrnl := rfl
@[simp] theorem setPm_egs (f : Pm → Pm) : (s.setPm f).egs = s.egs := rfl
@[simp] theorem setPm_sec (f : Pm → Pm) : (s.setPm f).sec = s.sec := rfl
@[simp] theorem setPm_boot (f : Pm → Pm) : (s.setPm f).boot = s.boot := rfl
@[simp] theorem setPm_ras (f : Pm → Pm) : (s.setPm f).ras = s.ras := rfl

/-! ### setPwr changes only `pwr` -/

@[simp] theorem setPwr_pending (f : Pwr → Pwr) : (s.setPwr f).pending = s.pending := rfl
@[simp] theorem setPwr_cycles (f : Pwr → Pwr) : (s.setPwr f).cycles = s.cycles := rfl
@[simp] theorem setPwr_regs (f : Pwr → Pwr) : (s.setPwr f).regs = s.regs := rfl
@[simp] theorem setPwr_free (f : Pwr → Pwr) : (s.setPwr f).free = s.free := rfl
@[simp] theorem setPwr_dead (f : Pwr → Pwr) : (s.setPwr f).dead = s.dead := rfl
@[simp] theorem setPwr_host (f : Pwr → Pwr) : (s.setPwr f).host = s.host := rfl
@[simp] theorem setPwr_qdb (f : Pwr → Pwr) : (s.setPwr f).qdb = s.qdb := rfl
@[simp] theorem setPwr_cmds (f : Pwr → Pwr) : (s.setPwr f).cmds = s.cmds := rfl
@[simp] theorem setPwr_ctxs (f : Pwr → Pwr) : (s.setPwr f).ctxs = s.ctxs := rfl
@[simp] theorem setPwr_seq (f : Pwr → Pwr) : (s.setPwr f).seq = s.seq := rfl
@[simp] theorem setPwr_tier (f : Pwr → Pwr) : (s.setPwr f).tier = s.tier := rfl
@[simp] theorem setPwr_att (f : Pwr → Pwr) : (s.setPwr f).att = s.att := rfl
@[simp] theorem setPwr_tab (f : Pwr → Pwr) : (s.setPwr f).tab = s.tab := rfl
@[simp] theorem setPwr_fxt (f : Pwr → Pwr) : (s.setPwr f).fxt = s.fxt := rfl
@[simp] theorem setPwr_rem (f : Pwr → Pwr) : (s.setPwr f).rem = s.rem := rfl
@[simp] theorem setPwr_blank (f : Pwr → Pwr) : (s.setPwr f).blank = s.blank := rfl
@[simp] theorem setPwr_sch (f : Pwr → Pwr) : (s.setPwr f).sch = s.sch := rfl
@[simp] theorem setPwr_pxi (f : Pwr → Pwr) : (s.setPwr f).pxi = s.pxi := rfl
@[simp] theorem setPwr_dom (f : Pwr → Pwr) : (s.setPwr f).dom = s.dom := rfl
@[simp] theorem setPwr_dss (f : Pwr → Pwr) : (s.setPwr f).dss = s.dss := rfl
@[simp] theorem setPwr_jrnl (f : Pwr → Pwr) : (s.setPwr f).jrnl = s.jrnl := rfl
@[simp] theorem setPwr_egs (f : Pwr → Pwr) : (s.setPwr f).egs = s.egs := rfl
@[simp] theorem setPwr_sec (f : Pwr → Pwr) : (s.setPwr f).sec = s.sec := rfl
@[simp] theorem setPwr_boot (f : Pwr → Pwr) : (s.setPwr f).boot = s.boot := rfl
@[simp] theorem setPwr_pm (f : Pwr → Pwr) : (s.setPwr f).pm = s.pm := rfl
@[simp] theorem setPwr_ras (f : Pwr → Pwr) : (s.setPwr f).ras = s.ras := rfl

/-! ### setSec changes only `sec` -/

@[simp] theorem setSec_pending (f : Sec → Sec) : (s.setSec f).pending = s.pending := rfl
@[simp] theorem setSec_cycles (f : Sec → Sec) : (s.setSec f).cycles = s.cycles := rfl
@[simp] theorem setSec_regs (f : Sec → Sec) : (s.setSec f).regs = s.regs := rfl
@[simp] theorem setSec_free (f : Sec → Sec) : (s.setSec f).free = s.free := rfl
@[simp] theorem setSec_dead (f : Sec → Sec) : (s.setSec f).dead = s.dead := rfl
@[simp] theorem setSec_host (f : Sec → Sec) : (s.setSec f).host = s.host := rfl
@[simp] theorem setSec_qdb (f : Sec → Sec) : (s.setSec f).qdb = s.qdb := rfl
@[simp] theorem setSec_cmds (f : Sec → Sec) : (s.setSec f).cmds = s.cmds := rfl
@[simp] theorem setSec_ctxs (f : Sec → Sec) : (s.setSec f).ctxs = s.ctxs := rfl
@[simp] theorem setSec_seq (f : Sec → Sec) : (s.setSec f).seq = s.seq := rfl
@[simp] theorem setSec_tier (f : Sec → Sec) : (s.setSec f).tier = s.tier := rfl
@[simp] theorem setSec_att (f : Sec → Sec) : (s.setSec f).att = s.att := rfl
@[simp] theorem setSec_tab (f : Sec → Sec) : (s.setSec f).tab = s.tab := rfl
@[simp] theorem setSec_fxt (f : Sec → Sec) : (s.setSec f).fxt = s.fxt := rfl
@[simp] theorem setSec_rem (f : Sec → Sec) : (s.setSec f).rem = s.rem := rfl
@[simp] theorem setSec_blank (f : Sec → Sec) : (s.setSec f).blank = s.blank := rfl
@[simp] theorem setSec_sch (f : Sec → Sec) : (s.setSec f).sch = s.sch := rfl
@[simp] theorem setSec_pwr (f : Sec → Sec) : (s.setSec f).pwr = s.pwr := rfl
@[simp] theorem setSec_pxi (f : Sec → Sec) : (s.setSec f).pxi = s.pxi := rfl
@[simp] theorem setSec_dom (f : Sec → Sec) : (s.setSec f).dom = s.dom := rfl
@[simp] theorem setSec_dss (f : Sec → Sec) : (s.setSec f).dss = s.dss := rfl
@[simp] theorem setSec_jrnl (f : Sec → Sec) : (s.setSec f).jrnl = s.jrnl := rfl
@[simp] theorem setSec_egs (f : Sec → Sec) : (s.setSec f).egs = s.egs := rfl
@[simp] theorem setSec_boot (f : Sec → Sec) : (s.setSec f).boot = s.boot := rfl
@[simp] theorem setSec_pm (f : Sec → Sec) : (s.setSec f).pm = s.pm := rfl
@[simp] theorem setSec_ras (f : Sec → Sec) : (s.setSec f).ras = s.ras := rfl

/-! ### setMka changes only `sec` -/

@[simp] theorem setMka_pending (i : Nat) (f : MacSec → MacSec) : (s.setMka i f).pending = s.pending := rfl
@[simp] theorem setMka_cycles (i : Nat) (f : MacSec → MacSec) : (s.setMka i f).cycles = s.cycles := rfl
@[simp] theorem setMka_regs (i : Nat) (f : MacSec → MacSec) : (s.setMka i f).regs = s.regs := rfl
@[simp] theorem setMka_free (i : Nat) (f : MacSec → MacSec) : (s.setMka i f).free = s.free := rfl
@[simp] theorem setMka_dead (i : Nat) (f : MacSec → MacSec) : (s.setMka i f).dead = s.dead := rfl
@[simp] theorem setMka_host (i : Nat) (f : MacSec → MacSec) : (s.setMka i f).host = s.host := rfl
@[simp] theorem setMka_qdb (i : Nat) (f : MacSec → MacSec) : (s.setMka i f).qdb = s.qdb := rfl
@[simp] theorem setMka_cmds (i : Nat) (f : MacSec → MacSec) : (s.setMka i f).cmds = s.cmds := rfl
@[simp] theorem setMka_ctxs (i : Nat) (f : MacSec → MacSec) : (s.setMka i f).ctxs = s.ctxs := rfl
@[simp] theorem setMka_seq (i : Nat) (f : MacSec → MacSec) : (s.setMka i f).seq = s.seq := rfl
@[simp] theorem setMka_tier (i : Nat) (f : MacSec → MacSec) : (s.setMka i f).tier = s.tier := rfl
@[simp] theorem setMka_att (i : Nat) (f : MacSec → MacSec) : (s.setMka i f).att = s.att := rfl
@[simp] theorem setMka_tab (i : Nat) (f : MacSec → MacSec) : (s.setMka i f).tab = s.tab := rfl
@[simp] theorem setMka_fxt (i : Nat) (f : MacSec → MacSec) : (s.setMka i f).fxt = s.fxt := rfl
@[simp] theorem setMka_rem (i : Nat) (f : MacSec → MacSec) : (s.setMka i f).rem = s.rem := rfl
@[simp] theorem setMka_blank (i : Nat) (f : MacSec → MacSec) : (s.setMka i f).blank = s.blank := rfl
@[simp] theorem setMka_sch (i : Nat) (f : MacSec → MacSec) : (s.setMka i f).sch = s.sch := rfl
@[simp] theorem setMka_pwr (i : Nat) (f : MacSec → MacSec) : (s.setMka i f).pwr = s.pwr := rfl
@[simp] theorem setMka_pxi (i : Nat) (f : MacSec → MacSec) : (s.setMka i f).pxi = s.pxi := rfl
@[simp] theorem setMka_dom (i : Nat) (f : MacSec → MacSec) : (s.setMka i f).dom = s.dom := rfl
@[simp] theorem setMka_dss (i : Nat) (f : MacSec → MacSec) : (s.setMka i f).dss = s.dss := rfl
@[simp] theorem setMka_jrnl (i : Nat) (f : MacSec → MacSec) : (s.setMka i f).jrnl = s.jrnl := rfl
@[simp] theorem setMka_egs (i : Nat) (f : MacSec → MacSec) : (s.setMka i f).egs = s.egs := rfl
@[simp] theorem setMka_boot (i : Nat) (f : MacSec → MacSec) : (s.setMka i f).boot = s.boot := rfl
@[simp] theorem setMka_pm (i : Nat) (f : MacSec → MacSec) : (s.setMka i f).pm = s.pm := rfl
@[simp] theorem setMka_ras (i : Nat) (f : MacSec → MacSec) : (s.setMka i f).ras = s.ras := rfl

/-! ### saDown changes only `sec` -/

@[simp] theorem saDown_pending (l : List Nat) : (s.saDown l).pending = s.pending := rfl
@[simp] theorem saDown_cycles (l : List Nat) : (s.saDown l).cycles = s.cycles := rfl
@[simp] theorem saDown_regs (l : List Nat) : (s.saDown l).regs = s.regs := rfl
@[simp] theorem saDown_free (l : List Nat) : (s.saDown l).free = s.free := rfl
@[simp] theorem saDown_dead (l : List Nat) : (s.saDown l).dead = s.dead := rfl
@[simp] theorem saDown_host (l : List Nat) : (s.saDown l).host = s.host := rfl
@[simp] theorem saDown_qdb (l : List Nat) : (s.saDown l).qdb = s.qdb := rfl
@[simp] theorem saDown_cmds (l : List Nat) : (s.saDown l).cmds = s.cmds := rfl
@[simp] theorem saDown_ctxs (l : List Nat) : (s.saDown l).ctxs = s.ctxs := rfl
@[simp] theorem saDown_seq (l : List Nat) : (s.saDown l).seq = s.seq := rfl
@[simp] theorem saDown_tier (l : List Nat) : (s.saDown l).tier = s.tier := rfl
@[simp] theorem saDown_att (l : List Nat) : (s.saDown l).att = s.att := rfl
@[simp] theorem saDown_tab (l : List Nat) : (s.saDown l).tab = s.tab := rfl
@[simp] theorem saDown_fxt (l : List Nat) : (s.saDown l).fxt = s.fxt := rfl
@[simp] theorem saDown_rem (l : List Nat) : (s.saDown l).rem = s.rem := rfl
@[simp] theorem saDown_blank (l : List Nat) : (s.saDown l).blank = s.blank := rfl
@[simp] theorem saDown_sch (l : List Nat) : (s.saDown l).sch = s.sch := rfl
@[simp] theorem saDown_pwr (l : List Nat) : (s.saDown l).pwr = s.pwr := rfl
@[simp] theorem saDown_pxi (l : List Nat) : (s.saDown l).pxi = s.pxi := rfl
@[simp] theorem saDown_dom (l : List Nat) : (s.saDown l).dom = s.dom := rfl
@[simp] theorem saDown_dss (l : List Nat) : (s.saDown l).dss = s.dss := rfl
@[simp] theorem saDown_jrnl (l : List Nat) : (s.saDown l).jrnl = s.jrnl := rfl
@[simp] theorem saDown_egs (l : List Nat) : (s.saDown l).egs = s.egs := rfl
@[simp] theorem saDown_boot (l : List Nat) : (s.saDown l).boot = s.boot := rfl
@[simp] theorem saDown_pm (l : List Nat) : (s.saDown l).pm = s.pm := rfl
@[simp] theorem saDown_ras (l : List Nat) : (s.saDown l).ras = s.ras := rfl

/-! ### A packet number heard changes only `sec` -/

@[simp] theorem heardPn_regs (x : RxFrame) : (s.heardPn x).regs = s.regs := by unfold State.heardPn; split <;> rfl
@[simp] theorem heardPn_fld (x : RxFrame) (f : Fld) (i c : Nat) : (s.heardPn x).fld f i c = s.fld f i c := by
  unfold State.heardPn; split <;> rfl
@[simp] theorem heardPn_fxt (x : RxFrame) : (s.heardPn x).fxt = s.fxt := by unfold State.heardPn; split <;> rfl
@[simp] theorem heardPn_dead (x : RxFrame) : (s.heardPn x).dead = s.dead := by unfold State.heardPn; split <;> rfl
@[simp] theorem heardPn_cycles (x : RxFrame) : (s.heardPn x).cycles = s.cycles := by unfold State.heardPn; split <;> rfl
@[simp] theorem heardPn_host (x : RxFrame) : (s.heardPn x).host = s.host := by unfold State.heardPn; split <;> rfl
@[simp] theorem heardPn_egs (x : RxFrame) : (s.heardPn x).egs = s.egs := by unfold State.heardPn; split <;> rfl
@[simp] theorem heardPn_tier (x : RxFrame) : (s.heardPn x).tier = s.tier := by unfold State.heardPn; split <;> rfl

/-! ### setAtt changes only `att` -/

@[simp] theorem setAtt_pending (c : CmdId) (f : Att → Att) : (s.setAtt c f).pending = s.pending := rfl
@[simp] theorem setAtt_cycles (c : CmdId) (f : Att → Att) : (s.setAtt c f).cycles = s.cycles := rfl
@[simp] theorem setAtt_regs (c : CmdId) (f : Att → Att) : (s.setAtt c f).regs = s.regs := rfl
@[simp] theorem setAtt_free (c : CmdId) (f : Att → Att) : (s.setAtt c f).free = s.free := rfl
@[simp] theorem setAtt_dead (c : CmdId) (f : Att → Att) : (s.setAtt c f).dead = s.dead := rfl
@[simp] theorem setAtt_host (c : CmdId) (f : Att → Att) : (s.setAtt c f).host = s.host := rfl
@[simp] theorem setAtt_qdb (c : CmdId) (f : Att → Att) : (s.setAtt c f).qdb = s.qdb := rfl
@[simp] theorem setAtt_cmds (c : CmdId) (f : Att → Att) : (s.setAtt c f).cmds = s.cmds := rfl
@[simp] theorem setAtt_ctxs (c : CmdId) (f : Att → Att) : (s.setAtt c f).ctxs = s.ctxs := rfl
@[simp] theorem setAtt_seq (c : CmdId) (f : Att → Att) : (s.setAtt c f).seq = s.seq := rfl
@[simp] theorem setAtt_tier (c : CmdId) (f : Att → Att) : (s.setAtt c f).tier = s.tier := rfl
@[simp] theorem setAtt_tab (c : CmdId) (f : Att → Att) : (s.setAtt c f).tab = s.tab := rfl
@[simp] theorem setAtt_fxt (c : CmdId) (f : Att → Att) : (s.setAtt c f).fxt = s.fxt := rfl
@[simp] theorem setAtt_rem (c : CmdId) (f : Att → Att) : (s.setAtt c f).rem = s.rem := rfl
@[simp] theorem setAtt_blank (c : CmdId) (f : Att → Att) : (s.setAtt c f).blank = s.blank := rfl
@[simp] theorem setAtt_sch (c : CmdId) (f : Att → Att) : (s.setAtt c f).sch = s.sch := rfl
@[simp] theorem setAtt_pwr (c : CmdId) (f : Att → Att) : (s.setAtt c f).pwr = s.pwr := rfl
@[simp] theorem setAtt_pxi (c : CmdId) (f : Att → Att) : (s.setAtt c f).pxi = s.pxi := rfl
@[simp] theorem setAtt_dom (c : CmdId) (f : Att → Att) : (s.setAtt c f).dom = s.dom := rfl
@[simp] theorem setAtt_dss (c : CmdId) (f : Att → Att) : (s.setAtt c f).dss = s.dss := rfl
@[simp] theorem setAtt_jrnl (c : CmdId) (f : Att → Att) : (s.setAtt c f).jrnl = s.jrnl := rfl
@[simp] theorem setAtt_egs (c : CmdId) (f : Att → Att) : (s.setAtt c f).egs = s.egs := rfl
@[simp] theorem setAtt_sec (c : CmdId) (f : Att → Att) : (s.setAtt c f).sec = s.sec := rfl
@[simp] theorem setAtt_boot (c : CmdId) (f : Att → Att) : (s.setAtt c f).boot = s.boot := rfl
@[simp] theorem setAtt_pm (c : CmdId) (f : Att → Att) : (s.setAtt c f).pm = s.pm := rfl
@[simp] theorem setAtt_ras (c : CmdId) (f : Att → Att) : (s.setAtt c f).ras = s.ras := rfl

end Sys2Proof.Machine
end

