-- ==== Sys2Proof/Safety.lean ====
section
/-! DEFINITION. The terms in which claims are stated: canonical states, commands that may start, and what running one means. -/

namespace Sys2Proof.Machine

/-- The bytes of HBM regions are in canonical form: offsets strictly rising, no zero byte listed. -/
def State.memWf (s : State) : Prop := spWf 0 s.fxt.mem = true

/-- The register file is in canonical order, and so are the trigger counters. -/
def State.trigWf (s : State) : Prop := spWf 0 s.fxt.trig = true

/-- Command `k` waits in the in-flight table, all it waits for has arrived, and the ordering rules let it start (R105 to R108). -/
def State.startable (s : State) (k : Cmd) : Prop :=
  s.cmd? k.id = some k ∧ k.st = .waiting ∧ k.owed = 0 ∧ k.fail = none ∧ s.mayStart k = true ∧ s.spilledAny k = false

/-- The state in which a command that has started acts. -/
def State.started (s : State) (k : Cmd) : State := s.startCmd k.id k.ctx

/-- The command as it then stands in the table. -/
def State.startedCmd (s : State) (k : Cmd) : Cmd := { k with st := .running, tlvl := max k.tlvl s.level }

/-- Such a command of opcode `op`. -/
def State.begins (s : State) (k : Cmd) (op : Nat) : Prop := s.startable k ∧ dOp k.desc = op

/-- A started command of opcode `op` runs again: nothing it asked for is owed, and nothing of it has failed. -/
def State.resumes (s : State) (k : Cmd) (op : Nat) : Prop :=
  s.cmd? k.id = some k ∧ k.st = .running ∧ k.owed = 0 ∧ k.fail = none ∧ dOp k.desc = op

/-- Block registers whose writes do more than store their fields. -/
def hooked : List Nat :=
  [0x40, 0x100, 0x300A00, 0x380008, 0x501000, 0x500300, 0x600100, 0x780000, 0xA00204, 0xA0044C, 0xB00104, 0xB00204, 0xB00300, 0xB40000,
   0xF01020, 0xF02010]

/-- A write of the register stores its fields and does nothing else. -/
def RegD.plain (r : RegD) : Bool := !r.win && !hooked.contains r.addr && (decide (r.addr < 0xD00000) || decide (0xE00000 ≤ r.addr))

/-- The window of context `x` answers function `f`. -/
def State.windowOf (s : State) (f : Nat) (x : Ctx) : Prop := s.ctx? x.r.ctx = some x ∧ x.r.func = f

/-- A queue operation of function `f` on its own context `x` is taken (R89, R402, R497). -/
def State.qReady (s : State) (f : Nat) (x : Ctx) : Prop :=
  s.windowOf f x ∧ x.st = .up ∧ s.fld F.CTXW_QSTAT_BUSY 0 x.r.ctx = 0 ∧ s.asleep = false

/-- Registers of block rows are within the PF's reach: boot is complete. -/
def State.pfReady (s : State) : Prop := s.sec.booted = true

/-- A frame passes the link and header checks while the part runs, and its packet number and its source are taken as `u` records them (R331, R333, R344). -/
def State.hears (s : State) (x : RxFrame) (u : State) : Prop :=
  s.dead = false ∧ s.fld F.GLB_PM_STAT_STATE ≠ 1 ∧ s.tstFab x.iface false = false ∧ s.linkCheck x = none ∧
    (s.heardPn x).incCheck x.p = some u ∧ u.fld F.GLB_PM_STAT_STATE ≠ 1

/-- Messages of the domain are heard: no device-level error, and not IDLE. -/
def State.listening (s : State) : Prop := s.dead = false ∧ s.fld F.GLB_PM_STAT_STATE ≠ 1

/-- So are the others: not in HOLD or PARK, nor leaving them. -/
def State.open_ (s : State) : Prop := s.listening ∧ s.asleep = false

/-- What a part that heeds a heartbeat answers: a voter by renewing its promise, if it may. -/
def State.hbReply (s : State) (src e : Nat) : State :=
  if s.isVoter then (if (s.renew src e).2 then (s.renew src e).1.svc src (.hbAck e) else (s.renew src e).1)
  else s.svc src (.hbAck e)

/-- The session has been heard from now. -/
def State.heard (s : State) (sess : Nat) : State :=
  s.setSec fun y => { y with sessions := updIf y.sessions (fun z => z.id == sess) fun z => { z with lastAt := s.cycles } }

/-- The fuses of `s` are those of `f`, some more of them blown (R430, R449, R450). -/
def State.fusesSince (s : State) (f : Fuses) : Prop :=
  let g := s.sec.fuses
  (g.uds = f.uds ∨ g.uds = udsBurned) ∧ g.devN = f.devN ∧ g.devD = f.devD ∧ g.serial = f.serial ∧ f.epoch ≤ g.epoch ∧
    (∀ r ∈ f.ahnoonRevoked, r ∈ g.ahnoonRevoked) ∧ g.owners.map (·.1) = f.owners.map (·.1) ∧
    ∀ (i d : Nat) (a : Bool), f.owners[i]? = some (d, a, true) → ∃ b, g.owners[i]? = some (d, b, true)

end Sys2Proof.Machine
end

