-- ==== Sys2Proof/Certificates/Slice0/Obligations.lean ====
section
/-! DEFINITION. The statements for the provers. -/

open Sys2Proof Sys2Proof.Machine

/-! ## The step and the queue of commands -/

/-- A step runs the command at the front of the queue on the state with the rest of the queue (all of chapters 1 to 17);
on an empty queue the part idles for one always-on cycle (the model's choice, log entry 6). -/
def Obligations.StepRunsFrontCommand : Prop :=
  (∀ (c : Instr) (s : State), step { s with pending := c :: s.pending } = exec c s) ∧
  ∀ s : State, s.pending = [] → step s = .next { s with cycles := s.cycles + 1 }

/-! ## Register accesses (chapter 0) -/

/-- Table 0.1: a write with KEY 0xA71E sets UNLOCKED from bit 0 and changes nothing else; a wrong key leaves UNLOCKED and counts,
and the fourth sets LOCKED_OUT; while LOCKED_OUT is set the write is ignored. -/
def Obligations.ExpertUnlockByKey : Prop :=
  ∀ (s : State) (v : Word32), s.pfReady →
    (s.fld F.GLB_EXPERT_UNLOCK_LOCKED_OUT = 0 → v.toNat / 65536 = 0xA71E →
      exec (.expertUnlockWrite 0 v) s = .next (s.setFld F.GLB_EXPERT_UNLOCK_UNLOCKED (v.toNat % 2))) ∧
    (s.fld F.GLB_EXPERT_UNLOCK_LOCKED_OUT = 0 → v.toNat / 65536 ≠ 0xA71E →
      ∃ t, exec (.expertUnlockWrite 0 v) s = .next t ∧ t.host.wrongKeys = s.host.wrongKeys + 1 ∧
        t.fld F.GLB_EXPERT_UNLOCK_UNLOCKED = s.fld F.GLB_EXPERT_UNLOCK_UNLOCKED ∧
        (4 ≤ t.host.wrongKeys → t.fld F.GLB_EXPERT_UNLOCK_LOCKED_OUT = 1)) ∧
    (s.fld F.GLB_EXPERT_UNLOCK_LOCKED_OUT = 1 → exec (.expertUnlockWrite 0 v) s = .next s)

/-- Table 0.2 on a whole write of a field of at most 64 bits: RW takes the new bits, W1C clears the bits written 1, W1S sets them,
RO, WO and RWL fields keep their value here. -/
def Obligations.AccessCodesActAsTabled : Prop :=
  ∀ (f : Fld) (old v k : Nat), f.lo + f.width ≤ 64 → old < 2 ^ f.width → k < f.width →
    (f.acc = .rw → (f.written old v (2 ^ 64 - 1)).testBit k = v.testBit (f.lo + k)) ∧
    (f.acc = .w1c → (f.written old v (2 ^ 64 - 1)).testBit k = (old.testBit k && !v.testBit (f.lo + k))) ∧
    (f.acc = .w1s → (f.written old v (2 ^ 64 - 1)).testBit k = (old.testBit k || v.testBit (f.lo + k))) ∧
    (f.acc = .ro ∨ f.acc = .wo ∨ f.acc = .rwl → f.written old v (2 ^ 64 - 1) = old)

/-- R13: an access that is misaligned, or narrower than 32 bits, reads as zero and is discarded if it is a write; NARROW and
MISALIGNED of RAS_ACCESS_ERR count it. -/
def Obligations.BadAccessReadsZeroAndCounts : Prop :=
  ∀ (s : State) (f off bytes : Nat) (w : Bool), accessOk off bytes = false →
    ∃ t, exec (.badRegisterAccess f off bytes w) s = .next t ∧
      t.host.out = s.host.out ++ (if w then [] else [.regData f 0]) ∧
      t.fld F.RAS_ACCESS_ERR_NARROW =
        (if bytes < 4 then min (s.fld F.RAS_ACCESS_ERR_NARROW + 1) (2 ^ F.RAS_ACCESS_ERR_NARROW.width - 1)
         else s.fld F.RAS_ACCESS_ERR_NARROW) ∧
      t.fld F.RAS_ACCESS_ERR_MISALIGNED =
        (if bytes ≠ 0 ∧ off % bytes ≠ 0 then
           min (s.fld F.RAS_ACCESS_ERR_MISALIGNED + 1) (2 ^ F.RAS_ACCESS_ERR_MISALIGNED.width - 1)
         else s.fld F.RAS_ACCESS_ERR_MISALIGNED) ∧
      t.cmds = s.cmds ∧ t.qdb = s.qdb ∧ t.ctxs = s.ctxs ∧ t.seq = s.seq ∧ t.tier = s.tier ∧ t.fxt = s.fxt

/-- R10, R12, R81: a 32-bit read of the lower half of a 64-bit register returns the lower half and latches the upper half for the same
function; the next read of the upper half by that function returns the latched value and releases the latch; without a latch it returns the
upper half as it stands. A 64-bit read returns both, and a read of a 32-bit register its value; an offset with no register reads as zero, and a
doorbell of BAR2 as its two indices.
R10, R12: of a register without further effect, a 32-bit write stores its fields, a 64-bit write those of a 64-bit register, and drops what was
held of it; a 32-bit write of the lower half of a 64-bit register is held and changes nothing else; a write of the upper half applies the held
half with it, or without one only the upper half. A write at an offset with no register changes nothing. -/
def Obligations.RegisterAccessesTakeEffect : Prop :=
  (∀ (s : State) (f off a : Nat) (h : RegHit), off % 4 = 0 → s.mapAddr f off = some a → s.hitAt a = some h →
    let v := s.readReg h.r h.i h.c
    let latched := (s.setHost fun x => { x with latches := x.latches.filter (fun l => l.1 != f || l.2.1 != a + 4) ++
      [(f, a + 4, BitVec.ofNat 32 (v / two32))] }).emit (.regData f (BitVec.ofNat 64 (v % two32)))
    (h.upper = false → h.r.bytes = 8 → exec (.lowerHalfRead f (.bar0 off) 4) s = .next latched ∧
      ∀ k, s.mapAddr f (off + 4) = some (a + 4) → s.hitAt (a + 4) = some k → k.upper = true →
        exec (.lowerHalfRead f (.bar0 (off + 4)) 4) latched = .next ((latched.setHost fun x => { x with
          latches := x.latches.filter fun l => l.1 != f || l.2.1 != a + 4 }).emit
            (.regData f (BitVec.ofNat 64 (v / two32 % two32))))) ∧
    (h.upper = true → (∀ l ∈ s.host.latches, ¬ (l.1 = f ∧ l.2.1 = a)) →
      exec (.lowerHalfRead f (.bar0 off) 4) s = .next (s.emit (.regData f (BitVec.ofNat 64 (v / two32))))) ∧
    (h.upper = false → h.r.bytes ≠ 8 →
      exec (.lowerHalfRead f (.bar0 off) 4) s = .next (s.emit (.regData f (BitVec.ofNat 64 v)))) ∧
    (h.r.bytes = 8 → off % 8 = 0 →
      exec (.lowerHalfRead f (.bar0 off) 8) s = .next ((s.dropHalves f a).emit (.regData f (BitVec.ofNat 64 v))))) ∧
  (∀ (s : State) (f off bytes : Nat), accessOk off bytes = true →
    exec (.lowerHalfRead f (.bar2 off) bytes) s = .next (s.emit (.regData f (BitVec.ofNat 64 (s.bar2Read f off bytes)))) ∧
    (s.mapAddr f off = none → exec (.lowerHalfRead f (.bar0 off) bytes) s = .next (s.emit (.regData f 0)) ∧
      ∀ v, exec (.registerWrite f off bytes v) s = .next (s.traced s)) ∧
    (∀ a, bytes = 4 → s.mapAddr f off = some a → s.hitAt a = none →
      exec (.lowerHalfRead f (.bar0 off) 4) s = .next (s.emit (.regData f 0)) ∧
      ∀ v, exec (.registerWrite f off 4 v) s = .next (s.traced s))) ∧
  ∀ (s : State) (f off a : Nat) (v : Word64) (h : RegHit), s.mapAddr f off = some a → s.hitAt a = some h →
    let w := v.toNat % two32
    (h.upper = false → h.r.plain = true → h.r.bytes = 4 → off % 4 = 0 →
      exec (.registerWrite f off 4 v) s = .next (s.traced (s.writeFlds h.i 0 w (2 ^ 64 - 1) h.r.flds))) ∧
    (h.upper = false → h.r.bytes = 8 → off % 4 = 0 →
      exec (.registerWrite f off 4 v) s = .next (s.traced (s.setHost fun x => { x with
        held := x.held.filter (fun l => l.1 != f || l.2.1 != a) ++ [(f, a, BitVec.ofNat 32 w)] }))) ∧
    (h.upper = false → h.r.plain = true → h.r.bytes = 8 → off % 8 = 0 →
      exec (.registerWrite f off 8 v) s =
        .next (s.traced ((s.dropHalves f a).writeFlds h.i 0 v.toNat (2 ^ 64 - 1) h.r.flds))) ∧
    (h.upper = true → h.r.plain = true → off % 4 = 0 →
      (∀ l, (s.host.held.find? fun l => l.1 == f && l.2.1 == a - 4) = some l →
        exec (.registerWrite f off 4 v) s = .next (s.traced ((s.setHost fun x => { x with
          held := x.held.filter fun l => l.1 != f || l.2.1 != a - 4 }).writeFlds h.i 0 (l.2.2.toNat + w * two32) (2 ^ 64 - 1)
            h.r.flds))) ∧
      ((s.host.held.find? fun l => l.1 == f && l.2.1 == a - 4) = none →
        exec (.registerWrite f off 4 v) s = .next (s.traced (s.writeFlds h.i 0 (w * two32) (writeMask true) h.r.flds))))

/-! ## Queues (chapter 3) -/

/-- R82, R83: a doorbell with PI value p to a queue without DB_IMM, by the PF or a VF through its BAR2. With d = p − a mod 2^32: nothing for
d = 0 or d ≥ 2^31; the queue stops with BAD_FIELD and an event where p − f exceeds its entries; else p is the accepted index. A write to a
queue that is not ENABLED, or whose context is not UP (R402), is ignored and counted; a doorbell value from the fabric is taken by the same rule. Every such write is a wake
event (R497, R498). -/
def Obligations.DoorbellMovesAcceptedIndex : Prop :=
  (∀ (s : State) (f off bytes q : Nat) (v : Word64), (bytes = 4 ∨ bytes = 8) → off % 8 = 0 → s.bar2Queue f off = some (some q) →
    (s.wq? q = none → exec (.doorbellWrite f off bytes v) s = .next (s.bump F.QDB_STAT_DB_IGNORED).wakeDb) ∧
    (∀ w, s.wq? q = some w → w.dbImm = false →
      exec (.doorbellWrite f off bytes v) s = .next (s.evalDoorbell q (v.toNat % two32)).wakeDb)) ∧
  ∀ (s : State) (q p : Nat), p < two32 →
    (s.wq? q = none → s.evalDoorbell q p = s.bump F.QDB_STAT_DB_IGNORED) ∧
    ∀ w, s.wq? q = some w →
      let d := (p + two32 - w.pi) % two32
      let takes := w.st = .enabled ∧ ∃ x, s.ctx? w.ctx = some x ∧ x.st = .up
      (¬ takes → s.evalDoorbell q p = s.bump F.QDB_STAT_DB_IGNORED) ∧
      (takes → d = 0 ∨ 2 ^ 31 ≤ d → s.evalDoorbell q p = s) ∧
      (takes → 0 < d → d < 2 ^ 31 → w.entries < (p + two32 - w.fi) % two32 →
        s.evalDoorbell q p =
          (s.setWq w.q fun x => { x with st := .stopped }).postEvent w.ctx Ev.queueStopped w.q (leBytes 1 St.badField)) ∧
      (takes → 0 < d → d < 2 ^ 31 → (p + two32 - w.fi) % two32 ≤ w.entries →
        s.evalDoorbell q p = s.setWq w.q fun y => { y with pi := p })

/-- R85, R86, Table 3.9: CREATE with every check passed makes the object that CTXW_QSEL names, with the parameters of the window (for a work
queue base, space, entries, completion queue, RKEY and DB_IMM; for a completion or event queue base, entries, vector, COUNT and TIME), every
index at zero, enabled and disarmed, and gives OK; with a check failed it gives that check's result and makes nothing. Nothing else changes.
R402: for a context that is not UP it gives ACCESS_DENIED; R89: while an operation runs it changes nothing. -/
def Obligations.CreateMakesTheObject : Prop :=
  (∀ (s : State) (f : Nat) (x : Ctx), s.qReady f x →
    let c := x.r.ctx
    let q := s.qsel c
    let base := s.fld F.CTXW_QBASE_ADDR 0 c * 64
    let ents := s.fld F.CTXW_QATTR_ENTRIES 0 c
    let vec := s.fld F.CTXW_QATTR_VECTOR 0 c
    let cnt := s.fld F.CTXW_QMOD_COUNT 0 c
    let tim := s.fld F.CTXW_QMOD_TIME 0 c
    (∀ r, s.createCheck x q = some r → exec (.create f c) s = .next (s.qResult c r)) ∧
    (s.createCheck x q = none →
      (q.kind = 0 → exec (.create f c) s = .next (State.qResult { s with qdb := { s.qdb with wqs := s.qdb.wqs ++ [
        { q := q.id, ctx := c, st := .enabled, region := decide (s.fld F.CTXW_QBASE_SPACE 0 c = 1), base := base, entries := ents,
          cqid := s.fld F.CTXW_QATTR_CQID 0 c, rkey := s.fld F.CTXW_QRKEY_RKEY 0 c,
          dbImm := decide (s.fld F.CTXW_QATTR_DB_IMM 0 c = 1), pi := 0, fi := 0 }] } } c St.ok)) ∧
      (q.kind = 1 → exec (.create f c) s = .next (State.qResult { s with qdb := { s.qdb with cqs := s.qdb.cqs ++ [
        { id := c * 64 + q.id, base := base, entries := ents, vector := vec, count := cnt, time := tim,
          wi := 0, ci := 0, arm := false, pend := 0, first := 0 }] } } c St.ok)) ∧
      (q.kind = 2 → exec (.create f c) s = .next (State.qResult { s with qdb := { s.qdb with eqs := s.qdb.eqs ++ [
        { ctx := c, base := base, entries := ents, vector := vec, count := cnt, time := tim,
          wi := 0, ci := 0, arm := false, pend := 0, first := 0, ovf := false }] } } c St.ok)))) ∧
  (∀ (s : State) (f : Nat) (x : Ctx), s.windowOf f x → s.fld F.CTXW_QSTAT_BUSY 0 x.r.ctx = 0 → s.asleep = false → x.st ≠ .up →
    exec (.create f x.r.ctx) s = .next (s.qResult x.r.ctx St.accessDenied)) ∧
  (∀ (s : State) (f : Nat) (x : Ctx), s.windowOf f x → s.fld F.CTXW_QSTAT_BUSY 0 x.r.ctx = 1 →
    exec (.create f x.r.ctx) s = .next s) ∧
  ∀ (s : State) (c r : Nat), (s.qResult c r).fld F.CTXW_QSTAT_RESULT 0 c = r % 2 ^ F.CTXW_QSTAT_RESULT.width

/-- R85: STOP halts a work queue that is not DRAINING; RESUME of a STOPPED one enables it and sets the accepted index to the fetch
index; QUERY loads the registers of the window (0 into VECTOR, COUNT and TIME, which no work queue has: the model's choice, log entry 101).
Each gives OK. -/
def Obligations.StopResumeQuery : Prop :=
  ∀ (s : State) (f : Nat) (x : Ctx) (w : Wq), s.qReady f x →
    let c := x.r.ctx
    let q := s.qsel c
    q.kind = 0 → (x.r.groups.contains (q.id / 512)) = true → s.wq? q.id = some w →
    (w.st ≠ .draining →
      exec (.stop f c) s = .next ((s.setWq q.id fun y => { y with st := .stopped }).qResult c St.ok)) ∧
    (w.st = .stopped →
      exec (.resume f c) s = .next ((s.setWq q.id fun y => { y with st := .enabled, pi := y.fi }).qResult c St.ok)) ∧
    exec (.query f c) s =
      .next ((s.loadQ c (if w.region then 1 else 0) w.base w.entries w.cqid 0 (if w.dbImm then 1 else 0) w.rkey 0 0
        (wqCode w.st)).qResult c St.ok)

/-- R87, R88: DESTROY of a work queue cancels its commands that have arrived and not started and leaves it ABSENT when none is left, else
DRAINING with BUSY set; a completion queue that no work queue names becomes ABSENT, one that some names gives BUSY_RETRY and nothing changes;
the event queue goes at once, and events that arrive later are discarded.
R90, Table 3.2: a DRAINING queue without commands in flight becomes ABSENT, and the DESTROY that waited for it ends with OK; any
other queue stays as it is. -/
def Obligations.DestroyAndDrain : Prop :=
  (∀ (s : State) (f : Nat) (x : Ctx), s.qReady f x →
    let c := x.r.ctx
    let q := s.qsel c
    (∀ w, q.kind = 0 → (x.r.groups.contains (q.id / 512)) = true → s.wq? q.id = some w → w.st ≠ .draining →
      let u := (s.setWq q.id fun y => { y with st := .draining }).completeAll St.cancelled
        (s.cmds.filter fun k => k.id.q == q.id && unstarted k)
      exec (.destroy f c) s = .next (if u.cmds.any (fun k => k.id.q == q.id) then u.setFld F.CTXW_QSTAT_BUSY 1 0 c
        else (u.dropWq q.id).qResult c St.ok)) ∧
    (∀ z, q.kind = 1 → q.id ≤ 63 → s.cq? (c * 64 + q.id) = some z → (∀ w ∈ s.qdb.wqs, w.cqid ≠ c * 64 + q.id) →
      ∃ t, exec (.destroy f c) s = .next t ∧ t.cq? (c * 64 + q.id) = none ∧ t.qdb.wqs = s.qdb.wqs ∧ t.cmds = s.cmds ∧
        t.fld F.CTXW_QSTAT_RESULT 0 c = St.ok) ∧
    (∀ z w, q.kind = 1 → q.id ≤ 63 → s.cq? (c * 64 + q.id) = some z → w ∈ s.qdb.wqs → w.cqid = c * 64 + q.id →
      exec (.destroy f c) s = .next (s.qResult c St.busyRetry)) ∧
    (∀ z, q.kind = 2 → q.id = 0 → s.eq? c = some z →
      ∃ t, exec (.destroy f c) s = .next t ∧ t.eq? c = none ∧ (∀ typ obj l, t.postEvent c typ obj l = t) ∧ t.qdb.cqs = s.qdb.cqs ∧ t.cmds = s.cmds ∧
        t.fld F.CTXW_QSTAT_RESULT 0 c = St.ok)) ∧
  (∀ (s : State) (q : Nat) (w : Wq), s.wq? q = some w →
    (w.st = .draining → (∀ k ∈ s.cmds, k.id.q ≠ q) →
      ∃ t, exec (.queueDrained q) s = .next t ∧ t.wq? q = none ∧ t.cmds = s.cmds ∧ t.qdb.cqs = s.qdb.cqs ∧
        (s.fld F.CTXW_QSTAT_BUSY 0 w.ctx = 1 →
          t.fld F.CTXW_QSTAT_BUSY 0 w.ctx = 0 ∧ t.fld F.CTXW_QSTAT_RESULT 0 w.ctx = St.ok)) ∧
    (w.st ≠ .draining ∨ (∃ k ∈ s.cmds, k.id.q = q) → exec (.queueDrained q) s = .next s))

/-- R96: the consumer index written to CTXW_CQ_DB or CTXW_EQ_DB is taken, unless it would pass the count of records written; then it
is ignored. The records written, the ring and the other queues stay. -/
def Obligations.ConsumerIndexNeverPasses : Prop :=
  ∀ (s : State) (f : Nat) (x : Ctx) (v : Word64), s.windowOf f x →
    let c := x.r.ctx
    let n := v.toNat % two32
    (∀ i z, i < 64 → s.cq? (c * 64 + i) = some z →
      ∃ t y, exec (.cqDoorbellWrite f c i v) s = .next t ∧ t.cq? (c * 64 + i) = some y ∧
        y.ci = (if ciOk z.ci z.wi n then n else z.ci) ∧ y.wi = z.wi ∧ y.base = z.base ∧ y.entries = z.entries ∧
        t.qdb.wqs = s.qdb.wqs ∧ t.qdb.eqs = s.qdb.eqs ∧ t.cmds = s.cmds ∧
        (∀ j, j ≠ c * 64 + i → t.cq? j = s.cq? j)) ∧
    (∀ z, s.eq? c = some z →
      ∃ t y, exec (.eqDoorbellWrite f c v) s = .next t ∧ t.eq? c = some y ∧
        y.ci = (if ciOk z.ci z.wi n then n else z.ci) ∧ y.wi = z.wi ∧ y.base = z.base ∧ y.entries = z.entries ∧
        t.qdb.wqs = s.qdb.wqs ∧ t.qdb.cqs = s.qdb.cqs ∧ t.cmds = s.cmds)

/-- Table 5.6, R199, R360: enabling the recompute ring with a valid size and base resets both indices; a write of CTXW_TRIG_VAL
changes the selected counter of the context's own range and no other; outside the range it is ignored. -/
def Obligations.WindowValueWrites : Prop :=
  ∀ (s : State) (f : Nat) (x : Ctx), s.windowOf f x →
    let c := x.r.ctx
    (∀ v : Word64, s.fld F.CTXW_RCP_ATTR_ENABLE 0 c = 0 → v.toNat / 2 ^ 17 % 2 = 1 →
      isPow2In (v.toNat % 2 ^ 17) 16 65536 = true →
      s.fld F.CTXW_RCP_BASE_ADDR 0 c * 16 % min (16 * (v.toNat % 2 ^ 17)) 4096 = 0 →
      s.fld F.CTXW_RCP_BASE_ADDR 0 c * 16 + 16 * (v.toNat % 2 ^ 17) ≤ 2 ^ 64 →
      ∃ t, exec (.rcpAttrWrite f c v) s = .next t ∧ t.fld F.CTXW_RCP_ATTR_ENABLE 0 c = 1 ∧
        t.fld F.CTXW_RCP_ATTR_ENTRIES 0 c = v.toNat % 2 ^ 17 ∧ t.fld F.CTXW_RCP_IDX_PI 0 c = 0 ∧
        t.fld F.CTXW_RCP_IDX_CI 0 c = 0 ∧ t.cmds = s.cmds ∧ t.att = s.att ∧ t.fxt = s.fxt) ∧
    (∀ v : Word32,
      let n := s.fld F.CTXW_TRIG_SEL_TRIG 0 c
      (n ≠ 0 → s.trigOwned c n = true →
        ∃ t, exec (.trigValWrite f c v) s = .next t ∧ t.trigVal n = v.toNat ∧ (∀ m, m ≠ n → t.trigVal m = s.trigVal m) ∧
          t.regs = s.regs ∧ t.cmds = s.cmds ∧ t.fxt.regions = s.fxt.regions) ∧
      (n = 0 ∨ s.trigOwned c n = false → exec (.trigValWrite f c v) s = .next s))

/-! ## Fetch, host accesses, order (chapter 3) -/

/-- R95, R111, R112: a turn of DESCRIPTOR_FETCH never brings a context above its maximum of commands in flight nor the ring reads above 256,
and takes at least one descriptor where exactly one queue is admissible and fewer are out. -/
def Obligations.FetchKeepsTheMaximum : Prop :=
  ∀ s : State, ∃ t, exec .descriptorFetch s = .next t ∧
    (∀ c x, s.ctx? c = some x → t.countOf c ≤ max (s.countOf c) x.r.maxC) ∧
    t.ringReads ≤ max s.ringReads 256 ∧ (256 ≤ s.ringReads → t = s) ∧
    (∀ w, s.ringReads < 256 → (s.qdb.wqs.filter s.admissible) = [w] → s.wq? w.q = some w →
      ∃ l, t.cmds = s.cmds ++ newCmd w.q w.fi w.ctx s.qdb.admitted 0 :: l) ∧
    ((s.qdb.wqs.filter s.admissible) = [] → t = s) ∧ t.ctxs = s.ctxs ∧ t.tier = s.tier ∧ t.seq = s.seq

/-- R90, R101, R105: the data of a ring read bring the command from fetching to waiting when steps 1 to 5 of R101 pass, and complete it
with the status of the first check that fails. A slot behind one that is still being read waits for it. One whose queue drains, or whose context
is torn down, ends with its record then (R87, R117).
R90: a ring read that fails, or times out, stops an ENABLED queue; its slots fetched from there on count as not fetched, and
no command that has started is lost. -/
def Obligations.RingReads : Prop :=
  (∀ (s : State) (k : Cmd) (w : Wq) (b : List Byte), s.cmd? k.id = some k → s.wq? k.id.q = some w → k.st = .fetching →
    k.armed = none → w.region = false →
    let d := BitVec.ofNat 512 (leNat (bytesAt b 0 64))
    let u := (s.chargeHost k.ctx 64).setCmd k.id fun x => { x with desc := d }
    (s.ringBehind k = true → exec (.ringReadComplete k.id (.data b)) s = .next s) ∧
    (s.ringBehind k = false → s.endsOnArrival k = none → dOp d ≠ Op.wrArm → hasList d = false →
      u.fetchCheck { k with desc := d } = none →
      exec (.ringReadComplete k.id (.data b)) s = .next (u.setCmd k.id fun x => { x with st := .waiting })) ∧
    (∀ st, s.ringBehind k = false → s.endsOnArrival k = none → dOp d ≠ Op.wrArm → u.fetchCheck { k with desc := d } = some st →
      exec (.ringReadComplete k.id (.data b)) s = .next (u.complete k.id st)) ∧
    (∀ st, s.ringBehind k = false → s.endsOnArrival k = some st → dOp d ≠ Op.wrArm →
      exec (.ringReadComplete k.id (.data b)) s = .next ((u.complete k.id st).ringOver k))) ∧
  (∀ (s : State) (k : Cmd) (w : Wq), s.cmd? k.id = some k → s.wq? k.id.q = some w → k.st = .fetching →
    w.region = false → w.st = .enabled → s.ringBehind k = false → s.dead = false → s.tearing k.ctx = false →
    ∀ i, i = Instr.ringReadTimeout k.id ∨ i = Instr.ringReadComplete k.id .ur ∨ i = Instr.ringReadComplete k.id .ca ∨
        i = Instr.ringReadComplete k.id .ats →
      ∃ t y, exec i s = .next t ∧ t.wq? k.id.q = some y ∧ y.st = .stopped ∧ y.fi = k.id.idx ∧ y.pi = w.pi ∧
        (∀ x ∈ s.cmds, x.st ≠ .fetching → x ∈ t.cmds) ∧ (∀ x ∈ t.cmds, x ∈ s.cmds))

/-- R104: the data of a host read join the command's, which then waits for one read less and is charged for the bytes; a read that
does not answer in time completes the command with TIMEOUT, and its queue does not stop. -/
def Obligations.HostReadsOfACommand : Prop :=
  ∀ (s : State) (k : Cmd), s.cmd? k.id = some k → k.owed ≠ 0 →
    (∀ b : List Byte, exec (.hostReadComplete k.id (.data b)) s =
      .next (s.traced ((s.setCmd k.id fun x => { x with reads := x.reads ++ [b], owed := x.owed - 1 }).cmdHost k.id k.ctx
        b.length))) ∧
    (k.armed = none → dOp k.desc ≠ Op.blankMount →
      exec (.hostAccessTimeout k.id) s = .next (s.traced ((s.finish k.id St.timeout).prune)))

/-- R107, R108: a command with ORD = 1 does not start while an earlier command of its queue is in flight, nor does any command behind a
FENCE; its row then changes nothing.
R108: FENCE completes with OK once nothing earlier of its scope is in flight; until then its row only marks it started. -/
def Obligations.OrderedCommandsAndFences : Prop :=
  (∀ (s : State) (k x : Cmd) (ops : Word512 → Bool) (check : State → Cmd → Option Nat) (body : Cmd → State → State),
    s.cmd? k.id = some k → k.st = .waiting → x ∈ s.cmds → x.id.q = k.id.q → x.adm < k.adm →
    dOrd k.desc = true ∨ dOp x.desc = Op.fence → s.mayStart k = false ∧ s.runCmd k.id ops check body = s) ∧
  (∀ (s : State) (k : Cmd), s.begins k Op.fence →
    let t := s.started k
    let before := if dF k.desc 8 1 = 0 then t.earlier k else t.cmds.filter fun x => x.ctx == k.ctx && decide (x.adm < k.adm)
    (before = [] → exec (.fence k.id) s = .next (t.complete k.id St.ok)) ∧ (before ≠ [] → exec (.fence k.id) s = .next t))

/-- R94, R97: a completion takes the command out of the in-flight table and leaves every other command there; suppressed success writes
no record.
R98: an armed queue with pending records sends its message at once when its count condition holds, or when TIME µs have passed since the
first of them; the message clears ARM and the pending count. When that time comes an armed queue sends its message, and one that is not armed
none. -/
def Obligations.CompletionsAndMessages : Prop :=
  (∀ (s : State) (k : Cmd) (st : Nat) (r : Fin), s.cmd? k.id = some k →
    (s.complete k.id st r).cmd? k.id = none ∧
    (∀ c, c ≠ k.id → (s.complete k.id st r).cmd? c = s.cmd? c) ∧
    (dSuppress k.desc = true → st = St.ok ∨ st = St.okEmpty → (s.complete k.id st r).host.out = s.host.out) ∧
    (s.complete k.id st r).seq = s.seq ∧ (s.complete k.id st r).tier = s.tier ∧ (s.complete k.id st r).fxt = s.fxt) ∧
  (∀ (s : State) (c n : Nat) (z : Cq), s.cq? (c * 64 + n) = some z →
    (z.arm = false → s.cqMsix (c * 64 + n) = s ∧ (z.pend = 0 → exec (.msixHoldExpire c false n) s = .next s) ∧
      (1 ≤ z.pend → exec (.msixHoldExpire c false n) s = .next (s.reach (z.first + z.time * cyclesPerUs)))) ∧
    (z.arm = true → max 1 z.count ≤ z.pend ∨ (1 ≤ z.pend ∧ z.first + z.time * cyclesPerUs ≤ s.cycles) →
      s.cqMsix (c * 64 + n) = ((s.setCq (c * 64 + n) fun y => { y with arm := false, pend := 0 }).emit
        (.msix (s.funcOf ((c * 64 + n) / 64)) z.vector))) ∧
    (z.arm = true → 1 ≤ z.pend → n < 64 →
      ∃ t y, exec (.msixHoldExpire c false n) s = .next t ∧ t.cq? (c * 64 + n) = some y ∧ y.arm = false ∧ y.pend = 0 ∧
        y.wi = z.wi ∧ y.ci = z.ci ∧ t.host.out = s.host.out ++ [.msix (s.funcOf c) z.vector] ∧
        s.cycles ≤ t.cycles ∧ z.first + z.time * cyclesPerUs ≤ t.cycles)) ∧
  (∀ (s : State) (c n : Nat) (z : Eq), s.eq? c = some z → z.arm = true → 1 ≤ z.pend →
    ∃ t y, exec (.msixHoldExpire c true n) s = .next t ∧ t.eq? c = some y ∧ y.arm = false ∧ y.pend = 0 ∧
      y.wi = z.wi ∧ y.ci = z.ci ∧ t.host.out = s.host.out ++ [.msix (s.funcOf c) z.vector] ∧
      s.cycles ≤ t.cycles ∧ z.first + z.time * cyclesPerUs ≤ t.cycles)

/-! ## Sequences (chapter 2) -/

/-- R41, R68: SEQ_OPEN of a mounted profile in a domain the context may name, with a record free, makes an OPEN record of length 0 and
completes with its handle; without a free record it gives NO_SPACE.
R41, R70: SEQ_CLOSE brings the record to CLOSING, drops its references and completes with OK; once no started command names the record,
SEQ_REFERENCES_REMOVED frees it, and its generation advances (R39). R38: a spilled record is restored, another being spilled where the table of
resident records is full. -/
def Obligations.SequencesOpenAndClose : Prop :=
  (∀ (s : State) (k : Cmd) (x : Ctx) (p : Profile), s.begins k Op.seqOpen →
    let t := s.started k
    t.ctx? k.ctx = some x → x.sdomOk (dF k.desc 10 2) = true → t.prof? (dF k.desc 8 2) = some p →
    (t.seqRoom x = false → exec (.seqOpen k.id) s = .next (t.complete k.id St.noSpace)) ∧
    (t.seqRoom x = true → ∃ r, r.st = .opn ∧ r.len = 0 ∧ r.ptes = [] ∧ r.ctx = x.r.ctx ∧ r.part = x.r.part ∧
      r.mprof = p.mprof ∧ r.sdom = x.sdomOf (dF k.desc 10 2) ∧ r.retrieval = x.r.retrieval ∧
      r.idx = (t.takeRecord x.r.part).2.1 ∧ r.gen = (t.takeRecord x.r.part).2.2 ∧
      exec (.seqOpen k.id) s =
        .next (((t.takeRecord x.r.part).1.addSeq r).complete k.id St.ok { result := r.handle }))) ∧
  ((∀ (s : State) (k : Cmd) (r : SeqRec), s.begins k Op.seqClose →
    let t := s.started k
    t.openSeq? k.ctx (dHandle k.desc) = some r →
    exec (.seqClose k.id) s = .next (s.traced (((t.closeSeq r).removeRefs r).complete k.id St.ok))) ∧
  (∀ (s : State) (h : Nat) (r : SeqRec), s.seqOf? h = some r → r.st = .closing →
    (∀ x ∈ s.cmds, x.st = .running → ¬ h ∈ cmdSeqs x) →
    ∃ t, exec (.seqReferencesRemoved h) s = .next (s.traced t) ∧ (∀ q ∈ t.seq.recs, q.idx ≠ r.idx) ∧
      (∀ p, (s.removeRefs r).part? r.part = some p →
        ∃ p', t.part? r.part = some p' ∧ p'.freed = p.freed ++ [(r.idx, (r.gen + 1) % 16)])) ∧
  (∀ (s : State) (h : Nat) (r : SeqRec), s.seqOf? h = some r →
    (r.spilled = false → exec (.spilledRecordRestore h) s = .next s) ∧
    (r.spilled = true → exec (.spilledRecordRestore h) s =
      .next (State.setSeq { s with seq := { s.seq with recs := makeResident s.seq.recs } } r.idx fun q =>
        { q with spilled := false }))))

/-- R64, R69: a fork of a sequence makes a child that shares the block rows below its length: each shared row names the same frame and
version with S set, and every frame named gains one reference. A length of zero gives OK_EMPTY, one beyond the source BAD_FIELD. -/
def Obligations.ForkSharesPages : Prop :=
  ∀ (s : State) (k : Cmd) (x : Ctx) (q : SeqRec) (p : Profile), s.begins k Op.seqFork → dHandle k.desc ≠ 0 →
    let t := s.started k
    let len := dForkLen k.desc
    t.ctx? k.ctx = some x → t.openSeq? k.ctx (dHandle k.desc) = some q → t.prof? q.mprof = some p →
    (q.len < len → exec (.seqFork k.id) s = .next (s.traced (t.complete k.id St.badField))) ∧
    (t.forkCheck x q.mprof len q.len = none → len = 0 →
      exec (.seqFork k.id) s = .next (s.traced (t.complete k.id St.okEmpty))) ∧
    (t.forkCheck x q.mprof len q.len = none → len ≠ 0 →
      ∃ u rows r, u = t.setSeq q.idx (fun y => { y with
          ptes := updIf y.ptes (fun e => decide (e.lpi < p.blocks len) && e.pfh != 0) fun e => { e with s := true } }) ∧
        rows.map (fun e : Pte => (e.lpi, e.layer, e.head, e.pfh, e.ver)) =
          ((q.ptes.filter fun e => decide (e.lpi < p.blocks len)).map fun e => (e.lpi, e.layer, e.head, e.pfh, e.ver)) ∧
        (∀ e ∈ rows, e.pfh ≠ 0 → e.s = true) ∧ r.ptes = rows ∧ r.len = len ∧ r.st = .opn ∧ r.sdom = q.sdom ∧
        exec (.seqFork k.id) s = .next (s.traced
          ((((u.takeRecord x.r.part).1.addRefs rows).addSeq r).complete k.id St.ok { result := r.handle })))

/-- R42, R58, R65, R71: KV_APPEND whose checks of step 6 pass, with its source read and finite, every touched page available and resident, no
page written in place still held by an earlier version's readers, room in the frame table, every copy it reads verified, and T1 space for the
new tiles, commits every page, advances the round and completes with OK; a failed check of step 6 completes it with that status; no tokens or no
layers give OK_EMPTY; a source that is not finite gives NONFINITE, and a full frame table NO_SPACE, both without a page written. -/
def Obligations.AppendCommitsItsPages : Prop :=
  ∀ (s : State) (k : Cmd) (x : Ctx) (q : SeqRec) (p : Profile), s.begins k Op.kvAppend → dFlag k.desc 0 = false →
    let t := s.started k
    let c := s.startedCmd k
    let d := k.desc
    let n := dF d 12 4
    let lf := dF d 16 2
    let lc := dF d 18 2
    let ends := fun u : State => exec (.kvAppend k.id) s = .next (s.traced (u.clearRetired []))
    t.startCheck k = none → t.ctx? k.ctx = some x → t.openSeq? k.ctx (dHandle d) = some q → t.prof? q.mprof = some p →
    (∀ st, t.appendCheck c x q p = some st → ends (t.finish k.id st)) ∧
    (t.appendCheck c x q p = none → n = 0 ∨ lc = 0 → ends (t.complete k.id St.okEmpty)) ∧
    (∀ src rest, t.appendCheck c x q p = none → n ≠ 0 → lc ≠ 0 → k.reads = src :: rest → k.writes = [] →
      let pl := touchedPlaces p (dPos d) n lf lc
      let u := (t.needAll c q.idx (t.framesAt q pl)).1
      let finite := srcFinite p src (dPos d) n lc fun l h => u.pageScale p q (lf + l) h
      t.unavailableAt q pl = [] → (t.needAll c q.idx (t.framesAt q pl)).2.1 = false →
      ((u.framesAt q pl).any fun f => !f.copiedFirst && f.writeBlocked) = false →
      (finite = false → ends (u.finish k.id St.nonfinite)) ∧
      (finite = true → u.framesFit (u.newPages q pl) = false → ends (u.finish k.id St.noSpace)) ∧
      (finite = true → u.framesFit (u.newPages q pl) = true →
        let b := u.beginPages q p pl
        let v := b.1.setCmd k.id fun y => { y with writes := b.2 }
        let y := v.verifyCopies k.id k.todo (v.framesAt q pl)
        let w := y.1.sawCopies k.id y.2.1
        let e := w.encodeAll p q src (dPos d) n lf (w.writesOf k.id)
        v.commitWaits (v.writesOf k.id) = false → y.1.unavailableAt q pl = [] → y.2.2 = false →
        ∀ z, e.1.fillAll e.2 = (z, true) →
          ends ((((z.commitPages k.ctx p q (dPos d + n) e.2).setCmd k.id fun y => { y with writes := [] }).setSeq q.idx
            fun r => roundAfter r p n lf lc).finish k.id St.ok)))

/-- R195, R196: a refill writes the unavailable pages that its lease, or no lease, covers; the others are counted in RESULT, and the
status is OK where none was skipped, else OK_PARTIAL. The sequence's length and round stay. -/
def Obligations.RefillWritesLostPages : Prop :=
  ∀ (s : State) (k : Cmd) (x : Ctx) (q : SeqRec) (p : Profile) (src : List Byte) (rest : List (List Byte)) (z : State),
    s.begins k Op.kvAppend → dFlag k.desc 0 = true →
    let t := s.started k
    let c := s.startedCmd k
    let d := k.desc
    let n := dF d 12 4
    let lf := dF d 16 2
    let lc := dF d 18 2
    let pl := touchedPlaces p (dPos d) n lf lc
    t.startCheck k = none → t.ctx? k.ctx = some x → t.openSeq? k.ctx (dHandle d) = some q → t.prof? q.mprof = some p →
    t.appendCheck c x q p = none → n ≠ 0 → lc ≠ 0 → k.reads = src :: rest → k.writes = [] →
    srcFinite p src (dPos d) n lc (fun _ _ _ _ => []) = true → t.refilling (t.framesAt q pl) = false →
    let met := t.unavailableAt q pl
    let go := met.filter (t.refillable (dF d 40 4))
    let b := t.beginRefills q p go
    let v := b.1.setCmd k.id fun y => { y with writes := b.2, count := met.length - go.length }
    let e := v.refillForms p src (dPos d) n lf (v.writesOf k.id)
    t.framesFit (t.newRefills go) = true → v.commitWaits (v.writesOf k.id) = false → e.1.fillAll e.2 = (z, true) →
    exec (.kvAppendRefill k.id) s = .next (s.traced (State.clearRetired
      (((z.refillPages k.ctx p q e.2).setCmd k.id fun y => { y with writes := [] }).finish k.id
        (if met.length - go.length = 0 then St.ok else St.okPartial) { result := met.length - go.length }) []))

/-- R296: HINT COLD gives every page of the sequence the oldest LASTUSE and changes nothing else of it; WARM promotes T2_ONLY pages
that fit in free T1 space; both complete with OK.
R472: HINT HEAVY completes with OK, or OK_EMPTY for a duration of 0. A context with the right, without a cap or thermal demand,
gets a window of at most HINT_MAX µs; its end, when it comes, closes it and charges the added energy to the context. -/
def Obligations.HintsAct : Prop :=
  (∀ (s : State) (k : Cmd) (q : SeqRec), s.begins k Op.hint →
    let t := s.started k
    t.openSeq? k.ctx (dHandle k.desc) = some q →
    (dF k.desc 8 1 = 1 → ∃ u, exec (.hintCold k.id) s = .next (s.traced u) ∧ u.cmd? k.id = none ∧ u.seq = t.seq ∧
      (∀ p f, t.frame? p = some f → u.frame? p = some (if q.frames.contains p then { f with lastUse := 0 } else f))) ∧
    (dF k.desc 8 1 = 2 → exec (.hintWarm k.id) s = .next (s.traced ((t.warm (s.startedCmd k) q.idx q.frames).complete k.id St.ok)))) ∧
  ((∀ (s : State) (k : Cmd) (x : Ctx), s.begins k Op.hint → dF k.desc 8 1 = 3 →
    let t := s.started k
    (dF k.desc 12 4 = 0 → exec (.hintHeavy k.id) s = .next (t.complete k.id St.okEmpty)) ∧
    (dF k.desc 12 4 ≠ 0 →
      let u := t.complete k.id St.ok
      u.ctx? k.ctx = some x →
      (x.r.heavy = false ∨ u.fld F.PWR_STATUS_L_CAP ≠ 0 ∨ u.fld F.PWR_STATUS_L_THERM ≠ 0 →
        exec (.hintHeavy k.id) s = .next u) ∧
      (x.r.heavy = true → u.fld F.PWR_STATUS_L_CAP = 0 → u.fld F.PWR_STATUS_L_THERM = 0 →
        ∃ v y, exec (.hintHeavy k.id) s = .next v ∧ v.ctx? k.ctx = some y ∧
          y.heavyEnd = some (max (u.cycles + min (dF k.desc 12 4) (u.fld F.PWR_HINT_CFG_HINT_MAX) * cyclesPerUs)
            (x.heavyEnd.getD 0))))) ∧
  (∀ (s : State) (c e : Nat) (x : Ctx), s.ctx? c = some x → x.heavyEnd = some e →
    ∃ t y, exec (.heavyWindowEnd c) s = .next t ∧ t.ctx? c = some y ∧ y.heavyEnd = none ∧ e ≤ t.cycles ∧
      y.stats.energy = x.stats.energy + Config.hintEnergy s.free))

/-- R416, Table 11.6: STATS_READ of the issuing context writes its record, which is 128 bytes long, and completes with OK and length 128;
with RESET the counters start again after the record was made. A destination that is too short gives LENGTH_LIMIT. -/
def Obligations.StatsRecord : Prop :=
  (∀ (s : State) (x : Stats) (e : Nat × Nat × Nat) (n : Nat), (s.statsRecord x e n).length = 128 ∧ (seqRecord x n).length = 128) ∧
  ∀ (s : State) (k : Cmd) (b : List Byte) (v : State), s.begins k Op.statsRead →
    let t := s.started k
    let d := k.desc
    t.startCheck k = none →
    (dF d 24 4 < 128 → exec (.statsRead k.id) s = .next (t.complete k.id St.lengthLimit)) ∧
    (128 ≤ dF d 24 4 → t.spaceLong k.ctx (dStatsDst d) 128 = true → t.statsFor (s.startedCmd k) = some b →
      (if dFlag d 0 && dHandle d == 0 && dF d 8 1 == 0 then t.resetStats k.ctx else t).spaceWrite k.id k.ctx (dStatsDst d) b =
        .ok v →
      exec (.statsRead k.id) s = .next (v.complete k.id St.ok { rlen := 128 }))

/-- R161, R164: a STEP_PLAN without WAIT takes its valid entries, which replace earlier plans of their sequences, stages their first
windows and completes, the ignored entries in RESULT; TTL µs after its completion its pins are released and it is no longer live.
R190, R194: when a lease's lifetime has run out, no lease stands under its identifier, the slot's generation advances and is never
0, and the clock stands at its expiry at least. -/
def Obligations.PlansAndLeases : Prop :=
  ((∀ (s : State) (k : Cmd), s.begins k Op.stepPlan → dFlag k.desc 0 = false → k.mark = 0 →
    let t := s.started k
    let d := k.desc
    let list := listEntries (dF d 12 4) (k.reads.headD [])
    let es := ((List.range list.length).zip list).map fun x => t.planEntry (s.startedCmd k) x.1 x.2
    let ok := es.filterMap id
    let old := fun e : PlanEnt => ok.any fun x => x.seq == e.seq
    t.startCheck k = none → t.spaceLong k.ctx (dPlanList d) (dF d 12 4 * 16) = true → dF d 10 2 ≠ 0 → dF d 12 4 ≠ 0 →
    (t.att.ents.filter fun e => !old e).length + ok.length ≤ 262144 →
    let v := t.dropEnts old
    let w := { v with att := { v.att with
      ents := v.att.ents ++ ok
      plans := if ok.isEmpty then v.att.plans else v.att.plans ++ [v.newPlan (s.startedCmd k) ok.length] } }
    exec (.stepPlan k.id) s = .next (s.traced ((w.stageAll ok).planFinish (s.startedCmd k) (es.length - ok.length) false))) ∧
  ∀ (s : State) (c : CmdId) (p : Plan) (at_ : Nat), s.att.plans.find? (fun x => x.id == c) = some p → p.doneAt = some at_ →
    ∃ t, exec (.planPinExpire c) s = .next (s.traced t) ∧ at_ + p.ttl * cyclesPerUs ≤ t.cycles ∧
      (∀ e ∈ t.att.ents, e.plan ≠ c) ∧ (∀ x ∈ t.att.plans, x.id ≠ c) ∧ t.cmds = s.cmds) ∧
  (∀ (s : State) (slot : Nat) (l : Lease), s.att.leases.find? (fun x => x.slot == slot) = some l →
    ∃ t, exec (.leaseExpire slot) s = .next (s.traced t) ∧ (∀ x ∈ t.att.leases, ¬ (x.slot = l.slot ∧ x.gen = l.gen)) ∧
      (∀ x ∈ s.att.leases, ¬ (x.slot = l.slot ∧ x.gen = l.gen) → x ∈ t.att.leases) ∧
      spGet 1 t.att.leaseGen slot = l.gen % 65535 + 1 ∧ l.expires ≤ t.cycles ∧ t.cmds = s.cmds ∧ t.tier = s.tier ∧ t.seq = s.seq)

/-! ## Attention (chapter 4) -/

/-- R101, R149, R154, R158: an ATTEND that fails step 6 completes with that status and no other effect; one over no queries or no heads advances
its trigger and gives OK_EMPTY; one whose variant's signature fails gives SIGNATURE_INVALID (R136); with its profile in the hot set it reads its
operands. Once they are read it waits for a walk, and the waiting walk whose context is furthest behind in CC cycles is served (R407).
R61, R259: a profile that was asked for enters a free slot of the hot set and is no longer being loaded; a walk that waited for the
pin of a page goes on when the page can be pinned. -/
def Obligations.AttendRunsAndResumes : Prop :=
  (∀ (s : State) (k : Cmd) (q0 : SeqRec) (rest : List SeqRec) (p : Profile), s.begins k Op.attend → k.mark = 0 →
    let t := s.started k
    let c := s.startedCmd k
    let qs := q0 :: rest
    let some_ := aNq k.desc ≠ 0 ∧ aHeads k.desc ≠ 0
    t.startCheck k = none → t.attendSeqs c = some qs → t.prof? q0.mprof = some p →
    (∀ st, t.checkBatch c = some st → exec (.attend k.id) s = .next (s.traced (t.complete k.id st))) ∧
    (∀ st, t.checkBatch c = none → t.attendChecks c p qs = some st →
      exec (.attend k.id) s = .next (s.traced (t.complete k.id st))) ∧
    (t.checkBatch c = none → t.attendChecks c p qs = none →
      (¬ some_ → exec (.attend k.id) s = .next (s.traced ((t.advanceTrig (aTrig k.desc)).complete k.id St.okEmpty))) ∧
      (some_ → t.variantOk p.kvar = false → exec (.attend k.id) s =
        .next (s.traced ((t.bump F.SEC_AUTH_STAT_SIG_FAIL).complete k.id St.signatureInvalid))) ∧
      (some_ → t.variantOk p.kvar = true → t.hotHas p.mprof = false →
        exec (.attend k.id) s = .next (s.traced (((t.loadProfile p.mprof).setStats k.ctx fun x =>
          { x with profMiss := sat32 (x.profMiss + 1) }).setCmd k.id fun x => { x with mark := 1 }))) ∧
      (some_ → t.variantOk p.kvar = true → t.hotHas p.mprof = true →
        exec (.attend k.id) s = .next (s.traced ((t.attendReads c p qs).attendGo k.id))))) ∧
  (∀ (s : State) (k : Cmd), s.resumes k Op.attend →
    (k.mark = 2 → exec (.attend k.id) s = .next (s.traced (s.walkReady k).serveWalk)) ∧
    (k.mark = 4 → exec (.attend k.id) s = .next (s.traced s.serveWalk)) ∧
    (k.mark = 3 → exec (.attend k.id) s = .next (s.traced s))) ∧
  (∀ (s : State) (k : Cmd) (q0 : SeqRec) (rest : List SeqRec) (p : Profile), s.nextWalk = some k →
    s.attendSeqs k = some (q0 :: rest) → s.prof? q0.mprof = some p →
    s.serveWalk = ((s.setCmd k.id fun x => { x with mark := 3 }).chargeWalk k.ctx).beginWalk k p (q0 :: rest)) ∧
  ((∀ (s : State) (m i : Nat) (p : Profile), s.att.loading.contains m = true → s.prof? m = some p →
    ((List.range 256).find? fun i => s.att.hot.all fun h => h.slot != i) = some i →
    ∃ t, exec (.profileLoadDone m) s = .next (s.traced t) ∧ t.hotHas m = true ∧ t.att.loading.contains m = false ∧
      (∀ h ∈ s.att.hot, h ∈ t.att.hot) ∧ t.cmds = s.cmds ∧ t.tier = s.tier) ∧
  ∀ (s : State) (pfh : Nat) (f : Frame), s.frame? pfh = some f →
    (f.pinFull = true → exec (.pinWaitResume pfh) s = .next (s.traced s)) ∧
    (f.pinFull = false → exec (.pinWaitResume pfh) s = .next (s.traced (s.resumeWalks pfh s.att.atts))))

/-- R404, R470: a placement round starts the first resident chunk of the context with the least virtual time on a free AE, and goes on;
an AE it picks is an online AE of the set that runs nothing and that the ramp limit admits. No chunk appears or is lost by it; then a table that
an expander finds bad in both its copies is a device-level error (R310), and where none is bad nothing more happens.
R146, R147: a chunk whose copies have passed their checks, with no re-read under way, ends: its states are merged, its cycles are
charged and it leaves its AE; a switch that waited for it goes on. -/
def Obligations.ChunksArePlacedAndEnd : Prop :=
  ((∀ (s : State) (set : Nat) (k : Chunk) (ae : Nat), s.pickAe set k = some ae →
    ae ∈ s.setAes set ∧ ae ∉ s.busyAes ∧ s.rampOk ae = true) ∧
  ∀ (s : State) (set : Nat), s.dead = false →
    let u := s.setTracked set
    (∃ t : State, exec (.chunkPlacementRound set) s = .next (s.traced t.checkTables) ∧ t.att.chunks.length = s.att.chunks.length ∧
      ((∀ n, t.tableLoad n ≠ .bad) → t.checkTables = t)) ∧
    (∀ x l k ae n, sortBy ctxLt ((u.setCtxs set).filter fun y => (u.nextChunk y.r.ctx).isSome) = x :: l →
      u.nextChunk x.r.ctx = some k → u.pickAe set k = some ae → s.att.chunks.length = n + 1 →
      exec (.chunkPlacementRound set) s = .next (s.traced (((u.place k ae).placeRound set n).setTracked set).checkTables))) ∧
  (∀ (s : State) (ae cycles : Nat) (k : Chunk) (p : Profile), s.att.chunks.find? (fun x => x.st == .running ae) = some k →
    k.checked = true → s.stalled k = false → s.prof? k.mprof = some p →
    let u := ({ s with att := { s.att with
      chunks := updIf s.att.chunks k.same fun x => { x with checked := true } } }).endChunk k ae cycles p
    exec (.chunkComplete ae cycles []) s = .next (s.traced (u.pollGroups u.sch.groups)))

/-! ## Pages (chapter 7) -/

/-- R267, R291: PAGES_PLACE without MOVE sets the settings it names and completes with OK; with MOVE it sets them and handles the pages
one after the other.
R291, R292: PAGES_DROP over a valid range takes the pages of the range from the sequence: their rows keep place and version and hold
no frame, no grain and no S; an empty range gives OK_EMPTY, one outside the sequence BAD_FIELD. -/
def Obligations.PlaceAndDropPages : Prop :=
  (∀ (s : State) (k : Cmd) (q : SeqRec) (p : Profile), s.begins k Op.pagesPlace → k.mark = 0 →
    let t := s.started k
    let d := k.desc
    let ps := (placePlaces d p q).map fun x => ((q.pte? x.1 x.2.1 x.2.2).map (·.pfh)).getD 0
    t.openSeq? k.ctx (dHandle d) = some q → t.prof? q.mprof = some p →
    dFlag d 0 = true ∨ (rangeOk p q (dF d 8 4) (dF d 12 4) (dF d 16 2) (dF d 18 2) = true ∧ dF d 12 4 ≠ 0 ∧ dF d 18 2 ≠ 0) →
    (dFlag d 1 = false →
      exec (.pagesPlace k.id) s = .next (s.traced ((t.placeSettings (s.startedCmd k) q ps).complete k.id St.ok))) ∧
    (dFlag d 1 = true →
      exec (.pagesPlace k.id) s = .next (s.traced
        ((((t.placeSettings (s.startedCmd k) q ps).setCmd k.id fun c => { c with mark := 1, todo := ps }).moveAll k.id q.handle
          ps.length).placeEnd k.id)))) ∧
  (∀ (s : State) (k : Cmd) (q : SeqRec) (p : Profile), s.begins k Op.pagesDrop →
    let t := s.started k
    let d := k.desc
    let inr := inRange (dF d 8 4) (dF d 12 4) (dF d 16 2) (dF d 18 2)
    t.openSeq? k.ctx (dHandle d) = some q → t.prof? q.mprof = some p →
    (rangeOk p q (dF d 8 4) (dF d 12 4) (dF d 16 2) (dF d 18 2) = false →
      exec (.pagesDrop k.id) s = .next (s.traced (t.complete k.id St.badField))) ∧
    (rangeOk p q (dF d 8 4) (dF d 12 4) (dF d 16 2) (dF d 18 2) = true → dF d 12 4 = 0 ∨ dF d 18 2 = 0 →
      exec (.pagesDrop k.id) s = .next (s.traced (t.complete k.id St.okEmpty))) ∧
    (rangeOk p q (dF d 8 4) (dF d 12 4) (dF d 16 2) (dF d 18 2) = true → dF d 12 4 ≠ 0 → dF d 18 2 ≠ 0 →
      ∃ f, (∀ r, (f r).ptes = r.ptes.map fun e => if inr e && e.pfh != 0 then
          { e with pfh := 0, s := false, g := false, grain := none } else e) ∧ (∀ r, (f r).len = r.len) ∧
        exec (.pagesDrop k.id) s = .next (s.traced
          (((t.setSeq q.idx f).dropRefs ((q.ptes.filter fun e => inr e && e.pfh != 0).map (·.pfh))).complete k.id St.ok))))

/-- R294, R295: PAGES_DELIVER whose pages can all be read writes them in order, advances its trigger and completes with OK and the length; an
empty range advances the trigger and gives OK_EMPTY; a check of step 6 that fails gives its status, and a dark AE set DEVICE_ERROR. -/
def Obligations.DeliverWritesPages : Prop :=
  ∀ (s : State) (k : Cmd) (q : SeqRec) (p : Profile), s.begins k Op.pagesDeliver → k.mark = 0 → k.count = 0 →
    let t := s.started k
    let c := s.startedCmd k
    let d := k.desc
    let n := dF d 12 4 * dF d 18 2 * dF d 22 2
    let caps := (List.range (dF d 18 2)).map fun i => q.visible (dF d 16 2 + i)
    let v := t.setCmd k.id fun y => { y with mark := 1, todo := caps }
    t.startCheck k = none → t.openSeq? k.ctx (dHandle d) = some q → t.prof? q.mprof = some p →
    (∀ st, t.deliverCheck c q p = some st → exec (.pagesDeliver k.id) s = .next (s.traced (t.complete k.id st))) ∧
    (t.deliverCheck c q p = none →
      (n = 0 → exec (.pagesDeliver k.id) s = .next (s.traced ((t.advanceTrig (dF d 26 2)).complete k.id St.okEmpty))) ∧
      (n ≠ 0 → t.setDark k.ctx = true → exec (.pagesDeliver k.id) s = .next (s.traced (v.finish k.id St.deviceError))) ∧
      (∀ u, n ≠ 0 → t.setDark k.ctx = false →
        v.deliverFrom { c with mark := 1, todo := caps } q p caps (deliverPlaces d) 0 = .ok (u, true) →
        ((u.cmd? k.id).map (·.met)).getD [] = [] →
        exec (.pagesDeliver k.id) s =
          .next (s.traced ((u.advanceTrig (dF d 26 2)).finish k.id St.ok { rlen := n * p.ldec }))))

/-! ## Prefix index (chapter 6) -/

/-- R221, R224: PREFIX_LOOKUP with its tokens read hashes and searches them; none to look up gives OK_EMPTY; a failed check of step 6
completes it with that status. A reference to an anchor of another part is first asked of that part (how is the model's choice, log entry 41).
R226, R231: PXI_NEXT returns the cursor's next match in RESULT, which the cursor then holds no longer; with none left, or with FREE,
the cursor is freed; a cursor's end of life frees it. -/
def Obligations.LookupsAndCursors : Prop :=
  (∀ (s : State) (k : Cmd) (x : Ctx), s.begins k Op.prefixLookup →
    let t := s.started k
    let c := s.startedCmd k
    t.startCheck k = none → t.lookup? k.id = none → t.ctx? k.ctx = some x →
    (t.mustAsk c (lkRef k.desc) = true → exec (.prefixLookup k.id) s = .next (s.traced (t.askRef c (lkRef k.desc)))) ∧
    (t.mustAsk c (lkRef k.desc) = false →
    (∀ st, t.lookupCheck c x = .error st → exec (.prefixLookup k.id) s = .next (s.traced (t.complete k.id st))) ∧
    (∀ pb, t.lookupCheck c x = .ok pb → lkNblk k.desc = 0 →
      exec (.prefixLookup k.id) s = .next (s.traced (t.complete k.id St.okEmpty))) ∧
    (∀ p b toks rest, t.lookupCheck c x = .ok (p, b) → lkNblk k.desc ≠ 0 → k.reads = toks :: rest →
      exec (.prefixLookup k.id) s = .next (s.traced (t.lookupRun c p b toks))))) ∧
  ((∀ (s : State) (k : Cmd) (c : Cursor), s.begins k Op.pxiNext →
    let t := s.started k
    t.pxi.cursors.find? (fun y => y.slot + y.gen * 65536 == dHandle k.desc) = some c →
    (dFlag k.desc 0 = true ∨ (c.casc = none ∧ c.list = []) →
      ∃ u, exec (.pxiNext k.id) s = .next (s.traced u) ∧ (∀ y ∈ u.pxi.cursors, y.slot ≠ c.slot) ∧ u.cmd? k.id = none) ∧
    (∀ m l, dFlag k.desc 0 = false → c.casc = none → c.list = m :: l →
      exec (.pxiNext k.id) s = .next (s.traced ((t.setPxi fun x => { x with
        cursors := updIf x.cursors (fun y => y.slot == c.slot) fun y => { y with list := l } }).complete k.id St.ok
          { result := m.ref.toNat })))) ∧
  ∀ (s : State) (slot : Nat) (c : Cursor), s.pxi.cursors.find? (fun y => y.slot == slot) = some c →
    ∃ t, exec (.cursorExpire slot) s = .next (s.traced t) ∧ (∀ y ∈ t.pxi.cursors, y.slot ≠ slot) ∧ c.until_ ≤ t.cycles ∧
      (∀ y ∈ s.pxi.cursors, y.slot ≠ slot → y ∈ t.pxi.cursors) ∧ t.cmds = s.cmds)

/-- R232 to R238: PREFIX_PUBLISH in a writable half, with its tokens read, hashes them and makes its anchor with the block rows and digests of
its depth, unless its first block is poisoned, which is met as an unavailable page, or no anchor is free; DEPTH 0 gives OK_EMPTY; in a
read-only half it gives DOMAIN_READ_ONLY. It then inserts digest by digest in ascending depth: a digest homed here is inserted into the
directory or finds its entry there, and a full bucket pair ends the publication. PREFIX_RETIRE in a writable half gives ACCESS_DENIED without
the publish right; with it, a reference to an anchor of this part takes every entry it names out of this directory, and RETIRE goes to each
other home of those digests that can be reached; with none to wait for it completes with OK and the count. -/
def Obligations.PublishAndRetire : Prop :=
  (∀ (s : State) (k : Cmd) (q : SeqRec) (p : Profile), s.begins k Op.prefixPublish →
    let t := s.started k
    let c := s.startedCmd k
    let ref := dF k.desc 8 8
    let depth := dF k.desc 16 4
    let ends := fun u : State => exec (.prefixPublish k.id) s = .next (s.traced u)
    t.startCheck k = none → t.pub? k.id = none → t.fld F.FXT_DOM_STAT_ADMITTING ≠ 1 →
    t.openSeq? k.ctx (dHandle k.desc) = some q → t.prof? q.mprof = some p →
    (t.readOnly = true → ends (t.complete k.id St.domainReadOnly)) ∧
    (t.readOnly = false → t.mustAsk c ref = true → ends (t.askRef c ref)) ∧
    (t.mustAsk c ref = false →
      (∀ st, t.publishCheck c q p = .error st → ends (t.complete k.id st)) ∧
      (∀ b, t.publishCheck c q p = .ok b → depth = 0 → ends (t.complete k.id St.okEmpty)) ∧
      (∀ b toks rest, t.publishCheck c q p = .ok b → depth ≠ 0 → k.reads = toks :: rest →
        let ds := chain (t.salt q.sdom) q.mprof p.B (depth - b.depth) b.last toks
        let h := (t.hashChain (ds.length * blockCompressions p.B)).1
        let lim := h.publishable q depth
        (lim ≤ b.depth → ends (h.completeMet c ((q.ptes.filter fun e => e.lpi == b.depth && h.poisonedPage e).map fun e =>
          ⟨q.handle, e.lpi, e.layer, e.head, e.pfh, false⟩))) ∧
        (b.depth < lim → h.takeAnchor = none → ends (h.complete k.id St.noSpace)) ∧
        (∀ u i g, b.depth < lim → h.takeAnchor = some (u, i, g) →
          ∃ (v : State) (a : Anchor) (w : Publish), a.idx = i ∧ a.gen = g ∧ a.sdom = q.sdom ∧ a.mprof = q.mprof ∧ a.part = q.part ∧
            a.ptes = (q.ptes.filter fun e => decide (e.lpi < depth)).map (fun e => { e with s := true, g := false, grain := none }) ∧
            a.digests = ((t.refInfo? c ref).map (·.digests)).getD [] ++ ds ∧
            v.pxi.anchors = u.pxi.anchors ++ [a] ∧ v.pxi.dir = u.pxi.dir ∧ v.pxi.pubs = u.pxi.pubs ++ [w] ∧ w.id = k.id ∧
            w.anchor = a.handle ∧ w.depth = depth ∧ w.last = none ∧ w.batch = none ∧
            w.todo = (((List.range ds.length).zip ds).map fun x => (b.depth + x.1 + 1, x.2)).filter (fun x => decide (x.1 ≤ lim)) ∧
            ends (v.pubStep w q.sdom q.mprof k.ctx (ds.length + 1)))))) ∧
  (∀ (s : State) (w : Publish) (sdom mprof ctx n : Nat),
    (w.todo = [] → s.pubStep w sdom mprof ctx n = s.pubDone w none) ∧
    ∀ depth d rest u, w.todo = (depth, d) :: rest → s.homeOf d = s.ownPart →
      let ins := s.insertEntry d sdom mprof depth w.anchor s.ownPart s.epoch true
      (ins = (u, .created) → (∃ e ∈ u.pxi.dir, e.digest = d ∧ e.sdom = sdom ∧ e.mprof = mprof ∧ e.depth = depth ∧ e.anchor = w.anchor) ∧
        s.pubStep w sdom mprof ctx (n + 1) =
          u.pubStep { w.note u.ownPart depth none with todo := rest } sdom mprof ctx n) ∧
      (∀ m, ins = (u, .existing m) → s.pubStep w sdom mprof ctx (n + 1) =
        u.pubStep { w.note u.ownPart depth (some m.ref) with todo := rest } sdom mprof ctx n) ∧
      (ins = (u, .full) → s.pubStep w sdom mprof ctx (n + 1) = u.pubDone w (some St.noSpace))) ∧
  (∀ (s : State) (k : Cmd) (x : Ctx), s.begins k Op.prefixRetire →
    let t := s.started k
    let c := s.startedCmd k
    let ref := dF k.desc 8 8
    let fr := max 1 (dF k.desc 16 4)
    let ends := fun u : State => exec (.prefixRetire k.id) s = .next (s.traced u)
    t.startCheck k = none → t.pxi.retires.any (fun y => y.id == k.id) = false → t.fld F.FXT_DOM_STAT_ADMITTING ≠ 1 →
    t.ctx? k.ctx = some x →
    (t.readOnly = true → ends (t.complete k.id St.domainReadOnly)) ∧
    (t.readOnly = false →
      (rtMode k.desc = 1 → ends (t.retireDomain c x)) ∧
      (rtMode k.desc ≠ 1 → t.mustAsk c ref = true →
        ends (if t.reachable (refApart ref) then t.askRef c ref else t.complete k.id St.peerUnreachable)) ∧
      (rtMode k.desc ≠ 1 → t.mustAsk c ref = false →
        (t.base? c ref = none → ends (t.complete k.id St.badHandle)) ∧
        (∀ b, t.base? c ref = some b → x.publishes b.sdom = false → ends (t.complete k.id St.accessDenied)) ∧
        (∀ b a, t.base? c ref = some b → x.publishes b.sdom = true → t.refAnchor? ref = some a →
          let homes := t.homesFrom a fr
          let key := RetireKey.anchor (refAnchor ref) (refApart ref) fr
          let y := t.retireKey key
          ends ((y.1.missHomes a.idx fr (homes.filter fun h => !t.reachable h)).retireAt c key (homes.filter t.reachable) y.2))))) ∧
  (∀ (s : State) (h fr : Nat),
    let y := s.retireKey (.anchor h s.ownPart fr)
    let named := fun e : DirEnt => e.anchor == h && e.apart == s.ownPart && decide (fr ≤ e.depth)
    y.1.pxi.dir = s.pxi.dir.filter (fun e => !named e) ∧ y.2 = (s.pxi.dir.filter named).length) ∧
  ∀ (s : State) (k : Cmd) (key : RetireKey) (homes : List Nat) (n : Nat),
    (∀ h ∈ homes, ∃ m ∈ (s.retireAt k key homes n).fxt.msgs, m.dst = h ∧ ∃ req, m.carry = .svc (.retire req key)) ∧
    (homes = [] → ∃ u : State, s.retireAt k key homes n = u.complete k.id St.ok { result := n % two32 } ∧ u.pxi.dir = s.pxi.dir ∧
      u.cmds = s.cmds ∧ u.fxt = s.fxt)

/-! ## Tables, regions, RMA (chapters 8 and 9) -/

/-- R311, R313: TABLE_LOAD of no bytes gives OK_EMPTY, of more than 4 MiB or than its region holds LENGTH_LIMIT, and else it reads its image. Of
an image that was read, whose signature passes, whose header agrees with the descriptor and whose records and bindings are valid, it stores the
set and completes with OK; one that does not agree or is not valid gives BAD_FIELD, a bad signature SIGNATURE_INVALID. -/
def Obligations.TableLoadStoresTheSet : Prop :=
  (∀ (s : State) (k : Cmd) (bad : List (Nat × Bool)), s.begins k Op.tableLoad → k.mark = 0 →
    let t := s.started k
    let len := dF k.desc 24 4
    t.startCheck k = none →
    (len = 0 → exec (.tableLoad k.id bad) s = .next (t.complete k.id St.okEmpty)) ∧
    (len ≠ 0 → 4 * 2 ^ 20 < len ∨ t.spaceLong k.ctx (dImage k.desc) len = false →
      exec (.tableLoad k.id bad) s = .next (t.complete k.id St.lengthLimit)) ∧
    (len ≠ 0 → len ≤ 4 * 2 ^ 20 → t.spaceLong k.ctx (dImage k.desc) len = true → exec (.tableLoad k.id bad) s =
      .next (((t.spaceRead k.id k.ctx (dImage k.desc) len).setCmd k.id fun c => { c with mark := 1 }).tableGo bad k.id))) ∧
  ∀ (s : State) (k : Cmd) (bad : List (Nat × Bool)) (u : State), s.resumes k Op.tableLoad → k.mark ≠ 0 →
    let d := k.desc
    let obj := signedOf k.reads.flatten
    let img := imageOf k.reads.flatten
    let agrees := img.tset = dF d 8 2 ∧ img.len = dF d 24 4 ∧ img.mprof = dF d 28 2
    let ends := fun v : State => exec (.tableLoad k.id bad) s = .next v
    (s.checkSig 1 obj = (u, false) → ends (u.complete k.id St.signatureInvalid)) ∧
    (s.checkSig 1 obj = (u, true) →
      (¬ agrees ∨ u.prof? img.mprof = none → ends (u.complete k.id St.badField)) ∧
      (∀ p, agrees → u.prof? img.mprof = some p → u.imageOk p img = false → ends (u.complete k.id St.badField)) ∧
      (∀ p, agrees → u.prof? img.mprof = some p → u.imageOk p img = true → ends (((u.loadTables img obj).damageTables bad).complete k.id St.ok)))

/-- R350, R351, R353, R355: REGION_REGISTER of host memory makes a live region with the rights and length of its descriptor and returns
its RKEY; REGION_REVOKE advances the generation, after which the old RKEY names nothing; the drain completes it, and with FREE the
region's bytes are gone. -/
def Obligations.RegionsComeAndGo : Prop :=
  (∀ (s : State) (k : Cmd) (x : Ctx) (u : State) (i g : Nat), s.begins k Op.regionRegister →
    let t := s.started k
    let d := k.desc
    t.checkRegister k = none → t.ctx? k.ctx = some x → dF d 12 4 ≠ 0 → dF d 8 1 = 1 → t.takeRegion = some (u, i, g) →
    ∃ (r : Region) (v : State), exec (.regionRegister k.id) s = .next (v.complete k.id St.ok { result := i * 4096 + g % 4096 }) ∧
      v.fxt.regions = u.fxt.regions ++ [r] ∧ r.index = i ∧ r.gen = g ∧ r.ctx = k.ctx ∧ r.len = dF d 12 4 ∧
      r.access = dF d 9 1 % 16 ∧ r.hostMem = true ∧ r.freeing = false ∧ v.fxt.mem = s.fxt.mem) ∧
  (∀ (s : State) (k : Cmd) (r : Region), s.begins k Op.regionRevoke →
    let t := s.started k
    t.region? k.ctx (dF k.desc 8 4) = some r → (∀ y ∈ t.fxt.regions, y.draining ≠ some k.id) →
    (t.ringIn r = true → exec (.regionRevoke k.id) s = .next (t.complete k.id St.busyRetry)) ∧
    (t.ringIn r = false → exec (.regionRevoke k.id) s = .next (t.setRegion r.index fun y =>
      { y with gen := (y.gen + 1) % 4096, draining := some k.id, freeing := dFlag k.desc 0 }))) ∧
  ∀ (s : State) (i : Nat) (r : Region) (c : CmdId), s.fxt.regions.find? (fun y => y.index == i) = some r → r.draining = some c →
    (r.freeing = true → ∃ t, exec (.revokeDrainComplete i) s = .next t ∧ (∀ y ∈ t.fxt.regions, y.index ≠ i) ∧
      (∀ off, off < 2 ^ 32 → spGet 0 t.fxt.mem (regionKey i off) = 0) ∧
      (∀ a, a / 2 ^ 32 ≠ i → spGet 0 t.fxt.mem a = spGet 0 s.fxt.mem a) ∧ t.cmd? c = none) ∧
    (r.freeing = false → exec (.revokeDrainComplete i) s =
      .next ((s.setRegion i fun y => { y with draining := none }).complete c St.ok { result := r.rkey }))

/-- R350: bytes stored in an HBM region read back at their offsets; every other byte of HBM regions keeps its value. -/
def Obligations.RegionBytesReadBack : Prop :=
  ∀ (s : State) (r : Region) (off : Nat) (b : List Byte), off + b.length ≤ 2 ^ 32 →
    (s.regionStore r off b).regionLoad r off b.length = b ∧
    (∀ a, a < regionKey r.index off ∨ regionKey r.index off + b.length ≤ a →
      spGet 0 (s.regionStore r off b).fxt.mem a = spGet 0 s.fxt.mem a) ∧
    (∀ r' o n, r'.index ≠ r.index → o + n ≤ 2 ^ 32 → (s.regionStore r off b).regionLoad r' o n = s.regionLoad r' o n) ∧
    (s.memWf → (s.regionStore r off b).memWf)

/-- R340, R357, R359: an RMA_WRITE or RMA_WRITE_IMM whose source was read posts its messages; an RMA_READ posts its requests; an
RMA_FLUSH begins to wait for what the queue has sent to the node; an operation of no bytes other than a write with immediate gives
OK_EMPTY. -/
def Obligations.RmaPostsMessages : Prop :=
  ∀ (s : State) (k : Cmd) (o : RmaOp) (b : List Byte), s.startable k → k.armed = none → k.mark = 0 → k.rma = o →
    let t := s.started k
    let c := s.startedCmd k
    t.checkRmaRun k = none → t.epKind o.node ≠ 0 → t.epKind o.node ≠ 3 →
    (dOp k.desc = Op.rmaWrite → o.len = 0 → t.localBad c o = none →
      exec (.rmaWrite k.id) s = .next (t.complete k.id St.okEmpty).prune) ∧
    (dOp k.desc = Op.rmaWrite → o.len ≠ 0 → o.len ≤ 268435456 → t.localBad c o = none → k.reads = [b] →
      exec (.rmaWrite k.id) s =
        .next (((t.postAll (t.writeMsgs c o (b.take o.len))).posted k.id).settleRma k.id).prune) ∧
    (dOp k.desc = Op.rmaWriteImm → o.len ≠ 0 → o.len ≤ 268435456 → t.localBad c o = none → k.reads = [b] →
      exec (.rmaWriteImm k.id) s =
        .next (((t.postAll (t.writeMsgs c o (b.take o.len))).posted k.id).settleRma k.id).prune) ∧
    (dOp k.desc = Op.rmaRead → o.len ≠ 0 → o.len ≤ 268435456 → t.localBad c o = none →
      exec (.rmaRead k.id) s = .next (((t.postAll (t.readMsgs c o)).posted k.id).settleRma k.id)) ∧
    (dOp k.desc = Op.rmaFlush → exec (.rmaFlush k.id) s = .next (t.flushStart c o))

/-- R361: WR_ARM arms its pair, in the order of arming; a pair whose counter has reached its next threshold fires, pairs on one counter
in the order in which they were armed; a pair that waits longer than its time limit ends with TIMEOUT. -/
def Obligations.ArmedPairsFire : Prop :=
  (∀ (s : State) (k : Cmd), s.begins k Op.wrArm → k.armNo = 0 →
    let t := s.started k
    t.checkArm k = none →
    exec (.wrArm k.id) s = .next (({ t with fxt := { t.fxt with armCount := t.fxt.armCount + 1 } }).setCmd k.id fun x =>
      { x with armNo := t.fxt.armCount + 1, since := t.cycles }).prune) ∧
  (∀ (s : State) (k : Cmd), s.cmd? k.id = some k → k.fail = none → k.waitsFiring = true → s.reached k = true →
    (∀ x ∈ s.cmds, x.waitsFiring = true → s.reached x = true → dF x.desc 8 2 = dF k.desc 8 2 → k.armNo ≤ x.armNo) →
    exec (.triggerFire k.id) s =
      .next ((s.setCmd k.id fun x => { x with mark := 1 }).rmaRun { k with mark := 1 }).prune) ∧
  ∀ (s : State) (k : Cmd), s.cmd? k.id = some k → k.waitsFiring = true → dF k.desc 40 4 ≠ 0 →
    exec (.wrArmTimeout k.id) s = .next ((s.reach (k.since + dF k.desc 40 4 * cyclesPerUs)).rmaEnd k St.timeout 0)

/-- R488, R493: a BLANK_MOUNT whose blank was read and passes every check begins the mount, or with CHECK only completes with OK; a mask of no
partition gives OK_EMPTY; a length that is not the blank's, or a failed check, completes it with its status. The steps of the mount then follow
one another; a re-mount goes on from its first once the contexts it changes are down. -/
def Obligations.MountRunsItsSteps : Prop :=
  (∀ (s : State) (k : Cmd) (img : Blank) (u : State) (r : Option Nat), s.resumes k Op.blankMount → k.mark ≠ 0 →
    let d := k.desc
    let full := decide (dMode d = 0)
    let b := { img with obj := signedOf k.reads.flatten }
    let ends := fun v : State => exec (.blankMount k.id img) s = .next (s.traced v)
    s.boot.mount = none → s.mountWaits full (dMask d) = false → s.blank.isNone = full → dF d 9 1 ≠ 2 →
    (b.length ≠ dBlankLen d → ends (s.mountFails k St.lengthLimit)) ∧
    (b.length = dBlankLen d → s.mountChecks b full (dMask d) (if full then none else some k.ctx) = (u, r) →
      (∀ st, r = some st → ends (u.mountFails k st)) ∧
      (r = none → dFlag d 0 = true → ends (u.complete k.id St.ok)) ∧
      (r = none → dFlag d 0 = false → full = false → dMask d = 0 → ends (u.complete k.id St.okEmpty)) ∧
      (r = none → dFlag d 0 = false → full = true ∨ dMask d ≠ 0 → ends (u.beginMount (some k.id) none b full (dMask d))))) ∧
  ∀ (s : State) (m : Mount), s.boot.mount = some m →
    let at_ := fun (t : State) (n : Nat) => t.setBoot fun x => { x with mount := some { m with step := n } }
    (m.step = 4 → m.remount = false → exec .mountStepComplete s = .next (s.traced (at_ s 5))) ∧
    (m.step = 4 → m.remount = true →
      ((s.changedCtxs m.img m.pmask).any (fun x => x.st != .down) = true → exec .mountStepComplete s = .next (s.traced s)) ∧
      ((s.changedCtxs m.img m.pmask).any (fun x => x.st != .down) = false → exec .mountStepComplete s = .next (s.traced
        (at_ (s.remountParts m.img (s.seq.parts.filter fun p => inMask m.pmask p.r.part)) 5)))) ∧
    (m.step = 5 → exec .mountStepComplete s = .next (s.traced (at_ (s.mountStores m.img (!m.remount)) 6))) ∧
    (m.step = 6 → exec .mountStepComplete s = .next (s.traced (s.mountTables m))) ∧
    (m.step = 7 → exec .mountStepComplete s = .next (s.traced (at_ s.restart 8))) ∧
    (m.step = 8 → exec .mountStepComplete s = .next (s.traced (s.mountDone m)))

/-! ## Registers of the PF that act (chapters 9 to 11) -/

/-- R335, R379: a write command stores the data registers in the selected endpoint entry, and a load command returns the entry to them;
on the manager of a domain a write reaches the other members, and elsewhere DOM_REG is not written. A write of a shard-map register on
the manager that changes no entry does nothing; one that changes some makes the next version and sends it.
R379, R386: a member takes a newer shard map and the registry entries it is sent; an older version changes nothing. A request to refill
is answered once what this part knows has been sent; when the refill is over FXT_DOM_STAT.REFILL is 0. -/
def Obligations.RegistriesAreWrittenAndSpread : Prop :=
  (∀ s : State, s.pfReady →
    (let n := s.fld F.FXT_EP_SEL_NODE
     let u := s.putEps [(n, s.epData)]
     u.ep n = s.epData ∧ (∀ m, m ≠ n → u.ep m = s.ep m) ∧
     (s.isManager = false → exec (.epWrite 0) s = .next u) ∧
     (s.isManager = true → exec (.epWrite 0) s = .next (u.svcAll (.regUpdate [(n, s.epData)] []) s.otherMembers))) ∧
    (∃ t, exec (.epLoad 0) s = .next t ∧ t.fxt = s.fxt ∧
      ∀ i, i < 8 → t.fld F.FXT_EP_DATA_BYTES i = (s.ep (s.fld F.FXT_EP_SEL_NODE)).toNat / 2 ^ (64 * i) % 2 ^ 64) ∧
    (let n := s.fld F.FXT_DOM_REG_SEL_ENTRY
     let e := BitVec.ofNat 128 (s.fld F.FXT_DOM_REG_DATA_BYTES 0 + s.fld F.FXT_DOM_REG_DATA_BYTES 1 * 2 ^ 64)
     (s.isManager = false → exec (.domRegWrite 0) s = .next s) ∧
     (s.isManager = true →
       exec (.domRegWrite 0) s = .next ((s.putRegs [(n, e)]).svcAll (.regUpdate [] [(n, e)]) s.otherMembers)) ∧
     ∃ t, exec (.domRegLoad 0) s = .next t ∧ t.dom = s.dom ∧
       ∀ i, i < 2 → t.fld F.FXT_DOM_REG_DATA_BYTES i = spGet 0 s.dom.registry n / 2 ^ (64 * i) % 2 ^ 64) ∧
    (∀ (n : Nat) (v : Word32), n < 1024 →
      let r := s.putMap ((List.range 4).map fun k => (4 * n + k, v.toNat / 256 ^ k % 256))
      let u := r.1.setDom fun d => { d with mapVer := d.mapVer + 1 }
      (s.isManager = false ∨ r.2 = [] → exec (.shardMapWrite 0 n v) s = .next s) ∧
      (s.isManager = true → r.2 ≠ [] → exec (.shardMapWrite 0 n v) s =
        .next ((u.svcAll (.mapUpdate u.dom.mapVer u.shardMap) u.otherMembers).homesMoved r.2)))) ∧
  ((∀ (s : State) (src ver : Nat) (map : List Nat), s.listening → s.inDomain = true → s.isManager = false → src ≠ s.ownPart →
    (ver ≤ s.dom.mapVer → exec (.mapUpdate src ver map) s = .next s) ∧
    (s.dom.mapVer < ver →
      let r := s.putMap ((List.range map.length).zip map)
      exec (.mapUpdate src ver map) s = .next ((r.1.setDom fun d => { d with mapVer := ver }).homesMoved r.2))) ∧
  (∀ (s : State) (src n : Nat) (e : Word512) (m : Nat) (g : Word128), s.listening → s.inDomain = true → s.isManager = false →
    src ≠ s.ownPart → ∃ t, exec (.regUpdate src [(n, e)] [(m, g)]) s = .next t ∧ t.ep n = e ∧ (∀ k, k ≠ n → t.ep k = s.ep k) ∧
      spGet 0 t.dom.registry m = g.toNat ∧ (∀ k, k ≠ m → spGet 0 t.dom.registry k = spGet 0 s.dom.registry k) ∧ t.regs = s.regs) ∧
  (∀ (s : State) (src part : Nat), s.open_ → s.inDomain = true →
    let u := (s.setFld F.FXT_DOM_STAT_REFILL 1).refillAll (fun _ => true) [part] s.pxi.anchors
    exec (.refill src part) s = .next (u.svc src (.refillReply part))) ∧
  ∀ s : State, ∃ t, exec .homeRefillDone s = .next t ∧ t.fld F.FXT_DOM_STAT_REFILL = 0 ∧ t.dom = s.dom ∧ t.pxi = s.pxi ∧ t.fxt = s.fxt)

/-- R422, R424, R427: a write command gives the selected subscriber or service the values of the data registers and cuts its buckets to
the new sizes; a load command returns them; a sample adds one depth and delay per context; selecting a sample loads it, and CLEAR resets
it. No packet is lost. -/
def Obligations.EgressSettingsAndSamples : Prop :=
  ∀ s : State, s.pfReady →
    (let n := s.fld F.EGS_SUB_SEL_SUB
     ∃ t, exec (.egsSubWrite 0) s = .next t ∧
       t.egsSub n = { cir := s.fld F.EGS_SUB_DATA0_CIR, pir := s.fld F.EGS_SUB_DATA0_PIR, weight := s.fld F.EGS_SUB_DATA0_WEIGHT,
                      service := s.fld F.EGS_SUB_DATA0_SERVICE, cbs := s.fld F.EGS_SUB_DATA1_CBS,
                      pbs := s.fld F.EGS_SUB_DATA1_PBS } ∧
       (∀ m, m ≠ n → t.egsSub m = s.egsSub m) ∧ (∀ m, t.egsSvc m = s.egsSvc m) ∧
       (∀ x ∈ t.egs.subBk, x.1.2 = n → x.2.c ≤ bucketSize (t.egsSub n).cbs ∧ x.2.p ≤ bucketSize (t.egsSub n).pbs) ∧
       t.egs.queue = s.egs.queue ∧ t.regs = s.regs) ∧
    (let e := s.egsSub (s.fld F.EGS_SUB_SEL_SUB)
     ∃ t, exec (.egsSubLoad 0) s = .next t ∧ t.egs = s.egs ∧ t.fld F.EGS_SUB_DATA0_CIR = e.cir % 2 ^ 20 ∧
       t.fld F.EGS_SUB_DATA0_PIR = e.pir % 2 ^ 20 ∧ t.fld F.EGS_SUB_DATA0_WEIGHT = e.weight % 2 ^ 16 ∧
       t.fld F.EGS_SUB_DATA0_SERVICE = e.service % 8 ∧ t.fld F.EGS_SUB_DATA1_CBS = e.cbs % 2 ^ 16 ∧
       t.fld F.EGS_SUB_DATA1_PBS = e.pbs % 2 ^ 16) ∧
    (let n := s.fld F.EGS_SVC_SEL_SVC
     ∃ t, exec (.egsSvcWrite 0) s = .next t ∧
       t.egsSvc n = { cir := s.fld F.EGS_SVC_DATA0_CIR, pir := s.fld F.EGS_SVC_DATA0_PIR, weight := s.fld F.EGS_SVC_DATA0_WEIGHT,
                      service := 0, cbs := s.fld F.EGS_SVC_DATA1_CBS, pbs := s.fld F.EGS_SVC_DATA1_PBS } ∧
       (∀ m, m ≠ n → t.egsSvc m = s.egsSvc m) ∧ (∀ m, t.egsSub m = s.egsSub m) ∧
       (∀ x ∈ t.egs.svcBk, x.1 = (n / 8, n % 8) → x.2.c ≤ bucketSize (t.egsSvc n).cbs ∧ x.2.p ≤ bucketSize (t.egsSvc n).pbs) ∧
       t.egs.queue = s.egs.queue ∧ t.regs = s.regs) ∧
    (let e := s.egsSvc (s.fld F.EGS_SVC_SEL_SVC)
     ∃ t, exec (.egsSvcLoad 0) s = .next t ∧ t.egs = s.egs ∧ t.fld F.EGS_SVC_DATA0_CIR = e.cir % 2 ^ 20 ∧
       t.fld F.EGS_SVC_DATA0_PIR = e.pir % 2 ^ 20 ∧ t.fld F.EGS_SVC_DATA0_WEIGHT = e.weight % 2 ^ 16 ∧
       t.fld F.EGS_SVC_DATA1_CBS = e.cbs % 2 ^ 16 ∧ t.fld F.EGS_SVC_DATA1_PBS = e.pbs % 2 ^ 16) ∧
    (let u := s.reach (s.egs.sampledAt + max 1 (s.fld F.EGS_CFG_PERIOD) * cyclesPerUs)
     ∃ t, exec .egsSample s = .next t ∧ t.cycles = u.cycles ∧ t.egs.queue = s.egs.queue ∧ t.egs.subBk = s.egs.subBk ∧ t.regs = s.regs ∧
      ((s.ctxs.map (·.r.ctx)).Nodup → ∀ c ∈ s.ctxs.map (·.r.ctx), spGet Sample.zero t.egs.subSmp c =
        let p := u.sampleOf fun x => x.sub == c
        (spGet Sample.zero s.egs.subSmp c).add p.1 p.2)) ∧
    ∀ v : Word32,
      let i := v.toNat % 4096
      let x := if v.toNat / 4096 % 2 = 0 then spGet Sample.zero s.egs.subSmp i else spGet Sample.zero s.egs.svcSmp i
      ∃ t, exec (.egsSampleSelect 0 v) s = .next t ∧ t.egs.queue = s.egs.queue ∧
        t.fld F.EGS_SAMPLE_DATA0_DEPTH_MAX = x.depth % 2 ^ 32 ∧ t.fld F.EGS_SAMPLE_DATA0_DELAY_MAX = x.delay % 2 ^ 32 ∧
        t.fld F.EGS_SAMPLE_DATA1_DELAY_SUM = x.sum % 2 ^ 40 ∧ t.fld F.EGS_SAMPLE_DATA1_SAMPLES = x.count % 2 ^ 24 ∧
        (v.toNat / 8192 % 2 = 0 → t.egs = s.egs) ∧
        (v.toNat / 8192 % 2 = 1 → v.toNat / 4096 % 2 = 0 →
          spGet Sample.zero t.egs.subSmp i = Sample.zero ∧ t.egs.svcSmp = s.egs.svcSmp) ∧
        (v.toNat / 8192 % 2 = 1 → v.toNat / 4096 % 2 = 1 →
          spGet Sample.zero t.egs.svcSmp i = Sample.zero ∧ t.egs.subSmp = s.egs.subSmp)

/-! ## The Lathe transport (chapter 9) -/

/-- R337 to R339, R362, R394, R421: a message that may leave and whose destination is cached is sent; one that may not stays. A miss is
counted, loaded, and the waiting message leaves if it may. EGS sends the packet its rules pick and takes it out of the queue. A rate grows
by AI after INC_GAP, up to the starting rate. A pace notice for a changed level posts one message that carries the level. -/
def Obligations.MessagesLeave : Prop :=
  (∀ (s : State) (dst msgid : Nat) (m : TxMsg), s.msg? dst msgid = some m →
    (s.maySend m = false ∨ dst ∉ s.fxt.cached → exec (.messageSend dst msgid) s = .next s) ∧
    (s.maySend m = true → dst ∈ s.fxt.cached → exec (.messageSend dst msgid) s =
      .next (((s.setFxt fun x => { x with cached := dst :: x.cached.filter (· ≠ dst) }).bump F.FXT_DEST_STAT_HITS).firstSend m))) ∧
  (∀ (s : State) (node : Nat) (l : List Nat), node ∉ s.fxt.cached → s.cacheRoom node = some l →
    let u := (s.setFxt fun x => { x with cached := l }).bump F.FXT_DEST_STAT_MISSES
    ((∀ m ∈ s.fxt.msgs, m.dst = node → m.sent = true) → exec (.destCacheLoad node) s = .next u) ∧
    (∀ m, (s.fxt.msgs.find? fun m => m.dst == node && !m.sent) = some m → u.maySend m = true →
      exec (.destCacheLoad node) s = .next (u.firstSend m))) ∧
  (∀ (s : State) (i : Nat), s.dead = false →
    (s.ifaceUp i = false ∨ (s.pickPacket i).2 = none → exec (.egsPacketSelect i) s = .next s) ∧
    (∀ u h, s.ifaceUp i = true → s.pickPacket i = (u, some h) →
      let v := u.takePacket h
      let w := v.sendBody i h.dst h.body ((v.msg? h.dst h.msgid).any fun m => m.left == 1)
      ((∃ m, h.body = .svc m) ∨ (∃ p, h.body = .pkt p ∧ p.typ ≠ .readResp) →
        exec (.egsPacketSelect i) s = .next (w.packetLeft h.dst h.msgid)) ∧
      (∀ p, h.body = .pkt p → p.typ = .readResp → exec (.egsPacketSelect i) s = .next w))) ∧
  (∀ (s : State) (node r : Nat), (s.dest node).rate = some r →
    ∃ t, exec (.ccRateIncrease node) s = .next t ∧
      (t.dest node).rate = some (max 1000000 (min (s.startRate node) (r + s.fld F.FXT_CC_CFG_AI * 1000000))) ∧
      (s.dest node).quiet + max 1 (s.fld F.FXT_CC_CFG_INC_GAP) * cyclesPerUs ≤ t.cycles ∧ (t.dest node).quiet = t.cycles ∧
      (∀ n, n ≠ node → t.dest n = s.dest n) ∧ t.fxt.msgs = s.fxt.msgs ∧ t.regs = s.regs) ∧
  ∀ (s : State) (c : CmdId) (p : Plan), s.att.plans.find? (fun x => x.id == c) = some p →
    (p.pace = false ∨ p.lastLevel = s.level → exec (.paceNoticeSend c) s = .next s) ∧
    (p.pace = true → p.lastLevel ≠ s.level →
      ∃ t m b imm, exec (.paceNoticeSend c) s = .next t ∧ t.fxt.msgs = s.fxt.msgs ++ [m] ∧ m.dst = p.pacePart ∧ m.ctx = p.ctx ∧
        m.pace = true ∧ m.carry = .data p.paceRkey p.paceOff b (some imm) ∧ imm.toNat % 256 = s.level % 16 ∧
        b = paceBytes (s.fld F.FXT_NODE_NODE) s.level p.lastLevel (p.paceSeq + 1) p.nseq t.cycles ∧
        (∀ y ∈ t.att.plans, y.id = c → y.lastLevel = s.level ∧ y.paceSeq = p.paceSeq + 1) ∧
        (∀ last, p.lastSent = some last → last + max 1 (s.fld F.FXT_DOM_CFG2_PACE_GAP) * cyclesPerUs ≤ t.cycles))

/-- R331, R333, R341, R343 to R345, R349, R497: a frame that fails a check of its link or header is discarded with that check's count. A
packet of a message known to be complete or refused is answered again and counted. A new WRITE passes its region check and is placed, or
is refused; one with the whole message is stored and acknowledged. In HOLD and PARK it is told to come again. Reads are answered, and read
data, ACK and NAK act on the message they name. -/
def Obligations.PacketsAreTaken : Prop :=
  (∀ (s u : State) (x : RxFrame), s.listening → s.linkCheck x = some u →
    (x.p.typ = .write ∨ x.p.typ = .service → exec (.packetRx x) s = .next u) ∧
    (x.p.typ = .readReq → exec (.readReq x) s = .next u) ∧ (x.p.typ = .readResp → exec (.readResp x) s = .next u) ∧
    (x.p.typ = .ack → exec (.ack x) s = .next (s.traced u)) ∧ (x.p.typ = .nak → exec (.nak x) s = .next (s.traced u))) ∧
  ∀ (s u : State) (x : RxFrame), s.hears x u →
    (x.p.typ = .write ∨ x.p.typ = .service → u.asleep = true → exec (.packetRx x) s = .next (u.busyNak x).wakeFab) ∧
    (∀ e, x.p.typ = .write ∨ x.p.typ = .service → u.asleep = false → u.dup? x.p.src x.p.msgid = some e → e.st ≠ 0 →
      exec (.packetRx x) s = .next ((u.bump F.FXT_DUP_STAT_DUPLICATES).answer x e.status false)) ∧
    (u.asleep = false → u.dup? x.p.src x.p.msgid = none →
      (x.p.typ = .service → x.p.svcUnknown = false → exec (.packetRx x) s = .next (u.rxPlace x none)) ∧
      (x.p.typ = .service → x.p.svcUnknown = true → exec (.packetRx x) s = .next (u.refuse x St.badField)) ∧
      (∀ r, x.p.typ = .write → u.regionCheck x.p x.p.payload.length true = .ok r →
        exec (.packetRx x) s = .next (u.rxPlace x (some r))) ∧
      (∀ st v, x.p.typ = .write → u.regionCheck x.p x.p.payload.length true = .error st → u.filterRoom = some v →
        exec (.packetRx x) s = .next (v.refuse x st)) ∧
      (∀ r v, u.filterRoom = some v → u.reasm? x.p.src x.p.msgid = none → u.fxt.reasm.length < 8192 → r.hostMem = true →
        x.p.payload ≠ [] →
        let w := v.setDup x.p.src x.p.msgid 0 0
        w.xlatOk (w.funcOf r.ctx) (r.addr + x.p.roff) x.p.payload.length = false →
        u.rxPlace x (some r) = w.refuse x St.accessDenied) ∧
      (∀ r v, u.filterRoom = some v → u.reasm? x.p.src x.p.msgid = none → u.fxt.reasm.length < 8192 → r.hostMem = false →
        x.p.payload ≠ [] → x.p.payload.length = x.p.mlen → x.p.hasImm = false →
        let w := ((v.setDup x.p.src x.p.msgid 0 0).chargeFab r.ctx x.p.mlen false).regionStore r x.p.roff x.p.payload
        u.rxPlace x (some r) =
          (w.setReasm ((⟨x.p.src, x.p.msgid, [], false, 0, x.p.roff⟩ : Reasm).add x w.cycles)).rxDone x x.ce)) ∧
    (x.p.typ = .readReq →
      (u.asleep = true → exec (.readReq x) s = .next { u with pm := { u.pm with reqs := u.pm.reqs ++ [x] } }) ∧
      (u.asleep = false → exec (.readReq x) s = .next (u.rxRead x)) ∧
      (∀ st, u.regionCheck x.p x.p.mlen false = .error st →
        u.rxRead x = (u.bump F.FXT_RX_STAT_REFUSED).answer x st false)) ∧
    (x.p.typ = .readResp → exec (.readResp x) s = .next (u.rxResp x)) ∧
    (let v := if x.p.ece then u.gotEce x.p.src else u
     (x.p.typ = .ack → exec (.ack x) s = .next (s.traced (v.acked x.p.src x.p.msgid))) ∧
     (x.p.typ = .nak → exec (.nak x) s = .next (s.traced (v.naked x.p.src x.p.msgid x.p.status))))

/-- R341, R346, R349: without a reply for RTO µs a message is sent again at half the rate, and a message out of tries fails with
PEER_UNREACHABLE; a read request is timed the same way. BUSY_DELAY µs after a BUSY_RETRY the message is sent again; after BUSY_TIME ms it
fails with TIMEOUT. A record of reassembly that waits too long goes; what it placed stays. -/
def Obligations.TransportTimers : Prop :=
  (∀ (s : State) (dst msgid : Nat) (m : TxMsg), s.msg? dst msgid = some m → m.timed = true →
    let v := s.reach (m.sentAt + max 1 (s.fld F.FXT_RETX_CFG_RTO) * cyclesPerUs)
    let u := v.setRate m.dst (v.rateOf m.dst / 2)
    let t := if m.tries < s.fld F.FXT_RETX_CFG_RETRY_MAX then (u.setMsg m fun x => { x with tries := x.tries + 1 }).resend m
      else (u.bump F.FXT_TX_STAT_UNREACHABLE).msgFails m St.peerUnreachable
    (m.isRead = false → exec (.retxTimeout dst msgid) s = .next (s.traced t) ∧ exec (.readRetry dst msgid) s = .next s) ∧
    (m.isRead = true → exec (.readRetry dst msgid) s = .next t)) ∧
  (∀ (s : State) (dst msgid a b : Nat) (m : TxMsg), s.msg? dst msgid = some m → m.busy = some (a, b) →
    (b ≠ 0 → exec (.busyResend dst msgid) s =
      .next (((s.reach (b + max 1 (s.fld F.FXT_RETX_CFG_BUSY_DELAY) * cyclesPerUs)).resend m).setMsg m fun x =>
        { x with busy := some (a, 0) })) ∧
    exec (.busyTimeExpire dst msgid) s =
      .next (s.traced (((s.reach (a + max 1 (s.fld F.FXT_RETX_CFG_BUSY_TIME) * 1000 * cyclesPerUs)).bump
        F.FXT_TX_STAT_TIMEOUTS).msgFails m St.timeout))) ∧
  ∀ (s : State) (src msgid : Nat) (r : Reasm), s.reasm? src msgid = some r →
    ∃ t, exec (.reasmTimeout src msgid) s = .next t ∧ t.reasm? src msgid = none ∧ t.fxt.mem = s.fxt.mem ∧
      t.fxt.filter = s.fxt.filter ∧ r.last + max 1 (s.fld F.FXT_RX_CFG_REASM_TIMEOUT) * cyclesPerUs ≤ t.cycles

/-- R328, R329, R366, R440: a link of an existing interface comes up, or goes down with a flap counted; an interface that goes down is
neither up nor live, and loses the packets it held queued, the others keeping theirs. A write of a port's mode register by the booted
part's function 0 sets its three fields, and where it changes the mode, every interface of the port goes down. MKA makes one of two receive
associations live, or distributes a new key, MKA_REKEY seconds after the last or once the packet number has passed 2^62; without a CAK of the
interface nothing happens. A PFC frame pauses and resumes, in the order
of its list, the priorities that take part. -/
def Obligations.InterfacesChange : Prop :=
  (∀ (s : State) (i : Nat),
    (s.ifaceExists i = false → exec (.ethLinkUp i) s = .next s ∧ exec (.ethLinkLoss i) s = .next s) ∧
    (s.ifaceExists i = true →
      exec (.ethLinkUp i) s = .next (s.setFld F.ETH_LINK_STAT_UP 1 i) ∧
      (s.fld F.ETH_LINK_STAT_UP i = 1 →
        exec (.ethLinkLoss i) s = .next ((s.bump F.ETH_LINK_STAT_FLAPS 1 i).ifaceDown i)) ∧
      (s.fld F.ETH_LINK_STAT_UP i = 0 → exec (.ethLinkLoss i) s = .next s)) ∧
    (s.ifaceDown i).fld F.ETH_LINK_STAT_UP i = 0 ∧ (s.ifaceDown i).saLive i = false ∧
    (s.ifaceDown i).egs.queue = s.egs.queue.filter fun q => q.iface ≠ i) ∧
  (∀ (s : State) (f port : Nat) (v : Word32),
    let u := if v.toNat % 4 = s.fld F.ETH_PORT_CFG_MODE port then s else s.portDown ((List.range 8).map (8 * port + ·))
    (s.pfReady → port < 8 → exec (.portModeWrite 0 port v) s =
      .next (((u.setFld F.ETH_PORT_CFG_MODE (v.toNat % 4) port).setFld F.ETH_PORT_CFG_PFC_EN (v.toNat / 4 % 2) port).setFld
        F.ETH_PORT_CFG_PFC_PRIO (v.toNat / 8 % 256) port)) ∧
    (f ≠ 0 → exec (.portModeWrite f port v) s = .next s) ∧
    (v.toNat % 4 ≠ s.fld F.ETH_PORT_CFG_MODE port → ∀ i, i / 8 = port →
      u.fld F.ETH_LINK_STAT_UP i = 0 ∧ u.saLive i = false ∧ ∀ q ∈ u.egs.queue, q.iface ≠ i)) ∧
  (∀ (s : State) (i : Nat), s.dead = false →
    exec (.mkaFrame i none) s = .next s.idleWake ∧
    (∀ an, exec (.mkaFrame i (some an)) s = .next (s.idleWake.setMka i fun m => m.live (an % 4))) ∧
    (s.mka? i = none → exec (.mkaRekey i) s = .next s) ∧
    ∀ m, s.mka? i = some m →
      (∀ an t, exec (.mkaFrame i (some an)) s = .next t → t.saLive i = true ∧
        ∀ m', t.mka? i = some m' → (m'.rx.any fun r => r.an == an % 4) = true ∧ (m.rx.length ≤ 2 → m'.rx.length ≤ 2)) ∧
      (let u := if 2 ^ 62 < m.txPn then s else s.reach (m.at_ + m.rekeyS * cyclesPerS)
       exec (.mkaRekey i) s =
        .next ((u.setMka i fun m => { m with no := m.no + 1, at_ := u.cycles }).emit (.mka i (m.no + 1))))) ∧
  ∀ (s : State) (i : Nat), s.dead = false →
    let w := s.idleWake
    (w.fld F.ETH_PORT_CFG_PFC_EN (i / 8) = 0 → ∀ l, exec (.pfcFrame i l) s = .next w) ∧
    (w.fld F.ETH_PORT_CFG_PFC_EN (i / 8) = 1 →
      (∀ l : List (Nat × Bool), exec (.pfcFrame i l) s = .next (w.setFxt fun y => { y with
        paused := (l.filter fun x => w.fld F.ETH_PORT_CFG_PFC_PRIO (i / 8) / 2 ^ x.1 % 2 == 1 && decide (x.1 < 8)).foldl
          (setPause i) y.paused })) ∧
      ∀ n, n < 8 → w.fld F.ETH_PORT_CFG_PFC_PRIO (i / 8) / 2 ^ n % 2 = 1 →
        (∃ t, exec (.pfcFrame i [(n, true)]) s = .next t ∧ (i, n) ∈ t.fxt.paused ∧ t.egs = w.egs) ∧
        ∃ t, exec (.pfcFrame i [(n, false)]) s = .next t ∧ (i, n) ∉ t.fxt.paused ∧ t.egs = w.egs)

/-! ## The domain (chapter 10) -/

/-- R373 to R375: a voter grants a request above every epoch it granted to others, promises, remembers and answers; while another promise or
the hold after a reset binds it, it keeps the request; a lower epoch is passed over. A quorum of grants elects the candidate. A candidate
that is apart asks after its rank's wait, at an epoch above all it has seen, and again after L(1 + S). A promise lapses and the hold ends at
their times; then the held request of lowest rank is granted, and the others are held on. -/
def Obligations.VotesAndElections : Prop :=
  (∀ (s : State) (src e rank : Nat), s.listening → s.inDomain = true → s.isVoter = true → src ≠ s.ownPart →
    (s.boundTo src = true → ∃ t, exec (.leaseReq src e rank) s = .next t ∧ (src, e, rank) ∈ t.dom.held ∧
      t.dom.promise = s.dom.promise ∧ t.dom.grants = s.dom.grants ∧ t.fxt = s.fxt ∧ t.regs = s.regs) ∧
    (s.boundTo src = false → e ≤ s.grantedOther src → exec (.leaseReq src e rank) s = .next (s.see e)) ∧
    (s.boundTo src = false → s.grantedOther src < e →
      ∃ t m h, exec (.leaseReq src e rank) s = .next t ∧ t.dom.promise = some ⟨src, s.cycles + s.leaseUp⟩ ∧
        spGet 0 t.dom.grants src = max e (spGet 0 s.dom.grants src) ∧ t.fxt.msgs = s.fxt.msgs ++ [m] ∧ m.dst = src ∧
        m.carry = .svc (.leaseGrant e h) ∧ e ≤ h ∧ t.regs = s.regs)) ∧
  (∀ (s : State) (src e highest : Nat) (el : Election), s.listening → s.dom.election = some el →
    let el' : Election := { el with highest := max el.highest highest,
                                    grants := if e = el.epoch ∧ src ∉ el.grants then el.grants ++ [src] else el.grants }
    let u := (s.see highest).setDom fun d => { d with election := some el' }
    (el'.grants.length < s.quorum ∨ s.isManager = true → exec (.leaseGrant src e highest) s = .next u) ∧
    (s.quorum ≤ el'.grants.length → s.isManager = false → exec (.leaseGrant src e highest) s = .next (u.elected el'))) ∧
  (∀ s : State, s.dead = false →
    (s.isApart = false ∨ s.fld F.FXT_DOM_ROLE_CANDIDATE = 0 ∨ s.dom.election.isSome = true → exec .electionStart s = .next s) ∧
    (s.isApart = true → s.fld F.FXT_DOM_ROLE_CANDIDATE ≠ 0 → s.dom.election = none →
      exec .electionStart s = .next ((s.reach (s.dom.since +
        s.fld F.FXT_DOM_ROLE_RANK * max 1 (s.fld F.FXT_DOM_CFG_ELECT_GAP) * cyclesPerUs)).askLease (epochAfter (max s.dom.seen s.epoch)))) ∧
    (∀ el, s.dom.election = some el → s.isApart = true →
      exec .electionRetry s = .next ((s.reach (el.sentAt + s.leaseUp)).askLease (epochAfter el.highest))) ∧
    (∀ p, s.dom.promise = some p →
      exec .voterPromiseLapse s = .next (((s.reach p.until_).setDom fun d => { d with promise := none }).grantHeld)) ∧
    (s.dom.holdUntil ≠ 0 →
      exec .voterHoldEnd s = .next (((s.reach s.dom.holdUntil).setDom fun d => { d with holdUntil := 0 }).grantHeld))) ∧
  ∀ (s : State) (h : Nat × Nat × Nat),
    (s.dom.held = [h] → s.grantHeld = (s.setDom fun d => { d with held := [] }).vote h.1 h.2.1 h.2.2) ∧
    (h ∈ s.dom.held → (∀ x ∈ s.dom.held, x ≠ h → h.2.2 < x.2.2) → (s.dom.held.map (·.1)).Nodup → s.isVoter = true →
      s.dom.promise = none → s.dom.holdUntil ≤ s.cycles → s.grantedOther h.1 < h.2.1 → h.1 ≠ s.ownPart →
      s.grantHeld.dom.promise = some ⟨h.1, s.cycles + s.leaseUp⟩ ∧ ∀ x, x ∈ s.grantHeld.dom.held ↔ x ∈ s.dom.held ∧ x ≠ h)

/-- R370, R371, R373, R378: the manager sends its heartbeat every L/4 while its lease runs. A worker leaves when a heartbeat no longer names
it, attaches when one of a higher epoch does, asks to join when one does not, and passes over an older epoch. An acknowledgement of the
current epoch is noted. The manager gives up at the end of its lease, a worker at the end of its attachment; each is then apart. -/
def Obligations.HeartbeatsHoldTheDomain : Prop :=
  (∀ s : State, s.dead = false → s.isManager = true →
    let u := s.reach (s.dom.hbAt + s.leaseL / 4)
    let r := if s.isVoter then u.renew s.ownPart s.epoch else (u, false)
    let v := r.1.setDom fun d => { d with hbAt := u.cycles, hbAcks := if r.2 then [s.ownPart] else [] }
    (s.dom.leaseEnd ≤ u.cycles → exec .heartbeatTimer s = .next u) ∧
    (u.cycles < s.dom.leaseEnd → exec .heartbeatTimer s =
      .next ((v.svcAll (.heartbeat v.epoch ((v.dom.leaseEnd - v.cycles) / cyclesPerUs) v.dom.mapVer v.dom.members)
        v.otherParts).extendLease))) ∧
  (∀ (s : State) (src e rUs ver : Nat) (members : List Nat), s.listening → s.inDomain = true → s.isManager = false →
    let hb := Instr.heartbeat src e rUs ver members
    let u := s.see e
    (s.isAttached = true → e < s.epoch → exec hb s = .next (s.traced u)) ∧
    (s.isAttached = true → s.epoch ≤ e → s.ownPart ∉ members → exec hb s = .next (s.traced u.detach)) ∧
    (s.isAttached = false → e ≤ s.epoch → exec hb s = .next (s.traced u)) ∧
    (s.isAttached = false → s.epoch < e → s.ownPart ∉ members →
      exec hb s = .next (s.traced ((u.roundOver e).svc src (.join u.epoch u.highestGranted)))) ∧
    (let until_ := s.cycles + s.skewDown (rUs * cyclesPerUs)
     (s.isAttached = false → s.epoch < e → s.ownPart ∈ members →
       exec hb s = .next (s.traced ((u.attach src e until_ members).hbReply src e))) ∧
     (s.isAttached = true → s.epoch ≤ e → s.ownPart ∈ members →
       let v := (u.setDom fun d => { d with members := members, attachedUntil := until_ }).roundOver e
       exec hb s = .next (s.traced (((v.setFld F.FXT_DOM_STAT_MANAGER src).setEpoch e).hbReply src e))))) ∧
  (∀ (s : State) (src : Nat), s.listening → s.isManager = true →
    ∃ t, exec (.hbAck src s.epoch) s = .next t ∧ spGet 0 t.dom.acked src = s.cycles ∧ t.dom.members = s.dom.members ∧
      t.regs = s.regs ∧ s.dom.hbAcks ⊆ t.dom.hbAcks ∧ (src ∈ s.voters → src ∈ t.dom.hbAcks) ∧
      (t.dom.leaseEnd = if s.quorum ≤ t.dom.hbAcks.length then s.dom.hbAt + s.skewDown s.leaseL else s.dom.leaseEnd)) ∧
  ∀ s : State,
    (s.isManager = true → exec .managerLeaseEnd s = .next (s.traced (s.reach s.dom.leaseEnd).detach)) ∧
    (s.isManager = false → exec .managerLeaseEnd s = .next (s.traced s)) ∧
    (s.isAttached = true → exec .attachmentExpire s = .next (s.traced (s.reach s.dom.attachedUntil).detach)) ∧
    (s.isAttached = false → exec .attachmentExpire s = .next (s.traced s))

/-- R376 to R378: a member declared lost, and a part that asks to join, start an admission round of the manager over the members that
remain; a member confirms an epoch above its own; the manager notes who confirmed, and at the end of the window those are the members of
the new epoch. A member declared lost during a round is left out of its set, and a further round follows. -/
def Obligations.AdmissionRounds : Prop :=
  (∀ (s : State) (p : Nat), s.dead = false → s.isManager = true → s.dom.admission = none →
    (p ≠ s.ownPart → p ∈ s.dom.members →
      exec (.memberLost p) s = .next (s.traced (s.roundFor (s.dom.members.filter (· ≠ p))))) ∧
    (p = s.ownPart ∨ p ∉ s.dom.members → exec (.memberLost p) s = .next (s.traced s))) ∧
  (∀ (s : State) (p : Nat) (a : Admission), s.dead = false → s.isManager = true → s.dom.admission = some a → p ≠ s.ownPart →
    p ∈ s.dom.members → ∃ t b, exec (.memberLost p) s = .next t ∧ t.dom.admission = some b ∧ p ∉ b.confirmed ∧ p ∈ b.lost ∧
      b.epoch = a.epoch) ∧
  (∀ (s : State) (src last highest : Nat), s.listening → s.isManager = true → src ∈ s.domMembers →
    let u := (s.see (max last highest)).setDom fun d => { d with
      joins := d.joins.filter (fun x => x.1 ≠ src) ++ [(src, max last highest)] }
    (s.dom.admission = none → exec (.join src last highest) s = .next (u.roundFor u.dom.members)) ∧
    (∀ a, s.dom.admission = some a → src ∉ a.confirmed → exec (.join src last highest) s = .next u)) ∧
  (∀ (s : State) (src e : Nat) (ps : List Nat), s.listening → s.inDomain = true → s.isManager = false →
    (e ≤ s.epoch → exec (.admitMsg src e ps) s = .next s) ∧
    (s.epoch < e → ∃ t m, exec (.admitMsg src e ps) s = .next t ∧ t.fld F.FXT_DOM_STAT_ADMITTING = 1 ∧ t.epoch = s.epoch ∧
      t.fxt.msgs = s.fxt.msgs ++ [m] ∧ m.dst = src ∧ m.carry = .svc (.admitReply e) ∧
      (t.dom.admission.map (·.epoch)) = some e)) ∧
  (∀ (s : State) (src : Nat) (a : Admission), s.listening → s.isManager = true → s.dom.admission = some a →
    ∃ t b, exec (.admitReply src a.epoch) s = .next t ∧ t.dom.admission = some b ∧ (src ∉ a.lost → src ∈ b.confirmed) ∧
      (src ∈ a.lost → b = a) ∧ b.epoch = a.epoch ∧
      (∀ x ∈ b.confirmed, x = src ∨ x ∈ a.confirmed) ∧ (∀ x ∈ a.confirmed, x ∈ b.confirmed) ∧ t.dom.members = s.dom.members) ∧
  ∀ (s : State) (a : Admission), s.dead = false → s.isManager = true → s.dom.admission = some a →
    let u := s.reach (a.start + max 1 (s.fld F.FXT_DOM_CFG_ADMIT_WINDOW) * cyclesPerUs)
    let v := u.setDom fun d => { d with admission := none, members := a.confirmed,
                                        joins := d.joins.filter (fun x => x.1 ∉ a.confirmed),
                                        acked := a.confirmed.map fun p => (p, u.cycles) }
    let y := (v.setFld F.FXT_DOM_STAT_ADMITTING 0).setEpoch a.epoch
    let w := (if a.first then y.admitSelf a.epoch else y).welcome (a.confirmed.filter fun p => p ∉ s.dom.members)
    exec .admitWindowEnd s = .next (s.traced (if w.dom.joins = [] ∧ a.lost = [] then w else w.roundFor w.dom.members))

/-- R380 to R383, R385: a home answers a lookup with what its search finds, and with how many of the hits the CAM gave; the answer, or the
timeout, joins the waiting lookup. An attached home inserts and retires for members and answers; from anyone else it answers
DOMAIN_READ_ONLY. The replies go to the publication and the retirement that wait for them, a home that did not retire what an anchor of
this part named being remembered; a trim retires what it lists. -/
def Obligations.PrefixExchanges : Prop :=
  (∀ (s : State) (src req sdom mprof : Nat) (cam : Bool) (items : List (Nat × Nat)), s.open_ →
    let r := s.searchAll sdom mprof cam (items.filter fun x => s.homeOf x.1 == s.ownPart)
    exec (.lookupReq src req sdom mprof cam items) s = .next (r.1.svc src (.lookupResp req r.2.2 r.2.1))) ∧
  (∀ (s : State) (src req cam n : Nat) (hits : List Match) (l : Lookup), s.open_ →
    (s.pxi.lookups.find? fun l => l.wait.any fun w => w.1 == req) = some l →
    (l.wait.find? fun w => w.1 == req) = some (req, n) →
    exec (.lookupResp src req ⟨cam, hits⟩) s = .next (s.traced ((s.setLookup l.id fun y => { y with
      hits := y.hits ++ hits, searched := y.searched + n, cam := y.cam + min cam hits.length,
      dir := y.dir + (hits.length - cam), wait := y.wait.filter fun w => w.1 ≠ req }).settleLookup l.id))) ∧
  (∀ (s : State) (c : CmdId) (l : Lookup), s.lookup? c = some l → l.wait ≠ [] →
    exec (.remoteLookupTimeout c) s = .next (s.traced
      (((s.reach (l.doneAt + max 1 (s.fld F.FXT_DOM_CFG2_REMOTE_TIMEOUT) * cyclesPerUs)).setLookup c fun y =>
        { y with wait := [], incomplete := true }).settleLookup c))) ∧
  (∀ (s : State) (src req : Nat) (fill : Bool) (items : List InsertItem) (key : RetireKey) (l : List (Nat × Nat)), s.open_ →
    (s.acceptsFrom src = false →
      exec (.insert src req ⟨fill, items⟩) s =
        .next (s.svc src (.insertReply req (items.map fun _ => St.domainReadOnly) (items.map fun _ => 0))) ∧
      exec (.retire src req key) s = .next (s.traced (s.svc src (.retireReply req St.domainReadOnly 0))) ∧
      exec (.trim src l) s = .next s) ∧
    (s.acceptsFrom src = true →
      exec (.insert src req ⟨fill, items⟩) s =
        .next ((s.insertItems fill items).1.svc src
          (.insertReply req (s.insertItems fill items).2.1 (s.insertItems fill items).2.2)) ∧
      exec (.retire src req key) s =
        .next (s.traced (((s.retireKey key).1.ownRetired key).svc src (.retireReply req St.ok (s.retireKey key).2))) ∧
      exec (.trim src l) s = .next (s.trimItems src l))) ∧
  (∀ (s : State) (src req h : Nat) (sts : List Nat) (refs : List Word64) (u : Publish) (a : Anchor) (items : List (Nat × Nat)),
    s.open_ → (s.pxi.pubs.find? fun y => (y.batch.map (·.1)) == some req) = some u → u.batch = some (req, h, items) →
    s.anchor? u.anchor = some a →
    let r := u.replies s.ownPart items sts refs
    let v := s.setAnchor a.idx fun x => { x with remote := x.remote ++ (createdOf items sts refs).map fun n => (n, h) }
    let w : Publish := { r.1 with batch := none }
    (∀ st, r.2 = some st → exec (.insertReply src req sts refs) s = .next (s.traced (v.pubDone w (some st)))) ∧
    (r.2 = none → exec (.insertReply src req sts refs) s = .next (s.traced
      (v.pubStep w a.sdom a.mprof (((v.cmd? w.id).map (·.ctx)).getD 0) (w.todo.length + 1))))) ∧
  ∀ (s : State) (src req st n home : Nat) (r : Retiring), s.open_ →
    let z := s.scanEnd req (decide (st = St.ok))
    (z.pxi.retires.find? fun y => y.wait.any fun w => w.1 == req) = some r → (r.wait.find? fun w => w.1 == req) = some (req, home) →
    let settled (v : State) : State :=
      (v.setRetire r.id fun y => { y with wait := y.wait.filter fun w => w.1 ≠ req, count := y.count + n }).settleRetire r.id
    (st = St.ok → exec (.retireReply src req st n) s = .next (s.traced (settled (z.retiredAt r.key (· == home))))) ∧
    (∀ h p fr a, st ≠ St.ok → r.key = .anchor h p fr → z.anchor? h = some a → (z.keyDepth r.key a).isSome = true →
      exec (.retireReply src req st n) s = .next (s.traced (settled (z.missHomes a.idx fr [home])))) ∧
    (∀ x y w, st ≠ St.ok → r.key = .domain x y w → exec (.retireReply src req st n) s = .next (s.traced (settled z)))

/-- R388 to R393: the anchor part answers a rows request with its block rows and pins the anchor, and unpins it when the fork is done, taking
one reference on each frame newly named; asked for no length, it answers with the digests the reference covers (log 41). The forking part
makes its child from the rows. The holder gives a page in T1 whose copy verifies, reads one in T2 first, treats a failed copy as a read
does, and says so where it has nothing to give. An imported page is placed, an exported one received or its command goes on, and a page the
exporter no longer wants is given back; released references go, and what has not been acknowledged is sent again. -/
def Obligations.PageExchanges : Prop :=
  (∀ (s : State) (src req len : Nat) (ref : Word64), s.open_ →
    (s.liveRef ref.toNat = none →
      exec (.rowsReq src req ref len) s = .next (s.traced (s.svc src (.rowsResp req St.badHandle 0 0 [] [])))) ∧
    (∀ a, s.liveRef ref.toNat = some a → len = 0 → exec (.rowsReq src req ref len) s =
      .next (s.traced (s.svc src (.rowsResp req St.ok a.mprof a.sdom [] (a.digests.take (refDepth ref.toNat)))))) ∧
    (∀ a p, s.liveRef ref.toNat = some a → s.prof? a.mprof = some p → len ≠ 0 →
      ∃ u m rows, exec (.rowsReq src req ref len) s = .next (s.traced u) ∧ u.fxt.msgs = s.fxt.msgs ++ [m] ∧ m.dst = src ∧
        m.carry = .svc (.rowsResp req St.ok a.mprof a.sdom rows []) ∧ (src, req, a.handle) ∈ u.dom.rowPins ∧
        rows.map (fun r : RowPage => (r.lpi, r.layer, r.head, r.pfh, r.version)) =
          (a.ptes.filter fun e => decide (e.lpi < p.blocks len)).map fun e => (e.lpi, e.layer, e.head, e.pfh, e.ver))) ∧
  (∀ (s : State) (src req st mprof sdom : Nat) (rows : List RowPage) (digests : List Nat) (r : RowsReq) (k : Cmd) (x : Ctx) (p : Profile),
    s.open_ → (s.dom.rows.find? fun y => y.req == req) = some r → (s.dropRows_ req).cmd? r.id = some k →
    (s.dropRows_ req).ctx? k.ctx = some x →
    let i := Instr.rowsResp src req st mprof sdom ⟨rows, digests⟩
    let z := s.dropRows_ req
    let m := z.makeProxies src x.r.part sdom mprof p.tiles rows
    (st ≠ St.ok → exec i s = .next (s.traced (z.finish k.id st))) ∧
    (st = St.ok → r.ask = true →
      exec i s = .next (s.traced (z.setCmd k.id fun c => { c with refInfo := some ⟨sdom, mprof, digests⟩ }))) ∧
    (st = St.ok → r.ask = false → x.sdomOk sdom = true → z.prof? mprof = some p →
      z.forkCheck x mprof (dForkLen k.desc) (refDepth (dF k.desc 8 8) * p.B) = none → z.framesFit (z.newProxies src rows) = true →
      let u := m.1.svcFor k.ctx src (.rowsDone req (refAnchor (dF k.desc 8 8)) m.2)
      exec i s = .next (s.traced (u.forkChild k x p sdom (dForkLen k.desc) (u.partDefaults x.r.part) (u.rowPtes src rows))))) ∧
  (∀ (s : State) (src req anchor : Nat) (frames : List Nat), s.open_ →
    ((∃ r ∈ s.dom.rowPins, r.1 = src ∧ r.2.1 = req) →
      exec (.rowsDone src req anchor frames) s = .next (s.traced ((s.takeRemote src frames).unpinRows src req))) ∧
    ((∀ r ∈ s.dom.rowPins, ¬ (r.1 = src ∧ r.2.1 = req)) →
      exec (.rowsDone src req anchor frames) s = .next (s.traced s))) ∧
  (∀ (s : State) (src pfh ver : Nat), s.open_ →
    ((s.frame? pfh).bind s.holder? = none → exec (.pageReq src pfh ver) s = .next (s.traced (s.svc src (.pageData (noPage pfh ver))))) ∧
    (∀ f g, s.frame? pfh = some f → s.holder? f = some g →
      (pgUnavailable g.st = true →
        exec (.pageReq src pfh ver) s = .next (s.traced (s.svc src (.pageData (noPage pfh ver))))) ∧
      (∀ c, pgUnavailable g.st = false → g.reread = none → g.t1 = some c →
        let v := s.verifyCopy g .t1 c none
        (v.2 = none → exec (.pageReq src pfh ver) s = .next (s.traced (v.1.givePage src f g))) ∧
        ∀ why, v.2 = some why → exec (.pageReq src pfh ver) s = .next (s.traced (v.1.copyFailed g .t1 why))) ∧
      (g.st = .t2Only → g.reread = none → g.t1 = none →
        (g.readOk = true → exec (.pageReq src pfh ver) s =
          .next (s.traced ((s.givePage src f g).setFrame g.pfh fun x => { x with readOk := false }))) ∧
        (g.readOk = false → g.reading = false → exec (.pageReq src pfh ver) s = .next (s.traced (s.setFrame g.pfh fun x =>
          { x with ladder := s.firstStep x, ladderFail := none, reader := none, forced := none })))))) ∧
  (∀ (s : State) (src : Nat) (b : PageBody), s.open_ →
    (b.isExport = true → exec (.pageData src b) s = .next (s.traced (s.receiveExport src b))) ∧
    (∀ f, b.isExport = false → s.proxyFor src b.spfh = some f → f.prom = true →
      exec (.pageData src b) s = .next (s.traced (s.importPage src f b))) ∧
    (∀ f, b.isExport = false → s.proxyFor src b.spfh = some f → f.prom = false →
      exec (.pageData src b) s = .next (s.traced s))) ∧
  (∀ (s : State) (src pfh h st : Nat), s.open_ →
    ((s.dom.exports.find? fun e => e.pfh == pfh && e.peer == src) = none → st = St.ok →
      exec (.pageAck src pfh h st) s = .next (s.traced (s.giveBack src h))) ∧
    (∀ e, (s.dom.exports.find? fun e => e.pfh == pfh && e.peer == src) = some e →
      let t := s.exportOver e true
      (st ≠ St.ok → exec (.pageAck src pfh h st) s = .next (s.traced (s.exportOver e false))) ∧
      (st = St.ok → t.frame? e.pfh = none →
        exec (.pageAck src pfh h st) s = .next (s.traced ((s.exportOver e false).giveBack src h))) ∧
      (∀ f, st = St.ok → t.frame? e.pfh = some f →
        (t.exportFits e f = false →
          exec (.pageAck src pfh h st) s = .next (s.traced ((s.exportOver e false).giveBack src h))) ∧
        (t.exportFits e f = true →
          let n := t.newPfh proxyTier
          let x := emptyFrame n f.part f.sdom f.mprof f.tiles f.ver t.useStamp f.set
          let v := t.setSeq e.seq fun q => { q with
            ptes := updIf q.ptes (fun y => y.lpi == e.lpi && y.layer == e.layer && y.head == e.head) fun y => { y with pfh := n } }
          exec (.pageAck src pfh h st) s =
            .next (s.traced ((v.dropRef e.pfh).addFrame { x with peer := some (src, h), st := .dirtyT1, refs := 1 })))))) ∧
  (∀ (s : State) (src : Nat) (frames : List Nat), s.open_ →
    exec (.refRelease src frames) s = .next (s.traced (s.dropRemote src frames)) ∧
    ∀ p f, s.frame? p = some f → spGet 0 f.remote src ≠ 0 →
      s.dropRemote src [p] =
        (s.setFrame p fun x => { x with remote := spSet 0 x.remote src (spGet 0 x.remote src - 1) }).dropRef p) ∧
  ∀ (s : State) (peer : Nat), s.dead = false →
    ((∃ o ∈ s.tier.owed, o.1 = peer) → ∃ t m, exec (.refReleaseRetry peer) s = .next t ∧ t.fxt.msgs = s.fxt.msgs ++ [m] ∧
      m.dst = peer ∧ m.carry = .svc (.refRelease ((s.tier.owed.filter fun o => o.1 == peer).flatMap (·.2)))) ∧
    ((∀ o ∈ s.tier.owed, o.1 ≠ peer) → exec (.refReleaseRetry peer) s = .next s)

/-- R243 to R247: the initiator of a cascade claims a free line against its rivals: one at a higher position wins, and the claim is counted
lost; else the round is counted and named, and the others are asked. Another part's claim of a free line is noted. A member searches, keeps
its matches and is ready when it is done; a query of limit 0 releases what was kept for it. The largest contender wins an arbitration; the
result, or a timeout, ends the round of this part's command, a timeout with INCOMPLETE; a released claim frees the line, and a stuck one
ends every waiting lookup. -/
def Obligations.CascadeRounds : Prop :=
  (∀ (s : State) (k : Cmd) (rivals : List Nat), s.cmd? k.id = some k → k.st = .running → s.pxi.casc.owner = none → s.inCascade = true →
    let u := s.claimTime
    let t (n : Nat) : State := (u.setCasc fun y =>
      { y with owner := some s.cascPos, cmd := some k.id, rdy := false, round := n, await := false, since := u.cycles }).bump F.PXI_CASC_STAT_ROUNDS
    let r := (t s.pxi.nextReq).newReq
    ((∃ p ∈ rivals, s.cascPos < p) → ((∃ l, s.lookup? k.id = some l ∧ l.casc = true) ∨ (s.lookup? k.id = none ∧ (u.stepCursor? k).isSome)) →
      exec (.cascClaim ⟨k.id, rivals⟩) s = .next (u.bump F.PXI_CASC_STAT_CLAIMS_LOST)) ∧
    ((∀ p ∈ rivals, p ≤ s.cascPos) →
      (∀ l x, s.lookup? k.id = some l → l.casc = true → s.ctx? k.ctx = some x →
        exec (.cascClaim ⟨k.id, rivals⟩) s = .next ((r.1.setLookup k.id fun y => { y with round := r.2 }).sendQuery k.ctx
          (.cascQuery r.2 (x.sdomOf (dF k.desc 18 2)) (dF k.desc 16 2) 16777215 (dFlag k.desc 0) l.query) s.cascOthers)) ∧
      (∀ c, s.lookup? k.id = none → u.stepCursor? k = some c →
        exec (.cascClaim ⟨k.id, rivals⟩) s = .next (t ((c.casc.map (·.1)).getD 0))))) ∧
  (∀ (s : State) (p query : Nat), s.fld F.PXI_CASC_CFG_ENABLE ≠ 0 →
    (s.pxi.casc.owner = none → exec (.cascClaimObserved ⟨p, query⟩) s = .next ((s.setCasc fun x =>
      { x with owner := some p, cmd := none, rdy := true, round := query, await := false, since := s.cycles }).bump F.PXI_CASC_STAT_ROUNDS)) ∧
    (s.pxi.casc.owner ≠ none → exec (.cascClaimObserved ⟨p, query⟩) s = .next s)) ∧
  (∀ (s : State) (src req sdom mprof limit : Nat) (cam : Bool) (items : List (Nat × Nat)), s.fld F.PXI_CASC_CFG_ENABLE ≠ 0 →
    let u := s.setCasc fun x => { x with kept := x.kept.filter fun y => decide (s.cycles < y.until_) && !(y.src == src && y.req == req) }
    let r := u.searchAll sdom mprof cam (items.filter fun x => u.homeOf x.1 == u.ownPart)
    (limit = 0 → exec (.cascQuery ⟨src, req⟩ sdom mprof limit cam items) s = .next u) ∧
    (limit ≠ 0 → exec (.cascQuery ⟨src, req⟩ sdom mprof limit cam items) s = .next (r.1.setCasc fun x => { x with
      kept := x.kept ++ [⟨src, req, limit + 1, matchesOf r.2.1, u.keepUntil⟩],
      round := if x.round = 0 ∧ (x.owner.map u.cascPart) = some src then req else x.round }))) ∧
  (∀ s : State, s.fld F.TST_CASC_DROOP_HOLD_RDY = 0 → s.asleep = false →
    (s.pxi.casc.round = 0 → exec .cascMemberSearchDone s = .next s) ∧
    (s.pxi.casc.round ≠ 0 → exec .cascMemberSearchDone s = .next (s.setCasc fun x => { x with rdy := false }))) ∧
  (∀ (s : State) (others : List (Nat × Nat)), s.pxi.casc.owner = some s.cascPos → s.pxi.casc.rdy = false →
    let mine := s.contender.map fun m => (m.depth, s.cascPos)
    let win := (others ++ mine.toList).foldl (fun a b => if cascLt a b then b else a) (0, 0)
    let late := max 1 (s.fld F.PXI_CASC_CFG_STB_TIMEOUT) * 1000 < s.fld F.TST_CASC_DROOP_STRETCH
    (s.queryOut = true → exec (.cascArbitration others) s = .next s) ∧
    (s.queryOut = false → late → exec (.cascArbitration others) s = .next ((s.bump F.PXI_CASC_STAT_TIMEOUTS).cascEnd none true)) ∧
    (s.queryOut = false → ¬ late → win.1 ≠ 0 → mine ≠ some win →
      exec (.cascArbitration others) s = .next (s.setCasc fun x => { x with await := true })) ∧
    (s.queryOut = false → ¬ late → win.1 = 0 ∨ mine = some win → exec (.cascArbitration others) s = .next (s.cascEnd none false))) ∧
  (∀ (s : State) (o : Nat) (others : List (Nat × Nat)), s.pxi.casc.owner = some o → o ≠ s.cascPos → s.pxi.casc.rdy = false →
    let mine := s.contender.map fun m => (m.depth, s.cascPos)
    let win := (others ++ mine.toList).foldl (fun a b => if cascLt a b then b else a) (0, 0)
    let t := s.setCasc fun x => { x with
      kept := updIf x.kept (fun y => y.src == s.cascPart o && y.req == x.round) fun y =>
        { y with lim := win.1, until_ := if y.lim > 16777215 then s.keepUntil else y.until_ } }
    (∀ m, s.contender = some m → mine = some win →
      exec (.cascArbitration others) s = .next (t.svc (s.cascPart o) (.cascResult m.ref))) ∧
    (s.contender = none ∨ mine ≠ some win → exec (.cascArbitration others) s = .next t)) ∧
  (∀ (s : State) (src : Nat) (ref : Word64), s.open_ →
    (s.pxi.casc.await = true → exec (.cascResult src ref) s = .next (s.cascEnd (some ⟨refDepth ref.toNat, ref⟩) false)) ∧
    (s.pxi.casc.await = false → exec (.cascResult src ref) s = .next s)) ∧
  (∀ s : State, s.pxi.casc.owner = some s.cascPos →
    exec .cascRdyTimeout s = .next (((s.reach (s.pxi.casc.since + max 1 (s.fld F.PXI_CASC_CFG_RDY_TIMEOUT) * cyclesPerUs)).bump
      F.PXI_CASC_STAT_TIMEOUTS).cascEnd none true) ∧
    exec .cascStrobeTimeout s = .next s ∧ exec .cascStuckClaim s = .next s ∧ exec .cascClaimReleased s = .next s) ∧
  ∀ (s : State) (o : Nat), s.pxi.casc.owner = some o → o ≠ s.cascPos →
    exec .cascRdyTimeout s = .next s ∧
    exec .cascStrobeTimeout s =
      .next (((s.reach (s.pxi.casc.since + max 1 (s.fld F.PXI_CASC_CFG_STB_TIMEOUT) * cyclesPerUs)).setCasc fun x =>
        { x with rdy := false, round := 0 }).bump F.PXI_CASC_STAT_TIMEOUTS) ∧
    (let u := (((s.reach (s.pxi.casc.since + 1000 * cyclesPerUs)).setFld F.PXI_CASC_STAT_STUCK 1).setCasc fun x => { x with stuck := true }).bump F.PXI_CASC_STAT_TIMEOUTS
     exec .cascStuckClaim s = .next (u.cascGiveUp s.pxi.lookups)) ∧
    exec .cascClaimReleased s =
      .next (s.setCasc fun x => { x with owner := none, rdy := false, round := 0, stuck := false, since := s.cycles })

/-! ## Tiers and flash (chapter 7) -/

/-- R262, R266, R278 to R281, R323: a promotion whose read passed makes a CLEAN_T1 page of what the T2 copy holds, in the chunks taken for
it. A step of the recovery ladder that ends passes its page or moves to the next step: from the first read to read-retry, unless that is off
or the copy's target has failed; to parity, to the second copy of a burl; then the ladder is exhausted. A target that does not become ready
is marked failed, and its group takes no programs. A re-read of a lower copy passes or fails as its bytes verify. -/
def Obligations.ReadsAndLadder : Prop :=
  (∀ (s : State) (p : Nat) (f : Frame), s.frame? p = some f →
    (∀ c, f.st = .promoting → f.readOk = true → f.t2 = some c →
      let u := (s.setFrame p fun x => { x with
        st := .cleanT1, prom := false, t1 := some ⟨c.hdr.withChunks x.fill, f.fixed.getD (s.flashBytes c)⟩, fill := [],
        readOk := false, reader := none }).bump F.TIER_MOVE_STAT_PROMOTIONS
      exec (.promotionComplete p) s =
        .next (s.traced ((((u.hotFill p u.att.ents).freeIfIdle p).startWanted p).clearRetired []))) ∧
    (f.st ≠ .promoting ∨ f.readOk = false → exec (.promotionComplete p) s = .next (s.traced s)) ∧
    (∀ e, f.reading = true → exec (.flashReadComplete p e) s = .next (s.traced (s.ladderEnd f e))) ∧
    (∀ e, f.reading = false → exec (.flashReadComplete p e) s = .next (s.traced s)) ∧
    (∀ e, f.reread = some .t2 →
      exec (.lowerCopyReadComplete p none) s = .next (s.traced (s.ladderEnd f .pass)) ∧
      exec (.lowerCopyReadComplete p (some e)) s = .next (s.traced (s.ladderEnd f (.badCopy e)))) ∧
    (∀ t e c u, f.reread = some t → t ≠ .t2 → (if t = .t0 then f.stg else f.t1) = some c → s.verifyCopy f t c e = (u, none) →
      exec (.lowerCopyReadComplete p e) s = .next (s.traced (u.readPassed p))) ∧
    (∀ t e c u k, f.reread = some t → t ≠ .t2 → (if t = .t0 then f.stg else f.t1) = some c → s.verifyCopy f t c e = (u, some k) →
      exec (.lowerCopyReadComplete p e) s = .next (s.traced ((u.setFrame p fun x => { x with reread := none }).copyFailed f t k)))) ∧
  (∀ (s : State) (f : Frame),
    let straight := s.fld F.FLS_READ_CFG_RETRY_MAX = 0 ∨ f.t2.any s.copyLate = true
    let b := ((s.stepCopy f).map (·.2)).getD []
    (f.ladder = 1 → ¬ straight → s.ladderStep f .uncorrectable = s.setFrame f.pfh fun x => { x with ladder := 2 }) ∧
    (f.ladder = 1 → straight → s.ladderStep f .uncorrectable = s.setFrame f.pfh fun x => { x with ladder := 3 }) ∧
    (f.ladder = 2 → s.ladderStep f .uncorrectable = s.setFrame f.pfh fun x => { x with ladder := 3 }) ∧
    (f.ladder = 3 → f.burl = true → f.copy2 = true →
      s.ladderStep f .uncorrectable = s.setFrame f.pfh fun x => { x with ladder := 4 }) ∧
    (f.ladder = 3 → f.burl = false ∨ f.copy2 = false → s.ladderStep f .uncorrectable = s.exhausted f) ∧
    (f.ladder = 4 → s.ladderStep f .uncorrectable = s.exhausted f) ∧
    (f.ladder = 1 → s.ladderStep f .pass = s.readPassed f.pfh) ∧
    (f.ladder = 2 → s.ladderStep f .pass = (s.bump F.FLS_LADDER_STAT_RETRIED).readPassed f.pfh) ∧
    (f.ladder = 3 → s.ladderStep f .pass = ((s.bump F.FLS_LADDER_STAT_PARITY).repair f b).readPassed f.pfh) ∧
    (f.ladder = 4 → s.ladderStep f .pass = ((s.bump F.FLS_LADDER_STAT_COPY2).repair f b).readPassed f.pfh)) ∧
  ∀ (s : State) (ch target p : Nat), ch < 64 →
    (s.frame? p = none → ∃ t, exec (.rbTimeout ch target p) s = .next (s.traced t) ∧
      t.fld F.FLS_GROUPS_FAILED / 2 ^ (ch / 16) % 2 = 1 ∧ (ch, target) ∈ t.tier.failedTargets ∧ t.tier.frames = s.tier.frames) ∧
    (∀ f, s.frame? p = some f → f.reading = true →
      ∃ u : State, exec (.rbTimeout ch target p) s = .next (s.traced (u.ladderStep f .uncorrectable)) ∧
        u.fld F.FLS_GROUPS_FAILED / 2 ^ (ch / 16) % 2 = 1 ∧ (ch, target) ∈ u.tier.failedTargets ∧
        u.tier.frames = s.tier.frames)

/-- R263, R271 to R277, R282, R284, R526: a program that ends makes its page CLEAN_T1 or T2_ONLY with the copy it wrote, or the copy is
discarded where the version changed meanwhile. Eager write-back starts after its delay where the budget and the flash allow. Eviction,
waiting allocations and reclaim act as their rows say; credit accrues up to its cap. An uncorrectable error is counted against its
pseudo-channel, which is retired at the threshold, or on command. A commit writes the segments that changed, each into its bank that the
last commit does not name; it ends with a new root under its sequence number. -/
def Obligations.ProgramsBudgetJournal : Prop :=
  (∀ (s : State) (p : Nat) (f : Frame), s.frame? p = some f →
    (∀ g, f.prog = some g →
      let u := { s with sch := { s.sch with groups := s.sch.groups.map (SGroup.programEnds p s.cycles) } }
      let v := (u.bump F.TIER_MOVE_STAT_DEMOTIONS).chargeMove f g.kind
      exec (.flashProgramComplete p) s =
        .next (s.traced (((v.setFrame p (programDone (v.keepsSecond f) g)).burlUpdate p).clearRetired []))) ∧
    (f.prog = none → ∃ u, exec (.flashProgramComplete p) s = .next (s.traced u) ∧ u.tier = s.tier ∧ u.regs = s.regs ∧ u.cmds = s.cmds) ∧
    (f.st = .dirtyT1 → f.wbAct = 2 → f.peer = none → s.canProgram f .writeBack f.discretionary = true →
      exec (.eagerWritebackStart p) s = .next (s.traced
        ((s.reach (f.lastWrite + s.fld F.TIER_WB_CFG_DELAY * cyclesPerUs)).startProgram p .writeBack f.discretionary))) ∧
    (f.st ≠ .dirtyT1 ∨ f.wbAct ≠ 2 ∨ f.peer ≠ none ∨ s.canProgram f .writeBack f.discretionary = false →
      exec (.eagerWritebackStart p) s = .next (s.traced s))) ∧
  (∀ (f : Frame) (g : Program) (second : Bool),
    let r := programDone second g f
    r.prog = none ∧
    (g.ver ≠ f.ver ∨ f.st = .writing → r.st = f.st ∧ r.t2 = f.t2 ∧ r.t2b = f.t2b) ∧
    (g.ver = f.ver → g.kind = .demote → f.st = .demoting → f.pins = 0 → r.st = .t2Only ∧ r.t2 = some g.dest ∧ r.t1 = none) ∧
    (g.ver = f.ver → g.kind = .writeBack → f.st = .dirtyT1 → r.st = .cleanT1 ∧ r.t2 = some g.dest ∧ r.t1 = f.t1)) ∧
  (∀ (s : State) (part : Nat),
    let low := min 50 (s.fld F.TIER_T1_WM_LOW)
    let high := max low (s.fld F.TIER_T1_WM_HIGH)
    (low * s.t1Total part ≤ s.t1Free part * 100 → exec (.t1Eviction part) s = .next (s.traced s)) ∧
    (s.t1Free part * 100 < low * s.t1Total part → exec (.t1Eviction part) s =
      .next (s.traced (s.evictTo part ((high * s.t1Total part + 99) / 100) (s.victims part)))) ∧
    (let mine := fun c => (s.ctx? c).any fun x => x.r.part == part
     let u := { s with cmds := updIf s.cmds (fun k => dOp k.desc == Op.attend && mine k.ctx) fun k => { k with alloc := none } }
     let v := u.retryChunks (u.att.chunks.filter fun k => k.st == ChunkSt.waiting && mine k.ctx)
     exec (.t1AllocResume part) s = .next (s.traced (v.retryStaging (v.att.ents.filter fun e => !e.stuck.isEmpty &&
       ((u.ctx? e.ctx).any fun x => x.r.part == part)))))) ∧
  (∀ (s : State) (k : Cmd) (w : Nat), s.cmd? k.id = some k → k.alloc = some w →
    let u := s.reach (w + s.fld F.TIER_T1_WM_ALLOC_WAIT * cyclesPerUs)
    (dOp k.desc = Op.attend → exec (.allocWaitExpire k.id) s = .next (s.traced (u.failAttend k.id St.noSpace))) ∧
    (dOp k.desc = Op.stepPlan → exec (.allocWaitExpire k.id) s =
      .next (s.traced ((u.giveUpStaging k.id).setCmd k.id fun x => { x with alloc := none }))) ∧
    (dOp k.desc = Op.pagesPlace → exec (.allocWaitExpire k.id) s = .next (s.traced
      (u.setCmd k.id fun x => { x with alloc := none, todo := x.todo.drop 1, count := x.count + 1 }))) ∧
    (dOp k.desc ≠ Op.attend → dOp k.desc ≠ Op.stepPlan → dOp k.desc ≠ Op.pagesPlace →
      exec (.allocWaitExpire k.id) s = .next (s.traced ((u.finish k.id St.noSpace).clearRetired [])))) ∧
  (∀ s : State,
    (let u := s.clean
     let v := u.reclaim ((sortBy victimLt (u.tier.frames.filter fun f => f.st == .t2Only && f.peer.isNone && f.mayDrop)).map (·.pfh))
     exec .flashReserveReclaim s = .next (s.traced (v.startWantedAll v.tier.frames))) ∧
    (s.flashReserve ≤ s.flashFree → ∀ l, s.reclaim l = s) ∧
    ∀ us, ∃ t, exec (.creditAccrue us) s = .next (s.traced t) ∧ t.cycles = s.cycles + us * cyclesPerUs ∧
      t.tier.credit = min (creditCap s) (s.tier.credit + (us * s.fld F.TIER_ENDURANCE_CFG_RATE * 2 ^ 20 * 15 : Nat)) ∧
      t.tier.frames = s.tier.frames) ∧
  (∀ (s : State) (pc pfh : Nat) (bad : List Nat), pc < 1024 → s.frame? pfh = none →
    let v := s.bump F.HBM_ECC_STAT_UNCORRECTED
    let u := { v with tier := { v.tier with pcErrors := spSet 0 v.tier.pcErrors pc (s.pcCount pc + 1) } }
    (s.pcCount pc + 1 < max 1 (s.fld F.HBM_RETIRE_CFG_THRESHOLD) → exec (.hbmUncorrectable pc ⟨pfh, bad⟩) s = .next (s.traced u)) ∧
    (max 1 (s.fld F.HBM_RETIRE_CFG_THRESHOLD) ≤ s.pcCount pc + 1 →
      exec (.hbmUncorrectable pc ⟨pfh, bad⟩) s = .next (s.traced (u.retireAll pc (pfh :: bad))))) ∧
  (∀ (s : State) (v : Word32), s.pfReady → s.fld F.GLB_EXPERT_UNLOCK_UNLOCKED = 1 →
    (v.toNat / 65536 = 0x7E71 → exec (.hbmRetireCmd 0 v) s = .next (s.traced (s.retireAll (v.toNat % 1024) []))) ∧
    (v.toNat / 65536 ≠ 0x7E71 → exec (.hbmRetireCmd 0 v) s = .next (s.traced s))) ∧
  ∀ s : State,
    (s.mapChanged = false ∨ s.flashGroups = [] → exec .journalCommit s = .next s) ∧
    (s.mapChanged = true → s.flashGroups ≠ [] → s.jrnl.busy = none →
      let segs := s.changedSegs.map fun i => (i, s.jrnl.target i, s.segNow i)
      let u := s.chargeProgram (256 * segs.length + 1)
      let at_ := max s.cycles (s.jrnl.lastAt + max 1 (s.fld F.FLS_JRNL_CFG_INTERVAL) * 1000 * cyclesPerUs)
      exec .journalCommit s =
        .next { u with cycles := at_, jrnl := { s.jrnl with
                         busy := some ⟨s.fld F.FLS_JRNL_STAT_COMMIT_SEQ + 1, segs⟩, lastAt := at_ } }) ∧
    (s.jrnl.busy = none → exec .journalCommitComplete s = .next s) ∧
    ∀ c, s.jrnl.busy = some c → ∃ t, exec .journalCommitComplete s = .next t ∧
      t.jrnl = { (s.jrnl.putSegs c.num c.segs).putRoot (c.num % 2) (RootBank.of s.kmapKey s.mapSegs c.num) with busy := none } ∧
      t.fld F.FLS_JRNL_STAT_COMMIT_SEQ = c.num % 2 ^ 64 ∧ t.tier = s.tier ∧ t.pxi = s.pxi ∧ t.cmds = s.cmds

/-! ## Sharing (chapter 11) -/

/-- R117, R118, R401 to R403, R442: TEARDOWN of an UP context takes a locked TDI to ERROR, sets BUSY and tears the context down; BRINGUP
brings up a DOWN one whose TDI is not locked. A fault tears an UP context down and is counted. When its release is done and neither a
chunk nor a command of it is left, the context goes DOWN with a snapshot and a record of the cause, or UP after an FLR. An FLR resets its functions, or waits for a mount
to end. -/
def Obligations.ContextsComeAndGo : Prop :=
  (∀ (s : State) (x : Ctx), s.pfReady → s.fld F.SCH_CTX_STAT_BUSY ≠ 1 → s.asleep = false → s.ctx? x.r.ctx = some x →
    let c := x.r.ctx
    let u := fun op => (s.setFld F.SCH_CTX_CMD_CTX c).setFld F.SCH_CTX_CMD_OP op
    (x.st = .up → exec (.teardown 0 c) s = .next (s.traced
      (((if (u 1).tdiLocked x.r.func then (u 1).setTdi x.r.func 3 else u 1).tearDown c (some St.ok)).setFld F.SCH_CTX_STAT_BUSY 1))) ∧
    (x.st ≠ .up → exec (.teardown 0 c) s = .next (s.traced (u 1))) ∧
    (x.st = .down → (u 2).tdiLocked x.r.func = false → exec (.bringup 0 c) s = .next ((u 2).bringUp c)) ∧
    (x.st ≠ .down ∨ (u 2).tdiLocked x.r.func = true → exec (.bringup 0 c) s = .next (u 2))) ∧
  (∀ (s : State) (x y : Ctx), s.ctx? x.r.ctx = some x → (s.bringUp x.r.ctx).ctx? x.r.ctx = some y →
    y.st = .up ∧ y.r = x.r ∧ y.snap = none ∧ y.stats = { since := s.cycles }) ∧
  (∀ (s : State) (x : Ctx), s.ctx? x.r.ctx = some x →
    (x.st = .up → exec (.contextFaultTeardown x.r.ctx) s =
      .next (s.traced ((s.tearDown x.r.ctx (some St.contextFaulted)).bump F.RAS_ERR_CNT_CONTEXT))) ∧
    (x.st ≠ .up → exec (.contextFaultTeardown x.r.ctx) s = .next (s.traced s)) ∧
    (x.st ≠ .tearing ∨ (∃ k ∈ s.att.chunks, k.ctx = x.r.ctx) ∨ (∃ k ∈ s.cmds, k.ctx = x.r.ctx) →
      exec (.teardownReleaseDone x.r.ctx) s = .next (s.traced s)) ∧
    (x.st = .tearing → (∀ k ∈ s.att.chunks, k.ctx ≠ x.r.ctx) → (∀ k ∈ s.cmds, k.ctx ≠ x.r.ctx) →
      let c := x.r.ctx
      let a := s.freeRecs (s.seq.recs.filter fun r => r.ctx == c)
      let b := (a.clearTrigs x.r).clearWindow c
      let u := if b.fld F.SCH_CTX_STAT_BUSY = 1 && b.fld F.SCH_CTX_CMD_CTX == c then b.setFld F.SCH_CTX_STAT_BUSY 0 else b
      (x.byFlr = true → exec (.teardownReleaseDone c) s = .next (s.traced (u.bringUp c))) ∧
      (x.byFlr = false → exec (.teardownReleaseDone c) s = .next (s.traced
        ((u.setCtx c fun y => { y with st := .down, stats := {},
                                       snap := some { x.stats with since := a.cycles - x.stats.since, egs := a.egsStats c }, vt := 0, vtCc := 0 }).postEvent u.deviceCtx Ev.contextTornDown c (leBytes 1 x.cause)))))) ∧
  ∀ (s : State) (f : Nat),
    (s.boot.mount = none → exec (.flr f) s = .next (s.traced ((s.wakeUp 2).doFlr f))) ∧
    (∀ m, s.boot.mount = some m → ∃ t, exec (.flr f) s = .next (s.traced t) ∧ t.boot.waitFlr = s.boot.waitFlr ++ [f] ∧
      t.ctxs = s.ctxs ∧ t.cmds = s.cmds)

/-- R408 to R413: a slice ends at its nominal time unless its group has one member; the switch waits for the layer boundary during the grace
time, then for the drain alone; then the T0 copies go and the next member holds the group. Its HOT pages are filled before its slice runs. -/
def Obligations.StagingSwitches : Prop :=
  (∀ (s : State) (g p : Nat) (x : SGroup), s.group? g = some x → x.holderPart = some p →
    (x.r.members.length ≤ 1 → exec (.sliceEnd g) s = .next (s.traced s)) ∧
    (1 < x.r.members.length → x.phase = 0 ∨ x.phase = 3 → (∀ o, x.out = some o → o.2 ≠ x.start + x.len * cyclesPerUs) →
      let t := x.start + x.len * cyclesPerUs
      let u := (s.reach t).setGroup g fun y => { y with
        phase := if s.fld F.SCH_SLICE_CFG_GRACE = 0 then 2 else 1, out := some (p, t), overrun := 0 }
      ∀ y, u.group? g = some y → exec (.sliceEnd g) s = .next (s.traced (u.pollGroup y))) ∧
    (x.phase = 3 → exec (.stagingFillDone g) s =
      .next (s.traced ((s.fillHotAll p s.att.ents).setGroup g fun y => { y with phase := 0 }))) ∧
    (x.phase ≠ 3 → exec (.stagingFillDone g) s = .next (s.traced s))) ∧
  (∀ (s : State) (g p n : Nat) (x : SGroup), s.group? g = some x → x.out = some (p, n) →
    (x.phase ≠ 1 → exec (.graceExpire g) s = .next (s.traced s)) ∧
    (x.phase = 1 → exec (.graceExpire g) s = .next (s.traced
      (((s.reach (n + s.fld F.SCH_SLICE_CFG_GRACE * cyclesPerUs)).setGroup g fun y => { y with phase := 2 }).pollGroup
        { x with phase := 2 })))) ∧
  ∀ (s : State) (x : SGroup) (p n : Nat), x.out = some (p, n) →
    (x.phase = 1 → s.boundary p = false → s.pollGroup x = s) ∧
    (x.phase = 1 → s.boundary p = true → s.drained p = false → s.pollGroup x = s.setGroup x.r.group fun y => { y with phase := 2 }) ∧
    (x.phase = 2 → s.drained p = false → s.pollGroup x = s) ∧
    (x.phase = 1 ∧ s.boundary p = true ∨ x.phase = 2 → s.drained p = true → s.pollGroup x = s.handOver x p n)

/-! ## Faults (chapter 16) -/

/-- R24, R467, R518, R525 to R535: the first device-level error records its cause, die and time, stops the links, ends every command with
DEVICE_ERROR and is reported; while one is in force a further one does nothing. A die-to-die failure, a clock fault, a thermal trip and a
JTAG instruction that takes the pins are such errors; IDCODE shifts out the part's identity. A fenced AE sends its chunk back; a chunk
that meets its third AE error loses its context instead. The last CC fenced is a device-level error. Correctable errors are counted, and at
the threshold fence their core. -/
def Obligations.FaultsAreContained : Prop :=
  (∀ (s : State) (cause die : Nat),
    (s.dead = true → exec (.deviceError cause die) s = .next (s.traced s)) ∧
    (s.dead = false →
      let a := ((s.setFld F.RAS_DEVICE_ERR_CAUSE cause).setFld F.RAS_DEVICE_ERR_DIE die).setFld F.RAS_DEVICE_ERR_TIME s.stampHi
      let u := { a.emit (.aer true) with dead := true }
      exec (.deviceError cause die) s = .next (s.traced
        (((u.saDown (List.range 64)).endCmds (some St.deviceError) St.deviceError s.cmds).deadEvent))) ∧
    exec (.d2dLinkFailure die) s = exec (.deviceError 1 die) s ∧
    exec .sysclkFault s = .next (s.traced ((s.setFld F.MGT_IO_STAT_SYSCLK_FAULT 1).deviceErr 3 2)) ∧
    (s.pwr.thermtrip = true → exec (.thermalTrip die) s = .next (s.traced s)) ∧
    (s.pwr.thermtrip = false → exec (.thermalTrip die) s = .next (s.traced
      ((((s.setPwr fun p => { p with thermtrip := true }).deviceErr 4 die).offAll (List.range 8)).setPwr fun p =>
        { p with railsOff := true })))) ∧
  (∀ (s : State) (ir : Nat),
    (3 ≤ ir ∧ ir ≤ 7 → exec (.jtagInstruction ir) s =
      .next (s.traced ({ s with host := { s.host with pinsTaken := true } }.deviceErr 7 2))) ∧
    (ir = 1 → exec (.jtagInstruction ir) s = .next (s.traced (s.emit (.idcode
      (s.fld F.GLB_ID_STEPPING % 16 * 2 ^ 28 + 0x7100 * 4096 + Config.jtagMaker % 2048 * 2 + 1))))) ∧
    (ir = 0 ∨ ir = 2 ∨ 7 < ir → exec (.jtagInstruction ir) s = .next (s.traced s))) ∧
  (∀ (s : State) (ae cause : Nat),
    (256 ≤ ae ∨ s.aeOnline ae = false → exec (.aeFence ae cause) s = .next (s.traced s)) ∧
    (ae < 256 → s.aeOnline ae = true → cause ≠ 3 →
      ((∀ k ∈ s.att.chunks, k.st ≠ .running ae) → exec (.aeFence ae cause) s = .next (s.traced (s.fenceAe ae cause))) ∧
      (∀ k, (s.att.chunks.find? fun k => k.st == .running ae) = some k → k.errors < 2 →
        exec (.aeFence ae cause) s = .next (s.traced ((s.sendBack k).fenceAe ae cause))) ∧
      (∀ k, (s.att.chunks.find? fun k => k.st == .running ae) = some k → 2 ≤ k.errors → s.chunkCounts k = true →
        let u := { s with att := { s.att with chunks := s.att.chunks.filter fun y => !y.same k } }
        exec (.aeFence ae cause) s = .next (s.traced ((u.unpinPages k.pages).faultCtx k.ctx))))) ∧
  (∀ (s : State) (cc cause : Nat),
    (128 ≤ cc ∨ s.ccOnline cc = false → exec (.ccFence cc cause) s = .next (s.traced s)) ∧
    (cc < 128 → s.ccOnline cc = true →
      let a := if cause = 4 then s.reach (s.cycles + max 1 (s.fld F.RAS_CFG_CC_WDOG) * cyclesPerUs) else s
      let u := (a.clearBit F.RAS_CC_ONLINE_ONLINE cc).logFence (256 + cc) cause 2 cc
      (u.fld F.RAS_CC_ONLINE_ONLINE 0 ≠ 0 ∨ u.fld F.RAS_CC_ONLINE_ONLINE 1 ≠ 0 → exec (.ccFence cc cause) s = .next (s.traced u)) ∧
      (u.fld F.RAS_CC_ONLINE_ONLINE 0 = 0 → u.fld F.RAS_CC_ONLINE_ONLINE 1 = 0 →
        exec (.ccFence cc cause) s = .next (s.traced (u.deviceErr 6 (cc / 64)))))) ∧
  ∀ (s : State) (n : Nat),
    let u := (s.bump F.RAS_ERR_CNT_CORRECTED).emit (.aer false)
    ((u.coreError n).2 = false → exec (.correctedError n 0) s = .next (s.traced (u.coreError n).1)) ∧
    ((u.coreError n).2 = true → n < 256 → exec (.correctedError n 0) s = .next (s.traced (execAeFence n 2 (u.coreError n).1))) ∧
    ((u.coreError n).2 = true → 256 ≤ n →
      exec (.correctedError n 0) s = .next (s.traced (execCcFence (n - 256) 2 (u.coreError n).1))) ∧
    exec (.correctedError n 1) s = .next (s.traced (u.bump F.HBM_ECC_STAT_CORRECTED)) ∧
    exec (.correctedError n 2) s = .next (s.traced (u.bumpUnits F.FLS_LDPC_STAT_BITS 1024 n)) ∧
    exec (.correctedError n 7) s = .next (s.traced (u.bump F.TCK_HDR_STAT_TABLE_CRC)) ∧
    exec (.correctedError n 8) s = .next (s.traced ((u.bumpUnits F.FLS_LDPC_STAT_BITS 1024 n).bump F.FLS_LDPC_STAT_SOFT))

/-! ## Power (chapter 13) -/

/-- R457, R458, R461, R462, R465, R466, R474: a write of PWR_CAP changes the cap alone. A rise of the largest demand raises the level at once; a
fall lowers it by one step after FALL_US. The cap loop and the thermal loop set their demands at their periods and the level follows. A sensor
that fails stays failed and is not counted in the temperature. The level is reported to a context again when its gap has passed. -/
def Obligations.LevelFollowsDemands : Prop :=
  (∀ (s : State) (v : Word32), s.pfReady → ∃ t, exec (.capWrite 0 v) s = .next t ∧ t.fld F.PWR_CAP_CAP_W = v.toNat % 2 ^ 11 ∧
    t.fld F.PWR_CAP_CAP_MARGIN = v.toNat / 65536 % 2 ^ 8 ∧ t.level = s.level ∧ t.pwr = s.pwr ∧ t.cmds = s.cmds) ∧
  (∀ s : State,
    (s.level < s.demand → s.relevel = (s.setLevel s.demand).setPwr fun p => { p with fallFrom := none }) ∧
    (s.demand < s.level → s.relevel = s.setPwr fun p => { p with fallFrom := some (p.fallFrom.getD s.cycles) }) ∧
    (s.demand = s.level → s.relevel = s.setPwr fun p => { p with fallFrom := none }) ∧
    (s.pwr.fallFrom = none ∨ s.level ≤ s.demand → exec .levelFallStep s = .next s) ∧
    (∀ f, s.pwr.fallFrom = some f → s.demand < s.level → exec .levelFallStep s = .next
      (((s.reach (f + max 1 (s.fld F.PWR_LOOP_CFG_FALL_US) * cyclesPerUs)).setPwr fun p => { p with fallFrom := none }).setLevel
        (s.level - 1)).relevel)) ∧
  (∀ (s : State) (pm ps : Nat),
    let a := s.reach (s.pwr.tickAt + max 10 (s.fld F.PWR_LOOP_CFG_PERIOD) * cyclesPerUs)
    let m := a.modelMw (a.cycles - s.pwr.tickAt)
    let b := ((a.setPwr fun p => { p with tickAt := a.cycles, railFj := List.replicate 8 0 }).takeCoefs).setFld F.PWR_STATUS_MODEL_W
      (min 65535 ((m.1 + pm) / 1000))
    let p : Nat := if b.fld F.PWR_STATUS_TELEM_STALE = 1 then (m.1 + pm) * 11 / 10 else max (m.1 + pm) b.telemMw
    let c := (b.setFld F.PWR_STATUS_L_CAP (b.nextCap p (m.2 + ps : Nat))).relevel
    let l := (c.pwr.recent.filter fun x => decide (c.cycles < x.1 + 1000 * cyclesPerUs)) ++ [(c.cycles, p)]
    exec (.capLoopTick pm ps) s = .next (((c.setPwr fun q => { q with recent := l }).pkgUpdate
      ((l.map (·.2)).foldl (· + ·) 0 / l.length)).errUpdate (m.1 + pm) b.telemMw).forceTrips) ∧
  (∀ (s : State) (p ps : Int), (s.capMw : Int) < p →
    (∀ x, s.level ≤ x → x < 16 → predOk p ps s.level x s.capMw 1 1 = true →
      (∀ y, s.level ≤ y → y < x → predOk p ps s.level y s.capMw 1 1 = false) → s.nextCap p ps = x) ∧
    ((∀ x, s.level ≤ x → x < 16 → predOk p ps s.level x s.capMw 1 1 = false) → s.nextCap p ps = 15)) ∧
  (∀ s : State,
    let a := s.reach (s.pwr.thermAt + max 100 (s.fld F.PWR_LOOP_CFG_THERM_PERIOD) * cyclesPerUs)
    let b := a.setPwr fun p => { p with thermAt := a.cycles }
    let warn : Int := s.fld F.PWR_THERM_CFG_WARN
    let crit : Int := max (s.fld F.PWR_THERM_CFG_CRIT) (s.fld F.PWR_THERM_CFG_WARN)
    let hot : Int := s.fld F.PWR_THERM_CFG_HBM_HOT
    let hcrit : Int := s.fld F.PWR_THERM_CFG_HBM_CRIT
    let d := if s.dieBlind then max crit s.pwr.tDie else s.pwr.tDie
    let h := s.pwr.tHbm
    let l := s.fld F.PWR_STATUS_L_THERM
    let go := fun n => exec .thermalLoopTick s = .next (b.setFld F.PWR_STATUS_L_THERM n).relevel
    (crit ≤ d ∨ hcrit ≤ h → go 15) ∧
    (d < crit → h < hcrit → warn ≤ d ∨ hot ≤ h → go (min 15 (l + 1))) ∧
    (d < crit → h < hcrit → d < warn - 5 → h < hot - 5 → go (l - 1)) ∧
    (d < crit → h < hcrit → d < warn → h < hot → warn - 5 ≤ d ∨ hot - 5 ≤ h → go l)) ∧
  (∀ (x : Sensor) (v : Int) (moved : Bool), (x.failed = true → x.read v moved = x) ∧
    (x.failed = false → v < -40 ∨ 150 < v → (x.read v moved).failed = true) ∧
    (x.failed = false → -40 ≤ v → v ≤ 150 → v ≠ x.last → (x.read v moved).failed = false ∧ (x.read v moved).last = v)) ∧
  (∀ (s : State) (dies hbm : List Int), ∃ (u : State) (l : List (Nat × Sensor × Sensor)),
    exec (.sensorRead dies hbm) s = .next (u.sensorEvents l) ∧ u.pwr.sensors.length = s.pwr.sensors.length ∧
      u.pwr.tDie = maxInt s.pwr.tDie ((u.pwr.sensors.filter fun x => !x.failed).map (·.last)) ∧
      u.pwr.tHbm = maxInt s.pwr.tHbm hbm ∧ l.map (·.2.2) = u.pwr.sensors ∧ u.cmds = s.cmds) ∧
  ∀ (s : State) (x : Ctx), s.ctx? x.r.ctx = some x →
    let u := (s.reach x.thrGap).setCtx x.r.ctx fun y => { y with thrOwed := false }
    (x.thrOwed = false → exec (.throttleEventGapEnd x.r.ctx) s = .next s) ∧
    (x.thrOwed = true → x.st ≠ .up ∨ x.thrLast = s.level → exec (.throttleEventGapEnd x.r.ctx) s = .next u) ∧
    (x.thrOwed = true → x.st = .up → x.thrLast ≠ s.level → exec (.throttleEventGapEnd x.r.ctx) s = .next (u.throttleEvent x))

/-- R468 to R471: a droop trip stretches its island and is counted; the trip that passes DROOP_ESC within its window raises the droop demand by
one, up to 4, and 10 ms without one lowers it by one. The end of a stretch releases the island, and that of a ramp step admits islands of the
die again. The brake raises its demand while it holds and is reported once when it holds too long.
R464, R478, R515: a poll whose PEC passes and whose reading lies in the rail's range is taken; any other is discarded, and telemetry goes
stale in time. An alert reads its rail and reports it. CAL_START begins a run of at least 8 windows unless one runs; each window ends at its
time, and the last one fits the rails. -/
def Obligations.DroopBrakeAndTelemetry : Prop :=
  ((∀ (s : State) (i : Nat), (48 ≤ i → exec (.droopTrip i) s = .next s) ∧
    (i < 48 →
      let w := ((s.pwr.trips.find? fun x => x.1 == i).map (·.2)).getD (s.cycles, 0)
      let v := if w.1 + 100 * cyclesPerUs ≤ s.cycles then (s.cycles, 1) else (w.1, w.2 + 1)
      let u := (s.bump F.PWR_DROOP_STAT_STRETCHES).setPwr fun p => { p with
        stretched := (s.stretchedNow.filter fun x => x.1 ≠ i) ++ [(i, s.cycles)]
        trips := p.trips.filter (fun x => x.1 ≠ i) ++ [(i, v)] }
      let e := u.setPwr fun p => { p with lastEsc := s.cycles }
      let l := s.fld F.PWR_STATUS_L_DROOP
      (i, s.cycles) ∈ u.pwr.stretched ∧
      (v.2 ≠ max 1 (s.fld F.PWR_DROOP_CFG_DROOP_ESC) + 1 → exec (.droopTrip i) s = .next u) ∧
      (v.2 = max 1 (s.fld F.PWR_DROOP_CFG_DROOP_ESC) + 1 → 4 ≤ l → exec (.droopTrip i) s = .next e) ∧
      (v.2 = max 1 (s.fld F.PWR_DROOP_CFG_DROOP_ESC) + 1 → l < 4 → exec (.droopTrip i) s =
        .next ((e.setFld F.PWR_STATUS_L_DROOP (l + 1)).bump F.PWR_DROOP_STAT_ESCALATIONS).relevel))) ∧
  (∀ (s : State) (i : Nat), ∃ t, exec (.stretchEnd i) s = .next t ∧ (∀ x ∈ t.pwr.stretched, x.1 ≠ i) ∧
    (∀ x, x.1 ≠ i → (x ∈ t.pwr.stretched ↔ x ∈ s.pwr.stretched ∧ s.cycles < x.2 + nsToCycles (s.fld F.PWR_DROOP_CFG_DROOP_HOLD))) ∧
    t.regs = s.regs) ∧
  (∀ s : State, (s.fld F.PWR_STATUS_L_DROOP = 0 → exec .droopDecay s = .next s) ∧
    (s.fld F.PWR_STATUS_L_DROOP ≠ 0 →
      let u := s.reach (s.pwr.lastEsc + 10000 * cyclesPerUs)
      exec .droopDecay s = .next ((u.setPwr fun p => { p with lastEsc := u.cycles }).setFld F.PWR_STATUS_L_DROOP
        (s.fld F.PWR_STATUS_L_DROOP - 1)).relevel)) ∧
  (∀ (s : State) (die : Nat), ((∀ x ∈ s.sch.ramp, x.1 ≠ die) → exec (.rampStepEnd die) s = .next s) ∧
    ∀ x, s.sch.ramp.find? (fun y => y.1 == die) = some x → ∃ t, exec (.rampStepEnd die) s = .next t ∧
      x.2 + nsToCycles (s.fld F.PWR_DROOP_CFG_RAMP_NS) ≤ t.cycles ∧ t.sch.ramp = s.sch.ramp.erase x ∧
      (∀ ae, aeDie ae = die → s.rampOk ae = true → s.ctxs.all (fun y => y.heavyEnd.isNone) = true → t.rampOk ae = true) ∧
      t.att = s.att ∧ t.regs = s.regs) ∧
  ∀ s : State,
    (s.pwr.brk = none → exec .pwrbrkAssert s =
      .next (((s.setPwr fun p => { p with brk := some (s.cycles, false) }).setFld F.PWR_STATUS_L_BRK
        (s.fld F.PWR_BRK_CFG_BRK_LEVEL)).relevel)) ∧
    (s.pwr.brk ≠ none → exec .pwrbrkAssert s = .next s) ∧
    exec .pwrbrkRelease s = .next ((s.setPwr fun p => { p with brk := none }).setFld F.PWR_STATUS_L_BRK 0).relevel ∧
    (∀ a, s.pwr.brk = some (a, true) → exec .brkTimeout s = .next s) ∧
    (∀ a, s.pwr.brk = some (a, false) → exec .brkTimeout s =
      .next (((((s.reach (a + max 1 (s.fld F.PWR_BRK_CFG_BRK_TIMEOUT) * 1000 * cyclesPerUs)).setPwr fun p =>
        { p with brk := some (a, true) }).setFld F.PWR_STATUS_BRK_STUCK 1).deviceEvent (devDetail 9 0 0))))) ∧
  ((∀ (s : State) (r mw w : Nat),
    let due := fun (s : State) (r : Nat) => s.reach ((s.lastPoll r).2 + s.pollUs * cyclesPerUs)
    (8 ≤ r → exec (.pmbusPoll r mw true) s = .next s ∧ exec (.pmbusPollTimeout r) s = .next s) ∧
    (r < 8 → mw ≤ railMax r →
      exec (.pmbusPoll r mw true) s = .next (((due s r).emit (.pmbusRead r)).goodPoll r mw).staleCheck) ∧
    (r < 8 → exec (.pmbusPoll r mw false) s = .next ((due s r).emit (.pmbusRead r)).staleCheck ∧
      exec (.pmbusPollTimeout r) s = .next
        (((due s r).emit (.pmbusRead r)).reach ((due s r).cycles + max 1 (s.fld F.PWR_PMBUS_CFG_TIMEOUT) * cyclesPerUs)).staleCheck) ∧
    (r < 8 → railMax r < mw → exec (.pmbusPoll r mw true) s = .next ((due s r).emit (.pmbusRead r)).staleCheck) ∧
    exec (.pmbusAlert r w) s = .next ((s.emit (.pmbusRead r)).deviceEvent (devDetail 8 r w)) ∧
    (r < 8 → ((s.goodPoll r mw).lastPoll r) = (mw, s.cycles))) ∧
  (∀ (s : State) (v : Word32), s.pfReady → v.toNat % 2 = 1 →
    (s.fld F.PWR_CAL_STAT_BUSY = 1 → exec (.calStart 0 v) s = .next s) ∧
    (s.fld F.PWR_CAL_STAT_BUSY = 0 → ∃ t c, exec (.calStart 0 v) s = .next t ∧ t.fld F.PWR_CAL_STAT_BUSY = 1 ∧
      t.pwr.cal = some c ∧ c.left = max 8 (v.toNat / 256 % 256) ∧ c.wins = [] ∧ c.start = s.cycles ∧ t.pwr.scale = s.pwr.scale ∧
      t.pwr.stat = s.pwr.stat)) ∧
  ∀ (s : State) (c : CalRun) (m e : List Nat), s.pwr.cal = some c →
    let v := s.reach (c.start + (c.wins.length + 1) * 10000 * cyclesPerUs)
    let c' : CalRun := { c with left := c.left - 1, wins := c.wins ++ [v.calWindow c m e], since := v.cycles,
                                model := List.replicate 8 0, telem := List.replicate 8 0 }
    let u := v.setPwr fun p => { p with cal := some c' }
    (1 < c.left → exec (.calWindowEnd m e) s = .next u) ∧ (c.left ≤ 1 → exec (.calWindowEnd m e) s = .next (u.endCal c')))

/-! ## Bring-up and low power (chapter 14) -/

/-- R482 to R484, R492, R499: POR starts the clock at 0, empties every queue and table and boots; a fundamental reset does the same but for
what it keeps, and does nothing while the rails are off. Both keep the waiting commands, fuses, SPI NOR, the flash, the journal's banks
(a commit under way being cut off, R285) and what was sent. HBM training ends
phase 2. The link comes up. A module is accepted or rejected by its identity, each slot once; after the sixteenth the part awaits its blank. -/
def Obligations.ResetsAndBringUp : Prop :=
  (∀ (s : State) (cause straps : Nat),
    let w := (s.wiped 2 0).setFld (porCause cause) 1
    exec (.por cause straps) s = .next (((w.setFld F.GLB_STRAPS_BOOT_MOUNT straps).setFld F.GLB_STRAPS_LANES (straps / 2)).setFld
      F.GLB_STRAPS_MGMT_EN (straps / 8)).bootRom) ∧
  (∀ (s : State) (rank now : Nat), let w := s.wiped rank now
    w.cycles = now ∧ w.cmds = [] ∧ w.ctxs = [] ∧ w.seq = Seqs.reset ∧ w.tier = { Tiers.reset with stripes := s.tier.stripes } ∧
      w.fxt = Fabric.reset ∧ w.att = Attn.reset ∧
      w.pxi = Pxi.reset ∧ w.blank = none ∧ w.pending = s.pending ∧ w.host.out = s.host.out ∧ w.sec.fuses = s.sec.fuses ∧
      w.sec.fw = s.sec.fw ∧ w.sec.cfg = s.sec.cfg ∧ w.sec.sessions = [] ∧ 
      w.jrnl = s.jrnl.cut s.kmapKey s.mapSegs (Config.programsDone (s.free + 1))) ∧
  (∀ s : State, (s.pwr.railsOff = true → exec .fund s = .next s) ∧
    (s.pwr.railsOff = false →
      ∃ w : State, exec .fund s = .next ((w.setFld F.GLB_RESET_CAUSE_PERST 1).bootRom).refreshPower ∧ w.cmds = [] ∧ w.ctxs = [] ∧
        w.tier.frames = [] ∧ w.tier.stripes = s.tier.stripes ∧ w.tier.pcErrors = s.tier.pcErrors ∧ w.boot.trained = s.boot.trained ∧ w.sec.fuses = s.sec.fuses ∧
        w.cycles = s.cycles ∧ w.pending = s.pending)) ∧
  (∀ s : State,
    (s.fld F.GLB_BOOT_STAT_PHASE = 2 → ∃ t, exec .hbmTrainingDone s = .next t ∧ t.fld F.GLB_BOOT_STAT_PHASE = 3 ∧
      t.boot.trained = true ∧ t.ctxs = s.ctxs) ∧
    (s.fld F.GLB_BOOT_STAT_PHASE ≠ 2 → exec .hbmTrainingDone s = .next s) ∧
    ∃ t, exec .pcieLinkUp s = .next t ∧ t.boot.linkUp = true ∧ t.regs = s.regs) ∧
  ∀ (s : State) (m : Nat),
    (s.fld F.GLB_BOOT_STAT_PHASE ≠ 3 ∨ 16 ≤ m ∨ m ∈ s.boot.modsRead → ∀ d, exec (.moduleIdentityRead m d) s = .next s) ∧
    (s.fld F.GLB_BOOT_STAT_PHASE = 3 → m < 16 → m ∉ s.boot.modsRead → ∀ d,
      let u := s.setBoot fun x => { x with modsRead := x.modsRead ++ [m] }
      let v := match d with
        | none => u.rejectModule m
        | some b => if moduleOk m b then (u.addBit F.MGT_MODULE_STAT_PRESENT m).acceptModule m b
            else (u.addBit F.MGT_MODULE_STAT_PRESENT m).rejectModule m
      (v.boot.modsRead.length ≠ 16 → exec (.moduleIdentityRead m d) s = .next v) ∧
      (v.boot.modsRead.length = 16 →
        exec (.moduleIdentityRead m d) s = .next (v.setFld F.GLB_BOOT_STAT_PHASE 4).bootMount))

/-- R495 to R498: IDLE is entered when nothing runs. A TARGET of HOLD or PARK begins an entry, which completes once commands have drained, with
its count, or is abandoned with TIMEOUT. A wake event of an armed kind starts an exit and records its cause; the exit ends in the running
state, after what was deferred. -/
def Obligations.LowPowerStates : Prop :=
  (∀ s : State,
    (s.fld F.GLB_PM_CTL_AUTO_IDLE = 1 → s.fld F.GLB_PM_STAT_STATE = 0 → s.quiet = true →
      ∃ t, exec .idleEntry s = .next t ∧ t.fld F.GLB_PM_STAT_STATE = 1 ∧ t.cmds = s.cmds ∧ t.tier = s.tier) ∧
    (s.fld F.GLB_PM_CTL_AUTO_IDLE ≠ 1 ∨ s.fld F.GLB_PM_STAT_STATE ≠ 0 ∨ s.quiet = false → exec .idleEntry s = .next s)) ∧
  (∀ (s : State) (v : Word32), s.pfReady →
    let u := ((((s.setFld F.GLB_PM_CTL_TARGET v.toNat).setFld F.GLB_PM_CTL_AUTO_IDLE (v.toNat / 4)).setFld F.GLB_PM_CTL_WAKE_DB
      (v.toNat / 8)).setFld F.GLB_PM_CTL_WAKE_FABRIC (v.toNat / 16)).setFld F.GLB_PM_CTL_IDLE_US (v.toNat / 256)
    exec (.pmTargetWrite 0 v) s = .next (s.traced (u.actTarget (if v.toNat % 4 = 3 then 0 else v.toNat % 4)))) ∧
  (∀ (s : State) (g : Nat), g = 1 ∨ g = 2 →
    (s.fld F.GLB_PM_STAT_STATE ≤ 1 → ∃ t, s.actTarget g = t ∧ t.fld F.GLB_PM_STAT_STATE = 4 ∧ t.pm.entering = some (g, s.cycles)) ∧
    (s.fld F.GLB_PM_STAT_STATE = 4 ∨ s.fld F.GLB_PM_STAT_STATE = 5 →
      s.actTarget g = s.setPm fun p => { p with held := some g })) ∧
  (∀ (s : State) (g at_ : Nat), s.pm.entering = some (g, at_) → s.fld F.GLB_PM_STAT_STATE = 4 → s.entryWaits = false →
    s.pm.held = none →
    (s.cmdsDrained = true → g = 1 → ∃ t, exec .lowpowerDrainDone s = .next (s.traced t) ∧ t.fld F.GLB_PM_STAT_STATE = 2 ∧
      t.fld F.GLB_PM_STAT_RESULT = St.ok ∧ t.pm.entering = none ∧ t.cmds = s.cmds ∧ t.tier = s.tier) ∧
    (s.cmdsDrained = true → g = 2 → ∃ t, exec .lowpowerDrainDone s = .next (s.traced t) ∧ t.fld F.GLB_PM_STAT_STATE = 3 ∧
      t.pm.entering = none ∧ t.pxi.cam = [] ∧ t.att.hot = [] ∧ (∀ f ∈ t.tier.frames, f.stg = none) ∧ t.cmds = s.cmds) ∧
    (s.cmdsDrained = false → exec .lowpowerDrainDone s = .next (s.traced s) ∧
      ∃ t, exec .lowpowerDrainTimeout s = .next t ∧ t.fld F.GLB_PM_STAT_STATE = 0 ∧ t.fld F.GLB_PM_STAT_RESULT = St.timeout ∧
        t.fld F.GLB_PM_CTL_TARGET = 0 ∧ t.pm.entering = none ∧ t.cmds = s.cmds ∧
        at_ + max 1 (s.fld F.GLB_PM_CFG_DRAIN) * 1000 * cyclesPerUs ≤ t.cycles)) ∧
  (∀ s : State, s.fld F.GLB_PM_STAT_STATE = 2 ∨ s.fld F.GLB_PM_STAT_STATE = 3 →
    let wakes := fun (c : Nat) => ∃ t, exec (.wake c) s = .next (s.traced t) ∧ t.fld F.GLB_PM_STAT_STATE = 5 ∧
      t.fld F.GLB_PM_STAT_WAKE = 2 ^ c ∧ t.cmds = s.cmds
    (s.fld F.GLB_PM_CTL_WAKE_DB = 1 → wakes 0) ∧ (s.fld F.GLB_PM_CTL_WAKE_DB = 0 → exec (.wake 0) s = .next (s.traced s)) ∧
    (s.fld F.GLB_PM_CTL_WAKE_FABRIC = 1 → wakes 1) ∧ (s.fld F.GLB_PM_CTL_WAKE_FABRIC = 0 → exec (.wake 1) s = .next (s.traced s)) ∧
    wakes 2 ∧ wakes 3) ∧
  ∀ s : State, s.fld F.GLB_PM_STAT_STATE = 5 → s.pm.held = none → s.pm.after = none →
    let u := (s.setFld F.GLB_PM_STAT_STATE 0).setPm fun p => { p with after := none, deferred := [], reqs := [] }
    exec .lowpowerExitDone s = .next (s.traced (let v := (u.runDeferred s.pm.deferred).answerReqs s.pm.reqs
      if v.pm.held.isSome then v.actHeld else v))

/-! ## Security and the management port (chapters 12 and 15) -/

/-- R440 to R443, R451: a TDI locks only from CONFIG_UNLOCKED, bound to a stream, with an UP context of its VF, and after a mount; it runs only
when locked; stopping unlocks it. Keys of a stream are taken over an SPDM session on the mailbox alone, and on go the stream is bound. An
integrity failure takes the bound locked TDIs to ERROR. A debug token of Ahnoon's for this part and the current challenge unlocks debug;
a bad signature is counted.
R452, R453, R514, R517, R519: a client of a listed CA gets a session, at most four at once and ten handshakes in a second; an idle session
and every session of a lost link close. Only a link at 1000 Mb/s is up, and its loss is timed. A stalled I3C message is counted, and a busy
SPI NOR ends its update. -/
def Obligations.InterfacesAndManagementLink : Prop :=
  ((∀ (s : State) (v : Nat), 1 ≤ v → v ≤ 255 →
    (∀ m, s.boot.mount = some m → ∃ t, exec (.lockInterface v) s = .next t ∧ t.boot.waitLock = s.boot.waitLock ++ [v] ∧
      t.regs = s.regs) ∧
    (s.boot.mount = none →
      (s.fld F.SEC_TDI_STATE_STATE v = 0 → s.fld F.SEC_TDI_STATE_BOUND v = 1 → (∃ x ∈ s.ctxs, x.r.func = v ∧ x.st = .up) →
        ∃ t, exec (.lockInterface v) s = .next t ∧ t.fld F.SEC_TDI_STATE_STATE v = 1 ∧ t.ctxs = s.ctxs) ∧
      (s.fld F.SEC_TDI_STATE_STATE v ≠ 0 ∨ s.fld F.SEC_TDI_STATE_BOUND v ≠ 1 ∨ (∀ x ∈ s.ctxs, x.r.func = v → x.st ≠ .up) →
        exec (.lockInterface v) s = .next s)) ∧
    (s.fld F.SEC_TDI_STATE_STATE v = 1 → ∃ t, exec (.startInterface v) s = .next t ∧ t.fld F.SEC_TDI_STATE_STATE v = 2 ∧
      t.ctxs = s.ctxs) ∧
    (s.fld F.SEC_TDI_STATE_STATE v ≠ 1 → exec (.startInterface v) s = .next s) ∧
    ∃ t, exec (.stopInterface v) s = .next t ∧ t.fld F.SEC_TDI_STATE_STATE v = 0 ∧ t.ctxs = s.ctxs) ∧
  (∀ (s : State) (stream v : Nat),
    (2 ∉ s.sec.spdm → ∀ r go, exec (.ideKm stream r go) s = .next s) ∧
    (16 ≤ stream → exec (.ideKm stream (some v) false) s = .next s) ∧
    (2 ∈ s.sec.spdm → stream < 16 → ∃ t, exec (.ideKm stream (some v) false) s = .next t ∧
      (t.sec.ide.find? fun y => y.1 == stream) = some (stream, some v) ∧ t.regs = s.regs) ∧
    (2 ∈ s.sec.spdm → (s.sec.ide.find? fun y => y.1 == stream) = some (stream, some v) → 1 ≤ v → v ≤ 255 → stream < 16 → ∀ r,
      ∃ t, exec (.ideKm stream r true) s = .next t ∧ t.fld F.SEC_TDI_STATE_STREAM v = stream ∧ t.fld F.SEC_TDI_STATE_BOUND v = 1 ∧
        t.sec = s.sec)) ∧
  (∀ (s : State) (stream : Nat), ∃ t, exec (.ideIntegrityFailure stream) s = .next t ∧ t.ctxs = s.ctxs ∧ t.cmds = s.cmds ∧
    ∀ v, 1 ≤ v → v ≤ 255 → t.fld F.SEC_TDI_STATE_STATE v =
      if s.tdiLocked v = true ∧ s.fld F.SEC_TDI_STATE_BOUND v = 1 ∧ s.fld F.SEC_TDI_STATE_STREAM v = stream then 3
      else s.fld F.SEC_TDI_STATE_STATE v) ∧
  (∀ (s : State) (ch dev sig : Nat),
    let g := tokenOf ch dev sig
    let v := (s.checkSig 0 g).1
    ((s.checkSig 0 g).2 = false → v = s.bump F.SEC_AUTH_STAT_SIG_FAIL ∧ exec (.debugUnlock ch dev sig) s = .next (s.traced v)) ∧
    ((s.checkSig 0 g).2 = true → v = s ∧
      (ch ≠ s.sec.challenge ∨ dev ≠ s.deviceId →
        exec (.debugUnlock ch dev sig) s = .next (s.traced s)) ∧
      (ch = s.sec.challenge → dev = s.deviceId →
        let u := if s.fld F.SEC_STATUS_DEBUG = 1 then s else s.unlockDebug
        exec (.debugUnlock ch dev sig) s =
          .next (s.traced ((u.setSec fun x => { x with challenge := Config.random u.free % 2 ^ 256 }).nextFree))))) ∧
  ∀ (s : State) (tr param : Nat),
    (s.sec.booted = false ∨ s.fld F.SEC_STATUS_RECOVERY = 1 ∨ 3 ≤ tr → ∀ c, exec (.spdmRequest tr c param) s = .next s) ∧
    (s.sec.booted = true → s.fld F.SEC_STATUS_RECOVERY ≠ 1 → tr < 3 →
      (∀ b, s.spdmMeasures param = some b →
        exec (.spdmRequest tr Spdm.getMeasurements param) s = .next (s.emit (.spdm tr 0x60 b))) ∧
      (s.sec.spdm.length < 4 → ∃ t, exec (.spdmRequest tr Spdm.keyExchange param) s = .next t ∧
        t.sec.spdm = s.sec.spdm ++ [tr] ∧ t.regs = s.regs) ∧
      (4 ≤ s.sec.spdm.length → exec (.spdmRequest tr Spdm.keyExchange param) s =
        .next (s.emit (.spdm tr Spdm.error [Spdm.sessionLimit]))) ∧
      ∃ t, exec (.spdmRequest tr Spdm.endSession param) s = .next t ∧ t.sec.spdm = s.sec.spdm.erase tr ∧ t.regs = s.regs)) ∧
  ((∀ (s : State) (ca serial role : Nat), s.mgmtOn = true → s.fld F.MGT_IO_STAT_LINK_UP = 1 → s.clientRole ca serial = some role →
    s.sec.hands.2 < 10 → s.sec.sessions.length < 4 → ∃ t x, exec (.tlsHandshake ca serial true) s = .next t ∧
      t.sec.sessions = s.sec.sessions ++ [x] ∧ x.role = role ∧ x.lastAt = s.cycles ∧ (∀ y ∈ s.sec.sessions, y.id ≠ x.id) ∧
      t.regs = s.regs) ∧
  (∀ (s : State) (ca serial : Nat) (ok : Bool), s.mgmtOn = false ∨ s.fld F.MGT_IO_STAT_LINK_UP = 0 →
    exec (.tlsHandshake ca serial ok) s = .next s) ∧
  (∀ (s : State) (i : Nat) (x : Session), (s.sec.sessions.find? fun y => y.id == i) = some x →
    ∃ t, exec (.tlsIdleTimeout i) s = .next t ∧ (∀ y ∈ t.sec.sessions, y.id ≠ i) ∧ (∀ y ∈ s.sec.sessions, y.id ≠ i → y ∈ t.sec.sessions) ∧
      x.lastAt + 300 * cyclesPerS ≤ t.cycles) ∧
  (∀ s : State, (s.sec.linkDown = none → exec .mgmtLinkLoss s = .next s) ∧
    ∀ at_, s.sec.linkDown = some at_ → ∃ t, exec .mgmtLinkLoss s = .next t ∧ t.sec.sessions = [] ∧ t.sec.linkDown = none ∧
      at_ + max 1 (s.fld F.MGT_IO_CFG_LINK_LOSS) * 1000 * cyclesPerUs ≤ t.cycles) ∧
  (∀ (s : State) (i : Instr), i = .mgmtPhyInt true ∨ i = .mgmtPhyPoll true → s.mgmtOn = true →
    ∃ t, exec i s = .next t ∧ t.fld F.MGT_IO_STAT_LINK_UP = 1 ∧ t.sec.linkDown = none ∧ t.sec.sessions = s.sec.sessions) ∧
  (∀ (s : State) (i : Instr), i = .mgmtPhyInt false ∨ i = .mgmtPhyPoll false → s.mgmtOn = true →
    (s.fld F.MGT_IO_STAT_LINK_UP = 0 → ∃ t, exec i s = .next t ∧ t.regs = s.regs ∧ t.sec.linkDown = s.sec.linkDown ∧
      t.sec.sessions = s.sec.sessions) ∧
    (s.fld F.MGT_IO_STAT_LINK_UP = 1 → ∃ t, exec i s = .next t ∧ t.fld F.MGT_IO_STAT_LINK_UP = 0 ∧
      t.sec.linkDown = some t.cycles ∧ t.sec.sessions = s.sec.sessions)) ∧
  ∀ s : State,
    (∃ t, exec .mi3cStallTimeout s = .next t ∧
      t.fld F.MGT_IO_STAT_MI3C_ABORTS = min (s.fld F.MGT_IO_STAT_MI3C_ABORTS + 1) (2 ^ 16 - 1) ∧ t.sec = s.sec) ∧
    (s.sec.staging = none → exec .spiBusyTimeout s = .next s) ∧
    (∀ g, s.sec.staging = some g → ∃ t, exec .spiBusyTimeout s = .next t ∧ t.sec.staging = none ∧ t.sec.fw = s.sec.fw ∧
      t.sec.cfg = s.sec.cfg ∧ t.host.out = s.host.out ++ [.spiReset]))

/-- R433, R449 to R453, R461, R520, Table 15.8: a request on a session whose role reaches what it needs is carried out and answered with OK,
or with BAD_FIELD where a field of it is out of range, a mount with what its checks find; one of a lower role gets ACCESS_DENIED and has
no effect. In RECOVERY only the reads of registers, ATTEST and an OWNER's update of firmware are accepted, and anything else gets
ACCESS_DENIED. A request on no session is not answered, and a mount that must wait is not yet taken. -/
def Obligations.ManagementRequests : Prop :=
  (∀ (s : State) (sess req : Nat) (x : Session), (s.sec.sessions.find? fun y => y.id == sess) = some x →
    let u := s.heard sess
    let recovery := s.fld F.SEC_STATUS_RECOVERY = 1
    let denied := fun (typ : Nat) => u.reply sess typ req St.accessDenied
    (∀ l, l.length ≤ 64 → exec (.regRead sess req l) s =
      .next ((u.mgmtReads l).1.reply sess 0x0001 req St.ok (u.mgmtReads l).2)) ∧
    (∀ l, 64 < l.length → exec (.regRead sess req l) s = .next (u.reply sess 0x0001 req St.badField)) ∧
    (∀ nonce, exec (.attest sess req nonce) s =
      .next (u.reply sess 0x0003 req St.ok (nonce :: u.sec.keyNo :: u.allMeasures))) ∧
    (¬ recovery →
      exec (.telemetry sess req) s = .next (u.reply sess 0x0002 req St.ok
        [u.readReg R.PWR_STATUS 0 0, u.readReg R.PWR_TEMP 0 0, u.readReg R.PWR_PKG_ENERGY 0 0, u.readReg R.GLB_PM_STAT 0 0,
         u.readReg R.GLB_BOOT_STAT 0 0]) ∧
      exec (.debugChallenge sess req) s = .next (u.reply sess 0x0004 req St.ok [s.sec.challenge])) ∧
    (recovery → exec (.telemetry sess req) s = .next (denied 0x0002) ∧ exec (.debugChallenge sess req) s = .next (denied 0x0004)) ∧
    (¬ recovery → 1 ≤ x.role →
      (∀ w, w < 2048 → exec (.setCap sess req w) s = .next ((u.setFld F.PWR_CAP_CAP_W w).reply sess 0x0010 req St.ok)) ∧
      (∀ w, 2048 ≤ w → exec (.setCap sess req w) s = .next (u.reply sess 0x0010 req St.badField)) ∧
      exec (.reset sess req) s = .next ((u.reply sess 0x0011 req St.ok).doFund F.GLB_RESET_CAUSE_MGMT)) ∧
    (recovery ∨ x.role < 1 → (∀ w, exec (.setCap sess req w) s = .next (denied 0x0010)) ∧
      exec (.reset sess req) s = .next (denied 0x0011)) ∧
    (∀ (c : Bool) (off len : Nat) (g : Option BankImage),
      let taken := (¬ recovery ∧ 1 ≤ x.role) ∨ (recovery ∧ c = false ∧ 2 ≤ x.role)
      let size := if c then 67108864 else 33554432
      (taken → off + len ≤ size → exec (.stage sess req c off len g) s =
        .next ((u.stagePiece c off len g).reply sess 0x0012 req St.ok)) ∧
      (taken → size < off + len → exec (.stage sess req c off len g) s = .next (u.reply sess 0x0012 req St.badField)) ∧
      (¬ taken → exec (.stage sess req c off len g) s = .next (denied 0x0012))) ∧
    (∀ mode mask, s.mountWaits (decide (mode = 0)) mask = false →
      let full := decide (mode = 0)
      let fails := fun (v : State) (st : Nat) => (v.mountResult st).reply sess 0x0013 req st
      (recovery ∨ x.role < 1 → exec (.mount sess req mode mask) s = .next (s.traced (denied 0x0013))) ∧
      (¬ recovery → 1 ≤ x.role →
        (1 < mode ∨ full ≠ s.blank.isNone → exec (.mount sess req mode mask) s = .next (s.traced (fails u St.badField))) ∧
        (mode ≤ 1 → full = s.blank.isNone →
          ((u.cfgImg?.bind (·.blank)) = none → exec (.mount sess req mode mask) s = .next (s.traced (fails u St.badField))) ∧
          ∀ b v, (u.cfgImg?.bind (·.blank)) = some b →
            (∀ st, u.mountChecks b full mask none = (v, some st) →
              exec (.mount sess req mode mask) s = .next (s.traced (fails v st))) ∧
            (u.mountChecks b full mask none = (v, none) →
              (mode = 1 → mask = 0 → exec (.mount sess req mode mask) s = .next (s.traced (v.reply sess 0x0013 req St.okEmpty))) ∧
              (mode = 0 ∨ mask ≠ 0 → exec (.mount sess req mode mask) s =
                .next (s.traced (v.beginMount none (some (sess, req)) b full mask))))))) ∧
    (¬ recovery → 2 ≤ x.role →
      exec (.commitSvn sess req) s = .next
        ((u.setFld F.SEC_FW_FW_MIN_SVN (max (s.fld F.SEC_FW_FW_MIN_SVN) (s.fld F.SEC_FW_FW_SVN))).reply sess 0x0020 req St.ok) ∧
      (∀ ch dev sig, exec (.debugToken sess req ch dev sig) s =
        .next (s.traced ((u.tryToken ch dev sig).1.reply sess 0x0021 req (u.tryToken ch dev sig).2))) ∧
      (let a := u.spendEpoch.setSec fun x => { x with cfg := (none, none), cfgOk := false }
       let b := { a with jrnl := { a.jrnl with roots := [], busy := none } }
       exec (.decommission sess req) s = .next (s.traced ((b.keysChanged
         ((b.seq.parts.filter fun p => p.r.sealSet.isNone).map (·.r.part)).contains).reply sess 0x0022 req St.ok))) ∧
      exec (.returnStep sess req) s = .next (s.traced (((u.setFld F.SEC_STATUS_LIFECYCLE 2).setSec fun x =>
        { x with fuses := { x.fuses with uds := udsBurned } }).reply sess 0x0023 req St.ok))) ∧
    (recovery ∨ x.role < 2 → exec (.commitSvn sess req) s = .next (denied 0x0020) ∧
      (∀ ch dev sig, exec (.debugToken sess req ch dev sig) s = .next (s.traced (denied 0x0021))) ∧
      exec (.decommission sess req) s = .next (s.traced (denied 0x0022)) ∧
      exec (.returnStep sess req) s = .next (s.traced (denied 0x0023)))) ∧
  (∀ (s : State) (sess req : Nat), (s.sec.sessions.find? fun y => y.id == sess) = none →
    (∀ l, exec (.regRead sess req l) s = .next s) ∧ exec (.telemetry sess req) s = .next s ∧
    (∀ n, exec (.attest sess req n) s = .next s) ∧ exec (.debugChallenge sess req) s = .next s ∧
    (∀ w, exec (.setCap sess req w) s = .next s) ∧ exec (.reset sess req) s = .next s ∧
    (∀ c off len g, exec (.stage sess req c off len g) s = .next s) ∧
    (∀ mode mask, exec (.mount sess req mode mask) s = .next (s.traced s)) ∧ exec (.commitSvn sess req) s = .next s ∧
    (∀ ch dev sig, exec (.debugToken sess req ch dev sig) s = .next (s.traced s)) ∧ exec (.decommission sess req) s = .next (s.traced s) ∧
    exec (.returnStep sess req) s = .next (s.traced s)) ∧
  (∀ (s : State) (sess req mode mask : Nat), s.mountWaits (decide (mode = 0)) mask = true →
    exec (.mount sess req mode mask) s = .next (s.traced s)) ∧
  ∀ s : State, (s.fld F.SEC_STATUS_EPOCH_LEFT = 0 → s.spendEpoch.sec.fuses = { s.sec.fuses with uds := udsBurned }) ∧
    (s.fld F.SEC_STATUS_EPOCH_LEFT ≠ 0 → s.spendEpoch.sec.fuses = { s.sec.fuses with epoch := s.sec.fuses.epoch + 1 } ∧
      s.spendEpoch.fld F.SEC_STATUS_EPOCH_LEFT = (s.fld F.SEC_STATUS_EPOCH_LEFT - 1) % 2 ^ 6)

/-! ## Every step -/

/-- R430, R434, R449, R450: fuses only blow. From every state, whatever command a step runs, UDS once burned stays burned, DEVICE_ID and the
serial number stay, STORAGE_EPOCH never falls, a revoked Ahnoon root stays revoked, and so does a revoked owner slot. -/
def Obligations.FusesOnlyBlow : Prop :=
  ∀ (f : Fuses) (s t : State), s.fusesSince f → step s = .next t → t.fusesSince f

/-- Right after reset the fuses are as blown as they are. -/
def Obligations.FusesSinceReset : Prop :=
  State.reset.fusesSince Fuses.reset ∧ State.reset.pending = [] ∧ State.reset.cmds = []
end

