-- ==== Sys2Proof/Laws/Flash.lean ====
section
/-! SUPPORT. The content of a flash stripe: what putting a run of bytes leaves at each key, and that it keeps the canonical form. -/

namespace Sys2Proof.Machine

/-- The nonzero bytes of `b`, keyed from `a` on. -/
theorem shift_bytesMem (a : Nat) (b : List Byte) :
    (bytesMem b).map (fun p => (a + p.1, p.2)) = ((List.range' a b.length).zip b).filter fun p => p.2 != 0 := by
  have h : ((List.range b.length).zip b).map (fun p : Nat × Byte => (a + p.1, p.2)) = (List.range' a b.length).zip b := by
    rw [List.range_eq_range', show (List.range' a b.length) = (List.range' 0 b.length).map (a + ·) by
      rw [List.map_add_range']; simp, List.zip_map_left]
    rfl
  rw [bytesMem, ← h, List.filter_map]
  rfl

theorem run_key {a k n : Nat} {b : List Byte} {v : Byte} (h : (k, v) ∈ (List.range' a n).zip b) : a ≤ k ∧ k < a + n := by
  simpa using List.mem_range'_1.mp (List.of_mem_zip h).1

theorem run_wf (a : Nat) (b : List Byte) : spWf 0 (((List.range' a b.length).zip b).filter fun p => p.2 != 0) = true := by
  induction b generalizing a with
  | nil => rfl
  | cons x t ih =>
    rw [List.length_cons, List.range'_succ, List.zip_cons_cons, List.filter_cons]
    split
    · next hx =>
      rw [spWf_cons]
      refine ⟨by simpa using hx, ?_, ih (a + 1)⟩
      apply spAbove_filter
      simp only [spAbove, List.all_eq_true, decide_eq_true_eq]
      exact fun p hp => (run_key (k := p.1) (v := p.2) hp).1
    · exact ih (a + 1)

/-- Canonical lists whose keys do not meet join to a canonical list. -/
theorem spWf_append (l r : List (Nat × Byte)) (hl : spWf 0 l = true) (hr : spWf 0 r = true)
    (h : ∀ p ∈ l, ∀ q ∈ r, p.1 < q.1) : spWf 0 (l ++ r) = true := by
  induction l with
  | nil => exact hr
  | cons p t ih =>
    obtain ⟨a, v⟩ := p
    have hc := (spWf_cons 0 a v t).mp hl
    rw [List.cons_append, spWf_cons]
    refine ⟨hc.1, ?_, ih hc.2.2 fun q hq => h q (by simp [hq])⟩
    have ha := hc.2.1
    simp only [spAbove, List.all_eq_true, decide_eq_true_eq, List.mem_append] at ha ⊢
    rintro q (hq | hq)
    · exact ha q hq
    · exact h (a, v) (by simp) q hq

/-- Putting bytes keeps the canonical form. -/
theorem memPut_wf (m : List (Nat × Byte)) (a : Nat) (b : List Byte) (h : spWf 0 m = true) : spWf 0 (memPut m a b) = true := by
  rw [memPut, shift_bytesMem]
  have hk : ∀ p ∈ ((List.range' a b.length).zip b).filter (fun p : Nat × Byte => p.2 != 0), a ≤ p.1 ∧ p.1 < a + b.length :=
    fun p hp => run_key (k := p.1) (v := p.2) (List.mem_filter.mp hp).1
  refine spWf_append _ _ (spWf_append _ _ (spWf_filter 0 m _ h) (run_wf a b) ?_) (spWf_filter 0 m _ h) ?_
  · intro p hp q hq
    have := (hk q hq).1
    have : p.1 < a := by simpa using (List.mem_filter.mp hp).2
    omega
  · intro p hp q hq
    have hq' : a + b.length ≤ q.1 := by simpa using (List.mem_filter.mp hq).2
    rcases List.mem_append.mp hp with hp | hp
    · have : p.1 < a := by simpa using (List.mem_filter.mp hp).2
      omega
    · have := (hk p hp).2
      omega

theorem spGet_append {α : Type} (d : α) (l r : List (Nat × α)) (k : Nat) :
    spGet d (l ++ r) k = if (l.any fun p => p.1 == k) then spGet d l k else spGet d r k := by
  induction l with
  | nil => simp
  | cons p t ih =>
    by_cases hp : p.1 = k
    · simp [spGet, hp]
    · rw [List.cons_append, spGet, if_neg hp, ih, spGet, if_neg hp, List.any_cons]
      simp only [beq_eq_false_iff_ne.mpr hp, Bool.false_or]

theorem spGet_filter_key {α : Type} (d : α) (l : List (Nat × α)) (q : Nat → Bool) (k : Nat) :
    spGet d (l.filter fun p => q p.1) k = if q k then spGet d l k else d := by
  induction l with
  | nil => simp [spGet]
  | cons p t ih =>
    by_cases hp : p.1 = k
    · by_cases hq : q k <;> simp [spGet, hp, hq, ih]
    · by_cases hq : q p.1 <;> simp [spGet, hp, hq, ih]

theorem spGet_run (a : Nat) (b : List Byte) (i : Nat) (h : i < b.length) :
    spGet 0 (((List.range' a b.length).zip b).filter fun p => p.2 != 0) (a + i) = b[i] := by
  induction b generalizing a i with
  | nil => simp at h
  | cons x t ih =>
    rw [List.length_cons, List.range'_succ, List.zip_cons_cons, List.filter_cons]
    cases i with
    | zero =>
      split
      · simp [spGet]
      · next hx =>
        rw [spGet_absent]
        · simpa using (Eq.symm (by simpa using hx : x = 0))
        · intro p hp
          have := (run_key (k := p.1) (v := p.2) (List.mem_filter.mp hp).1).1
          omega
    | succ n =>
      have hn : n < t.length := by simpa using h
      have key := ih (a + 1) n hn
      rw [show a + 1 + n = a + (n + 1) by omega] at key
      split
      · simp only [spGet]
        rw [if_neg (by omega), key]
        simp
      · rw [key]
        simp

/-- A key outside the run reads as before. -/
theorem memPut_other (m : List (Nat × Byte)) (a : Nat) (b : List Byte) (k : Nat) (h : k < a ∨ a + b.length ≤ k) :
    spGet 0 (memPut m a b) k = spGet 0 m k := by
  have hrun : ∀ p ∈ ((List.range' a b.length).zip b).filter (fun p : Nat × Byte => p.2 != 0), p.1 ≠ k := by
    intro p hp
    have := run_key (k := p.1) (v := p.2) (List.mem_filter.mp hp).1
    omega
  rw [memPut, shift_bytesMem, List.append_assoc, spGet_append, spGet_append]
  have hno : ((((List.range' a b.length).zip b).filter (fun p : Nat × Byte => p.2 != 0)).any fun p => p.1 == k) = false := by
    simpa using fun x y h1 h2 => hrun (x, y) (List.mem_filter.mpr ⟨h1, by simpa using h2⟩)
  rw [hno, spGet_filter_key 0 m (fun i => decide (i < a)), spGet_filter_key 0 m (fun i => decide (a + b.length ≤ i))]
  rcases h with h | h
  · simp only [h, decide_true, if_true, Bool.false_eq_true, if_false]
    split
    · rfl
    · next hn =>
      have hm : ∀ p ∈ m, p.1 ≠ k := by
        intro p hp e
        apply hn
        simp only [List.any_eq_true, beq_iff_eq]
        exact ⟨p, List.mem_filter.mpr ⟨hp, by simpa [e] using h⟩, e⟩
      rw [spGet_absent 0 k m hm]
      simp
  · have hlt : ¬ k < a := by omega
    simp only [h, hlt, decide_true, decide_false, if_true, Bool.false_eq_true, if_false]
    split
    · next hy =>
      simp only [List.any_eq_true, beq_iff_eq] at hy
      obtain ⟨p, hp, e⟩ := hy
      have : p.1 < a := by simpa using (List.mem_filter.mp hp).2
      omega
    · rfl

/-- Each byte of the run is read back. -/
theorem memPut_at (m : List (Nat × Byte)) (a : Nat) (b : List Byte) (i : Nat) (h : i < b.length) :
    spGet 0 (memPut m a b) (a + i) = b[i] := by
  rw [memPut, shift_bytesMem, List.append_assoc, spGet_append, spGet_append]
  have hlow : ((m.filter fun p => decide (p.1 < a)).any fun p => p.1 == a + i) = false := by
    simp only [List.any_eq_false, List.mem_filter, decide_eq_true_eq, beq_iff_eq]
    rintro p ⟨-, hp⟩
    omega
  have hup : spGet 0 (m.filter fun p => decide (a + b.length ≤ p.1)) (a + i) = 0 := by
    rw [spGet_filter_key 0 m (fun i => decide (a + b.length ≤ i)), if_neg (by simp; omega)]
  rw [hlow, hup]
  simp only [Bool.false_eq_true, if_false]
  split
  · exact spGet_run a b i h
  · next hn =>
    have := spGet_run a b i h
    rw [spGet_absent] at this
    · exact this
    · intro p hp e
      apply hn
      simp only [List.any_eq_true, beq_iff_eq]
      exact ⟨p, hp, e⟩

end Sys2Proof.Machine
end

