-- ==== Sys2Proof/WellFormed.lean ====
section
/-! DEFINITION. Which commands are well formed: every operand lies in the range the manual gives the thing it names. The
meanings are total on all commands; this says which ones can occur. -/

namespace Sys2Proof

/-- Functions: 0 is the PF, 1 to 255 are VFs (Table 15.5). -/
def funcOk (f : Nat) : Bool := decide (f < 256)
/-- Contexts have 12-bit numbers. -/
def ctxOk (c : Nat) : Bool := decide (c < 4096)
/-- Work queues (R74). -/
def queueOk (q : Nat) : Bool := decide (q < 1048576)
/-- A command in flight: queue and 32-bit free-running index (R79). -/
def cmdOk (c : CmdId) : Bool := queueOk c.q && decide (c.idx < 4294967296)
/-- BAR0 is 64 MiB, BAR2 8 MiB; an access has 1 to 8 bytes. -/
def barOk (size off bytes : Nat) : Bool := decide (off + bytes ≤ size) && [1, 2, 4, 8].contains bytes
/-- Interfaces: 64 lanes at most one each. -/
def ifaceOk (i : Nat) : Bool := decide (i < 64)
/-- Parts of a domain (8-bit part IDs). -/
def partOk (p : Nat) : Bool := decide (p < 256)
/-- Fabric nodes (16 bits) and message IDs (32 bits). -/
def nodeOk (n : Nat) : Bool := decide (n < 65536)
def msgOk (m : Nat) : Bool := decide (m < 4294967296)
/-- Partitions (6 bits), AE sets and staging groups. -/
def partitionOk (p : Nat) : Bool := decide (p < 64)
/-- Page frame handles (40 bits). -/
def pfhOk (p : Nat) : Bool := decide (p < 1099511627776)
/-- AEs, islands and dies (Tables 1.1 and 1.4). -/
def aeOk (a : Nat) : Bool := decide (a < 256)
def islandOk (i : Nat) : Bool := decide (i < 48)
def dieOk (d : Nat) : Bool := decide (d < 4)
/-- Rails (Table 13.2) and flash modules (Table 14.2). -/
def railOk (r : Nat) : Bool := decide (r < 8)
def modOk (m : Nat) : Bool := decide (m < 16)
/-- Management sessions carry a 16-bit request number. -/
def reqOk (r : Nat) : Bool := decide (r < 65536)

/-- The operand ranges of every command. -/
def Instr.wellFormed : Instr → Bool
  | .registerWrite f off bytes _ | .badRegisterAccess f off bytes _ => funcOk f && barOk 67108864 off bytes
  | .lowerHalfRead f off bytes => funcOk f && (match off with
      | .bar0 o => barOk 67108864 o bytes
      | .bar2 o => barOk 8388608 o bytes)
  | .doorbellWrite f off bytes _ => funcOk f && barOk 8388608 off bytes
  | .expertUnlockWrite f _ | .epWrite f | .epLoad f | .domRegWrite f | .domRegLoad f | .egsSubWrite f | .egsSubLoad f
  | .egsSvcWrite f | .egsSvcLoad f | .egsSampleSelect f _ | .calStart f _ | .capWrite f _ | .hbmRetireCmd f _
  | .pmTargetWrite f _ | .flr f => funcOk f
  | .create f c | .destroy f c | .stop f c | .resume f c | .query f c | .eqDoorbellWrite f c _ | .rcpAttrWrite f c _
  | .trigValWrite f c _ | .teardown f c | .bringup f c => funcOk f && ctxOk c
  | .cqDoorbellWrite f c n _ => funcOk f && ctxOk c && decide (n < 64)
  | .msixHoldExpire c _ n => ctxOk c && decide (n < 64)
  | .shardMapWrite f n _ => funcOk f && decide (n < 1024)
  | .portModeWrite f p _ => funcOk f && decide (p < 8)
  | .queueDrained q => queueOk q
  | .ringReadComplete c _ | .ringReadTimeout c | .hostAccessTimeout c | .seqOpen c | .seqFork c | .seqClose c | .kvAppend c
  | .kvAppendRefill c | .fence c | .hintCold c | .hintWarm c | .hintHeavy c | .statsRead c | .stepPlan c | .planPinExpire c
  | .attend c | .pagesDeliver c | .pagesPlace c | .pagesDrop c | .prefixLookup c | .pxiNext c | .prefixPublish c
  | .prefixRetire c | .tableLoad c _ | .regionRegister c | .regionRevoke c | .rmaWrite c | .rmaWriteImm c | .rmaRead c
  | .rmaFlush c | .wrArm c | .triggerFire c | .wrArmTimeout c | .blankMount c _ | .paceNoticeSend c | .remoteLookupTimeout c
  | .allocWaitExpire c | .hostReadComplete c _ => cmdOk c
  | .cascClaim c => cmdOk c.cmd && c.rivals.all fun p => decide (p < 8)
  | .heavyWindowEnd c | .throttleEventGapEnd c | .contextFaultTeardown c | .teardownReleaseDone c => ctxOk c
  | .messageSend n m | .retxTimeout n m | .busyResend n m | .busyTimeExpire n m | .readRetry n m | .reasmTimeout n m =>
    nodeOk n && msgOk m
  | .destCacheLoad n | .ccRateIncrease n => nodeOk n
  | .packetRx x | .readReq x | .readResp x | .ack x | .nak x => ifaceOk x.iface
  | .egsPacketSelect i | .mkaRekey i | .ethLinkLoss i | .ethLinkUp i | .mkaFrame i _ => ifaceOk i
  | .pfcFrame i l => ifaceOk i && l.all fun x => decide (x.1 < 8)
  | .leaseReq p _ _ | .leaseGrant p _ _ | .heartbeat p _ _ _ _ | .hbAck p _ | .memberLost p | .join p _ _ | .admitMsg p _ _
  | .mapUpdate p _ _ | .regUpdate p _ _ | .lookupReq p _ _ _ _ _ | .lookupResp p _ _ | .insert p _ _ | .retire p _ _
  | .trim p _ | .rowsReq p _ _ _ | .rowsResp p _ _ _ _ _ | .rowsDone p _ _ _ | .pageData p _ | .refRelease p _
  | .refReleaseRetry p | .cascQuery ⟨p, _⟩ _ _ _ _ _ | .cascResult p _ | .insertReply p _ _ _ | .retireReply p _ _ _
  | .admitReply p _ => partOk p
  | .refill p q => partOk p && partOk q
  | .pageReq p f _ => partOk p && pfhOk f
  | .pageAck p a b _ => partOk p && pfhOk a && pfhOk b
  | .chunkPlacementRound n | .sliceEnd n | .graceExpire n | .stagingFillDone n => decide (n < 32)
  | .t1Eviction p | .t1AllocResume p => partitionOk p
  | .pinWaitResume p | .promotionComplete p | .flashReadComplete p _ | .lowerCopyReadComplete p _ | .flashProgramComplete p
  | .eagerWritebackStart p => pfhOk p
  | .rbTimeout c t p => decide (c < 64) && decide (t < 32) && pfhOk p
  | .hbmUncorrectable pc l => decide (pc < 1024) && pfhOk l.pfh && l.bad.all pfhOk
  | .chunkComplete a _ _ | .aeFence a _ => aeOk a
  | .ccFence c _ => decide (c < 128)
  | .deviceError _ d | .d2dLinkFailure d | .thermalTrip d | .rampStepEnd d => dieOk d
  | .droopTrip i | .stretchEnd i => islandOk i
  | .pmbusPoll r _ _ | .pmbusPollTimeout r | .pmbusAlert r _ => railOk r
  | .sensorRead d h => d.length == 40 && h.length == 16
  | .calWindowEnd m t => m.length == 8 && t.length == 8
  | .por c st => decide (c < 3) && decide (st < 16)
  | .moduleIdentityRead m d => modOk m && (match d with
      | some b => b.length == 1024
      | none => true)
  | .wake c => decide (c < 4)
  | .lockInterface v | .startInterface v | .stopInterface v => decide (1 ≤ v) && funcOk v
  | .ideKm s r _ => decide (s < 256) && (r.getD 0 < 65536)
  | .ideIntegrityFailure s => decide (s < 256)
  | .spdmRequest t _ _ => decide (t < 3)
  | .regRead _ q _ | .telemetry _ q | .attest _ q _ | .debugChallenge _ q | .setCap _ q _ | .reset _ q | .stage _ q _ _ _ _
  | .mount _ q _ _ | .commitSvn _ q | .debugToken _ q _ _ _ | .decommission _ q | .returnStep _ q => reqOk q
  | .jtagInstruction ir => decide (ir < 256)
  | .profileLoadDone m => nodeOk m
  | .seqReferencesRemoved h | .spilledRecordRestore h => msgOk h
  | .descriptorFetch | .heartbeatTimer | .electionStart | .electionRetry | .voterPromiseLapse | .voterHoldEnd
  | .managerLeaseEnd | .attachmentExpire | .admitWindowEnd | .homeRefillDone | .cascMemberSearchDone | .cascArbitration _
  | .cascStrobeTimeout | .cascRdyTimeout | .cascStuckClaim | .flashReserveReclaim | .creditAccrue _ | .journalCommit
  | .journalCommitComplete | .sysclkFault | .capLoopTick _ _ | .levelFallStep | .thermalLoopTick | .droopDecay
  | .pwrbrkAssert | .pwrbrkRelease | .brkTimeout | .fund | .hbmTrainingDone | .pcieLinkUp | .idleEntry | .lowpowerDrainDone
  | .lowpowerDrainTimeout | .lowpowerExitDone | .debugUnlock _ _ _ | .tlsHandshake _ _ _ | .tlsIdleTimeout _
  | .mgmtLinkLoss | .mi3cStallTimeout | .spiBusyTimeout | .correctedError _ _ | .mgmtPhyInt _ | .mgmtPhyPoll _
  | .cascClaimObserved _ | .cascClaimReleased | .leaseExpire _ | .cursorExpire _ | .revokeDrainComplete _
  | .mountStepComplete | .egsSample => true

/-- The command in flight that a row names. -/
def Instr.cmd? : Instr → Option CmdId
  | .ringReadComplete x _ | .ringReadTimeout x | .hostAccessTimeout x | .seqOpen x | .seqFork x | .seqClose x
  | .kvAppend x | .kvAppendRefill x | .fence x | .hintCold x | .hintWarm x | .hintHeavy x | .statsRead x | .stepPlan x
  | .planPinExpire x | .attend x | .pagesDeliver x | .pagesPlace x | .pagesDrop x | .prefixLookup x | .pxiNext x
  | .prefixPublish x | .prefixRetire x | .tableLoad x _ | .regionRegister x | .regionRevoke x | .rmaWrite x
  | .rmaWriteImm x | .rmaRead x | .rmaFlush x | .wrArm x | .triggerFire x | .wrArmTimeout x | .blankMount x _
  | .paceNoticeSend x | .remoteLookupTimeout x | .allocWaitExpire x | .hostReadComplete x _ => some x
  | .cascClaim x => some x.cmd
  | .expertUnlockWrite .. | .registerWrite .. | .lowerHalfRead .. | .badRegisterAccess .. | .doorbellWrite ..
  | .create .. | .destroy .. | .stop .. | .resume .. | .query .. | .queueDrained .. | .cqDoorbellWrite ..
  | .eqDoorbellWrite .. | .msixHoldExpire .. | .rcpAttrWrite .. | .trigValWrite .. | .teardown .. | .bringup ..
  | .epWrite .. | .epLoad .. | .domRegWrite .. | .domRegLoad .. | .egsSubWrite .. | .egsSubLoad .. | .egsSvcWrite ..
  | .egsSvcLoad .. | .egsSampleSelect .. | .calStart .. | .capWrite .. | .hbmRetireCmd .. | .pmTargetWrite ..
  | .shardMapWrite .. | .portModeWrite .. | .descriptorFetch | .seqReferencesRemoved .. | .spilledRecordRestore ..
  | .heavyWindowEnd .. | .profileLoadDone .. | .pinWaitResume .. | .chunkPlacementRound .. | .chunkComplete ..
  | .leaseExpire .. | .cursorExpire .. | .revokeDrainComplete .. | .mountStepComplete | .messageSend ..
  | .destCacheLoad .. | .egsPacketSelect .. | .packetRx .. | .readReq .. | .readResp .. | .ack .. | .nak ..
  | .retxTimeout .. | .busyResend .. | .busyTimeExpire .. | .readRetry .. | .reasmTimeout .. | .ccRateIncrease ..
  | .mkaRekey .. | .egsSample | .leaseReq .. | .leaseGrant .. | .electionStart | .electionRetry | .voterPromiseLapse
  | .voterHoldEnd | .heartbeatTimer | .heartbeat .. | .hbAck .. | .managerLeaseEnd | .attachmentExpire
  | .memberLost .. | .join .. | .admitMsg .. | .admitWindowEnd | .mapUpdate .. | .regUpdate .. | .lookupReq ..
  | .lookupResp .. | .insert .. | .retire .. | .trim .. | .refill .. | .homeRefillDone | .rowsReq .. | .rowsResp ..
  | .rowsDone .. | .pageReq .. | .pageData .. | .pageAck .. | .refRelease .. | .refReleaseRetry .. | .cascQuery ..
  | .cascMemberSearchDone | .cascArbitration .. | .cascResult .. | .cascStrobeTimeout | .cascRdyTimeout
  | .cascStuckClaim | .promotionComplete .. | .flashReadComplete .. | .rbTimeout .. | .lowerCopyReadComplete ..
  | .flashProgramComplete .. | .eagerWritebackStart .. | .t1Eviction .. | .t1AllocResume .. | .flashReserveReclaim
  | .creditAccrue .. | .hbmUncorrectable .. | .journalCommit | .journalCommitComplete | .sliceEnd .. | .graceExpire ..
  | .stagingFillDone .. | .contextFaultTeardown .. | .teardownReleaseDone .. | .flr .. | .aeFence .. | .ccFence ..
  | .deviceError .. | .d2dLinkFailure .. | .sysclkFault | .capLoopTick .. | .levelFallStep | .throttleEventGapEnd ..
  | .sensorRead .. | .thermalLoopTick | .thermalTrip .. | .droopTrip .. | .stretchEnd .. | .droopDecay | .pwrbrkAssert
  | .pwrbrkRelease | .brkTimeout | .pmbusPoll .. | .pmbusPollTimeout .. | .pmbusAlert .. | .calWindowEnd .. | .por ..
  | .fund | .hbmTrainingDone | .pcieLinkUp | .moduleIdentityRead .. | .idleEntry | .lowpowerDrainDone
  | .lowpowerDrainTimeout | .wake .. | .lowpowerExitDone | .spdmRequest .. | .lockInterface .. | .ideKm ..
  | .debugUnlock .. | .tlsHandshake .. | .tlsIdleTimeout .. | .mgmtLinkLoss | .regRead .. | .telemetry .. | .attest ..
  | .debugChallenge .. | .setCap .. | .reset .. | .stage .. | .mount .. | .commitSvn .. | .debugToken ..
  | .decommission .. | .returnStep .. | .mi3cStallTimeout | .spiBusyTimeout | .jtagInstruction .. | .correctedError ..
  | .ethLinkLoss .. | .ethLinkUp .. | .mkaFrame .. | .pfcFrame .. | .mgmtPhyInt .. | .mgmtPhyPoll ..
  | .cascClaimObserved .. | .cascClaimReleased | .insertReply .. | .retireReply .. | .admitReply ..
  | .startInterface .. | .stopInterface .. | .ideIntegrityFailure .. | .rampStepEnd .. => none

/-- The function whose access a row is. -/
def Instr.func? : Instr → Option Nat
  | .expertUnlockWrite x _ | .registerWrite x _ _ _ | .lowerHalfRead x _ _ | .badRegisterAccess x _ _ _
  | .doorbellWrite x _ _ _ | .create x _ | .destroy x _ | .stop x _ | .resume x _ | .query x _
  | .cqDoorbellWrite x _ _ _ | .eqDoorbellWrite x _ _ | .rcpAttrWrite x _ _ | .trigValWrite x _ _ | .teardown x _
  | .bringup x _ | .epWrite x | .epLoad x | .domRegWrite x | .domRegLoad x | .egsSubWrite x | .egsSubLoad x
  | .egsSvcWrite x | .egsSvcLoad x | .egsSampleSelect x _ | .calStart x _ | .capWrite x _ | .hbmRetireCmd x _
  | .pmTargetWrite x _ | .shardMapWrite x _ _ | .portModeWrite x _ _ => some x
  | .queueDrained .. | .msixHoldExpire .. | .descriptorFetch | .ringReadComplete .. | .ringReadTimeout ..
  | .hostAccessTimeout .. | .seqOpen .. | .seqFork .. | .seqClose .. | .seqReferencesRemoved ..
  | .spilledRecordRestore .. | .kvAppend .. | .kvAppendRefill .. | .fence .. | .hintCold .. | .hintWarm ..
  | .hintHeavy .. | .heavyWindowEnd .. | .statsRead .. | .stepPlan .. | .planPinExpire .. | .attend ..
  | .profileLoadDone .. | .pinWaitResume .. | .chunkPlacementRound .. | .chunkComplete .. | .leaseExpire ..
  | .pagesDeliver .. | .pagesPlace .. | .pagesDrop .. | .prefixLookup .. | .pxiNext .. | .prefixPublish ..
  | .prefixRetire .. | .cursorExpire .. | .tableLoad .. | .regionRegister .. | .regionRevoke ..
  | .revokeDrainComplete .. | .rmaWrite .. | .rmaWriteImm .. | .rmaRead .. | .rmaFlush .. | .wrArm ..
  | .triggerFire .. | .wrArmTimeout .. | .blankMount .. | .mountStepComplete | .messageSend .. | .destCacheLoad ..
  | .egsPacketSelect .. | .packetRx .. | .readReq .. | .readResp .. | .ack .. | .nak .. | .retxTimeout ..
  | .busyResend .. | .busyTimeExpire .. | .readRetry .. | .reasmTimeout .. | .ccRateIncrease .. | .mkaRekey ..
  | .egsSample | .paceNoticeSend .. | .leaseReq .. | .leaseGrant .. | .electionStart | .electionRetry
  | .voterPromiseLapse | .voterHoldEnd | .heartbeatTimer | .heartbeat .. | .hbAck .. | .managerLeaseEnd
  | .attachmentExpire | .memberLost .. | .join .. | .admitMsg .. | .admitWindowEnd | .mapUpdate .. | .regUpdate ..
  | .lookupReq .. | .lookupResp .. | .remoteLookupTimeout .. | .insert .. | .retire .. | .trim .. | .refill ..
  | .homeRefillDone | .rowsReq .. | .rowsResp .. | .rowsDone .. | .pageReq .. | .pageData .. | .pageAck ..
  | .refRelease .. | .refReleaseRetry .. | .cascClaim .. | .cascQuery .. | .cascMemberSearchDone | .cascArbitration ..
  | .cascResult .. | .cascStrobeTimeout | .cascRdyTimeout | .cascStuckClaim | .promotionComplete ..
  | .flashReadComplete .. | .rbTimeout .. | .lowerCopyReadComplete .. | .flashProgramComplete ..
  | .eagerWritebackStart .. | .t1Eviction .. | .t1AllocResume .. | .allocWaitExpire .. | .flashReserveReclaim
  | .creditAccrue .. | .hbmUncorrectable .. | .journalCommit | .journalCommitComplete | .sliceEnd .. | .graceExpire ..
  | .stagingFillDone .. | .contextFaultTeardown .. | .teardownReleaseDone .. | .flr .. | .aeFence .. | .ccFence ..
  | .deviceError .. | .d2dLinkFailure .. | .sysclkFault | .capLoopTick .. | .levelFallStep | .throttleEventGapEnd ..
  | .sensorRead .. | .thermalLoopTick | .thermalTrip .. | .droopTrip .. | .stretchEnd .. | .droopDecay | .pwrbrkAssert
  | .pwrbrkRelease | .brkTimeout | .pmbusPoll .. | .pmbusPollTimeout .. | .pmbusAlert .. | .calWindowEnd .. | .por ..
  | .fund | .hbmTrainingDone | .pcieLinkUp | .moduleIdentityRead .. | .idleEntry | .lowpowerDrainDone
  | .lowpowerDrainTimeout | .wake .. | .lowpowerExitDone | .spdmRequest .. | .lockInterface .. | .ideKm ..
  | .debugUnlock .. | .tlsHandshake .. | .tlsIdleTimeout .. | .mgmtLinkLoss | .regRead .. | .telemetry .. | .attest ..
  | .debugChallenge .. | .setCap .. | .reset .. | .stage .. | .mount .. | .commitSvn .. | .debugToken ..
  | .decommission .. | .returnStep .. | .mi3cStallTimeout | .spiBusyTimeout | .jtagInstruction .. | .correctedError ..
  | .ethLinkLoss .. | .ethLinkUp .. | .mkaFrame .. | .pfcFrame .. | .mgmtPhyInt .. | .mgmtPhyPoll ..
  | .cascClaimObserved .. | .cascClaimReleased | .hostReadComplete .. | .insertReply .. | .retireReply ..
  | .admitReply .. | .startInterface .. | .stopInterface .. | .ideIntegrityFailure .. | .rampStepEnd .. => none

end Sys2Proof
end

