-- ==== Sys2Proof/Laws/PerInstr.lean ====
section
/-! SUPPORT. Statements made for every command: what a well-formed command names. -/

namespace Sys2Proof.Laws.Named

/-- A well-formed row names a command of an existing queue, and an access comes from an existing function. -/
def Statement (i : Instr) : Prop :=
  i.wellFormed = true → (∀ c, i.cmd? = some c → c.q < 1048576 ∧ c.idx < 4294967296) ∧ (∀ f, i.func? = some f → f < 256)

theorem of_cmd {x : CmdId} (h : cmdOk x = true) : x.q < 1048576 ∧ x.idx < 4294967296 := by
  simpa [cmdOk, queueOk] using h

theorem of_func {f : Nat} (h : funcOk f = true) : f < 256 := by simpa [funcOk] using h

theorem of_cmd_row {i : Instr} {c : CmdId} (hc : i.cmd? = some c) (hf : i.func? = none) (h : i.wellFormed = true → cmdOk c = true) :
    Statement i := by
  intro w
  rw [hc, hf]
  exact ⟨fun x e => Option.some.inj e ▸ of_cmd (h w), fun x e => (nomatch e)⟩

theorem of_access {i : Instr} {f : Nat} (hc : i.cmd? = none) (hf : i.func? = some f)
    (h : i.wellFormed = true → funcOk f = true) : Statement i := by
  intro w
  rw [hc, hf]
  exact ⟨fun x e => (nomatch e), fun x e => Option.some.inj e ▸ of_func (h w)⟩

theorem of_neither {i : Instr} (hc : i.cmd? = none) (hf : i.func? = none) : Statement i := by
  intro w
  rw [hc, hf]
  exact ⟨fun x e => (nomatch e), fun x e => (nomatch e)⟩

theorem and_l {a b : Bool} (h : (a && b) = true) : a = true := (Bool.and_eq_true_iff.mp h).1

theorem expertUnlockWrite (a0 : Nat) (a1 : Word32) : Statement (.expertUnlockWrite a0 a1) :=
  of_access rfl rfl fun h => h

theorem registerWrite (a0 : Nat) (a1 : Nat) (a2 : Nat) (a3 : Word64) : Statement (.registerWrite a0 a1 a2 a3) :=
  of_access rfl rfl fun h => and_l h

theorem lowerHalfRead (a0 : Nat) (a1 : BarAddr) (a2 : Nat) : Statement (.lowerHalfRead a0 a1 a2) :=
  of_access rfl rfl fun h => and_l h

theorem badRegisterAccess (a0 : Nat) (a1 : Nat) (a2 : Nat) (a3 : Bool) : Statement (.badRegisterAccess a0 a1 a2 a3) :=
  of_access rfl rfl fun h => and_l h

theorem doorbellWrite (a0 : Nat) (a1 : Nat) (a2 : Nat) (a3 : Word64) : Statement (.doorbellWrite a0 a1 a2 a3) :=
  of_access rfl rfl fun h => and_l h

theorem create (a0 : Nat) (a1 : Nat) : Statement (.create a0 a1) :=
  of_access rfl rfl fun h => and_l h

theorem destroy (a0 : Nat) (a1 : Nat) : Statement (.destroy a0 a1) :=
  of_access rfl rfl fun h => and_l h

theorem stop (a0 : Nat) (a1 : Nat) : Statement (.stop a0 a1) :=
  of_access rfl rfl fun h => and_l h

theorem resume (a0 : Nat) (a1 : Nat) : Statement (.resume a0 a1) :=
  of_access rfl rfl fun h => and_l h

theorem query (a0 : Nat) (a1 : Nat) : Statement (.query a0 a1) :=
  of_access rfl rfl fun h => and_l h

theorem queueDrained (a0 : Nat) : Statement (.queueDrained a0) :=
  of_neither rfl rfl

theorem cqDoorbellWrite (a0 : Nat) (a1 : Nat) (a2 : Nat) (a3 : Word64) : Statement (.cqDoorbellWrite a0 a1 a2 a3) :=
  of_access rfl rfl fun h => and_l (and_l h)

theorem eqDoorbellWrite (a0 : Nat) (a1 : Nat) (a2 : Word64) : Statement (.eqDoorbellWrite a0 a1 a2) :=
  of_access rfl rfl fun h => and_l h

theorem msixHoldExpire (a0 : Nat) (a1 : Bool) (a2 : Nat) : Statement (.msixHoldExpire a0 a1 a2) :=
  of_neither rfl rfl

theorem rcpAttrWrite (a0 : Nat) (a1 : Nat) (a2 : Word64) : Statement (.rcpAttrWrite a0 a1 a2) :=
  of_access rfl rfl fun h => and_l h

theorem trigValWrite (a0 : Nat) (a1 : Nat) (a2 : Word32) : Statement (.trigValWrite a0 a1 a2) :=
  of_access rfl rfl fun h => and_l h

theorem teardown (a0 : Nat) (a1 : Nat) : Statement (.teardown a0 a1) :=
  of_access rfl rfl fun h => and_l h

theorem bringup (a0 : Nat) (a1 : Nat) : Statement (.bringup a0 a1) :=
  of_access rfl rfl fun h => and_l h

theorem epWrite (a0 : Nat) : Statement (.epWrite a0) :=
  of_access rfl rfl fun h => h

theorem epLoad (a0 : Nat) : Statement (.epLoad a0) :=
  of_access rfl rfl fun h => h

theorem domRegWrite (a0 : Nat) : Statement (.domRegWrite a0) :=
  of_access rfl rfl fun h => h

theorem domRegLoad (a0 : Nat) : Statement (.domRegLoad a0) :=
  of_access rfl rfl fun h => h

theorem egsSubWrite (a0 : Nat) : Statement (.egsSubWrite a0) :=
  of_access rfl rfl fun h => h

theorem egsSubLoad (a0 : Nat) : Statement (.egsSubLoad a0) :=
  of_access rfl rfl fun h => h

theorem egsSvcWrite (a0 : Nat) : Statement (.egsSvcWrite a0) :=
  of_access rfl rfl fun h => h

theorem egsSvcLoad (a0 : Nat) : Statement (.egsSvcLoad a0) :=
  of_access rfl rfl fun h => h

theorem egsSampleSelect (a0 : Nat) (a1 : Word32) : Statement (.egsSampleSelect a0 a1) :=
  of_access rfl rfl fun h => h

theorem calStart (a0 : Nat) (a1 : Word32) : Statement (.calStart a0 a1) :=
  of_access rfl rfl fun h => h

theorem capWrite (a0 : Nat) (a1 : Word32) : Statement (.capWrite a0 a1) :=
  of_access rfl rfl fun h => h

theorem hbmRetireCmd (a0 : Nat) (a1 : Word32) : Statement (.hbmRetireCmd a0 a1) :=
  of_access rfl rfl fun h => h

theorem pmTargetWrite (a0 : Nat) (a1 : Word32) : Statement (.pmTargetWrite a0 a1) :=
  of_access rfl rfl fun h => h

theorem shardMapWrite (a0 : Nat) (a1 : Nat) (a2 : Word32) : Statement (.shardMapWrite a0 a1 a2) :=
  of_access rfl rfl fun h => and_l h

theorem portModeWrite (a0 : Nat) (a1 : Nat) (a2 : Word32) : Statement (.portModeWrite a0 a1 a2) :=
  of_access rfl rfl fun h => and_l h

theorem descriptorFetch : Statement .descriptorFetch :=
  of_neither rfl rfl

theorem ringReadComplete (a0 : CmdId) (a1 : HostRead) : Statement (.ringReadComplete a0 a1) :=
  of_cmd_row rfl rfl fun h => h

theorem ringReadTimeout (a0 : CmdId) : Statement (.ringReadTimeout a0) :=
  of_cmd_row rfl rfl fun h => h

theorem hostAccessTimeout (a0 : CmdId) : Statement (.hostAccessTimeout a0) :=
  of_cmd_row rfl rfl fun h => h

theorem seqOpen (a0 : CmdId) : Statement (.seqOpen a0) :=
  of_cmd_row rfl rfl fun h => h

theorem seqFork (a0 : CmdId) : Statement (.seqFork a0) :=
  of_cmd_row rfl rfl fun h => h

theorem seqClose (a0 : CmdId) : Statement (.seqClose a0) :=
  of_cmd_row rfl rfl fun h => h

theorem seqReferencesRemoved (a0 : Nat) : Statement (.seqReferencesRemoved a0) :=
  of_neither rfl rfl

theorem spilledRecordRestore (a0 : Nat) : Statement (.spilledRecordRestore a0) :=
  of_neither rfl rfl

theorem kvAppend (a0 : CmdId) : Statement (.kvAppend a0) :=
  of_cmd_row rfl rfl fun h => h

theorem kvAppendRefill (a0 : CmdId) : Statement (.kvAppendRefill a0) :=
  of_cmd_row rfl rfl fun h => h

theorem fence (a0 : CmdId) : Statement (.fence a0) :=
  of_cmd_row rfl rfl fun h => h

theorem hintCold (a0 : CmdId) : Statement (.hintCold a0) :=
  of_cmd_row rfl rfl fun h => h

theorem hintWarm (a0 : CmdId) : Statement (.hintWarm a0) :=
  of_cmd_row rfl rfl fun h => h

theorem hintHeavy (a0 : CmdId) : Statement (.hintHeavy a0) :=
  of_cmd_row rfl rfl fun h => h

theorem heavyWindowEnd (a0 : Nat) : Statement (.heavyWindowEnd a0) :=
  of_neither rfl rfl

theorem statsRead (a0 : CmdId) : Statement (.statsRead a0) :=
  of_cmd_row rfl rfl fun h => h

theorem stepPlan (a0 : CmdId) : Statement (.stepPlan a0) :=
  of_cmd_row rfl rfl fun h => h

theorem planPinExpire (a0 : CmdId) : Statement (.planPinExpire a0) :=
  of_cmd_row rfl rfl fun h => h

theorem attend (a0 : CmdId) : Statement (.attend a0) :=
  of_cmd_row rfl rfl fun h => h

theorem profileLoadDone (a0 : Nat) : Statement (.profileLoadDone a0) :=
  of_neither rfl rfl

theorem pinWaitResume (a0 : Nat) : Statement (.pinWaitResume a0) :=
  of_neither rfl rfl

theorem chunkPlacementRound (a0 : Nat) : Statement (.chunkPlacementRound a0) :=
  of_neither rfl rfl

theorem chunkComplete (a0 : Nat) (a1 : Nat) (a2 : List PageFail) : Statement (.chunkComplete a0 a1 a2) :=
  of_neither rfl rfl

theorem leaseExpire (a0 : Nat) : Statement (.leaseExpire a0) :=
  of_neither rfl rfl

theorem pagesDeliver (a0 : CmdId) : Statement (.pagesDeliver a0) :=
  of_cmd_row rfl rfl fun h => h

theorem pagesPlace (a0 : CmdId) : Statement (.pagesPlace a0) :=
  of_cmd_row rfl rfl fun h => h

theorem pagesDrop (a0 : CmdId) : Statement (.pagesDrop a0) :=
  of_cmd_row rfl rfl fun h => h

theorem prefixLookup (a0 : CmdId) : Statement (.prefixLookup a0) :=
  of_cmd_row rfl rfl fun h => h

theorem pxiNext (a0 : CmdId) : Statement (.pxiNext a0) :=
  of_cmd_row rfl rfl fun h => h

theorem prefixPublish (a0 : CmdId) : Statement (.prefixPublish a0) :=
  of_cmd_row rfl rfl fun h => h

theorem prefixRetire (a0 : CmdId) : Statement (.prefixRetire a0) :=
  of_cmd_row rfl rfl fun h => h

theorem cursorExpire (a0 : Nat) : Statement (.cursorExpire a0) :=
  of_neither rfl rfl

theorem tableLoad (a0 : CmdId) (a1 : List (Nat × Bool)) : Statement (.tableLoad a0 a1) :=
  of_cmd_row rfl rfl fun h => h

theorem regionRegister (a0 : CmdId) : Statement (.regionRegister a0) :=
  of_cmd_row rfl rfl fun h => h

theorem regionRevoke (a0 : CmdId) : Statement (.regionRevoke a0) :=
  of_cmd_row rfl rfl fun h => h

theorem revokeDrainComplete (a0 : Nat) : Statement (.revokeDrainComplete a0) :=
  of_neither rfl rfl

theorem rmaWrite (a0 : CmdId) : Statement (.rmaWrite a0) :=
  of_cmd_row rfl rfl fun h => h

theorem rmaWriteImm (a0 : CmdId) : Statement (.rmaWriteImm a0) :=
  of_cmd_row rfl rfl fun h => h

theorem rmaRead (a0 : CmdId) : Statement (.rmaRead a0) :=
  of_cmd_row rfl rfl fun h => h

theorem rmaFlush (a0 : CmdId) : Statement (.rmaFlush a0) :=
  of_cmd_row rfl rfl fun h => h

theorem wrArm (a0 : CmdId) : Statement (.wrArm a0) :=
  of_cmd_row rfl rfl fun h => h

theorem triggerFire (a0 : CmdId) : Statement (.triggerFire a0) :=
  of_cmd_row rfl rfl fun h => h

theorem wrArmTimeout (a0 : CmdId) : Statement (.wrArmTimeout a0) :=
  of_cmd_row rfl rfl fun h => h

theorem blankMount (a0 : CmdId) (a1 : Blank) : Statement (.blankMount a0 a1) :=
  of_cmd_row rfl rfl fun h => h

theorem mountStepComplete : Statement .mountStepComplete :=
  of_neither rfl rfl

theorem messageSend (a0 : Nat) (a1 : Nat) : Statement (.messageSend a0 a1) :=
  of_neither rfl rfl

theorem destCacheLoad (a0 : Nat) : Statement (.destCacheLoad a0) :=
  of_neither rfl rfl

theorem egsPacketSelect (a0 : Nat) : Statement (.egsPacketSelect a0) :=
  of_neither rfl rfl

theorem packetRx (a0 : RxFrame) : Statement (.packetRx a0) :=
  of_neither rfl rfl

theorem readReq (a0 : RxFrame) : Statement (.readReq a0) :=
  of_neither rfl rfl

theorem readResp (a0 : RxFrame) : Statement (.readResp a0) :=
  of_neither rfl rfl

theorem ack (a0 : RxFrame) : Statement (.ack a0) :=
  of_neither rfl rfl

theorem nak (a0 : RxFrame) : Statement (.nak a0) :=
  of_neither rfl rfl

theorem retxTimeout (a0 : Nat) (a1 : Nat) : Statement (.retxTimeout a0 a1) :=
  of_neither rfl rfl

theorem busyResend (a0 : Nat) (a1 : Nat) : Statement (.busyResend a0 a1) :=
  of_neither rfl rfl

theorem busyTimeExpire (a0 : Nat) (a1 : Nat) : Statement (.busyTimeExpire a0 a1) :=
  of_neither rfl rfl

theorem readRetry (a0 : Nat) (a1 : Nat) : Statement (.readRetry a0 a1) :=
  of_neither rfl rfl

theorem reasmTimeout (a0 : Nat) (a1 : Nat) : Statement (.reasmTimeout a0 a1) :=
  of_neither rfl rfl

theorem ccRateIncrease (a0 : Nat) : Statement (.ccRateIncrease a0) :=
  of_neither rfl rfl

theorem mkaRekey (a0 : Nat) : Statement (.mkaRekey a0) :=
  of_neither rfl rfl

theorem egsSample : Statement .egsSample :=
  of_neither rfl rfl

theorem paceNoticeSend (a0 : CmdId) : Statement (.paceNoticeSend a0) :=
  of_cmd_row rfl rfl fun h => h

theorem leaseReq (a0 : Nat) (a1 : Nat) (a2 : Nat) : Statement (.leaseReq a0 a1 a2) :=
  of_neither rfl rfl

theorem leaseGrant (a0 : Nat) (a1 : Nat) (a2 : Nat) : Statement (.leaseGrant a0 a1 a2) :=
  of_neither rfl rfl

theorem electionStart : Statement .electionStart :=
  of_neither rfl rfl

theorem electionRetry : Statement .electionRetry :=
  of_neither rfl rfl

theorem voterPromiseLapse : Statement .voterPromiseLapse :=
  of_neither rfl rfl

theorem voterHoldEnd : Statement .voterHoldEnd :=
  of_neither rfl rfl

theorem heartbeatTimer : Statement .heartbeatTimer :=
  of_neither rfl rfl

theorem heartbeat (a0 : Nat) (a1 : Nat) (a2 : Nat) (a3 : Nat) (a4 : List Nat) : Statement (.heartbeat a0 a1 a2 a3 a4) :=
  of_neither rfl rfl

theorem hbAck (a0 : Nat) (a1 : Nat) : Statement (.hbAck a0 a1) :=
  of_neither rfl rfl

theorem managerLeaseEnd : Statement .managerLeaseEnd :=
  of_neither rfl rfl

theorem attachmentExpire : Statement .attachmentExpire :=
  of_neither rfl rfl

theorem memberLost (a0 : Nat) : Statement (.memberLost a0) :=
  of_neither rfl rfl

theorem join (a0 : Nat) (a1 : Nat) (a2 : Nat) : Statement (.join a0 a1 a2) :=
  of_neither rfl rfl

theorem admitMsg (a0 : Nat) (a1 : Nat) (a2 : List Nat) : Statement (.admitMsg a0 a1 a2) :=
  of_neither rfl rfl

theorem admitWindowEnd : Statement .admitWindowEnd :=
  of_neither rfl rfl

theorem mapUpdate (a0 : Nat) (a1 : Nat) (a2 : List Nat) : Statement (.mapUpdate a0 a1 a2) :=
  of_neither rfl rfl

theorem regUpdate (a0 : Nat) (a1 : List (Nat × Word512)) (a2 : List (Nat × Word128)) : Statement (.regUpdate a0 a1 a2) :=
  of_neither rfl rfl

theorem lookupReq (a0 : Nat) (a1 : Nat) (a2 : Nat) (a3 : Nat) (a4 : Bool) (a5 : List (Nat × Nat)) : Statement (.lookupReq a0 a1 a2 a3 a4 a5) :=
  of_neither rfl rfl

theorem lookupResp (a0 : Nat) (a1 : Nat) (a2 : LookupHits) : Statement (.lookupResp a0 a1 a2) :=
  of_neither rfl rfl

theorem remoteLookupTimeout (a0 : CmdId) : Statement (.remoteLookupTimeout a0) :=
  of_cmd_row rfl rfl fun h => h

theorem insert (a0 : Nat) (a1 : Nat) (a2 : InsertBatch) : Statement (.insert a0 a1 a2) :=
  of_neither rfl rfl

theorem retire (a0 : Nat) (a1 : Nat) (a2 : RetireKey) : Statement (.retire a0 a1 a2) :=
  of_neither rfl rfl

theorem trim (a0 : Nat) (a1 : List (Nat × Nat)) : Statement (.trim a0 a1) :=
  of_neither rfl rfl

theorem refill (a0 : Nat) (a1 : Nat) : Statement (.refill a0 a1) :=
  of_neither rfl rfl

theorem homeRefillDone : Statement .homeRefillDone :=
  of_neither rfl rfl

theorem rowsReq (a0 : Nat) (a1 : Nat) (a2 : Word64) (a3 : Nat) : Statement (.rowsReq a0 a1 a2 a3) :=
  of_neither rfl rfl

theorem rowsResp (a0 : Nat) (a1 : Nat) (a2 : Nat) (a3 : Nat) (a4 : Nat) (a5 : RowsBody) : Statement (.rowsResp a0 a1 a2 a3 a4 a5) :=
  of_neither rfl rfl

theorem rowsDone (a0 : Nat) (a1 : Nat) (a2 : Nat) (a3 : List Nat) : Statement (.rowsDone a0 a1 a2 a3) :=
  of_neither rfl rfl

theorem pageReq (a0 : Nat) (a1 : Nat) (a2 : Nat) : Statement (.pageReq a0 a1 a2) :=
  of_neither rfl rfl

theorem pageData (a0 : Nat) (a1 : PageBody) : Statement (.pageData a0 a1) :=
  of_neither rfl rfl

theorem pageAck (a0 : Nat) (a1 : Nat) (a2 : Nat) (a3 : Nat) : Statement (.pageAck a0 a1 a2 a3) :=
  of_neither rfl rfl

theorem refRelease (a0 : Nat) (a1 : List Nat) : Statement (.refRelease a0 a1) :=
  of_neither rfl rfl

theorem refReleaseRetry (a0 : Nat) : Statement (.refReleaseRetry a0) :=
  of_neither rfl rfl

theorem cascClaim (a0 : CascTry) : Statement (.cascClaim a0) :=
  of_cmd_row rfl rfl fun h => and_l h

theorem cascQuery (a0 : PeerReq) (a1 : Nat) (a2 : Nat) (a3 : Nat) (a4 : Bool) (a5 : List (Nat × Nat)) : Statement (.cascQuery a0 a1 a2 a3 a4 a5) :=
  of_neither rfl rfl

theorem cascMemberSearchDone : Statement .cascMemberSearchDone :=
  of_neither rfl rfl

theorem cascArbitration (a0 : List (Nat × Nat)) : Statement (.cascArbitration a0) :=
  of_neither rfl rfl

theorem cascResult (a0 : Nat) (a1 : Word64) : Statement (.cascResult a0 a1) :=
  of_neither rfl rfl

theorem cascStrobeTimeout : Statement .cascStrobeTimeout :=
  of_neither rfl rfl

theorem cascRdyTimeout : Statement .cascRdyTimeout :=
  of_neither rfl rfl

theorem cascStuckClaim : Statement .cascStuckClaim :=
  of_neither rfl rfl

theorem promotionComplete (a0 : Nat) : Statement (.promotionComplete a0) :=
  of_neither rfl rfl

theorem flashReadComplete (a0 : Nat) (a1 : LadderEnd) : Statement (.flashReadComplete a0 a1) :=
  of_neither rfl rfl

theorem rbTimeout (a0 : Nat) (a1 : Nat) (a2 : Nat) : Statement (.rbTimeout a0 a1 a2) :=
  of_neither rfl rfl

theorem lowerCopyReadComplete (a0 : Nat) (a1 : Option FailKind) : Statement (.lowerCopyReadComplete a0 a1) :=
  of_neither rfl rfl

theorem flashProgramComplete (a0 : Nat) : Statement (.flashProgramComplete a0) :=
  of_neither rfl rfl

theorem eagerWritebackStart (a0 : Nat) : Statement (.eagerWritebackStart a0) :=
  of_neither rfl rfl

theorem t1Eviction (a0 : Nat) : Statement (.t1Eviction a0) :=
  of_neither rfl rfl

theorem t1AllocResume (a0 : Nat) : Statement (.t1AllocResume a0) :=
  of_neither rfl rfl

theorem allocWaitExpire (a0 : CmdId) : Statement (.allocWaitExpire a0) :=
  of_cmd_row rfl rfl fun h => h

theorem flashReserveReclaim : Statement .flashReserveReclaim :=
  of_neither rfl rfl

theorem creditAccrue (a0 : Nat) : Statement (.creditAccrue a0) :=
  of_neither rfl rfl

theorem hbmUncorrectable (a0 : Nat) (a1 : PcLoss) : Statement (.hbmUncorrectable a0 a1) :=
  of_neither rfl rfl

theorem journalCommit : Statement .journalCommit :=
  of_neither rfl rfl

theorem journalCommitComplete : Statement .journalCommitComplete :=
  of_neither rfl rfl

theorem sliceEnd (a0 : Nat) : Statement (.sliceEnd a0) :=
  of_neither rfl rfl

theorem graceExpire (a0 : Nat) : Statement (.graceExpire a0) :=
  of_neither rfl rfl

theorem stagingFillDone (a0 : Nat) : Statement (.stagingFillDone a0) :=
  of_neither rfl rfl

theorem contextFaultTeardown (a0 : Nat) : Statement (.contextFaultTeardown a0) :=
  of_neither rfl rfl

theorem teardownReleaseDone (a0 : Nat) : Statement (.teardownReleaseDone a0) :=
  of_neither rfl rfl

theorem flr (a0 : Nat) : Statement (.flr a0) :=
  of_neither rfl rfl

theorem aeFence (a0 : Nat) (a1 : Nat) : Statement (.aeFence a0 a1) :=
  of_neither rfl rfl

theorem ccFence (a0 : Nat) (a1 : Nat) : Statement (.ccFence a0 a1) :=
  of_neither rfl rfl

theorem deviceError (a0 : Nat) (a1 : Nat) : Statement (.deviceError a0 a1) :=
  of_neither rfl rfl

theorem d2dLinkFailure (a0 : Nat) : Statement (.d2dLinkFailure a0) :=
  of_neither rfl rfl

theorem sysclkFault : Statement .sysclkFault :=
  of_neither rfl rfl

theorem capLoopTick (a0 : Nat) (a1 : Nat) : Statement (.capLoopTick a0 a1) :=
  of_neither rfl rfl

theorem levelFallStep : Statement .levelFallStep :=
  of_neither rfl rfl

theorem throttleEventGapEnd (a0 : Nat) : Statement (.throttleEventGapEnd a0) :=
  of_neither rfl rfl

theorem sensorRead (a0 : List Int) (a1 : List Int) : Statement (.sensorRead a0 a1) :=
  of_neither rfl rfl

theorem thermalLoopTick : Statement .thermalLoopTick :=
  of_neither rfl rfl

theorem thermalTrip (a0 : Nat) : Statement (.thermalTrip a0) :=
  of_neither rfl rfl

theorem droopTrip (a0 : Nat) : Statement (.droopTrip a0) :=
  of_neither rfl rfl

theorem stretchEnd (a0 : Nat) : Statement (.stretchEnd a0) :=
  of_neither rfl rfl

theorem droopDecay : Statement .droopDecay :=
  of_neither rfl rfl

theorem pwrbrkAssert : Statement .pwrbrkAssert :=
  of_neither rfl rfl

theorem pwrbrkRelease : Statement .pwrbrkRelease :=
  of_neither rfl rfl

theorem brkTimeout : Statement .brkTimeout :=
  of_neither rfl rfl

theorem pmbusPoll (a0 : Nat) (a1 : Nat) (a2 : Bool) : Statement (.pmbusPoll a0 a1 a2) :=
  of_neither rfl rfl

theorem pmbusPollTimeout (a0 : Nat) : Statement (.pmbusPollTimeout a0) :=
  of_neither rfl rfl

theorem pmbusAlert (a0 : Nat) (a1 : Nat) : Statement (.pmbusAlert a0 a1) :=
  of_neither rfl rfl

theorem calWindowEnd (a0 : List Nat) (a1 : List Nat) : Statement (.calWindowEnd a0 a1) :=
  of_neither rfl rfl

theorem por (a0 : Nat) (a1 : Nat) : Statement (.por a0 a1) :=
  of_neither rfl rfl

theorem fund : Statement .fund :=
  of_neither rfl rfl

theorem hbmTrainingDone : Statement .hbmTrainingDone :=
  of_neither rfl rfl

theorem pcieLinkUp : Statement .pcieLinkUp :=
  of_neither rfl rfl

theorem moduleIdentityRead (a0 : Nat) (a1 : Option (List Byte)) : Statement (.moduleIdentityRead a0 a1) :=
  of_neither rfl rfl

theorem idleEntry : Statement .idleEntry :=
  of_neither rfl rfl

theorem lowpowerDrainDone : Statement .lowpowerDrainDone :=
  of_neither rfl rfl

theorem lowpowerDrainTimeout : Statement .lowpowerDrainTimeout :=
  of_neither rfl rfl

theorem wake (a0 : Nat) : Statement (.wake a0) :=
  of_neither rfl rfl

theorem lowpowerExitDone : Statement .lowpowerExitDone :=
  of_neither rfl rfl

theorem spdmRequest (a0 : Nat) (a1 : Nat) (a2 : Nat) : Statement (.spdmRequest a0 a1 a2) :=
  of_neither rfl rfl

theorem lockInterface (a0 : Nat) : Statement (.lockInterface a0) :=
  of_neither rfl rfl

theorem ideKm (a0 : Nat) (a1 : Option Nat) (a2 : Bool) : Statement (.ideKm a0 a1 a2) :=
  of_neither rfl rfl

theorem debugUnlock (a0 : Nat) (a1 : Nat) (a2 : Nat) : Statement (.debugUnlock a0 a1 a2) :=
  of_neither rfl rfl

theorem tlsHandshake (a0 : Nat) (a1 : Nat) (a2 : Bool) : Statement (.tlsHandshake a0 a1 a2) :=
  of_neither rfl rfl

theorem tlsIdleTimeout (a0 : Nat) : Statement (.tlsIdleTimeout a0) :=
  of_neither rfl rfl

theorem mgmtLinkLoss : Statement .mgmtLinkLoss :=
  of_neither rfl rfl

theorem regRead (a0 : Nat) (a1 : Nat) (a2 : List (Nat × Nat)) : Statement (.regRead a0 a1 a2) :=
  of_neither rfl rfl

theorem telemetry (a0 : Nat) (a1 : Nat) : Statement (.telemetry a0 a1) :=
  of_neither rfl rfl

theorem attest (a0 : Nat) (a1 : Nat) (a2 : Nat) : Statement (.attest a0 a1 a2) :=
  of_neither rfl rfl

theorem debugChallenge (a0 : Nat) (a1 : Nat) : Statement (.debugChallenge a0 a1) :=
  of_neither rfl rfl

theorem setCap (a0 : Nat) (a1 : Nat) (a2 : Nat) : Statement (.setCap a0 a1 a2) :=
  of_neither rfl rfl

theorem reset (a0 : Nat) (a1 : Nat) : Statement (.reset a0 a1) :=
  of_neither rfl rfl

theorem stage (a0 : Nat) (a1 : Nat) (a2 : Bool) (a3 : Nat) (a4 : Nat) (a5 : Option BankImage) : Statement (.stage a0 a1 a2 a3 a4 a5) :=
  of_neither rfl rfl

theorem mount (a0 : Nat) (a1 : Nat) (a2 : Nat) (a3 : Nat) : Statement (.mount a0 a1 a2 a3) :=
  of_neither rfl rfl

theorem commitSvn (a0 : Nat) (a1 : Nat) : Statement (.commitSvn a0 a1) :=
  of_neither rfl rfl

theorem debugToken (a0 : Nat) (a1 : Nat) (a2 : Nat) (a3 : Nat) (a4 : Nat) : Statement (.debugToken a0 a1 a2 a3 a4) :=
  of_neither rfl rfl

theorem decommission (a0 : Nat) (a1 : Nat) : Statement (.decommission a0 a1) :=
  of_neither rfl rfl

theorem returnStep (a0 : Nat) (a1 : Nat) : Statement (.returnStep a0 a1) :=
  of_neither rfl rfl

theorem mi3cStallTimeout : Statement .mi3cStallTimeout :=
  of_neither rfl rfl

theorem spiBusyTimeout : Statement .spiBusyTimeout :=
  of_neither rfl rfl

theorem jtagInstruction (a0 : Nat) : Statement (.jtagInstruction a0) :=
  of_neither rfl rfl

theorem correctedError (a0 : Nat) (a1 : Nat) : Statement (.correctedError a0 a1) :=
  of_neither rfl rfl

theorem ethLinkLoss (a0 : Nat) : Statement (.ethLinkLoss a0) :=
  of_neither rfl rfl

theorem ethLinkUp (a0 : Nat) : Statement (.ethLinkUp a0) :=
  of_neither rfl rfl

theorem mkaFrame (a0 : Nat) (a1 : Option Nat) : Statement (.mkaFrame a0 a1) :=
  of_neither rfl rfl

theorem pfcFrame (a0 : Nat) (a1 : List (Nat × Bool)) : Statement (.pfcFrame a0 a1) :=
  of_neither rfl rfl

theorem mgmtPhyInt (a0 : Bool) : Statement (.mgmtPhyInt a0) :=
  of_neither rfl rfl

theorem mgmtPhyPoll (a0 : Bool) : Statement (.mgmtPhyPoll a0) :=
  of_neither rfl rfl

theorem cascClaimObserved (a0 : CascSeen) : Statement (.cascClaimObserved a0) :=
  of_neither rfl rfl

theorem cascClaimReleased : Statement .cascClaimReleased :=
  of_neither rfl rfl

theorem hostReadComplete (a0 : CmdId) (a1 : HostRead) : Statement (.hostReadComplete a0 a1) :=
  of_cmd_row rfl rfl fun h => h

theorem insertReply (a0 : Nat) (a1 : Nat) (a2 : List Nat) (a3 : List Word64) : Statement (.insertReply a0 a1 a2 a3) :=
  of_neither rfl rfl

theorem retireReply (a0 : Nat) (a1 : Nat) (a2 : Nat) (a3 : Nat) : Statement (.retireReply a0 a1 a2 a3) :=
  of_neither rfl rfl

theorem admitReply (a0 : Nat) (a1 : Nat) : Statement (.admitReply a0 a1) :=
  of_neither rfl rfl

theorem startInterface (a0 : Nat) : Statement (.startInterface a0) :=
  of_neither rfl rfl

theorem stopInterface (a0 : Nat) : Statement (.stopInterface a0) :=
  of_neither rfl rfl

theorem ideIntegrityFailure (a0 : Nat) : Statement (.ideIntegrityFailure a0) :=
  of_neither rfl rfl

theorem rampStepEnd (a0 : Nat) : Statement (.rampStepEnd a0) :=
  of_neither rfl rfl

end Sys2Proof.Laws.Named
end

