-- ==== Sys2Proof/Tests/Slice0.lean ====
section
/-! SUPPORT. The model's own tests: ill-formed commands refused, one step of each kind on small states, and for every statement
with hypotheses a state and operands that meet them. -/

set_option Elab.async false

namespace Sys2Proof.Tests

open Sys2Proof Sys2Proof.Machine

/-! ## Ill-formed commands -/

theorem test_wf_func : Instr.wellFormed (.expertUnlockWrite 256 0) = false := by decide
theorem test_wf_func_last : Instr.wellFormed (.expertUnlockWrite 255 0) = true := by decide
theorem test_wf_ctx : Instr.wellFormed (.create 0 4096) = false := by decide
theorem test_wf_bar0 : Instr.wellFormed (.registerWrite 0 67108861 4 0) = false := by decide
theorem test_wf_bar0_width : Instr.wellFormed (.lowerHalfRead 0 (.bar0 0) 3) = false := by decide
theorem test_wf_bar2_read : Instr.wellFormed (.lowerHalfRead 0 (.bar2 8388608) 8) = false := by decide
theorem test_wf_bar2 : Instr.wellFormed (.doorbellWrite 0 8388605 4 0) = false := by decide
theorem test_wf_queue : Instr.wellFormed (.queueDrained 1048576) = false := by decide
theorem test_wf_cq : Instr.wellFormed (.cqDoorbellWrite 0 0 64 0) = false := by decide
theorem test_wf_msix : Instr.wellFormed (.msixHoldExpire 0 false 64) = false := by decide
theorem test_wf_map : Instr.wellFormed (.shardMapWrite 0 1024 0) = false := by decide
theorem test_wf_port : Instr.wellFormed (.portModeWrite 0 8 0) = false := by decide
theorem test_wf_cmd_queue : Instr.wellFormed (.seqOpen ⟨1048576, 0⟩) = false := by decide
theorem test_wf_cmd_index : Instr.wellFormed (.seqOpen ⟨0, 4294967296⟩) = false := by decide
theorem test_wf_node : Instr.wellFormed (.messageSend 65536 0) = false := by decide
theorem test_wf_msg : Instr.wellFormed (.messageSend 0 4294967296) = false := by decide
theorem test_wf_iface : Instr.wellFormed (.ethLinkUp 64) = false := by decide
theorem test_wf_priority : Instr.wellFormed (.pfcFrame 0 [(8, true)]) = false := by decide
theorem test_wf_part : Instr.wellFormed (.memberLost 256) = false := by decide
theorem test_wf_refill : Instr.wellFormed (.refill 0 256) = false := by decide
theorem test_wf_set : Instr.wellFormed (.chunkPlacementRound 32) = false := by decide
theorem test_wf_partition : Instr.wellFormed (.t1Eviction 64) = false := by decide
theorem test_wf_pfh : Instr.wellFormed (.promotionComplete 1099511627776) = false := by decide
theorem test_wf_page_ack : Instr.wellFormed (.pageAck 0 0 1099511627776 0) = false := by decide
theorem test_wf_channel : Instr.wellFormed (.rbTimeout 64 0 0) = false := by decide
theorem test_wf_target : Instr.wellFormed (.rbTimeout 0 32 0) = false := by decide
theorem test_wf_pc : Instr.wellFormed (.hbmUncorrectable 1024 ⟨0, []⟩) = false := by decide
theorem test_wf_bad_pages : Instr.wellFormed (.hbmUncorrectable 0 ⟨0, [1099511627776]⟩) = false := by decide
theorem test_wf_ae : Instr.wellFormed (.aeFence 256 0) = false := by decide
theorem test_wf_cc : Instr.wellFormed (.ccFence 128 0) = false := by decide
theorem test_wf_die : Instr.wellFormed (.thermalTrip 4) = false := by decide
theorem test_wf_island : Instr.wellFormed (.droopTrip 48) = false := by decide
theorem test_wf_rail : Instr.wellFormed (.pmbusPollTimeout 8) = false := by decide
theorem test_wf_sensors : Instr.wellFormed (.sensorRead [] []) = false := by decide
theorem test_wf_window : Instr.wellFormed (.calWindowEnd [] []) = false := by decide
theorem test_wf_por : Instr.wellFormed (.por 3 0) = false := by decide
theorem test_wf_straps : Instr.wellFormed (.por 0 16) = false := by decide
theorem test_wf_module : Instr.wellFormed (.moduleIdentityRead 16 none) = false := by decide
theorem test_wf_identity : Instr.wellFormed (.moduleIdentityRead 0 (some [])) = false := by decide
theorem test_wf_wake : Instr.wellFormed (.wake 4) = false := by decide
theorem test_wf_vf : Instr.wellFormed (.lockInterface 0) = false := by decide
theorem test_wf_stream : Instr.wellFormed (.ideKm 256 none false) = false := by decide
theorem test_wf_requester : Instr.wellFormed (.ideKm 0 (some 65536) false) = false := by decide
theorem test_wf_transport : Instr.wellFormed (.spdmRequest 3 0 0) = false := by decide
theorem test_wf_request : Instr.wellFormed (.setCap 0 65536 0) = false := by decide
theorem test_wf_jtag : Instr.wellFormed (.jtagInstruction 256) = false := by decide
theorem test_wf_profile : Instr.wellFormed (.profileLoadDone 65536) = false := by decide
theorem test_wf_handle : Instr.wellFormed (.seqReferencesRemoved 4294967296) = false := by decide

/-- The table gives no row any bits. -/
theorem test_no_word_spells_a_command (n w : Nat) : decodeTableWord n w = none := rfl

/-! ## Small states -/

/-- What an outcome holds, if it is a next state. -/
def after (o : Host.Outcome State Fault Refusal) (p : State → Bool) : Bool := match o with
  | .next t => p t
  | .fault _ => false
  | .refused _ => false

/-- A descriptor from (offset, bytes, value) triples. -/
def desc (l : List (Nat × Nat × Nat)) : Word512 :=
  BitVec.ofNat 512 ((l.map fun x => (x.2.2 % 256 ^ x.2.1) * 256 ^ x.1).foldl (· + ·) 0)

def prof5 : Profile :=
  { mprof := 5, layers := 2, kvHeads := 1, qpk := 1, hdim := 0, kfmt := 0, vfmt := 0, qfmts := 1, block := 0, lgrp := 0, tset := 0,
    kvar := 0, scale := 0x3f800000#32, softcap := 0, slope := 0, biasStep := 0, winPeriod := 0, sink := 0,
    window := 0 }

def ctxRec (c f : Nat) : CtxRec :=
  { ctx := c, part := 0, func := f, tenant := 7, retrieval := false, maxBlocks := 64, topk := 0, recent := 0, sinkBlk := 0,
    maxTopk := 0, maxC := 64, minC := 4, weight := 1, groups := [c], trigFirst := 1, trigCount := 16, seqLimit := 100, sdom := 1,
    nameable := [], publish := [1], tableRight := [5], heavy := true }

def partRec : PartRec :=
  { part := 0, cgroups := [1], aeset := 0, sgroup := none, slice := 0, plabel := 0, kgen := 0, sealSet := none, importPart := none,
    defaults := ⟨2, 1, 2⟩, planBuf := 0, records := 100 }

/-- A directory entry (Table 14.4). -/
def entry (typ part off len count : Nat) : List Byte :=
  leBytes 1 typ ++ leBytes 1 part ++ leBytes 2 0 ++ leBytes 4 off ++ leBytes 4 len ++ leBytes 4 count

/-- The record of profile 5 (Table 2.8). -/
def profBytes : List Byte :=
  leBytes 2 5 ++ leBytes 2 2 ++ leBytes 2 1 ++ leBytes 1 1 ++ leBytes 1 0 ++ leBytes 1 0 ++ leBytes 1 1 ++ leBytes 10 0 ++
    leBytes 4 0x3f800000 ++ List.replicate 232 0

/-- A blank of one partition, one AE set, one context, one profile and one sharing domain (Tables 14.3 and 14.4): 448 bytes and its
signature. -/
def blankBody : List Byte :=
  leBytes 4 0x4B4E4C42 ++ leBytes 2 1 ++ leBytes 2 0x7100 ++ leBytes 4 0 ++ leBytes 4 6 ++ leBytes 8 1248 ++ List.replicate 40 0 ++
    entry 1 255 192 0 1 ++ entry 2 0 192 0 1 ++ entry 3 255 192 0 1 ++ entry 5 0 192 0 1 ++ entry 6 255 192 256 1 ++
    entry 8 255 192 0 1 ++ List.replicate 32 0 ++ profBytes

/-- The signature block for it of the key in owner slot 0. -/
def blankSig : Nat := joinParts [
  0x3864ee6a142294334eb3c564bbea28ff583e18bebcce29638788a1a626e9035af587185ae7bd8da32344ad3445b647d9cf5ea82d6b0b0d63d8389d40681c5e1a99b10b0516e05c7de606c5f4610f9cf3fa3507caebeaaaa2268ae8e26e9f3a4dbc08ee92,
  0x6a7baf9ebc3fd70bbb7be4eb2226b7d825ca494b9a9850487eb52a0fd94b19942b8b38460a8e51c22176ca0132143adf6d3512577f07dd90ae25691c14553d2e7d27faacefb75ad6dd214fe67444f3c3f7ee1908acbb76bc0be922914b954f83d3451b62,
  0xb80b7c2474f3861ffb58da77c342f168104cceb2faa9af350e7b39072f149009fa3193fc672f261f0fc01c4da3470bd0ce7237f316578990cf488692ec780ce90b0d7525839d18f51afe84eff719b81bf65b2bd9a9aaad5acf21f0113aac14852b1a8487,
  0xcada80fbd354c34824cbad4261f7c9c9ea9eae2ac196f244f4106af56cd5de75d3fa6e57f764ac12e96f827d671dec476cff26c7ef4cfaa65a47705e4ee857291f5c886cb5be73086501f77224b0a728cf2db1a400000000000000000000000001000100,
  0x91fcebd2f482d2b53f8ef2416ed88f8aa351aac3076635700db00b6a830a2148396cea30e2304babf5a93fd66a3a56490fdb89b9bb56a72ac322a220751484f0fc8ad7fb8004d3544589be70359555fe2c1e659acdeb832e3507f7295ed8a6856aa0a844,
  0x97e92add48fb831c747088fcdb1514cf32c084563310c7e73b2b1a4b3d7646b76b43ab47ceb93c7b24a24f0967aaae242d0f81d6d845d6160f6ccafe4f684578bc47630f2c074015e338898632e827a53bdd67aac76168ca820be30b227736914add6025,
  0xc57b64047b717a717b3be74ca32f17341798febf16d287c19afac843939f778085abe5f88d17a1109ad7cd2ed84904994216be936572b208b9f518b57a3e5c7eaf68333139bb5d348855a891b4be6ba516b76f34311c78d9f89d12b84ed2ee7e4a72429,
  0x397622ea01247661c9ce9a11ffd3addaebe758018ae73143de8c5ae3bbe2cf895af143d904cf7671fd0f3273a4506248247a9089b1d6493b1fe0e24b5463cf62f4bdad9d912244e5d8a3c307e19888d36d7615b100000000000000000000000000000101]

def blank0 : Blank :=
  { obj := ⟨blankBody, blankSig⟩, deviceCtx := 0, records := 1000, anchors := 100, frames := 1000, sysGroups := [0],
    dirLog2 := 4, retxStore := 65536, mapSegments := 1, rate := 1, depth := 1, vfCount := 1, bar0Pages := 1, bar2Pages := 1,
    partitions := [partRec], aesets := [⟨0, [0]⟩], sgroups := [], contexts := [ctxRec 0 0], variants := [],
    sdoms := [(1, false)], portModes := [], macBase := 0, svcs := [], subs := [], endpoints := [], node := 3, domain := none,
    cascade := none, shardMap := [], mka := [], capW := 1000, capMargin := 0, therm := 0 }

/-- The same without a signature. -/
def unsigned : Blank := { blank0 with obj := ⟨blankBody, 0⟩ }

/-- A partition that has indices 1 to `n`, of them 1 to `k` issued. -/
def partWith (n k : Nat) : Part :=
  { r := { partRec with records := n }, fresh := if k < n then [(k + 1, n - k)] else [], freed := [], nextPc := 0 }

/-- A part with the blank mounted: context 0 of the PF is UP, profile 5 is there. -/
def base : State :=
  { State.reset with
    sec := { Sec.reset with booted := true }
    blank := some blank0
    ctxs := [{ r := ctxRec 0 0, st := .up }]
    seq := { Seqs.reset with parts := [partWith 100 1], profiles := [prof5], top := 101 } }

def wq0 : Wq :=
  { q := 0, ctx := 0, st := .enabled, region := false, base := 0x20000, entries := 16, cqid := 0, rkey := 0, dbImm := false, pi := 2,
    fi := 1 }
def cq0 : Cq :=
  { id := 0, base := 0x10000, entries := 16, vector := 1, count := 2, time := 0, wi := 2, ci := 1, arm := true, pend := 1, first := 0 }
def eq0 : Eq :=
  { ctx := 0, base := 0x30000, entries := 16, vector := 1, count := 2, time := 5, wi := 2, ci := 1, arm := true, pend := 1, first := 0,
    ovf := false }

/-- The same with a work queue, its completion queue and the event queue. -/
def queued : State := { base with qdb := { Qdb.reset with wqs := [wq0], cqs := [cq0], eqs := [eq0], admitted := 5 } }

/-- A command in slot 0 of queue 0. -/
def cmdOf (st : CmdSt) (d : Word512) : Cmd :=
  { id := ⟨0, 0⟩, ctx := 0, adm := 4, st := st, desc := d, armed := none, reads := [], owed := 0, tlvl := 0, ae := 0, bytes := 0,
    rcp := none, fail := none, todo := [], count := 0, mark := 0, alloc := none, pinned := [], met := [], since := 0, err := none,
    armNo := 0, writes := [], waited := false, readPin := none, refInfo := none }

def withCmd (s : State) (k : Cmd) : State := { s with cmds := [k] }

/-- The parts of "begins" that evaluation decides. -/
theorem begins_of {s : State} {k : Cmd} {op : Nat}
    (h : (s.cmd? k.id == some k && (k.st == .waiting && (k.owed == 0 && (k.fail == none &&
      (s.mayStart k == true && (s.spilledAny k == false && dOp k.desc == op)))))) = true) : s.begins k op := by
  simp only [Bool.and_eq_true, beq_iff_eq] at h
  obtain ⟨a, b, c, d, e, f, g⟩ := h
  exact ⟨⟨a, b, c, d, e, f⟩, g⟩

/-- A look-up that finds something of which `p` holds. -/
theorem found {α : Type} {o : Option α} {p : α → Bool} (h : o.any p = true) : ∃ x, o = some x ∧ p x = true := by
  cases o with
  | none => simp at h
  | some x => exact ⟨x, rfl, by simpa using h⟩

/-! ## Registers and queues: hypotheses that are met, and one step of each kind -/

/-- Any queue of commands will do; the idle clause is met by the reset state. -/
theorem witness_StepRunsFrontCommand : State.reset.pending = [] := rfl

theorem test_idle_step : after (step base) (fun t => t.cycles == 1) = true := by decide +kernel
theorem test_step_takes_the_front :
    after (step { base with pending := [.ethLinkUp 0, .fund] }) (fun t => t.pending == [.fund]) = true := by decide +kernel

/-- The key, a wrong key as the fourth, and a register that is locked. -/
theorem witness_ExpertUnlockByKey : base.pfReady ∧ base.fld F.GLB_EXPERT_UNLOCK_LOCKED_OUT = 0 ∧
    (0xA71E0001#32).toNat / 65536 = 0xA71E ∧ (0xA71F0001#32).toNat / 65536 ≠ 0xA71E ∧
    (base.setFld F.GLB_EXPERT_UNLOCK_LOCKED_OUT 1).fld F.GLB_EXPERT_UNLOCK_LOCKED_OUT = 1 := by
  refine ⟨rfl, ?_⟩; decide +kernel
theorem test_unlock_locks_out_at_the_fourth :
    after (exec (.expertUnlockWrite 0 1) { base with host := { base.host with wrongKeys := 3 } })
      (fun t => t.fld F.GLB_EXPERT_UNLOCK_LOCKED_OUT == 1) = true := by decide +kernel

/-- Table 0.2 on the codes of Table 0.1 and of a counter. -/
theorem witness_AccessCodesActAsTabled : F.QDB_STAT_DB_IGNORED.lo + F.QDB_STAT_DB_IGNORED.width ≤ 64 ∧
    0 < 2 ^ F.QDB_STAT_DB_IGNORED.width ∧ 0 < F.QDB_STAT_DB_IGNORED.width := by decide +kernel
theorem witness_access_code_of_each_kind :
    F.GLB_PM_CTL_TARGET.acc = .rw ∧ F.GLB_RESET_CAUSE_PIN.acc = .w1c ∧
    F.CTXW_CQ_DB_ARM.acc = .w1s ∧ F.GLB_PM_STAT_STATE.acc = .ro := by decide +kernel

/-- Misaligned, too narrow, and both. -/
theorem witness_BadAccessReadsZeroAndCounts :
    accessOk 2 4 = false ∧ accessOk 4 2 = false ∧ accessOk 1 2 = false ∧ accessOk 4 8 = false := by decide +kernel
theorem test_narrow_read_gives_zero :
    after (exec (.badRegisterAccess 0 4 2 false) base) (fun t => t.host.out == [.regData 0 0] &&
      t.fld F.RAS_ACCESS_ERR_NARROW == 1 && t.fld F.RAS_ACCESS_ERR_MISALIGNED == 0) = true := by decide +kernel

/-- GLB_PM_CFG is a plain 32-bit register, TST_TRACE_BASE a plain 64-bit one with its upper half; no latch and no half is held; an
offset outside the window, and one of no register. -/
theorem witness_RegisterAccessesTakeEffect :
    (∃ h, base.mapAddr 0 R.GLB_PM_CFG.addr = some R.GLB_PM_CFG.addr ∧ base.hitAt R.GLB_PM_CFG.addr = some h ∧ h.upper = false ∧
      h.r.plain = true ∧ h.r.bytes = 4) ∧
    (∃ h, base.mapAddr 0 R.TST_TRACE_BASE.addr = some R.TST_TRACE_BASE.addr ∧ base.hitAt R.TST_TRACE_BASE.addr = some h ∧
      h.upper = false ∧ h.r.plain = true ∧ h.r.bytes = 8 ∧ R.TST_TRACE_BASE.addr % 8 = 0) ∧
    (∃ h, base.mapAddr 0 (R.TST_TRACE_BASE.addr + 4) = some (R.TST_TRACE_BASE.addr + 4) ∧
      base.hitAt (R.TST_TRACE_BASE.addr + 4) = some h ∧ h.upper = true ∧ h.r.plain = true) ∧
    base.host.latches = [] ∧ (base.host.held.find? fun l => l.1 == 0 && l.2.1 == R.TST_TRACE_BASE.addr) = none ∧
    accessOk 8 8 = true ∧ base.mapAddr 256 0 = none ∧ base.mapAddr 0 0x1FFFFC = some 0x1FFFFC ∧ base.hitAt 0x1FFFFC = none :=
  ⟨⟨⟨R.GLB_PM_CFG, 0, 0, false⟩, by decide +kernel⟩, ⟨⟨R.TST_TRACE_BASE, 0, 0, false⟩, by decide +kernel⟩,
   ⟨⟨R.TST_TRACE_BASE, 0, 0, true⟩, by decide +kernel⟩, by decide +kernel⟩
theorem test_lower_half_write_is_held :
    after (exec (.registerWrite 0 R.TST_TRACE_BASE.addr 4 0x40) base) (fun t => t.regs == base.regs) = true := by decide +kernel
theorem test_pm_cfg_write :
    after (exec (.registerWrite 0 R.GLB_PM_CFG.addr 4 7) base) (fun t => t.fld F.GLB_PM_CFG_DRAIN == 7) = true := by decide +kernel
theorem test_lower_half_read :
    after (exec (.lowerHalfRead 0 (.bar0 R.TST_TRACE_BASE.addr) 4) base) (fun t => t.host.out == [.regData 0 0] &&
      t.host.latches == [(0, R.TST_TRACE_BASE.addr + 4, 0)]) = true := by decide +kernel

theorem test_doorbell_read :
    after (exec (.lowerHalfRead 0 (.bar2 0) 8) queued) (fun t => t.host.out == [.regData 0 0x100000002]) = true := by decide +kernel

/-- An ENABLED queue of an UP context; doorbell values equal to the accepted index, 2^31 ahead of it, one beyond the ring, and the last that fits; a queue
that is stopped; a doorbell of no queue. -/
theorem witness_DoorbellMovesAcceptedIndex :
    queued.bar2Queue 0 0 = some (some 0) ∧ queued.bar2Queue 0 8 = some (some 1) ∧ queued.wq? 1 = none ∧
    queued.wq? 0 = some wq0 ∧ wq0.dbImm = false ∧ wq0.st = .enabled ∧ (queued.ctx? 0).map (·.st) = some .up ∧ (2 + two32 - wq0.pi) % two32 = 0 ∧
    (2 + 2 ^ 31 + two32 - wq0.pi) % two32 = 2 ^ 31 ∧ (18 + two32 - wq0.fi) % two32 = wq0.entries + 1 ∧
    (17 + two32 - wq0.fi) % two32 = wq0.entries ∧ (queued.setWq 0 fun w => { w with st := .stopped }).wq? 0 =
      some { wq0 with st := .stopped } := by decide +kernel
theorem test_doorbell_moves : after (exec (.doorbellWrite 0 0 8 17) queued) (fun t => (t.wq? 0).map (·.pi) == some 17) = true := by
  decide +kernel
theorem test_doorbell_too_far_stops :
    after (exec (.doorbellWrite 0 0 8 18) queued) (fun t => (t.wq? 0).map (·.st) == some .stopped) = true := by decide +kernel

/-- The window of context 0 selects object `id` of kind `kind` with the parameters of a small ring. -/
def sel (s : State) (id kind entries cqid : Nat) : State :=
  ((((s.setFld F.CTXW_QSEL_ID id).setFld F.CTXW_QSEL_KIND kind).setFld F.CTXW_QATTR_ENTRIES entries).setFld F.CTXW_QATTR_CQID
    cqid).setFld F.CTXW_QBASE_ADDR 0x1000

theorem ready (s : State) (h : (s.ctx? 0 == some { r := ctxRec 0 0, st := .up } && (s.fld F.CTXW_QSTAT_BUSY 0 0 == 0 &&
    s.asleep == false)) = true) : s.qReady 0 { r := ctxRec 0 0, st := .up } := by
  simp only [Bool.and_eq_true, beq_iff_eq] at h
  obtain ⟨a, b, c⟩ := h
  exact ⟨⟨a, rfl⟩, rfl, b, c⟩

/-- CREATE of each kind passes, and one with too small a ring fails; a context that is DOWN, and an operation that runs. -/
theorem witness_CreateMakesTheObject :
    (sel queued 1 0 16 0).qReady 0 { r := ctxRec 0 0, st := .up } ∧
    (sel queued 1 0 16 0).createCheck { r := ctxRec 0 0, st := .up } ((sel queued 1 0 16 0).qsel 0) = none ∧
    (sel queued 1 1 16 0).createCheck { r := ctxRec 0 0, st := .up } ((sel queued 1 1 16 0).qsel 0) = none ∧
    (sel base 0 2 16 0).createCheck { r := ctxRec 0 0, st := .up } ((sel base 0 2 16 0).qsel 0) = none ∧
    (sel queued 1 0 8 0).createCheck { r := ctxRec 0 0, st := .up } ((sel queued 1 0 8 0).qsel 0) = some St.badField ∧
    ((queued.setCtx 0 fun x => { x with st := .down }).ctx? 0) = some { r := ctxRec 0 0, st := .down } ∧
    (queued.setFld F.CTXW_QSTAT_BUSY 1 0 0).fld F.CTXW_QSTAT_BUSY 0 0 = 1 :=
  ⟨ready _ (by decide +kernel), by decide +kernel⟩
theorem test_create_queue :
    after (exec (.create 0 0) (sel queued 1 0 16 0)) (fun t => (t.wq? 1).map (·.cqid) == some 0) = true := by decide +kernel
theorem test_create_needs_its_completion_queue :
    after (exec (.create 0 0) (sel queued 1 0 16 3)) (fun t => t.fld F.CTXW_QSTAT_RESULT == St.badHandle && t.wq? 1 == none) = true := by
  decide +kernel

theorem witness_StopResumeQuery :
    (sel queued 0 0 16 0).qReady 0 { r := ctxRec 0 0, st := .up } ∧ ((sel queued 0 0 16 0).qsel 0).kind = 0 ∧
    (ctxRec 0 0).groups.contains (((sel queued 0 0 16 0).qsel 0).id / 512) = true ∧
    (sel queued 0 0 16 0).wq? ((sel queued 0 0 16 0).qsel 0).id = some wq0 ∧
    ((sel queued 0 0 16 0).setWq 0 fun w => { w with st := .stopped }).wq? 0 = some { wq0 with st := .stopped } :=
  ⟨ready _ (by decide +kernel), by decide +kernel⟩
theorem test_stop : after (exec (.stop 0 0) (sel queued 0 0 16 0)) (fun t => (t.wq? 0).map (·.st) == some .stopped) = true := by
  decide +kernel
theorem test_resume : after (exec (.resume 0 0) ((sel queued 0 0 16 0).setWq 0 fun w => { w with st := .stopped }))
    (fun t => (t.wq? 0).map (·.pi) == some 1) = true := by decide +kernel
theorem test_query : after (exec (.query 0 0) (sel queued 0 0 32 0)) (fun t => t.fld F.CTXW_QATTR_ENTRIES == 16) = true := by
  decide +kernel

/-- A work queue, a completion queue that it names or that none names, the event queue; a DRAINING queue, empty or not. -/
theorem witness_DestroyAndDrain :
    (sel queued 0 1 16 0).qReady 0 { r := ctxRec 0 0, st := .up } ∧ ((sel queued 0 1 16 0).qsel 0).kind = 1 ∧
    (sel queued 0 1 16 0).cq? 0 = some cq0 ∧ wq0 ∈ (sel queued 0 1 16 0).qdb.wqs ∧ wq0.cqid = 0 ∧
    (∀ w ∈ (sel { queued with qdb := { queued.qdb with wqs := [] } } 0 1 16 0).qdb.wqs, w.cqid ≠ 0) ∧
    ((sel queued 0 2 16 0).qsel 0).kind = 2 ∧ (sel queued 0 2 16 0).eq? 0 = some eq0 ∧
    (queued.setWq 0 fun w => { w with st := .draining }).wq? 0 = some { wq0 with st := .draining } ∧
    (∃ k ∈ (withCmd queued (cmdOf .running 0)).cmds, k.id.q = 0) :=
  ⟨ready _ (by decide +kernel), by decide +kernel⟩
theorem test_destroy_named_completion_queue : after (exec (.destroy 0 0) (sel queued 0 1 16 0))
    (fun t => t.fld F.CTXW_QSTAT_RESULT == St.busyRetry && t.cq? 0 == some cq0) = true := by decide +kernel
theorem test_destroy_cancels : after (exec (.destroy 0 0) (sel (withCmd queued (cmdOf .waiting 0)) 0 0 16 0))
    (fun t => t.cmds == [] && t.wq? 0 == none) = true := by decide +kernel
theorem test_queue_drained : after (exec (.queueDrained 0) (queued.setWq 0 fun w => { w with st := .draining }))
    (fun t => t.qdb.wqs == []) = true := by decide +kernel

/-- A consumer index at the count of records written, and one beyond it. -/
theorem witness_ConsumerIndexNeverPasses : queued.windowOf 0 { r := ctxRec 0 0, st := .up } ∧ queued.cq? 0 = some cq0 ∧
    queued.eq? 0 = some eq0 ∧ ciOk cq0.ci cq0.wi 2 = true ∧ ciOk cq0.ci cq0.wi 3 = false :=
  ⟨⟨by decide +kernel, rfl⟩, by decide +kernel⟩
theorem test_consumer_index : after (exec (.cqDoorbellWrite 0 0 0 2) queued) (fun t => (t.cq? 0).map (·.ci) == some 2) = true := by
  decide +kernel
theorem test_consumer_index_too_far :
    after (exec (.eqDoorbellWrite 0 0 3) queued) (fun t => (t.eq? 0).map (·.ci) == some 1) = true := by decide +kernel

/-- ENABLE with 16 entries over base 0; trigger 1 is context 0's, trigger 0 is none, trigger 17 another's. -/
theorem witness_WindowValueWrites : base.windowOf 0 { r := ctxRec 0 0, st := .up } ∧
    base.fld F.CTXW_RCP_ATTR_ENABLE 0 0 = 0 ∧ (0x20010#64).toNat / 2 ^ 17 % 2 = 1 ∧
    isPow2In ((0x20010#64).toNat % 2 ^ 17) 16 65536 = true ∧
    base.fld F.CTXW_RCP_BASE_ADDR 0 0 * 16 % min (16 * ((0x20010#64).toNat % 2 ^ 17)) 4096 = 0 ∧
    base.fld F.CTXW_RCP_BASE_ADDR 0 0 * 16 + 16 * ((0x20010#64).toNat % 2 ^ 17) ≤ 2 ^ 64 ∧
    (base.setFld F.CTXW_TRIG_SEL_TRIG 16).trigOwned 0 16 = true ∧ base.trigOwned 0 17 = false ∧
    base.fld F.CTXW_TRIG_SEL_TRIG 0 0 = 0 :=
  ⟨⟨by decide +kernel, rfl⟩, by decide +kernel⟩
theorem test_rcp_enable : after (exec (.rcpAttrWrite 0 0 0x20010) (base.setFld F.CTXW_RCP_IDX_PI 3))
    (fun t => t.fld F.CTXW_RCP_IDX_PI == 0 && t.fld F.CTXW_RCP_ATTR_ENTRIES == 16) = true := by decide +kernel
theorem test_trigger_value : after (exec (.trigValWrite 0 0 9) (base.setFld F.CTXW_TRIG_SEL_TRIG 16))
    (fun t => t.trigVal 16 == 9) = true := by decide +kernel

/-! ## Fetch, host accesses, order, completion -/

/-- Context 0 is at its maximum in one state; exactly one queue is admissible in the other; none is in the third. -/
theorem witness_FetchKeepsTheMaximum : (queued.qdb.wqs.filter queued.admissible) = [wq0] ∧ queued.wq? wq0.q = some wq0 ∧
    queued.ringReads < 256 ∧ (base.qdb.wqs.filter base.admissible) = [] := by decide +kernel
theorem test_fetch : after (exec .descriptorFetch queued) (fun t => t.cmds.map (·.id) == [⟨0, 1⟩] && (t.wq? 0).map (·.fi) == some 2) =
    true := by decide +kernel

/-- The bytes of a descriptor. -/
def slot (d : Word512) : HostRead := .data (leBytes 64 d.toNat)

def openDesc : Word512 := desc [(0, 1, Op.seqOpen), (2, 2, 0x77), (8, 2, 5)]
def fetchingCmd : Cmd := cmdOf .fetching 0

/-- A good descriptor, and one of a reserved opcode; a queue that drains; the slot in front has not come back yet. -/
theorem witness_RingReads :
    let s := withCmd queued fetchingCmd
    let u (d : Word512) := (s.chargeHost 0 64).setCmd ⟨0, 0⟩ fun x => { x with desc := d }
    s.cmd? ⟨0, 0⟩ = some fetchingCmd ∧ s.wq? 0 = some wq0 ∧ s.ringBehind fetchingCmd = false ∧ s.endsOnArrival fetchingCmd = none ∧
    (s.setWq 0 fun w => { w with st := .draining }).endsOnArrival fetchingCmd = some St.cancelled ∧ s.dead = false ∧
    s.tearing 0 = false ∧ dOp openDesc ≠ Op.wrArm ∧
    hasList openDesc = false ∧ (u openDesc).fetchCheck { fetchingCmd with desc := openDesc } = none ∧
    (u 0).fetchCheck { fetchingCmd with desc := 0 } = some St.badOpcode ∧
    ({ s with cmds := [{ fetchingCmd with id := ⟨0, 15⟩, adm := 3 }, fetchingCmd] } : State).ringBehind fetchingCmd = true := by
  decide +kernel
theorem test_ring_read : after (exec (.ringReadComplete ⟨0, 0⟩ (slot openDesc)) (withCmd queued fetchingCmd))
    (fun t => t.cmds.map (fun k => (k.st, k.desc)) == [(.waiting, openDesc)]) = true := by decide +kernel
theorem test_ring_read_fails : after (exec (.ringReadComplete ⟨0, 0⟩ .ur) (withCmd queued fetchingCmd))
    (fun t => t.cmds == [] && (t.wq? 0).map (·.fi) == some 0) = true := by decide +kernel
theorem test_ring_read_timeout : after (exec (.ringReadTimeout ⟨0, 0⟩) (withCmd queued fetchingCmd))
    (fun t => (t.wq? 0).map (·.st) == some .stopped) = true := by decide +kernel

theorem witness_HostReadsOfACommand :
    let k := { cmdOf .running (desc [(0, 1, Op.kvAppend)]) with owed := 1 }
    (withCmd queued k).cmd? ⟨0, 0⟩ = some k ∧ k.owed ≠ 0 ∧ k.armed = none ∧ dOp k.desc ≠ Op.blankMount := by decide +kernel
theorem test_host_read : after (exec (.hostReadComplete ⟨0, 0⟩ (.data [1, 2]))
      (withCmd queued { cmdOf .running (desc [(0, 1, Op.kvAppend)]) with owed := 1 }))
    (fun t => t.cmds.map (fun k => (k.owed, k.reads, k.bytes)) == [(0, [[1, 2]], 2)]) = true := by decide +kernel
theorem test_host_timeout : after (exec (.hostAccessTimeout ⟨0, 0⟩)
      (withCmd queued { cmdOf .running (desc [(0, 1, Op.kvAppend)]) with owed := 1 }))
    (fun t => t.cmds == [] && (t.wq? 0).map (·.st) == some .enabled) = true := by decide +kernel

/-- An ordered command behind another, a command behind a FENCE; a FENCE with nothing before it, and with a command before it. -/
theorem witness_OrderedCommandsAndFences :
    let a := { cmdOf .running (desc [(0, 1, Op.attend)]) with id := ⟨0, 15⟩, adm := 3 }
    let k := cmdOf .waiting (desc [(0, 1, Op.seqOpen), (1, 1, 1)])
    let f := { a with desc := desc [(0, 1, Op.fence)] }
    ({ queued with cmds := [a, k] } : State).cmd? k.id = some k ∧ a ∈ [a, k] ∧ a.adm < k.adm ∧ dOrd k.desc = true ∧
      dOp f.desc = Op.fence ∧ f ∈ [f, k] := by decide +kernel
def fenceCmd : Cmd := cmdOf .waiting (desc [(0, 1, Op.fence)])
theorem witness_fence_begins : (withCmd queued fenceCmd).begins fenceCmd Op.fence ∧
    ((withCmd queued fenceCmd).started fenceCmd).earlier fenceCmd = [] ∧
    ({ queued with cmds := [{ cmdOf .running 0 with id := ⟨0, 15⟩, adm := 3 }, fenceCmd] } : State).begins fenceCmd Op.fence :=
  ⟨begins_of (by decide +kernel), by rfl, begins_of (by decide +kernel)⟩
theorem test_fence_waits : after (exec (.fence ⟨0, 0⟩)
      { queued with cmds := [{ cmdOf .running 0 with id := ⟨0, 15⟩, adm := 3 }, fenceCmd] })
    (fun t => t.cmds.map (·.st) == [.running, .running]) = true := by decide +kernel
theorem test_fence : after (exec (.fence ⟨0, 0⟩) (withCmd queued fenceCmd)) (fun t => t.cmds == []) = true := by decide +kernel

/-- Suppressed success; armed with COUNT reached, with TIME 0 and one record, with TIME running; and unarmed. -/
theorem witness_CompletionsAndMessages :
    (withCmd queued (cmdOf .running (desc [(0, 1, Op.fence), (1, 1, 2)]))).cmd? ⟨0, 0⟩ =
      some (cmdOf .running (desc [(0, 1, Op.fence), (1, 1, 2)])) ∧
    dSuppress (desc [(0, 1, Op.fence), (1, 1, 2)]) = true ∧ queued.cq? (0 * 64 + 0) = some cq0 ∧
    (cq0.arm = true ∧ cq0.time = 0 ∧ 1 ≤ cq0.pend) ∧
    (let z := { cq0 with time := 3, pend := 2 }
     (queued.setCq 0 fun _ => z).cq? 0 = some z ∧ max 1 z.count ≤ z.pend ∧ 0 < z.time) ∧
    (queued.setCq 0 fun z => { z with arm := false }).cq? 0 = some { cq0 with arm := false } ∧ queued.eq? 0 = some eq0 ∧
    eq0.arm = true ∧ 1 ≤ eq0.pend := by decide +kernel
theorem test_suppressed : ((withCmd queued (cmdOf .running (desc [(0, 1, Op.fence), (1, 1, 2)]))).complete ⟨0, 0⟩ St.ok).host.out = [] := by
  decide +kernel
theorem test_msix_hold : after (exec (.msixHoldExpire 0 false 0) (queued.setCq 0 fun z => { z with time := 3 }))
    (fun t => t.host.out == [.msix 0 1] && t.cycles == 4500) = true := by decide +kernel

/-! ## Sequences -/

def openCmd : Cmd := cmdOf .waiting openDesc
theorem begins_openCmd : (withCmd queued openCmd).begins openCmd Op.seqOpen := begins_of (by decide +kernel)

/-- A part whose partition has issued all its records. -/
def full : State := { queued with seq := { queued.seq with parts := [partWith 1 1] } }

def seq1 : SeqRec :=
  { idx := 1, gen := 0, ctx := 0, part := 0, st := .opn, mprof := 5, sdom := 1, retrieval := false, nodes := [], len := 16, round := none,
    defaults := ⟨2, 1, 2⟩, spilled := false, ptes := [], stats := {} }

/-- Sequence 1 of context 0. -/
def oneSeq : State := { queued with seq := { queued.seq with recs := [seq1], parts := [partWith 100 2] } }

def closeCmd : Cmd := cmdOf .waiting (desc [(0, 1, Op.seqClose), (4, 4, 1)])

/-- Room and no room for a record; an open record to close. -/
theorem witness_SequencesOpenAndClose : (withCmd queued openCmd).begins openCmd Op.seqOpen ∧
    (∃ x, ((withCmd queued openCmd).started openCmd).ctx? 0 = some x ∧ (x.sdomOk (dF openDesc 10 2) &&
      ((withCmd queued openCmd).started openCmd).prof? (dF openDesc 8 2) == some prof5 &&
      ((withCmd queued openCmd).started openCmd).seqRoom x) = true) ∧
    (withCmd full openCmd).begins openCmd Op.seqOpen ∧
    (∃ x, ((withCmd full openCmd).started openCmd).ctx? 0 = some x ∧ (x.sdomOk (dF openDesc 10 2) &&
      !((withCmd full openCmd).started openCmd).seqRoom x) = true) ∧
    (withCmd oneSeq closeCmd).begins closeCmd Op.seqClose ∧
    (∃ r, ((withCmd oneSeq closeCmd).started closeCmd).openSeq? 0 1 = some r ∧ (r.idx == 1) = true) :=
  ⟨begins_openCmd, found (by decide +kernel), begins_of (by decide +kernel), found (by decide +kernel), begins_of (by decide +kernel),
   found (by decide +kernel)⟩
/-- A closing record that no command names; a spilled one and one that is resident. -/
theorem witness_closing_record :
    (oneSeq.setSeq 1 fun r => { r with st := .closing }).seqOf? 1 = some { seq1 with st := .closing } ∧
    (∀ x ∈ (oneSeq.setSeq 1 fun r => { r with st := .closing }).cmds, x.st = .running → ¬ 1 ∈ cmdSeqs x) ∧
    (((oneSeq.setSeq 1 fun r => { r with st := .closing }).removeRefs { seq1 with st := .closing }).part? 0).isSome = true ∧
    (oneSeq.setSeq 1 fun r => { r with spilled := true }).seqOf? 1 = some { seq1 with spilled := true } ∧
    oneSeq.seqOf? 1 = some seq1 := by
  decide +kernel
theorem test_seq_open : after (exec (.seqOpen ⟨0, 0⟩) (withCmd queued openCmd))
    (fun t => t.cmds == [] && t.seq.recs.map (fun r => (r.idx, r.len, r.mprof)) == [(2, 0, 5)]) = true := by decide +kernel
theorem test_seq_close : after (exec (.seqClose ⟨0, 0⟩) (withCmd oneSeq closeCmd))
    (fun t => t.seq.recs.map (·.st) == [.closing]) = true := by decide +kernel
theorem test_record_is_freed : after (exec (.seqReferencesRemoved 1) (oneSeq.setSeq 1 fun r => { r with st := .closing }))
    (fun t => t.seq.recs == [] && (t.part? 0).map (·.freed) == some [(1, 1)]) = true := by decide +kernel
theorem test_spilled_restore : after (exec (.spilledRecordRestore 1) (oneSeq.setSeq 1 fun r => { r with spilled := true }))
    (fun t => t.seq.recs.map (·.spilled) == [false]) = true := by decide +kernel

/-! ## Pages: a frame in T1 and one in T2, and a sequence of sixteen tokens over them -/

/-- A T1 copy that stores no tile, in a chunk of pseudo-channel 16; and such a copy in flash stripe 0 of group 0. -/
def shell (p : Nat) : Copy := makeCopy ⟨[], []⟩ p 7 5 4096 (65535, 65535) [16 * 262144 + p] []
def inFlash (p : Nat) : FlashCopy := ⟨(shell p).hdr.withChunks [p], 0, 0⟩
def frameOf (p : Nat) (st : PgState) : Frame :=
  { emptyFrame p 0 1 5 0 7 0 ⟨2, 1, 2⟩ with
    st := st, refs := 1, t1 := if st == .cleanT1 || st == .dirtyT1 then some (shell p) else none,
    t2 := if st == .t2Only then some (inFlash p) else none }
def pteOf (layer p : Nat) : Pte := { lpi := 0, layer := layer, head := 0, pfh := p, ver := 7, s := false, g := false, grain := none }
def seq2 : SeqRec := { seq1 with ptes := [pteOf 0 3, pteOf 1 4] }

/-- Frame 3 is CLEAN_T1, frame 4 T2_ONLY. -/
def paged : State :=
  { oneSeq with
    seq := { oneSeq.seq with recs := [seq2] }
    tier := { Tiers.reset with frames := [frameOf 3 .cleanT1, frameOf 4 .t2Only], modules := [⟨0, 4096, 4, 16⟩],
                                    stripes := [⟨0, 0, 8, [], []⟩] } }

def forkCmd (len : Nat) : Cmd := cmdOf .waiting (desc [(0, 1, Op.seqFork), (4, 4, 1), (16, 4, len)])
def begun (s : State) (k : Cmd) : State := (withCmd s k).started k

/-- Fork lengths 0, 16 (the whole sequence) and 17 (one beyond it). -/
theorem witness_ForkSharesPages :
    dHandle (forkCmd 0).desc ≠ 0 ∧
    (withCmd paged (forkCmd 0)).begins (forkCmd 0) Op.seqFork ∧ (withCmd paged (forkCmd 16)).begins (forkCmd 16) Op.seqFork ∧
    (withCmd paged (forkCmd 17)).begins (forkCmd 17) Op.seqFork ∧
    (∃ x, (begun paged (forkCmd 0)).ctx? 0 = some x ∧ ((begun paged (forkCmd 0)).forkCheck x 5 0 16 == none) = true) ∧
    (∃ x, (begun paged (forkCmd 16)).ctx? 0 = some x ∧ ((begun paged (forkCmd 16)).forkCheck x 5 16 16 == none) = true) ∧
    (∃ q, (begun paged (forkCmd 16)).openSeq? 0 1 = some q ∧ (q.mprof == 5 && decide (q.len < 17)) = true) ∧
    (begun paged (forkCmd 16)).prof? 5 = some prof5 :=
  ⟨by decide +kernel, begins_of (by decide +kernel), begins_of (by decide +kernel), begins_of (by decide +kernel), found (by decide +kernel),
   found (by decide +kernel), found (by decide +kernel), by decide +kernel⟩
theorem test_fork_shares : after (exec (.seqFork ⟨0, 0⟩) (withCmd paged (forkCmd 16)))
    (fun t => t.seq.recs.map (fun r => (r.idx, r.ptes.map (fun e => (e.pfh, e.s)))) == [(1, [(3, true), (4, true)]),
      (3, [(3, true), (4, true)])] && t.tier.frames.map (·.refs) == [2, 2]) = true := by decide +kernel

def appendCmd (n lc len : Nat) (reads : List (List Byte)) : Cmd :=
  { cmdOf .waiting (desc [(0, 1, Op.kvAppend), (4, 4, 1), (12, 4, n), (18, 2, lc), (24, 8, 0x80000), (36, 4, len)]) with reads := reads }
/-- A sequence without tokens. -/
def emptySeq : State := { oneSeq with seq := { oneSeq.seq with recs := [{ seq1 with len := 0 }] } }
def one : List Byte := List.replicate 256 0

/-- The second half of a pair that holds. -/
theorem pairTrue {α : Type} {x : α × Bool} (h : x.2 = true) : ∃ z, x = (z, true) := ⟨x.1, by rw [← h]⟩

/-- What the commit clause of KV_APPEND asks of a state, a command and a sequence; one premise a conjunct. -/
def appendGoes (s : State) (k : Cmd) (q : SeqRec) : Bool :=
  let t := begun s k
  let c := (withCmd s k).startedCmd k
  let n := dF k.desc 12 4
  let lf := dF k.desc 16 2
  let lc := dF k.desc 18 2
  let src := k.reads.headD []
  let pl := touchedPlaces prof5 (dPos k.desc) n lf lc
  let u := (t.needAll c q.idx (t.framesAt q pl)).1
  let b := u.beginPages q prof5 pl
  let v := b.1.setCmd k.id fun y => { y with writes := b.2 }
  let y := v.verifyCopies k.id k.todo (v.framesAt q pl)
  let e := (y.1.sawCopies k.id y.2.1).encodeAll prof5 q src (dPos k.desc) n lf ((y.1.sawCopies k.id y.2.1).writesOf k.id)
  t.unavailableAt q pl == [] && !(t.needAll c q.idx (t.framesAt q pl)).2.1 &&
    !((u.framesAt q pl).any fun f => !f.copiedFirst && f.writeBlocked) &&
    srcFinite prof5 src (dPos k.desc) n lc (fun l h => u.pageScale prof5 q (lf + l) h) && u.framesFit (u.newPages q pl) &&
    !v.commitWaits (v.writesOf k.id) && y.1.unavailableAt q pl == [] && !y.2.2 && (e.1.fillAll e.2).2

/-- Does the start check and the check of step 6 of a KV_APPEND answer `r`? -/
def appendJudged (s : State) (k : Cmd) (q : SeqRec) (r : Option Nat) : Bool :=
  (begun s k).startCheck k == none &&
    ((begun s k).ctx? 0).any fun x => (begun s k).appendCheck ((withCmd s k).startedCmd k) x q prof5 == r

def full0 : State := { emptySeq with blank := some { blank0 with frames := 0 } }

/-- One token of one layer with its 256 bytes read; no token; two layers too many; a source that is not finite; no room for the frame. -/
theorem witness_AppendCommitsItsPages : (withCmd emptySeq (appendCmd 1 1 256 [one])).begins (appendCmd 1 1 256 [one]) Op.kvAppend ∧
    appendJudged emptySeq (appendCmd 1 1 256 [one]) { seq1 with len := 0 } none = true ∧
    appendGoes emptySeq (appendCmd 1 1 256 [one]) { seq1 with len := 0 } = true ∧
    appendJudged emptySeq (appendCmd 0 1 0 []) { seq1 with len := 0 } none = true ∧
    appendJudged emptySeq (appendCmd 0 3 0 []) { seq1 with len := 0 } (some St.badField) = true ∧
    srcFinite prof5 (List.replicate 256 255) 0 1 1 (fun _ _ _ _ => []) = false ∧
    (begun full0 (appendCmd 1 1 256 [one])).framesFit ((begun full0 (appendCmd 1 1 256 [one])).newPages { seq1 with len := 0 }
      (touchedPlaces prof5 0 1 0 1)) = false :=
  ⟨begins_of (by decide +kernel), by decide +kernel⟩
theorem test_append : after (exec (.kvAppend ⟨0, 0⟩) (withCmd emptySeq (appendCmd 1 1 256 [one])))
    (fun t => t.cmds == [] && t.tier.frames.map (·.st) == [.dirtyT1] && t.seq.recs.map (fun r => (r.len, r.round)) ==
      [(0, some ⟨1, [0]⟩)]) = true := by decide +kernel
theorem test_append_nothing : after (exec (.kvAppend ⟨0, 0⟩) (withCmd emptySeq (appendCmd 0 1 0 [])))
    (fun t => t.cmds == [] && t.tier.frames == []) = true := by decide +kernel

/-- A sequence of one token. -/
def seq3 : SeqRec := { seq2 with len := 1 }
/-- Its page in frame 3, with a T2 copy or without one; TST_TILE_FAIL fails the next check of a T1 copy (Table 16.12). -/
def flawed (t2 : Option FlashCopy) : State :=
  ({ paged with
     seq := { paged.seq with recs := [seq3] }
     tier := { paged.tier with frames := [{ frameOf 3 .cleanT1 with t2 := t2 }, frameOf 4 .t2Only] } }.setFld
    F.TST_TILE_FAIL_MODE 1).setFld F.TST_TILE_FAIL_TIERS 2 |>.setFld F.TST_TILE_FAIL_COUNT 1
/-- A KV_APPEND of the second token. -/
def appendNext : Cmd :=
  { cmdOf .waiting (desc [(0, 1, Op.kvAppend), (4, 4, 1), (8, 4, 1), (12, 4, 1), (18, 2, 1), (24, 8, 0x80000), (36, 4, 256)]) with
    reads := [one] }
/-- R323, R73: a merged copy that fails is read again from T2, or poisons the page, which the command meets. -/
theorem test_append_rereads : after (exec (.kvAppend ⟨0, 0⟩) (withCmd (flawed (some (inFlash 3))) appendNext))
    (fun t => t.cmds.map (·.st) == [.running] && (t.frame? 3).map (·.reread) == some (some .t2) &&
      t.fld F.TST_TILE_FAIL_MODE == 0) = true := by decide +kernel
theorem test_append_poisons : after (exec (.kvAppend ⟨0, 0⟩) (withCmd (flawed none) appendNext))
    (fun t => t.cmds == [] && (t.frame? 3).map (·.st) == some .poisoned && t.seq.recs.map (·.len) == [1]) = true := by
  decide +kernel

/-- The same sequence whose page in frame 3 has been dropped: it exists nowhere. -/
def lost : State :=
  { paged with
    seq := { paged.seq with recs := [seq3] }
    tier := { paged.tier with frames := [frameOf 3 .dropped, frameOf 4 .t2Only] } }
def refillCmd : Cmd :=
  { cmdOf .waiting (desc [(0, 1, Op.kvAppend), (1, 1, 16), (4, 4, 1), (12, 4, 1), (18, 2, 1), (24, 8, 0x80000), (36, 4, 256)]) with
    reads := [one] }

/-- The premises of the refill's statement that evaluation decides. -/
def refillGoes (s : State) (k : Cmd) : Bool :=
  let t := begun s k
  let c := (withCmd s k).startedCmd k
  let n := dF k.desc 12 4
  let lf := dF k.desc 16 2
  let src := k.reads.headD []
  let pl := touchedPlaces prof5 (dPos k.desc) n lf (dF k.desc 18 2)
  let met := t.unavailableAt seq3 pl
  let go := met.filter (t.refillable (dF k.desc 40 4))
  let b := t.beginRefills seq3 prof5 go
  let v := b.1.setCmd k.id fun y => { y with writes := b.2, count := met.length - go.length }
  let e := v.refillForms prof5 src (dPos k.desc) n lf (v.writesOf k.id)
  t.startCheck k == none && ((t.ctx? k.ctx).any fun x => t.appendCheck c x seq3 prof5 == none) && n != 0 &&
    srcFinite prof5 src (dPos k.desc) n (dF k.desc 18 2) (fun _ _ _ _ => []) && !t.refilling (t.framesAt seq3 pl) &&
    t.framesFit (t.newRefills go) && !v.commitWaits (v.writesOf k.id) && (e.1.fillAll e.2).2 && go.length == 1

theorem witness_RefillWritesLostPages : (withCmd lost refillCmd).begins refillCmd Op.kvAppend ∧ dFlag refillCmd.desc 0 = true ∧
    refillGoes lost refillCmd = true := ⟨begins_of (by decide +kernel), by decide +kernel⟩
theorem test_refill : after (exec (.kvAppendRefill ⟨0, 0⟩) (withCmd lost refillCmd))
    (fun t => t.cmds == [] && (t.frame? 3).map (·.st) == some .dirtyT1 && t.seq.recs.map (·.len) == [1]) = true := by decide +kernel

def hintCmd (kind us : Nat) : Cmd := cmdOf .waiting (desc [(0, 1, Op.hint), (4, 4, if kind = 3 then 0 else 1), (8, 1, kind), (12, 4, us)])

/-- COLD, WARM, HEAVY for no time, HEAVY with the right and no demand, with a cap demand, and a window to end. -/
theorem witness_HintsAct : (withCmd paged (hintCmd 1 0)).begins (hintCmd 1 0) Op.hint ∧
    (withCmd paged (hintCmd 2 0)).begins (hintCmd 2 0) Op.hint ∧ (withCmd paged (hintCmd 3 0)).begins (hintCmd 3 0) Op.hint ∧
    (withCmd paged (hintCmd 3 9)).begins (hintCmd 3 9) Op.hint ∧
    (begun paged (hintCmd 1 0)).openSeq? 0 1 = some seq2 ∧ (begun paged (hintCmd 2 0)).openSeq? 0 1 = some seq2 ∧
    (∃ x, ((begun paged (hintCmd 3 9)).complete ⟨0, 0⟩ St.ok).ctx? 0 = some x ∧ x.r.heavy = true) ∧
    (begun paged (hintCmd 3 9)).fld F.PWR_STATUS_L_CAP = 0 ∧ (begun paged (hintCmd 3 9)).fld F.PWR_STATUS_L_THERM = 0 ∧
    ((paged.setCtx 0 fun x => { x with heavyEnd := some 9 }).ctx? 0).map (·.heavyEnd) = some (some 9) :=
  ⟨begins_of (by decide +kernel), begins_of (by decide +kernel), begins_of (by decide +kernel), begins_of (by decide +kernel),
   by decide +kernel, by decide +kernel, found (by decide +kernel), by decide +kernel, by decide +kernel, by decide +kernel⟩
theorem test_hint_cold : after (exec (.hintCold ⟨0, 0⟩) (withCmd (paged.setFrame 3 fun f => { f with lastUse := 9 }) (hintCmd 1 0)))
    (fun t => t.cmds == [] && (t.frame? 3).map (·.lastUse) == some 0) = true := by decide +kernel
theorem test_hint_warm : after (exec (.hintWarm ⟨0, 0⟩) (withCmd paged (hintCmd 2 0)))
    (fun t => t.cmds == [] && (t.frame? 4).map (·.st) == some .promoting) = true := by decide +kernel
theorem test_hint_heavy : after (exec (.hintHeavy ⟨0, 0⟩) (withCmd paged (hintCmd 3 9)))
    (fun t => (t.ctx? 0).map (·.heavyEnd) == some (some 13500)) = true := by decide +kernel
theorem test_heavy_window_end : after (exec (.heavyWindowEnd 0) (paged.setCtx 0 fun x => { x with heavyEnd := some 9 }))
    (fun t => (t.ctx? 0).map (·.heavyEnd) == some none && t.cycles == 9) = true := by decide +kernel

def statsCmd (len : Nat) : Cmd := cmdOf .waiting (desc [(0, 1, Op.statsRead), (16, 8, 0x5000), (24, 4, len)])

/-- A destination of 128 bytes, and one of 127. -/
theorem witness_StatsRecord : (withCmd queued (statsCmd 128)).begins (statsCmd 128) Op.statsRead ∧
    (begun queued (statsCmd 128)).startCheck (statsCmd 128) = none ∧
    (begun queued (statsCmd 128)).spaceLong 0 (dStatsDst (statsCmd 128).desc) 128 = true ∧
    (∃ b, (begun queued (statsCmd 128)).statsFor ((withCmd queued (statsCmd 128)).startedCmd (statsCmd 128)) = some b ∧
      ((begun queued (statsCmd 128)).spaceWrite ⟨0, 0⟩ 0 (dStatsDst (statsCmd 128).desc) b).isOk = true) ∧
    (withCmd queued (statsCmd 127)).begins (statsCmd 127) Op.statsRead ∧
    (begun queued (statsCmd 127)).startCheck (statsCmd 127) = none ∧ dF (statsCmd 127).desc 24 4 < 128 :=
  ⟨begins_of (by decide +kernel), by decide +kernel, by decide +kernel, found (by decide +kernel), begins_of (by decide +kernel),
   by decide +kernel⟩
theorem test_stats_too_short : after (exec (.statsRead ⟨0, 0⟩) (withCmd queued (statsCmd 127))) (fun t => t.cmds == []) = true := by
  decide +kernel

def planCmd : Cmd :=
  { cmdOf .waiting (desc [(0, 1, Op.stepPlan), (8, 2, 0), (10, 2, 1), (12, 4, 1), (24, 8, 0x90000)]) with
    reads := [[1, 0, 0, 0, 0, 0, 0, 0, 0, 0, 0, 0, 0, 0, 0, 0]] }
def plan1 : Plan :=
  { id := ⟨0, 9⟩, ctx := 0, doneAt := some 3, ttl := 2, pace := true, pacePart := 6, paceRkey := 1, paceOff := 0, lastLevel := 3,
    lastSent := none, paceSeq := 0, nseq := 1 }
def lease1 : Lease := { slot := 1, gen := 65535, ctx := 0, seq := 1, expires := 77, pages := [], waiters := [] }
def planned : State := { paged with att := { paged.att with plans := [plan1], leases := [lease1] } }

/-- A plan of one entry; a plan whose time runs; a lease of the last generation. -/
theorem witness_PlansAndLeases : (withCmd paged planCmd).begins planCmd Op.stepPlan ∧ dFlag planCmd.desc 0 = false ∧
    planCmd.mark = 0 ∧ (begun paged planCmd).startCheck planCmd = none ∧
    (begun paged planCmd).spaceLong 0 (dPlanList planCmd.desc) 16 = true ∧ dF planCmd.desc 10 2 ≠ 0 ∧ dF planCmd.desc 12 4 ≠ 0 ∧
    planned.att.plans.find? (fun x => x.id == ⟨0, 9⟩) = some plan1 ∧ plan1.doneAt = some 3 ∧
    planned.att.leases.find? (fun x => x.slot == 1) = some lease1 :=
  ⟨begins_of (by decide +kernel), by decide +kernel⟩
theorem test_step_plan : after (exec (.stepPlan ⟨0, 0⟩) (withCmd paged planCmd))
    (fun t => t.att.ents.map (fun e => (e.seq, e.layerFirst, e.layerEnd)) == [(1, 0, 1)] && t.cmds == []) = true := by decide +kernel
theorem test_plan_expires : after (exec (.planPinExpire ⟨0, 9⟩) planned)
    (fun t => t.att.plans == [] && t.cycles == 3003) = true := by decide +kernel
theorem test_lease_expires : after (exec (.leaseExpire 1) planned)
    (fun t => t.att.leases == [] && t.att.leaseGen == [] && t.cycles == 77) = true := by decide +kernel

/-! ## Attention -/

def attendDesc (nq heads layer : Nat) : Word512 :=
  desc [(0, 1, Op.attend), (4, 4, 1), (8, 2, layer), (11, 1, nq), (14, 2, heads), (20, 4, 1), (32, 8, 0x90000), (44, 8, 0xa0000),
    (52, 4, 128)]
def attendCmd (nq heads layer mark : Nat) : Cmd := { cmdOf .waiting (attendDesc nq heads layer) with mark := mark }
/-- Profile 5 in the hot set. -/
def hot : State := { paged with att := { paged.att with hot := [⟨0, 5, 0⟩] } }
def attendFits (s : State) (k : Cmd) : Bool :=
  (begun s k).startCheck k == none && (begun s k).checkBatch ((withCmd s k).startedCmd k) == none &&
    (begun s k).attendSeqs ((withCmd s k).startedCmd k) == some [seq2] && (begun s k).prof? 5 == some prof5 &&
    (begun s k).attendChecks ((withCmd s k).startedCmd k) prof5 [seq2] == none
/-- The same profile with a variant that nothing has verified. -/
def varied : State := { paged with seq := { paged.seq with profiles := [{ prof5 with kvar := 3 }] } }
/-- A BATCH of one entry whose reserved bytes are not zero. -/
def batchCmd : Cmd :=
  { cmdOf .waiting (desc [(0, 1, Op.attend), (1, 1, 16), (4, 4, 1), (11, 1, 1), (14, 2, 1), (20, 4, 1)]) with reads := [[1, 0, 0, 0, 9]] }

/-- One query of one head with the profile loaded and not; no query; a layer beyond the profile; a list entry that is not valid; a variant
that has not verified; a profile asked for. -/
theorem witness_AttendRunsAndResumes : (withCmd hot (attendCmd 1 1 0 0)).begins (attendCmd 1 1 0 0) Op.attend ∧
    attendFits hot (attendCmd 1 1 0 0) = true ∧ (begun hot (attendCmd 1 1 0 0)).hotHas 5 = true ∧
    (begun hot (attendCmd 1 1 0 0)).variantOk 0 = true ∧
    (withCmd paged (attendCmd 1 1 0 0)).begins (attendCmd 1 1 0 0) Op.attend ∧ attendFits paged (attendCmd 1 1 0 0) = true ∧
    (begun paged (attendCmd 1 1 0 0)).hotHas 5 = false ∧
    attendFits paged (attendCmd 0 1 0 0) = true ∧ attendFits paged (attendCmd 1 0 0 0) = true ∧
    (begun paged (attendCmd 1 1 2 0)).attendChecks ((withCmd paged (attendCmd 1 1 2 0)).startedCmd (attendCmd 1 1 2 0)) prof5 [seq2] =
      some St.badField ∧
    (withCmd paged batchCmd).begins batchCmd Op.attend ∧ (begun paged batchCmd).startCheck batchCmd = none ∧
    (begun paged batchCmd).attendSeqs ((withCmd paged batchCmd).startedCmd batchCmd) = some [seq2] ∧
    (begun paged batchCmd).checkBatch ((withCmd paged batchCmd).startedCmd batchCmd) = some St.badField ∧
    (begun varied (attendCmd 1 1 0 0)).attendChecks ((withCmd varied (attendCmd 1 1 0 0)).startedCmd (attendCmd 1 1 0 0))
      { prof5 with kvar := 3 } [seq2] = none ∧ (begun varied (attendCmd 1 1 0 0)).variantOk 3 = false ∧
    { paged with att := { paged.att with loading := [5] } }.att.loading.contains 5 = true :=
  ⟨begins_of (by decide +kernel), by decide +kernel, by decide +kernel, by decide +kernel, begins_of (by decide +kernel),
   by decide +kernel, by decide +kernel, by decide +kernel, by decide +kernel, by decide +kernel, begins_of (by decide +kernel),
   by decide +kernel⟩

/-- An ATTEND that has begun and stands at `mark`. -/
def attending (mark : Nat) : Cmd := { attendCmd 1 1 0 mark with st := .running }

/-- One whose operands were read, one whose walk waits and is served next, one whose chunks run; a page whose pins are full and one whose
pins are not. -/
theorem witness_attend_goes_on : (withCmd hot (attending 2)).resumes (attending 2) Op.attend ∧
    (withCmd hot (attending 4)).resumes (attending 4) Op.attend ∧ (withCmd hot (attending 3)).resumes (attending 3) Op.attend ∧
    (withCmd hot (attending 4)).nextWalk = some (attending 4) ∧
    (withCmd hot (attending 4)).attendSeqs (attending 4) = some [seq2] ∧ (withCmd hot (attending 4)).prof? 5 = some prof5 ∧
    (frameOf 3 .cleanT1).pinFull = false ∧ { frameOf 3 .cleanT1 with pins := 65535 }.pinFull = true ∧
    paged.frame? 3 = some (frameOf 3 .cleanT1) := by unfold State.resumes; decide +kernel
theorem test_attend_asks_for_its_profile : after (exec (.attend ⟨0, 0⟩) (withCmd paged (attendCmd 1 1 0 0)))
    (fun t => t.att.loading == [5] && t.cmds.map (·.mark) == [1]) = true := by decide +kernel
theorem test_attend_reads_its_queries : after (exec (.attend ⟨0, 0⟩) (withCmd hot (attendCmd 1 1 0 0)))
    (fun t => t.cmds.map (fun k => (k.mark, k.owed)) == [(2, 1)] && t.host.out == [.hostRead ⟨0, 0⟩ 0x90000 128]) = true := by decide +kernel
theorem test_profile_loaded : after (exec (.profileLoadDone 5) { paged with att := { paged.att with loading := [5] } })
    (fun t => t.att.hot == [⟨0, 5, 0⟩] && t.att.loading == []) = true := by decide +kernel
theorem test_pin_wait_without_waiters : after (exec (.pinWaitResume 3) paged) (fun t => t.tier == paged.tier) = true := by decide +kernel

def chunk0 (st : ChunkSt) : Chunk :=
  { att := ⟨0, 0⟩, ctx := 0, adm := 4, seq := 1, mprof := 5, layer := 0, v := 1, nq := 1, ent := 0, head := 0, idx := 0,
    pages := [{ lpi := 0, layer := 0, head := 0, pfh := 3, version := 7 }], st := st, missed := false, errors := 0, placed := 0,
    checked := true, est := 600 }
def att0 : Att :=
  { id := ⟨0, 0⟩, ctx := 0, adm := 4, mprof := 5, layer := 0, ents := [{ seq := 1, v := 1, queries := List.replicate 128 0, empty := false }],
    walk := [], cur := [], curEnt := 0, curHead := 0, curIdx := 0, left := 1, merged := [], counts := [], hit := [] }
/-- An ATTEND of one chunk that stands at `st`. -/
def chunked (st : ChunkSt) : State :=
  { withCmd hot { cmdOf .running (attendDesc 1 1 0) with mark := 3 } with
    att := { hot.att with atts := [att0], chunks := [chunk0 st] } }

/-- Where no table is stored none is found bad. -/
theorem no_table_bad {s : State} (h : s.tab = Tables.reset) (n : Nat) : s.tableLoad n ≠ .bad := by
  simp [State.tableLoad, h, Tables.reset, findTable]
theorem witness_no_table_bad : (chunked .waiting).tab = Tables.reset := rfl

/-- A waiting chunk with a free AE, and one that runs on AE 0 and has passed its checks. -/
theorem witness_ChunksArePlacedAndEnd : (chunked .waiting).dead = false ∧
    (let u := (chunked .waiting).setTracked 0
     (∃ x, (sortBy ctxLt ((u.setCtxs 0).filter fun y => (u.nextChunk y.r.ctx).isSome)).head? = some x ∧ (x.r.ctx == 0) = true) ∧
     u.nextChunk 0 = some (chunk0 .waiting) ∧ (u.pickAe 0 (chunk0 .waiting)).isSome = true) ∧
    (chunked .waiting).att.chunks.length = 0 + 1 ∧
    (chunked (.running 0)).att.chunks.find? (fun x => x.st == .running 0) = some (chunk0 (.running 0)) ∧
    (chunked (.running 0)).stalled (chunk0 (.running 0)) = false ∧ (chunked (.running 0)).prof? 5 = some prof5 :=
  ⟨rfl, ⟨found (by decide +kernel), by decide +kernel, by decide +kernel⟩, by decide +kernel⟩
theorem test_chunk_is_placed : after (exec (.chunkPlacementRound 0) (chunked .waiting))
    (fun t => t.att.chunks.map (fun k => k.st.ae?.isSome) == [true]) = true := by decide +kernel
theorem test_chunk_ends : after (exec (.chunkComplete 0 100 []) (chunked (.running 0)))
    (fun t => t.att.chunks == [] && t.cmds == []) = true := by decide +kernel

def placeCmd (flags : Nat) : Cmd :=
  cmdOf .waiting (desc [(0, 1, Op.pagesPlace), (1, 1, flags * 16), (4, 4, 1), (12, 4, 1), (18, 2, 1), (20, 1, 1)])
def dropCmd (n : Nat) : Cmd := cmdOf .waiting (desc [(0, 1, Op.pagesDrop), (4, 4, 1), (12, 4, n), (18, 2, 1)])

/-- Settings alone; a move; ranges of one page, of none, and beyond the sequence. -/
theorem witness_PlaceAndDropPages : (withCmd paged (placeCmd 0)).begins (placeCmd 0) Op.pagesPlace ∧
    (withCmd paged (placeCmd 2)).begins (placeCmd 2) Op.pagesPlace ∧ dFlag (placeCmd 2).desc 1 = true ∧ dFlag (placeCmd 0).desc 1 = false ∧
    (placeCmd 0).mark = 0 ∧ rangeOk prof5 seq2 0 1 0 1 = true ∧ (withCmd paged (dropCmd 1)).begins (dropCmd 1) Op.pagesDrop ∧
    (withCmd paged (dropCmd 0)).begins (dropCmd 0) Op.pagesDrop ∧ (withCmd paged (dropCmd 2)).begins (dropCmd 2) Op.pagesDrop ∧
    (begun paged (dropCmd 1)).openSeq? 0 1 = some seq2 ∧ rangeOk prof5 seq2 0 0 0 1 = true ∧ rangeOk prof5 seq2 0 2 0 1 = false :=
  ⟨begins_of (by decide +kernel), begins_of (by decide +kernel), by decide +kernel, by decide +kernel, by decide +kernel, by decide +kernel,
   begins_of (by decide +kernel), begins_of (by decide +kernel), begins_of (by decide +kernel), by decide +kernel⟩
theorem test_place : after (exec (.pagesPlace ⟨0, 0⟩) (withCmd paged (placeCmd 0))) (fun t => t.cmds == []) = true := by decide +kernel
theorem test_drop : after (exec (.pagesDrop ⟨0, 0⟩) (withCmd paged (dropCmd 1)))
    (fun t => t.seq.recs.map (fun r => r.ptes.map (·.pfh)) == [[0, 4]] && t.tier.frames.map (·.pfh) == [4]) = true := by decide +kernel

def deliverCmd (n : Nat) : Cmd :=
  cmdOf .waiting (desc [(0, 1, Op.pagesDeliver), (4, 4, 1), (12, 4, n), (18, 2, 1), (22, 2, 1), (32, 8, 0x90000), (40, 4, 4096)])

/-- One page, none, a page beyond the sequence; an AE set whose islands are all down. -/
theorem witness_DeliverWritesPages : (withCmd paged (deliverCmd 1)).begins (deliverCmd 1) Op.pagesDeliver ∧
    (withCmd paged (deliverCmd 0)).begins (deliverCmd 0) Op.pagesDeliver ∧ (deliverCmd 1).mark = 0 ∧ (deliverCmd 1).count = 0 ∧
    (begun paged (deliverCmd 1)).startCheck (deliverCmd 1) = none ∧ (begun paged (deliverCmd 0)).startCheck (deliverCmd 0) = none ∧
    (begun paged (deliverCmd 1)).deliverCheck ((withCmd paged (deliverCmd 1)).startedCmd (deliverCmd 1)) seq2 prof5 = none ∧
    (begun paged (deliverCmd 0)).deliverCheck ((withCmd paged (deliverCmd 0)).startedCmd (deliverCmd 0)) seq2 prof5 = none ∧
    (begun paged (deliverCmd 2)).deliverCheck ((withCmd paged (deliverCmd 2)).startedCmd (deliverCmd 2)) seq2 prof5 =
      some St.badField ∧
    (begun paged (deliverCmd 1)).setDark 0 = false ∧
    (match ((begun paged (deliverCmd 1)).setCmd ⟨0, 0⟩ fun c => { c with mark := 1, todo := [16] }).deliverFrom
        { (withCmd paged (deliverCmd 1)).startedCmd (deliverCmd 1) with mark := 1, todo := [16] } seq2 prof5 [16]
        (deliverPlaces (deliverCmd 1).desc) 0 with
      | .ok (u, b) => b && ((u.cmd? ⟨0, 0⟩).map (·.met)).getD [] == []
      | .error _ => false) = true :=
  ⟨begins_of (by decide +kernel), begins_of (by decide +kernel), by decide +kernel⟩
theorem witness_dark_set : (begun (paged.setFld F.AEC_AE_ONLINE_ONLINE 0 0) (deliverCmd 1)).setDark 0 = true := by decide +kernel
theorem test_deliver : after (exec (.pagesDeliver ⟨0, 0⟩) (withCmd paged (deliverCmd 1)))
    (fun t => t.cmds == [] && t.host.out.length == 3) = true := by decide +kernel

/-! ## Prefix index -/

def lookupCmd (n mprof : Nat) (reads : List (List Byte)) : Cmd :=
  { cmdOf .waiting (desc [(0, 1, Op.prefixLookup), (16, 2, mprof), (20, 4, n), (32, 8, 0x90000), (44, 8, 0xa0000)]) with reads := reads }
def tokens : List Byte := List.replicate 64 0
def cursor1 : Cursor := { slot := 1, gen := 1, ctx := 0, list := [⟨1, 0x100000001#64⟩], casc := none, until_ := 66 }
def nextCmd (flag : Nat) : Cmd := cmdOf .waiting (desc [(0, 1, Op.pxiNext), (1, 1, flag), (4, 4, 65537)])
def cursored : State := { paged with pxi := { paged.pxi with cursors := [cursor1] } }

/-- A reference to depth 1 of anchor 1 of part 6, and one to anchor 1 of this part. -/
def refAway : Nat := 1 + 2 ^ 32 + 6 * 2 ^ 56
def lookupFits (s : State) (k : Cmd) : Bool :=
  (begun s k).startCheck k == none && (begun s k).lookup? ⟨0, 0⟩ == none && !(begun s k).mustAsk ((withCmd s k).startedCmd k) (lkRef k.desc) &&
    ((begun s k).ctx? 0).any fun x => ((begun s k).lookupCheck ((withCmd s k).startedCmd k) x).isOk
def awayCmd : Cmd :=
  { lookupCmd 1 5 [] with desc := desc [(0, 1, Op.prefixLookup), (8, 8, refAway), (16, 2, 5), (20, 4, 2), (32, 8, 0x90000),
      (44, 8, 0xa0000)] }

/-- One block to look up, none, a profile that is not there, a reference of another part; a cursor with a match, with none left, with
FREE. -/
theorem witness_LookupsAndCursors : (withCmd paged (lookupCmd 1 5 [tokens])).begins (lookupCmd 1 5 [tokens]) Op.prefixLookup ∧
    lookupFits paged (lookupCmd 1 5 [tokens]) = true ∧ lookupFits paged (lookupCmd 0 5 []) = true ∧
    (∃ x, (begun paged (lookupCmd 0 6 [])).ctx? 0 = some x ∧
      (!((begun paged (lookupCmd 0 6 [])).lookupCheck ((withCmd paged (lookupCmd 0 6 [])).startedCmd (lookupCmd 0 6 [])) x).isOk) = true) ∧
    (withCmd paged awayCmd).begins awayCmd Op.prefixLookup ∧ (begun paged awayCmd).startCheck awayCmd = none ∧
    (begun paged awayCmd).mustAsk ((withCmd paged awayCmd).startedCmd awayCmd) (lkRef awayCmd.desc) = true ∧
    (withCmd cursored (nextCmd 0)).begins (nextCmd 0) Op.pxiNext ∧ (withCmd cursored (nextCmd 16)).begins (nextCmd 16) Op.pxiNext ∧
    dFlag (nextCmd 16).desc 0 = true ∧ dFlag (nextCmd 0).desc 0 = false ∧ cursor1.casc = none ∧ cursor1.list = [⟨1, 0x100000001#64⟩] ∧
    (begun cursored (nextCmd 0)).pxi.cursors.find? (fun y => y.slot + y.gen * 65536 == 65537) = some cursor1 :=
  ⟨begins_of (by decide +kernel), by decide +kernel, by decide +kernel, found (by decide +kernel), begins_of (by decide +kernel),
   by decide +kernel, by decide +kernel, begins_of (by decide +kernel), begins_of (by decide +kernel), by decide +kernel⟩
theorem test_lookup_nothing : after (exec (.prefixLookup ⟨0, 0⟩) (withCmd paged (lookupCmd 0 5 []))) (fun t => t.cmds == []) = true := by
  decide +kernel
theorem test_next : after (exec (.pxiNext ⟨0, 0⟩) (withCmd cursored (nextCmd 0)))
    (fun t => t.cmds == [] && t.pxi.cursors.map (·.list) == [[]]) = true := by decide +kernel
theorem test_cursor_expires : after (exec (.cursorExpire 1) cursored) (fun t => t.pxi.cursors == [] && t.cycles == 66) = true := by
  decide +kernel

def publishCmd (depth : Nat) (reads : List (List Byte)) : Cmd :=
  { cmdOf .waiting (desc [(0, 1, Op.prefixPublish), (4, 4, 1), (16, 4, depth), (28, 8, 0x90000)]) with reads := reads }
def anchor1 : Anchor :=
  { idx := 1, gen := 0, sdom := 1, mprof := 5, part := 0, ptes := [], digests := [77], live := 1, forks := 0, trim := none, remote := [],
    epoch := 0 }
/-- The part holds that anchor and the directory entry that names it. -/
def entry1 : DirEnt :=
  { bucket := 0, slot := 0, digest := 77, sdom := 1, mprof := 5, depth := 1, anchor := anchor1.handle, apart := 0, epoch := 0, cam := none,
    last := 0, hits := 0 }
def anchored : State := { paged with pxi := { paged.pxi with anchors := [anchor1], dir := [entry1] } }
/-- A part that has room for anchors. -/
def roomy : State := paged.setFld F.PXI_ANCHOR_OCC_MAX 100
def retireCmd : Cmd := cmdOf .waiting (desc [(0, 1, Op.prefixRetire), (8, 4, 1), (12, 4, 1)])
/-- An attached part that cannot reach the rest of its domain: DOMAIN state 4. -/
def apart (s : State) : State := s.setFld F.FXT_DOM_STAT_STATE 4

def publishFits (s : State) (k : Cmd) : Bool :=
  (begun s k).startCheck k == none && (begun s k).pub? ⟨0, 0⟩ == none && (begun s k).fld F.FXT_DOM_STAT_ADMITTING != 1 &&
    (begun s k).openSeq? 0 1 == some seq2 && !(begun s k).readOnly &&
    !(begun s k).mustAsk ((withCmd s k).startedCmd k) (dF k.desc 8 8) &&
    ((begun s k).publishCheck ((withCmd s k).startedCmd k) seq2 prof5).isOk
/-- The whole sequence lies in a poisoned page. -/
def poisoned0 : State := roomy.setFrame 3 fun f => { f with st := .poisoned }
def retireFits (s : State) (k : Cmd) : Bool :=
  (begun s k).startCheck k == none && (begun s k).pxi.retires == [] && (begun s k).fld F.FXT_DOM_STAT_ADMITTING != 1 &&
    !(begun s k).readOnly && !(begun s k).mustAsk ((withCmd s k).startedCmd k) (dF k.desc 8 8) && rtMode k.desc != 1 &&
    (((begun s k).ctx? 0).bind fun x => ((begun s k).base? ((withCmd s k).startedCmd k) (dF k.desc 8 8)).map fun b => x.publishes b.sdom) ==
      some true && (begun s k).refAnchor? (dF k.desc 8 8) == some anchor1

/-- One block with its tokens: with room for the anchor, without, and with the block poisoned; DEPTH 0, a depth beyond the sequence, a
read-only half, a reference of another part; a live local reference; mode 1. -/
theorem witness_PublishAndRetire : (withCmd roomy (publishCmd 1 [tokens])).begins (publishCmd 1 [tokens]) Op.prefixPublish ∧
    publishFits roomy (publishCmd 1 [tokens]) = true ∧ publishFits roomy (publishCmd 0 []) = true ∧
    (begun roomy (publishCmd 1 [tokens])).publishable seq2 1 = 1 ∧ (begun roomy (publishCmd 1 [tokens])).takeAnchor.isSome = true ∧
    (begun paged (publishCmd 1 [tokens])).takeAnchor = none ∧ (begun poisoned0 (publishCmd 1 [tokens])).publishable seq2 1 = 0 ∧
    publishFits poisoned0 (publishCmd 1 [tokens]) = true ∧
    ((begun roomy (publishCmd 2 [])).publishCheck ((withCmd roomy (publishCmd 2 [])).startedCmd (publishCmd 2 [])) seq2 prof5).isOk = false ∧
    (begun (apart paged) (publishCmd 1 [])).readOnly = true ∧
    (begun paged (publishCmd 1 [])).mustAsk (publishCmd 1 []) refAway = true ∧
    (withCmd anchored retireCmd).begins retireCmd Op.prefixRetire ∧ retireFits anchored retireCmd = true ∧
    (begun anchored retireCmd).homesFrom anchor1 1 = [] ∧
    rtMode (desc [(0, 1, Op.prefixRetire), (20, 1, 1)]) = 1 :=
  ⟨begins_of (by decide +kernel), by decide +kernel, by decide +kernel, by decide +kernel, by decide +kernel, by decide +kernel,
   by decide +kernel, by decide +kernel, by decide +kernel, by decide +kernel, by decide +kernel, begins_of (by decide +kernel),
   by decide +kernel⟩
/-- A digest that is inserted, one that stands already, and a bucket pair that is full. -/
theorem witness_publication_steps : paged.homeOf 78 = paged.ownPart ∧ (anchored.insertEntry 78 1 5 1 anchor1.handle 0 0 true).2 = .created ∧
    (anchored.insertEntry 77 1 5 1 anchor1.handle 0 0 true).2 = .existing entry1.ref ∧
    (State.insertEntry { paged with pxi := { paged.pxi with dir := (List.range 8).map fun i => { entry1 with slot := i } } }
      78 1 5 1 anchor1.handle 0 0 true).2 = .full := by decide +kernel
theorem test_publish_read_only : after (exec (.prefixPublish ⟨0, 0⟩) (withCmd (apart paged) (publishCmd 1 [])))
    (fun t => t.cmds == [] && t.pxi.anchors == []) = true := by decide +kernel
theorem test_retire : after (exec (.prefixRetire ⟨0, 0⟩) (withCmd anchored retireCmd))
    (fun t => t.cmds == []) = true := by decide +kernel

/-! ## Tables, regions, RMA, triggers, mounts -/

/-- An image of set 3 for profile 5 with no table (Table 8.5), and the block of the key in owner slot 0 for it. -/
def imageBody : List Byte := leBytes 2 3 ++ leBytes 2 5 ++ leBytes 2 2 ++ leBytes 2 0 ++ leBytes 4 832 ++ leBytes 4 0 ++ List.replicate 8 255 ++
  List.replicate 8 0
/-- The signature block for it of the key in owner slot 0. -/
def imageSig : Nat := joinParts [
  0x2b3a9268b797f545df1d9584e7e30f47141f9b2c94744fd4a0b7bd0e51c92157677cddbf3ac53516346e5bccd9a4a87e3c3da2847f39d6619ff9a54ae2f65f986da36cdc1bb5aa6f9be5ffed1cecff8abf57023fc1aa874a34509bd9461910858d76f875,
  0x40af8e3b6931c48563fd0bb2862dd9c675eb37af306a2d03a683e555d024a658eca4d7a73057573994086da22947ddb97f0eb0caaa9f27a2a0f1dbc270c8fb74a8918b5009e96dcb01bdc3d2dc084703dc0ed316961deb0a7d30b14cb72b932a9411a3bf,
  0x3f0ed3d2532d6cc76aa62f6947376f95709f70a20b9d44d4dd93a671e7f249d6468bf4981cab4c642cbfb9e262a1a8d2620084f1dc91096bfd185cbb8681e6d3ebec0b828518ff24c1b4bd15c6687107a1004723a4a0a09133ba61a49f3714e160a8beef,
  0xf2190604aec2963adf9bac13ff6fc73012dc55f61bc582467d3541b0fc40b2ae9c1725dd52741a14f990f44225762d9bbb3bbe14d430417bc14156ecc189a9ed4edc3f53e08f89548358a577e9f9c1be7ad88a2400000000000000000000000001000100,
  0x91fcebd2f482d2b53f8ef2416ed88f8aa351aac3076635700db00b6a830a2148396cea30e2304babf5a93fd66a3a56490fdb89b9bb56a72ac322a220751484f0fc8ad7fb8004d3544589be70359555fe2c1e659acdeb832e3507f7295ed8a6856aa0a844,
  0x97e92add48fb831c747088fcdb1514cf32c084563310c7e73b2b1a4b3d7646b76b43ab47ceb93c7b24a24f0967aaae242d0f81d6d845d6160f6ccafe4f684578bc47630f2c074015e338898632e827a53bdd67aac76168ca820be30b227736914add6025,
  0xc57b64047b717a717b3be74ca32f17341798febf16d287c19afac843939f778085abe5f88d17a1109ad7cd2ed84904994216be936572b208b9f518b57a3e5c7eaf68333139bb5d348855a891b4be6ba516b76f34311c78d9f89d12b84ed2ee7e4a72429,
  0x397622ea01247661c9ce9a11ffd3addaebe758018ae73143de8c5ae3bbe2cf895af143d904cf7671fd0f3273a4506248247a9089b1d6493b1fe0e24b5463cf62f4bdad9d912244e5d8a3c307e19888d36d7615b100000000000000000000000000000101]
def tableCmd (len mark : Nat) (reads : List (List Byte)) : Cmd :=
  { cmdOf (if mark = 0 then .waiting else .running)
      (desc [(0, 1, Op.tableLoad), (8, 2, 3), (16, 8, 0x90000), (24, 4, len), (28, 2, 5)]) with
    mark := mark, reads := reads }
def tableRead : Cmd := tableCmd 832 1 [signedBytes ⟨imageBody, imageSig⟩]
def tableForged : Cmd := tableCmd 832 1 [signedBytes ⟨imageBody, 0⟩]
/-- Profile 5 names table set 3. -/
def tabled : State := { paged with seq := { paged.seq with profiles := [{ prof5 with tset := 3 }] } }

/-- What a signature that verifies does not change. -/
theorem checkSig_ok {s : State} {g : Signed} (h : s.sigOk 1 g = true) : s.checkSig 1 g = (s, true) := by simp [State.checkSig, h]
theorem checkSig_bad {s : State} {g : Signed} (h : s.sigOk 1 g = false) : ∃ u, s.checkSig 1 g = (u, false) := by simp [State.checkSig, h]

/-- Lengths 0, one byte beyond 4 MiB and that of the image. -/
theorem witness_TableLoadStoresTheSet : (withCmd tabled (tableCmd 0 0 [])).begins (tableCmd 0 0 []) Op.tableLoad ∧
    (withCmd tabled (tableCmd 4194305 0 [])).begins (tableCmd 4194305 0 []) Op.tableLoad ∧
    (withCmd tabled (tableCmd 832 0 [])).begins (tableCmd 832 0 []) Op.tableLoad ∧
    (begun tabled (tableCmd 0 0 [])).startCheck (tableCmd 0 0 []) = none ∧ (begun tabled (tableCmd 832 0 [])).startCheck (tableCmd 832 0 []) = none ∧
    (begun tabled (tableCmd 832 0 [])).spaceLong 0 (dImage (tableCmd 832 0 []).desc) 832 = true :=
  ⟨begins_of (by decide +kernel), begins_of (by decide +kernel), begins_of (by decide +kernel), by decide +kernel⟩

/-- The bytes of an image that passes, and of one whose signature does not verify; the fields, of which those for another set do not agree. -/
theorem witness_table_image : (withCmd tabled tableRead).resumes tableRead Op.tableLoad ∧ tableRead.mark ≠ 0 ∧
    (∃ u, (withCmd tabled tableForged).checkSig 1 (signedOf tableForged.reads.flatten) = (u, false)) ∧
    (let img := imageOf tableRead.reads.flatten
     (img.tset = 3 ∧ img.len = dF tableRead.desc 24 4 ∧ img.mprof = dF tableRead.desc 28 2) ∧
     (withCmd tabled tableRead).imageOk { prof5 with tset := 3 } img = true ∧ (withCmd tabled tableRead).imageOk prof5 img = false) :=
  ⟨by unfold State.resumes; decide +kernel, by decide, checkSig_bad (by decide +kernel), by decide +kernel⟩
theorem witness_table_signature : (withCmd tabled tableRead).checkSig 1 (signedOf tableRead.reads.flatten) = (withCmd tabled tableRead, true) :=
  checkSig_ok (by decide +kernel)
theorem test_table_load_asks : after (exec (.tableLoad ⟨0, 0⟩ []) (withCmd tabled (tableCmd 832 0 [])))
    (fun t => t.host.out == [.hostRead ⟨0, 0⟩ 0x90000 832]) = true := by decide +kernel
theorem test_table_load_bad_signature : after (exec (.tableLoad ⟨0, 0⟩ []) (withCmd tabled tableForged))
    (fun t => t.tab.sets == [] && t.fld F.SEC_AUTH_STAT_SIG_FAIL == 1) = true := by decide +kernel

def registerCmd : Cmd := cmdOf .waiting (desc [(0, 1, Op.regionRegister), (8, 1, 1), (9, 1, 3), (12, 4, 4096), (16, 8, 0x70000)])
def revokeCmd (flag : Nat) : Cmd := cmdOf .waiting (desc [(0, 1, Op.regionRevoke), (1, 1, flag), (8, 4, 4096)])
def region1 : Region :=
  { index := 1, gen := 0, ctx := 0, part := 0, hostMem := false, access := 15, trig := 0, len := 4096, addr := 0, nqAddr := 0,
    nqEntries := 0, nqVector := 0, nqPi := 0, nqCi := 0, draining := none, freeing := false, chunks := [] }
def regioned : State := { queued with fxt := { queued.fxt with regions := [region1], mem := [(regionKey 1 4, 9)], freshRegion := 2 } }
/-- The revocation under way. -/
def draining (free : Bool) : State :=
  { withCmd regioned (cmdOf .running (revokeCmd 16).desc) with
    fxt := { regioned.fxt with regions := [{ region1 with gen := 1, draining := some ⟨0, 0⟩, freeing := free }] } }

/-- A free index; a live region without and with a ring in it; a drain with FREE and without. -/
theorem witness_RegionsComeAndGo : (withCmd queued registerCmd).begins registerCmd Op.regionRegister ∧
    (begun queued registerCmd).checkRegister registerCmd = none ∧ dF registerCmd.desc 12 4 ≠ 0 ∧ dF registerCmd.desc 8 1 = 1 ∧
    (begun queued registerCmd).takeRegion.isSome = true ∧
    (withCmd regioned (revokeCmd 0)).begins (revokeCmd 0) Op.regionRevoke ∧
    (begun regioned (revokeCmd 0)).region? 0 4096 = some region1 ∧
    (∀ y ∈ (begun regioned (revokeCmd 0)).fxt.regions, y.draining ≠ some ⟨0, 0⟩) ∧ (begun regioned (revokeCmd 0)).ringIn region1 = false ∧
    (regioned.setWq 0 fun w => { w with region := true, rkey := 4096 }).ringIn region1 = true ∧
    (draining true).fxt.regions.find? (fun y => y.index == 1) =
      some { region1 with gen := 1, draining := some ⟨0, 0⟩, freeing := true } ∧
    (draining false).fxt.regions.find? (fun y => y.index == 1) =
      some { region1 with gen := 1, draining := some ⟨0, 0⟩, freeing := false } :=
  ⟨begins_of (by decide +kernel), by decide +kernel, by decide +kernel, by decide +kernel, by decide +kernel, begins_of (by decide +kernel),
   by decide +kernel⟩
theorem test_register : after (exec (.regionRegister ⟨0, 0⟩) (withCmd queued registerCmd))
    (fun t => t.cmds == [] && t.fxt.regions.map (fun r => (r.index, r.gen, r.len)) == [(1, 0, 4096)]) = true := by decide +kernel
theorem test_revoke : after (exec (.regionRevoke ⟨0, 0⟩) (withCmd regioned (revokeCmd 0)))
    (fun t => t.fxt.regions.map (·.gen) == [1] && t.cmds.length == 1) = true := by decide +kernel
theorem test_drained : after (exec (.revokeDrainComplete 1) (draining true))
    (fun t => t.fxt.regions == [] && t.fxt.mem == [] && t.cmds == []) = true := by decide +kernel

theorem witness_RegionBytesReadBack : 4094 + ([1, 2] : List Byte).length ≤ 2 ^ 32 ∧ { region1 with index := 2 }.index ≠ region1.index ∧
    regioned.memWf := ⟨by decide, by decide, by unfold State.memWf; decide +kernel⟩

/-- Node 9 is a part of this one's domain; host memory holds the local bytes. -/
def peered : State :=
  { queued with fxt := { queued.fxt with eps := [(9, desc [(0, 1, 1), (2, 2, 65535), (4, 8, 1)])] } }
def rmaCmd (op len : Nat) (reads : List (List Byte)) : Cmd :=
  { cmdOf .waiting (desc [(0, 1, op), (8, 2, 9), (16, 8, 0x70000), (24, 4, 1), (40, 4, len)]) with reads := reads }
theorem startable_of {s : State} {k : Cmd}
    (h : (s.cmd? k.id == some k && (k.st == .waiting && (k.owed == 0 && (k.fail == none &&
      (s.mayStart k == true && s.spilledAny k == false))))) = true) : s.startable k := by
  simp only [Bool.and_eq_true, beq_iff_eq] at h
  obtain ⟨a, b, c, d, e, f⟩ := h
  exact ⟨a, b, c, d, e, f⟩
def rmaFits (s : State) (k : Cmd) : Bool :=
  k.armed == none && k.mark == 0 && (begun s k).checkRmaRun k == none && (begun s k).epKind k.rma.node != 0 &&
    (begun s k).epKind k.rma.node != 3 && (begun s k).localBad ((withCmd s k).startedCmd k) k.rma == none

/-- A write of one byte and of none, a write with immediate, a read, a flush. -/
theorem witness_RmaPostsMessages : (withCmd peered (rmaCmd Op.rmaWrite 1 [[7]])).startable (rmaCmd Op.rmaWrite 1 [[7]]) ∧
    rmaFits peered (rmaCmd Op.rmaWrite 1 [[7]]) = true ∧ rmaFits peered (rmaCmd Op.rmaWrite 0 []) = true ∧
    rmaFits peered (rmaCmd Op.rmaWrite 268435456 [[7]]) = true ∧ rmaFits peered (rmaCmd Op.rmaWriteImm 1 [[7]]) = true ∧
    rmaFits peered (rmaCmd Op.rmaRead 1 []) = true ∧
    (withCmd peered (rmaCmd Op.rmaRead 1 [])).startable (rmaCmd Op.rmaRead 1 []) ∧
    rmaFits peered { rmaCmd Op.rmaFlush 0 [] with desc := desc [(0, 1, Op.rmaFlush), (8, 2, 9)] } = true :=
  ⟨startable_of (by decide +kernel), by decide +kernel, by decide +kernel, by decide +kernel, by decide +kernel, by decide +kernel,
   startable_of (by decide +kernel), by decide +kernel⟩
theorem test_rma_write : after (exec (.rmaWrite ⟨0, 0⟩) (withCmd peered (rmaCmd Op.rmaWrite 1 [[7]])))
    (fun t => t.fxt.msgs.map (fun m => (m.dst, m.carry)) == [(9, .data 1 0 [7] none)]) = true := by decide +kernel
theorem test_rma_write_imm : after (exec (.rmaWriteImm ⟨0, 0⟩) (withCmd peered (rmaCmd Op.rmaWriteImm 1 [[7]])))
    (fun t => t.fxt.msgs.map (fun m => (m.dst, m.carry)) == [(9, .data 1 0 [7] (some 0))]) = true := by decide +kernel
theorem test_rma_read : after (exec (.rmaRead ⟨0, 0⟩) (withCmd peered (rmaCmd Op.rmaRead 1 [])))
    (fun t => t.fxt.msgs.map (·.isRead) == [true]) = true := by decide +kernel
theorem test_rma_flush_of_nothing :
    after (exec (.rmaFlush ⟨0, 0⟩) (withCmd peered { rmaCmd Op.rmaFlush 0 [] with desc := desc [(0, 1, Op.rmaFlush), (8, 2, 9)] }))
      (fun t => t.cmds == []) = true := by decide +kernel

/-- WR_ARM on trigger 1 with threshold `th` and a limit of 2 µs. -/
def armDesc (th : Nat) : Word512 := desc [(0, 1, Op.wrArm), (8, 2, 1), (10, 2, 1), (12, 4, th), (40, 4, 2)]
def armCmd (st : CmdSt) (th no : Nat) : Cmd :=
  { cmdOf st (armDesc th) with armed := some (rmaCmd Op.rmaWrite 1 []).desc, armNo := no }

/-- A pair to arm; one that has reached its threshold of 0; one that waits. -/
theorem witness_ArmedPairsFire : (withCmd peered (armCmd .waiting 5 0)).begins (armCmd .waiting 5 0) Op.wrArm ∧
    (begun peered (armCmd .waiting 5 0)).checkArm (armCmd .waiting 5 0) = none ∧
    (withCmd peered (armCmd .running 0 1)).cmd? ⟨0, 0⟩ = some (armCmd .running 0 1) ∧ (armCmd .running 0 1).waitsFiring = true ∧
    (withCmd peered (armCmd .running 0 1)).reached (armCmd .running 0 1) = true ∧
    (withCmd peered (armCmd .running 1 1)).reached (armCmd .running 1 1) = false ∧ dF (armDesc 5) 40 4 ≠ 0 :=
  ⟨begins_of (by decide +kernel), by decide +kernel⟩
theorem test_arm : after (exec (.wrArm ⟨0, 0⟩) (withCmd peered (armCmd .waiting 5 0)))
    (fun t => t.cmds.map (·.armNo) == [1] && t.fxt.armCount == 1) = true := by decide +kernel
theorem test_fire : after (exec (.triggerFire ⟨0, 0⟩) (withCmd peered (armCmd .running 0 1)))
    (fun t => t.cmds.map (fun k => (k.mark, k.owed)) == [(1, 1)]) = true := by decide +kernel
theorem test_arm_timeout : after (exec (.wrArmTimeout ⟨0, 0⟩) (withCmd peered (armCmd .running 5 1)))
    (fun t => t.cmds == [] && t.cycles == 3000) = true := by decide +kernel

/-- A BLANK_MOUNT whose blank has been read. -/
def mountCmd (check len : Nat) (b : Blank) : Cmd :=
  { cmdOf .running (desc [(0, 1, Op.blankMount), (1, 1, check * 16), (16, 8, 0x90000), (24, 4, len)]) with
    mark := 1, reads := [signedBytes b.obj] }
/-- A part in phase 4, without a blank. -/
def unmounted : State := { queued.setFld F.GLB_BOOT_STAT_PHASE 4 with blank := none }
def mounting (step : Nat) (re : Bool) : State :=
  { queued with boot := { queued.boot with mount := some { cmd := none, mgmt := none, img := blank0, remount := re, pmask := 1,
                                                            step := step, ups := [0] } } }
/-- The same with a blank that changes the record of context 0, which is still UP. -/
def changing : State :=
  { mounting 4 true with boot := { queued.boot with mount := some {
      cmd := none, mgmt := none, img := { blank0 with contexts := [{ ctxRec 0 0 with weight := 2 }] }, remount := true, pmask := 1,
      step := 4, ups := [0] } } }

def mountReady (k : Cmd) (full : Bool) (s : State) : Bool :=
  s.boot.mount == none && !s.mountWaits full (dMask k.desc) && s.blank.isNone == full && dF k.desc 9 1 != 2

/-- A blank that was read, with CHECK and without, and a length that is not its own; a re-mount of no partition; a mount at each step. -/
theorem witness_MountRunsItsSteps : (withCmd unmounted (mountCmd 0 1248 blank0)).resumes (mountCmd 0 1248 blank0) Op.blankMount ∧
    (mountCmd 0 1248 blank0).mark ≠ 0 ∧ mountReady (mountCmd 0 1248 blank0) true (withCmd unmounted (mountCmd 0 1248 blank0)) = true ∧
    dFlag (mountCmd 1 1248 blank0).desc 0 = true ∧ dFlag (mountCmd 0 1248 blank0).desc 0 = false ∧
    (let b := { blank0 with obj := signedOf (mountCmd 0 1248 blank0).reads.flatten }
     b.length = dBlankLen (mountCmd 0 1248 blank0).desc ∧ b.length ≠ dBlankLen (mountCmd 0 1249 blank0).desc) ∧
    (mounting 4 false).boot.mount.map (·.step) = some 4 ∧ (mounting 8 false).boot.mount.map (·.step) = some 8 ∧
    ((mounting 4 true).changedCtxs blank0 1).any (fun x => x.st != .down) = false ∧
    (changing.changedCtxs { blank0 with contexts := [{ ctxRec 0 0 with weight := 2 }] } 1).any (fun x => x.st != .down) = true :=
  ⟨by unfold State.resumes; decide +kernel, by decide +kernel⟩
/-- The bytes of the blank bear a signature that verifies on every part with the same fuses. -/
def readBlank : Blank := { blank0 with obj := signedOf (mountCmd 0 1248 blank0).reads.flatten }
theorem sig_same {s t : State} (h : s.sec.fuses = t.sec.fuses) (r : s.sec.romRoots = t.sec.romRoots) (n : Nat) (g : Signed) :
    s.sigOk n g = t.sigOk n g := by simp only [State.sigOk, State.ownerKey, State.ahnoonKey, h, r]
theorem base_signed : base.sigOk 1 readBlank.obj = true := by decide +kernel
theorem blank_signed {s : State} (h : s.sec.fuses = base.sec.fuses) (r : s.sec.romRoots = base.sec.romRoots) :
    s.sigOk 1 readBlank.obj = true := (sig_same h r 1 _).trans base_signed
/-- What the checks ask beside the signature. -/
def passes (s : State) (b : Blank) (full : Bool) (mask : Nat) (c : Option Nat) : Bool :=
  b.tsetBytes == [] && decide (s.minBlankSvn ≤ b.svn) && s.blankOk b full && s.keysOpen b &&
    (full || s.blank.any fun old => remountOk old b mask c && !s.remountLocked old b mask)
theorem checks_pass {s : State} {b : Blank} {full : Bool} {mask : Nat} {c : Option Nat} (h : s.sigOk 1 b.obj = true)
    (g : passes s b full mask c = true) : s.mountChecks b full mask c = (s, none) := by
  simp only [passes, Bool.and_eq_true, Bool.or_eq_true, Option.any_eq_true, beq_iff_eq, decide_eq_true_eq, Bool.not_eq_true'] at g
  obtain ⟨⟨⟨⟨a, v⟩, d⟩, e⟩, r⟩ := g
  simp only [State.mountChecks, checkSig_ok h, a, List.all_nil, v, decide_true, Bool.and_self, Bool.not_true, d, e,
    Bool.false_eq_true, if_false]
  rcases r with r | ⟨old, ho, hr, hl⟩
  · simp [r]
  · simp [ho, hr, hl]

/-- A re-mount of no partition. -/
def remountCmd : Cmd :=
  { mountCmd 0 1248 blank0 with desc := desc [(0, 1, Op.blankMount), (8, 1, 1), (16, 8, 0x90000), (24, 4, 1248)] }
/-- The blank passes every check on a part without a blank, and as a re-mount. -/
theorem witness_blank_passes : (withCmd unmounted (mountCmd 0 1248 blank0)).mountChecks readBlank true 0 none =
      (withCmd unmounted (mountCmd 0 1248 blank0), none) ∧
    (withCmd queued remountCmd).resumes remountCmd Op.blankMount ∧ mountReady remountCmd false (withCmd queued remountCmd) = true ∧
    dMode remountCmd.desc ≠ 0 ∧ dMask remountCmd.desc = 0 ∧
    (withCmd queued remountCmd).mountChecks readBlank false 0 (some 0) = (withCmd queued remountCmd, none) :=
  ⟨checks_pass (blank_signed rfl rfl) (by decide +kernel), by unfold State.resumes; decide +kernel, by decide +kernel, by decide +kernel, by decide +kernel,
   checks_pass (blank_signed rfl rfl) (by decide +kernel)⟩
/-- Without its signature it fails. -/
theorem witness_blank_fails : ((withCmd unmounted (mountCmd 0 1248 unsigned)).mountChecks
    { blank0 with obj := signedOf (mountCmd 0 1248 unsigned).reads.flatten } true 0 none).2 = some St.signatureInvalid := by decide +kernel
theorem test_mount_unsigned : after (exec (.blankMount ⟨0, 0⟩ blank0) (withCmd unmounted (mountCmd 0 1248 unsigned)))
    (fun t => t.boot.mount.isNone && t.cmds == [] && t.blank.isNone) = true := by decide +kernel
theorem test_mount_step : after (exec .mountStepComplete (mounting 4 false)) (fun t => t.boot.mount.map (·.step) == some 5) = true := by
  decide +kernel

/-! ## Registries, egress, messages and packets -/

/-- A part of a domain of parts 0 (this one), 6 and 7, all voters; `st` is its domain state. -/
def domRec : DomRec :=
  { tag := 1, partId := 0, members := [0, 6, 7], voters := [0, 6, 7], ranks := [(0, 0), (6, 1)], leaseMs := 1, skewPpm := 0,
    electGap := 1, admitWindow := 1 }
def inDom (st : Nat) : State :=
  { (((((queued.setFld F.PXI_PART_ID_IN_DOMAIN 1).setFld F.FXT_DOM_ROLE_VOTER 1).setFld F.FXT_DOM_ROLE_CANDIDATE 1).setFld
      F.FXT_DOM_STAT_STATE st).setFld F.FXT_DOM_STAT_EPOCH 4) with
    blank := some { blank0 with domain := some domRec }
    fxt := { queued.fxt with eps := [(6, desc [(0, 1, 1), (2, 2, 65535), (4, 8, 1)])] }
    dom := { queued.dom with members := [0, 6], leaseEnd := 1500000, attachedUntil := 1500000 } }

/-- The PF on a manager and elsewhere; a shard-map write that changes an entry and one that changes none; a worker that hears a newer map,
an older map, a registry update, a refill. -/
theorem witness_RegistriesAreWrittenAndSpread : queued.pfReady ∧ queued.isManager = false ∧ (inDom 3).pfReady ∧
    (inDom 3).isManager = true ∧ ((inDom 3).putMap ((List.range 4).map fun k => (k, (6#32).toNat / 256 ^ k % 256))).2 ≠ [] ∧
    ((inDom 3).putMap ((List.range 4).map fun k => (k, (0#32).toNat / 256 ^ k % 256))).2 = [] ∧
    (inDom 2).open_ ∧ (inDom 2).inDomain = true ∧ (inDom 2).isManager = false ∧ 6 ≠ (inDom 2).ownPart ∧ (inDom 2).dom.mapVer < 1 :=
  ⟨rfl, by decide +kernel, rfl, by decide +kernel, by decide +kernel, by decide +kernel, ⟨⟨rfl, by decide +kernel⟩, by decide +kernel⟩,
   by decide +kernel⟩
theorem test_ep_write : after (exec (.epWrite 0) ((queued.setFld F.FXT_EP_SEL_NODE 9).setFld F.FXT_EP_DATA_BYTES 5))
    (fun t => t.ep 9 == 5) = true := by decide +kernel
theorem test_ep_load : after (exec (.epLoad 0) ((inDom 3).setFld F.FXT_EP_SEL_NODE 6))
    (fun t => t.fld F.FXT_EP_DATA_BYTES == 0x1FFFF0001) = true := by decide +kernel
theorem test_dom_reg_write_on_the_manager : after (exec (.domRegWrite 0) ((inDom 3).setFld F.FXT_DOM_REG_DATA_BYTES 5))
    (fun t => t.dom.registry == [(0, 5)] && t.fxt.msgs.map (·.dst) == [6]) = true := by decide +kernel
theorem test_dom_reg_load : after (exec (.domRegLoad 0) { inDom 3 with dom := { (inDom 3).dom with registry := [(0, 7)] } })
    (fun t => t.fld F.FXT_DOM_REG_DATA_BYTES == 7) = true := by decide +kernel
theorem test_shard_map_write : after (exec (.shardMapWrite 0 0 6) (inDom 3))
    (fun t => t.dom.mapVer == 1 && t.shardHome 0 == 6) = true := by decide +kernel
theorem test_map_update : after (exec (.mapUpdate 6 1 [6]) (inDom 2)) (fun t => t.dom.mapVer == 1 && t.shardHome 0 == 6) = true := by
  decide +kernel
theorem test_reg_update : after (exec (.regUpdate 6 [(9, 5)] [(1, 7)]) (inDom 2))
    (fun t => t.ep 9 == 5 && t.dom.registry == [(1, 7)]) = true := by decide +kernel
theorem test_refill_request : after (exec (.refill 6 6) (inDom 2))
    (fun t => t.fld F.FXT_DOM_STAT_REFILL == 1 && t.fxt.msgs.map (·.carry) == [.svc (.refillReply 6)]) = true := by decide +kernel
theorem test_refill_done : after (exec .homeRefillDone ((inDom 2).setFld F.FXT_DOM_STAT_REFILL 1))
    (fun t => t.fld F.FXT_DOM_STAT_REFILL == 0) = true := by decide +kernel

/-- A bucket above the size that the data registers give; contexts without repetition; a sample to load, and CLEAR for each kind. -/
theorem witness_EgressSettingsAndSamples : queued.pfReady ∧ (queued.ctxs.map (·.r.ctx)).Nodup ∧ 0 ∈ queued.ctxs.map (·.r.ctx) ∧
    (0x2000#32).toNat / 8192 % 2 = 1 ∧ (0x3000#32).toNat / 4096 % 2 = 1 ∧ (0x1000#32).toNat / 8192 % 2 = 0 := ⟨rfl, by decide +kernel⟩
theorem test_egs_sub_write : after (exec (.egsSubWrite 0) ((queued.setFld F.EGS_SUB_SEL_SUB 3).setFld F.EGS_SUB_DATA0_CIR 100))
    (fun t => (t.egsSub 3).cir == 100) = true := by decide +kernel
theorem test_egs_sub_load : after (exec (.egsSubLoad 0) (queued.setFld F.EGS_SUB_SEL_SUB 3))
    (fun t => t.fld F.EGS_SUB_DATA0_CIR == (queued.egsSub 3).cir) = true := by decide +kernel
theorem test_egs_svc_write : after (exec (.egsSvcWrite 0) ((queued.setFld F.EGS_SVC_SEL_SVC 9).setFld F.EGS_SVC_DATA0_PIR 100))
    (fun t => (t.egsSvc 9).pir == 100 && (t.egsSvc 9).service == 0) = true := by decide +kernel
theorem test_egs_svc_load : after (exec (.egsSvcLoad 0) queued)
    (fun t => t.fld F.EGS_SVC_DATA0_PIR == (queued.egsSvc 0).pir) = true := by decide +kernel
theorem test_egs_sample : after (exec .egsSample queued) (fun t => (spGet Sample.zero t.egs.subSmp 0).count == 1) = true := by decide +kernel
theorem test_egs_sample_clear : after (exec (.egsSampleSelect 0 0x2000)
      { queued with egs := { queued.egs with subSmp := [(0, ⟨5, 6, 7, 8⟩)] } })
    (fun t => t.fld F.EGS_SAMPLE_DATA0_DEPTH_MAX == 5 && t.egs.subSmp == []) = true := by decide +kernel

def msg1 : TxMsg :=
  { dst := 9, msgid := 0, ctx := 0, cmd := none, adm := 0, firing := 0, hold := false, pace := false, carry := .data 1 0 [7] none,
    sent := false, left := 0, sentAt := 0, tries := 0, busy := none, cover := none, got := [] }
/-- MACsec of interface 0, with a live receive association. -/
def mka1 : MacSec := { iface := 0, cak := 7, rekeyS := 1, no := 1, at_ := 0, txAn := 0, txPn := 4, rx := [⟨0, 0⟩] }
/-- The interface that mode 0 gives port 0 is up and secured. -/
def wired : State :=
  { peered.setFld F.ETH_LINK_STAT_UP 1 with
    sec := { peered.sec with mka := [mka1] }
    fxt := { peered.fxt with msgs := [msg1], cached := [9], regions := [region1] } }
def queuedPkt : QPkt :=
  { iface := 0, sub := 0, len := 100, at_ := 0, dst := 9, msgid := 0, body := .pkt { typ := .write, src := 0, dst := 9, domain := 0 } }
def egressed : State := { wired with egs := { wired.egs with queue := [queuedPkt] } }
def ratedDest : Dest := { node := 9, next := 1, rate := some 5, decAt := 0, quiet := 4, turn := 0, freeAt := 0 }

/-- A message that may leave and whose destination is cached, and not cached; a packet to pick and none; a rate; a plan whose level changed. -/
theorem witness_MessagesLeave : wired.msg? 9 0 = some msg1 ∧ wired.maySend msg1 = true ∧ 9 ∈ wired.fxt.cached ∧
    9 ∉ ({ wired with fxt := { wired.fxt with cached := [] } } : State).fxt.cached ∧
    ({ wired with fxt := { wired.fxt with cached := [] } } : State).cacheRoom 9 = some [9] ∧
    wired.dead = false ∧ egressed.ifaceUp 0 = true ∧ (egressed.pickPacket 0).2 = some queuedPkt ∧ (wired.pickPacket 0).2 = none ∧
    (({ wired with fxt := { wired.fxt with dests := [ratedDest] } } : State).dest 9).rate = some 5 ∧
    planned.att.plans.find? (fun x => x.id == ⟨0, 9⟩) = some plan1 ∧ plan1.pace = true ∧ plan1.lastLevel ≠ planned.level := by
  decide +kernel
theorem test_message_send : after (exec (.messageSend 9 0) wired) (fun t => t.fxt.msgs.map (·.sent) == [true]) = true := by decide +kernel
theorem test_dest_cache_load : after (exec (.destCacheLoad 9) { wired with fxt := { wired.fxt with cached := [] } })
    (fun t => t.fxt.cached == [9] && t.fxt.msgs.map (·.sent) == [true] && t.fld F.FXT_DEST_STAT_MISSES == 1) = true := by decide +kernel
theorem test_egs_packet : after (exec (.egsPacketSelect 0) egressed)
    (fun t => t.egs.queue == [] && t.host.out.length == 1) = true := by decide +kernel
theorem test_rate_increase : after (exec (.ccRateIncrease 9) { wired with fxt := { wired.fxt with dests := [ratedDest] } })
    (fun t => (t.dest 9).quiet == t.cycles) = true := by decide +kernel
theorem test_pace_notice : after (exec (.paceNoticeSend ⟨0, 9⟩) planned)
    (fun t => t.fxt.msgs.map (·.dst) == [6] && t.att.plans.map (·.paceSeq) == [1]) = true := by decide +kernel

/-- A packet for region 1 of this part, in at interface 0. -/
def pkt (t : PktType) (load : List Byte) : Packet :=
  { typ := t, src := 9, dst := wired.node, domain := wired.fld F.FXT_NODE_DOMAIN, rkey := 4096, mlen := load.length, payload := load }
def frame (p : Packet) : RxFrame := { iface := 0, bytes := p.bytes }

/-- Frames of each type that are heard; one without MACsec; a duplicate; a part in HOLD; a write beyond its region. -/
theorem witness_PacketsAreTaken :
    wired.listening ∧ (wired.linkCheck { frame (pkt .write [1]) with sectag := none }).isSome = true ∧
    (∃ u, (wired.heardPn (frame (pkt .write [1]))).incCheck (pkt .write [1]) = some u ∧ wired.linkCheck (frame (pkt .write [1])) = none ∧
      (u.fld F.GLB_PM_STAT_STATE != 1 && u.asleep == false && u.dup? 9 0 == none && u.filterRoom.isSome && u.reasm? 9 0 == none &&
        decide (u.fxt.reasm.length < 8192) && (u.regionCheck (pkt .write [1]) 1 true).isOk &&
        !(u.regionCheck { pkt .write [1] with roff := 4096 } 1 true).isOk) = true) ∧
    wired.tstFab 0 false = false ∧ region1.hostMem = false ∧ (pkt .write [1]).payload ≠ [] ∧
    (∃ u, ({ wired with fxt := { wired.fxt with filter := [⟨9, 0, 1, 0⟩] } } : State).incCheck (pkt .write [1]) = some u ∧
      ((u.dup? 9 0).map (·.st) == some 1) = true) ∧
    (wired.setFld F.GLB_PM_STAT_STATE 2).asleep = true :=
  ⟨⟨rfl, by decide +kernel⟩, by decide +kernel,
   (found (o := (wired.heardPn (frame (pkt .write [1]))).incCheck (pkt .write [1])) (by decide +kernel)).imp fun _ h => ⟨h.1, by decide +kernel, h.2⟩,
   by decide +kernel, by decide +kernel, by decide +kernel, found (by decide +kernel), by decide +kernel⟩
/-- A host region whose translation fails. -/
def unplaceable : State :=
  { wired with fxt := { wired.fxt with regions := [{ region1 with hostMem := true, addr := 0x5000 }] },
               host := { wired.host with xlatFail := [(0, 0x5000, 0x5FFF)] } }
/-- A service message of a listed code, one of none; a write of a byte that cannot be placed. -/
theorem witness_packet_services : (pkt .service [1, 0, 0, 0]).svcUnknown = false ∧ (pkt .service [0xEE, 0, 0, 0]).svcUnknown = true ∧
    (unplaceable.regionCheck (pkt .write [1]) 1 true).isOk = true ∧
    (unplaceable.setDup 9 0 0 0).xlatOk ((unplaceable.setDup 9 0 0 0).funcOf 0) (0x5000 + (pkt .write [1]).roff) 1 = false ∧
    (unplaceable.incCheck (pkt .write [1])).any (fun u => u.filterRoom.isSome && u.reasm? 9 0 == none) = true := by decide +kernel
theorem test_packet_is_placed : after (exec (.packetRx (frame (pkt .write [1, 2]))) wired)
    (fun t => t.fxt.mem == [(regionKey 1 0, 1), (regionKey 1 1, 2)] && t.fxt.filter.map (·.st) == [1]) = true := by decide +kernel
theorem test_packet_unprotected : after (exec (.packetRx { frame (pkt .write [1]) with sectag := none }) wired)
    (fun t => t.fxt.mem == [] && t.fld F.ETH_MACSEC_STAT_UNPROTECTED == 1) = true := by decide +kernel
theorem test_ack : after (exec (.ack (frame (pkt .ack []))) { wired with fxt := { wired.fxt with msgs := [{ msg1 with sent := true }] } })
    (fun t => t.fxt.msgs == []) = true := by decide +kernel
theorem test_nak : after (exec (.nak (frame { pkt .nak [] with status := St.badHandle }))
      { wired with fxt := { wired.fxt with msgs := [{ msg1 with sent := true }] } })
    (fun t => t.fxt.msgs == []) = true := by decide +kernel
theorem test_read_req_beyond_the_region : after (exec (.readReq (frame { pkt .readReq [] with roff := 4096, mlen := 1 })) wired)
    (fun t => t.fld F.FXT_RX_STAT_REFUSED == 1) = true := by decide +kernel
theorem test_read_resp_of_nothing : after (exec (.readResp (frame (pkt .readResp [1]))) wired)
    (fun t => t.fxt.msgs == [msg1] && t.fxt.mem == []) = true := by decide +kernel

/-- A message sent, not yet out of tries and out of tries; a read; one told to come again; a record of reassembly. -/
def timedMsg (tries : Nat) (c : Carry) (b : Option (Nat × Nat)) : State :=
  { wired with fxt := { wired.fxt with msgs := [{ msg1 with sent := true, tries := tries, carry := c, busy := b }],
                                       reasm := [⟨9, 1, [], false, 0, 0⟩] } }
theorem witness_TransportTimers :
    (timedMsg 0 msg1.carry none).msg? 9 0 = some { msg1 with sent := true, tries := 0, busy := none } ∧
    { msg1 with sent := true }.timed = true ∧ { msg1 with sent := true }.isRead = false ∧
    0 < wired.fld F.FXT_RETX_CFG_RETRY_MAX ∧ ¬ 255 < wired.fld F.FXT_RETX_CFG_RETRY_MAX ∧
    ({ msg1 with carry := .read 1 0 1 false 0 0 }).isRead = true ∧
    ((timedMsg 0 msg1.carry (some (3, 5))).msg? 9 0).map (·.busy) = some (some (3, 5)) ∧
    (timedMsg 0 msg1.carry none).reasm? 9 1 = some ⟨9, 1, [], false, 0, 0⟩ := by decide +kernel
theorem test_retx : after (exec (.retxTimeout 9 0) (timedMsg 0 msg1.carry none)) (fun t => t.fxt.msgs.map (·.tries) == [1]) = true := by
  decide +kernel
theorem test_retx_gives_up : after (exec (.retxTimeout 9 0) (timedMsg 255 msg1.carry none))
    (fun t => t.fxt.msgs == [] && t.fld F.FXT_TX_STAT_UNREACHABLE == 1) = true := by decide +kernel
theorem test_busy_resend : after (exec (.busyResend 9 0) (timedMsg 0 msg1.carry (some (3, 5))))
    (fun t => t.fxt.msgs.map (·.busy) == [some (3, 0)]) = true := by decide +kernel
theorem test_busy_time : after (exec (.busyTimeExpire 9 0) (timedMsg 0 msg1.carry (some (3, 5))))
    (fun t => t.fxt.msgs == []) = true := by decide +kernel
theorem test_read_retry_of_a_write : after (exec (.readRetry 9 0) (timedMsg 0 msg1.carry none))
    (fun t => t.fxt.msgs.map (·.tries) == [0]) = true := by decide +kernel
theorem test_reasm_timeout : after (exec (.reasmTimeout 9 1) (timedMsg 0 msg1.carry none)) (fun t => t.fxt.reasm == []) = true := by
  decide +kernel

/-- An interface of the port's mode, up and down, and one that mode 0 does not give; a key; PFC on and off, each priority's ends. -/
theorem witness_InterfacesChange : wired.ifaceExists 0 = true ∧ wired.ifaceExists 1 = false ∧ wired.fld F.ETH_LINK_STAT_UP 0 = 1 ∧
    queued.fld F.ETH_LINK_STAT_UP 0 = 0 ∧ wired.pfReady ∧
    wired.listening ∧ wired.fld F.ETH_PORT_CFG_PFC_EN 0 = 0 ∧ (wired.setFld F.ETH_PORT_CFG_PFC_EN 1).fld F.ETH_PORT_CFG_PFC_EN 0 = 1 ∧
    (wired.setFld F.ETH_PORT_CFG_PFC_PRIO 128).fld F.ETH_PORT_CFG_PFC_PRIO 0 / 2 ^ 7 % 2 = 1 :=
  ⟨by decide +kernel, by decide +kernel, by decide +kernel, by decide +kernel, rfl, ⟨rfl, by decide +kernel⟩,
   by decide +kernel⟩
/-- MACsec of an interface before and past packet number 2^62, and an interface without a CAK. -/
theorem witness_mka : wired.mka? 0 = some mka1 ∧ wired.mka? 4 = none ∧ mka1.rx.length ≤ 2 ∧ ¬ 2 ^ 62 < mka1.txPn ∧
    2 ^ 62 < { mka1 with txPn := 2 ^ 62 + 1 }.txPn := by decide +kernel
theorem test_link_up : after (exec (.ethLinkUp 0) queued) (fun t => t.fld F.ETH_LINK_STAT_UP == 1) = true := by decide +kernel
theorem test_link_loss : after (exec (.ethLinkLoss 0) wired)
    (fun t => t.fld F.ETH_LINK_STAT_UP == 0 && t.fld F.ETH_LINK_STAT_FLAPS == 1) = true := by decide +kernel
theorem test_port_mode : after (exec (.portModeWrite 0 0 1) wired)
    (fun t => t.ifaceExists 4 && t.fld F.ETH_LINK_STAT_UP == 0) = true := by decide +kernel
theorem test_mka_rekey : after (exec (.mkaRekey 0) wired)
    (fun t => t.host.out == [.mka 0 2] && t.cycles == cyclesPerS && t.saLive 0) = true := by decide +kernel
theorem test_mka_frame : after (exec (.mkaFrame 0 (some 2)) { wired with sec := { wired.sec with mka := [{ mka1 with rx := [⟨0, 5⟩, ⟨1, 9⟩] }] } })
    (fun t => (t.mka? 0).map (·.rx) == some [⟨1, 9⟩, ⟨2, 0⟩]) = true := by decide +kernel
theorem test_packet_replayed : after (exec (.packetRx (frame (pkt .write [1]))) { wired with sec := { wired.sec with mka := [{ mka1 with rx := [⟨0, 1⟩] }] } })
    (fun t => t.fxt.mem == [] && t.fld F.ETH_MACSEC_STAT_ICV_FAIL == 1) = true := by decide +kernel
theorem test_pfc : after (exec (.pfcFrame 0 [(7, true)]) ((wired.setFld F.ETH_PORT_CFG_PFC_EN 1).setFld F.ETH_PORT_CFG_PFC_PRIO 128))
    (fun t => t.fxt.paused == [(0, 7)]) = true := by decide +kernel

/-! ## The domain -/

theorem listens (n : Nat) (h : ((inDom n).dead == false && (inDom n).fld F.GLB_PM_STAT_STATE != 1) = true) : (inDom n).listening := by
  simp only [Bool.and_eq_true, beq_iff_eq, bne_iff_ne] at h
  exact h

/-- A voter that promised part 7 until cycle 900, was granted epoch 5 by it, and holds a request. -/
def promised : State :=
  { inDom 2 with dom := { (inDom 2).dom with promise := some ⟨7, 900⟩, grants := [(7, 5)], held := [(6, 9, 1)] } }
def electing (st : Nat) : State := { inDom st with dom := { (inDom st).dom with election := some ⟨5, 0, [0], 5⟩ } }

/-- Free and bound; an epoch above the others' and one equal to them; a grant short of the quorum and one that makes it; a candidate apart. -/
theorem witness_VotesAndElections : (inDom 2).listening ∧ (inDom 2).inDomain = true ∧ (inDom 2).isVoter = true ∧ 6 ≠ (inDom 2).ownPart ∧
    promised.boundTo 6 = true ∧ promised.boundTo 7 = false ∧ (inDom 2).boundTo 6 = false ∧ (inDom 2).grantedOther 6 < 1 ∧
    promised.grantedOther 6 = 5 ∧ (electing 4).dom.election = some ⟨5, 0, [0], 5⟩ ∧ (electing 4).quorum = 2 ∧
    (electing 4).isManager = false ∧ (electing 3).isManager = true ∧ (inDom 4).isApart = true ∧ (inDom 2).isApart = false ∧
    (inDom 4).fld F.FXT_DOM_ROLE_CANDIDATE ≠ 0 ∧ (inDom 4).dom.election = none ∧ promised.dom.promise = some ⟨7, 900⟩ ∧
    promised.dom.held.Nodup ∧ (6, 9, 1) ∈ promised.dom.held ∧ (∀ x ∈ promised.dom.held, x ≠ (6, 9, 1) → 1 < x.2.2) :=
  ⟨listens 2 (by decide +kernel), by decide +kernel⟩
/-- Two held requests, and no promise left. -/
def lapsed : State :=
  { inDom 2 with dom := { (inDom 2).dom with promise := none, grants := [(7, 5)], held := [(7, 11, 2), (6, 9, 1)] } }
theorem witness_held_requests : (6, 9, 1) ∈ lapsed.dom.held ∧ (∀ x ∈ lapsed.dom.held, x ≠ (6, 9, 1) → 1 < x.2.2) ∧
    (lapsed.dom.held.map (·.1)).Nodup ∧ lapsed.isVoter = true ∧ lapsed.dom.promise = none ∧ lapsed.dom.holdUntil ≤ lapsed.cycles ∧
    lapsed.grantedOther 6 < 9 ∧ 6 ≠ lapsed.ownPart ∧ promised.dom.held = [(6, 9, 1)] := by decide +kernel
theorem test_lease_req : after (exec (.leaseReq 6 5 1) (inDom 2))
    (fun t => t.dom.grants == [(6, 5)] && t.fxt.msgs.map (·.carry) == [.svc (.leaseGrant 5 5)]) = true := by decide +kernel
theorem test_lease_req_is_held : after (exec (.leaseReq 6 9 1) promised)
    (fun t => t.dom.held == [(6, 9, 1)] && t.fxt.msgs == []) = true := by decide +kernel
theorem test_lease_grant_elects : after (exec (.leaseGrant 6 5 5) (electing 4))
    (fun t => t.isManager && t.epoch == 5 && t.dom.election == none) = true := by decide +kernel
theorem test_election_start : after (exec .electionStart (inDom 4))
    (fun t => t.dom.election.map (·.epoch) == some 5) = true := by decide +kernel
theorem test_election_retry : after (exec .electionRetry (electing 4)) (fun t => t.dom.election.map (·.epoch) == some 6) = true := by
  decide +kernel
theorem test_promise_lapses : after (exec .voterPromiseLapse promised)
    (fun t => t.cycles == 900 && t.dom.held == [] && t.dom.promise.map (·.cand) == some 6) = true := by decide +kernel
theorem test_hold_ends : after (exec .voterHoldEnd { inDom 2 with dom := { (inDom 2).dom with holdUntil := 700 } })
    (fun t => t.cycles == 700 && t.dom.holdUntil == 0) = true := by decide +kernel

/-- A manager within its lease and beyond it; a worker that is named at its epoch, not named, at a higher and a lower epoch; a part apart. -/
theorem witness_HeartbeatsHoldTheDomain : (inDom 3).dead = false ∧ (inDom 3).isManager = true ∧
    ((inDom 3).reach ((inDom 3).dom.hbAt + (inDom 3).leaseL / 4)).cycles < (inDom 3).dom.leaseEnd ∧
    (inDom 2).listening ∧ (inDom 2).isAttached = true ∧ (inDom 4).isAttached = false ∧ (inDom 2).epoch = 4 ∧
    (inDom 2).ownPart ∈ [0, 6] ∧ (inDom 2).ownPart ∉ [6] ∧ (inDom 2).dom.admission = none ∧ (inDom 2).isManager = false ∧ 6 ∈ (inDom 3).voters :=
  ⟨rfl, by decide +kernel, by decide +kernel, listens 2 (by decide +kernel), by decide +kernel⟩
theorem test_heartbeat_timer : after (exec .heartbeatTimer (inDom 3))
    (fun t => t.cycles == 375000 && t.fxt.msgs.map (·.dst) == [6, 7]) = true := by decide +kernel
theorem test_heartbeat_detaches : after (exec (.heartbeat 6 4 100 0 [6]) (inDom 2))
    (fun t => t.fld F.FXT_DOM_STAT_STATE == 4) = true := by decide +kernel
theorem test_heartbeat_attaches : after (exec (.heartbeat 6 5 100 0 [0, 6]) (inDom 4))
    (fun t => t.fld F.FXT_DOM_STAT_STATE == 2 && t.epoch == 5) = true := by decide +kernel
theorem test_hb_ack : after (exec (.hbAck 6 4) (inDom 3)) (fun t => t.dom.hbAcks == [6]) = true := by decide +kernel
theorem test_manager_lease_end : after (exec .managerLeaseEnd (inDom 3))
    (fun t => t.fld F.FXT_DOM_STAT_STATE == 4 && t.cycles == 1500000) = true := by decide +kernel
theorem test_attachment_expires : after (exec .attachmentExpire (inDom 2)) (fun t => t.fld F.FXT_DOM_STAT_STATE == 4) = true := by
  decide +kernel

def rounding (st : Nat) : State := { inDom st with dom := { (inDom st).dom with admission := some ⟨9, 0, [0], [], false⟩ } }

theorem witness_AdmissionRounds : (inDom 3).dead = false ∧ (inDom 3).isManager = true ∧ (inDom 3).dom.admission = none ∧
    6 ≠ (inDom 3).ownPart ∧ 6 ∈ (inDom 3).dom.members ∧ (inDom 3).listening ∧ 7 ∈ (inDom 3).domMembers ∧ 7 ∉ (inDom 3).dom.members ∧
    (rounding 3).dom.admission = some ⟨9, 0, [0], [], false⟩ ∧ 7 ∉ [0] ∧ (inDom 2).listening ∧ (inDom 2).isManager = false ∧
    (inDom 2).epoch < 5 ∧ 4 ≤ (inDom 2).epoch ∧ 6 ∈ (rounding 3).dom.members ∧ (rounding 3).isManager = true :=
  ⟨rfl, by decide +kernel, by decide +kernel, by decide +kernel, by decide +kernel, listens 3 (by decide +kernel), by decide +kernel,
   by decide +kernel, by decide +kernel, by decide, listens 2 (by decide +kernel), by decide +kernel⟩
theorem test_member_lost : after (exec (.memberLost 6) (inDom 3)) (fun t => t.dom.admission.map (·.confirmed) == some [0]) = true := by
  decide +kernel
theorem test_member_lost_in_a_round : after (exec (.memberLost 6) (rounding 3))
    (fun t => t.dom.admission.map (·.lost) == some [6]) = true := by decide +kernel
theorem test_join : after (exec (.join 7 8 2) (inDom 3))
    (fun t => t.dom.admission.map (·.epoch) == some 9) = true := by decide +kernel
theorem test_admit : after (exec (.admitMsg 6 5 [0, 6]) (inDom 2))
    (fun t => t.fld F.FXT_DOM_STAT_ADMITTING == 1 && t.fxt.msgs.map (·.carry) == [.svc (.admitReply 5)]) = true := by decide +kernel
theorem test_admit_reply : after (exec (.admitReply 6 9) (rounding 3)) (fun t => t.dom.admission.map (·.confirmed) == some [0, 6]) = true := by
  decide +kernel
theorem test_admit_window_end : after (exec .admitWindowEnd (rounding 3))
    (fun t => t.epoch == 9 && t.dom.members == [0] && t.dom.admission == none) = true := by decide +kernel

def lookup1 : Lookup :=
  { id := ⟨0, 0⟩, hits := [], searched := 0, cam := 0, dir := 0, incomplete := false, wait := [(3, 2)], query := [], casc := false,
    round := 0, doneAt := 0 }
def pub1 : Publish := { id := ⟨0, 0⟩, anchor := 1, depth := 1, todo := [], last := none, created := 0, batch := some (4, 6, [(1, 77)]) }
/-- A retirement of depth 1 of anchor `h` on, at part 6. -/
def retiring1 (key : RetireKey) : Retiring := { id := ⟨0, 0⟩, key := key, wait := [(5, 6)], count := 0 }
def asking (key : RetireKey) : State :=
  { withCmd (inDom 2) (cmdOf .running (lookupCmd 1 5 []).desc) with
    pxi := { (inDom 2).pxi with anchors := [anchor1], lookups := [lookup1], pubs := [pub1], retires := [retiring1 key] } }
def ownKey : RetireKey := .anchor anchor1.handle 0 1
theorem opens (s : State) (h : (s.dead == false && s.fld F.GLB_PM_STAT_STATE != 1 && s.asleep == false) = true) : s.open_ := by
  simp only [Bool.and_eq_true, beq_iff_eq, bne_iff_ne] at h
  exact ⟨⟨h.1.1, h.1.2⟩, h.2⟩

/-- A member and a part that is none; a lookup, a publication (whose reply creates an entry, or refuses) and a retirement that wait; its
key names an anchor of this part, or a domain. -/
theorem witness_PrefixExchanges : (asking ownKey).open_ ∧ (asking ownKey).acceptsFrom 6 = true ∧ (asking ownKey).acceptsFrom 7 = false ∧
    ((asking ownKey).pxi.lookups.find? fun l => l.wait.any fun w => w.1 == 3) = some lookup1 ∧
    (lookup1.wait.find? fun w => w.1 == 3) = some (3, 2) ∧ (asking ownKey).lookup? ⟨0, 0⟩ = some lookup1 ∧ lookup1.wait ≠ [] ∧
    ((asking ownKey).pxi.pubs.find? fun y => (y.batch.map (·.1)) == some 4) = some pub1 ∧ pub1.batch = some (4, 6, [(1, 77)]) ∧
    (asking ownKey).anchor? pub1.anchor = some anchor1 ∧ (pub1.replies 0 [(1, 77)] [St.ok] [0]).2 = none ∧
    (pub1.replies 0 [(1, 77)] [St.noSpace] [0]).2 = some St.noSpace ∧
    (((asking ownKey).scanEnd 5 false).pxi.retires.find? fun y => y.wait.any fun w => w.1 == 5) = some (retiring1 ownKey) ∧
    ((retiring1 ownKey).wait.find? fun w => w.1 == 5) = some (5, 6) ∧ ((asking ownKey).scanEnd 5 false).anchor? anchor1.handle = some anchor1 ∧
    (((asking ownKey).scanEnd 5 false).keyDepth ownKey anchor1).isSome = true ∧
    (((asking (.domain 1 5 true)).scanEnd 5 true).pxi.retires.find? fun y => y.wait.any fun w => w.1 == 5) =
      some (retiring1 (.domain 1 5 true)) :=
  ⟨opens _ (by decide +kernel), by decide +kernel⟩
theorem test_lookup_req : after (exec (.lookupReq 6 3 1 5 false []) (inDom 2))
    (fun t => t.fxt.msgs.map (·.carry) == [.svc (.lookupResp 3 0 [])]) = true := by decide +kernel
theorem test_lookup_resp : after (exec (.lookupResp 6 3 ⟨0, []⟩) (asking ownKey)) (fun t => t.pxi.lookups == []) = true := by decide +kernel
theorem test_lookup_timeout : after (exec (.remoteLookupTimeout ⟨0, 0⟩) (asking ownKey))
    (fun t => t.pxi.lookups == [] && t.cmds == []) = true := by decide +kernel
theorem test_insert_from_a_stranger : after (exec (.insert 7 3 ⟨false, [⟨77, 1, 5, 1, 1, 7⟩]⟩) (inDom 2)) (fun t => t.pxi.dir == []) = true := by
  decide +kernel
theorem test_insert : after (exec (.insert 6 3 ⟨false, [⟨77, 1, 5, 1, 1, 6⟩]⟩) (inDom 2))
    (fun t => t.pxi.dir.map (fun e => (e.digest, e.apart)) == [(77, 6)]) = true := by decide +kernel
theorem test_insert_reply : after (exec (.insertReply 6 4 [St.ok] [0]) (asking ownKey))
    (fun t => t.pxi.anchors.map (·.remote) == [[(1, 6)]]) = true := by decide +kernel
theorem test_retire_message : after (exec (.retire 6 3 (.anchor 2 0 1)) (asking ownKey))
    (fun t => t.fxt.msgs.map (·.carry) == [.svc (.retireReply 3 St.ok 0)]) = true := by decide +kernel
theorem test_retire_reply : after (exec (.retireReply 6 5 St.ok 2) (asking ownKey)) (fun t => t.cmds == []) = true := by decide +kernel
theorem test_trim_from_a_stranger : after (exec (.trim 7 [(1, 1)]) (asking ownKey)) (fun t => t.pxi == (asking ownKey).pxi) = true := by
  decide +kernel

/-- Anchor 1 has frame 3 as its first page; part 6 forks from it; frame 8 is a proxy of part 6's frame 30. -/
def proxy8 : Frame := { frameOf 8 .dirtyT1 with peer := some (6, 30) }
def shared : State :=
  { inDom 2 with
    seq := paged.seq
    tier := { paged.tier with frames := paged.tier.frames ++ [proxy8], owed := [(6, [30])] }
    pxi := { (inDom 2).pxi with anchors := [{ anchor1 with ptes := [pteOf 0 3] }] }
    dom := { (inDom 2).dom with rowPins := [(6, 2, 1)], exports := [⟨⟨0, 0⟩, 1, 0, 0, 0, 3, 7, 6⟩], rows := [⟨⟨0, 0⟩, 5, false⟩] } }
def page (f : Nat) (export_ : Bool) : PageBody :=
  { spfh := f, tiles := 4, version := 7, mprof := 5, isSealed := false, isExport := export_, ldec := 4096, set := 0, checks := [], data := [],
    spart := 0, inc := 0, sealNo := 0 }
/-- The command that waits for the rows. -/
def forking : State := withCmd shared (cmdOf .running (forkCmd 16).desc)

/-- A live reference and one that names nothing; rows that come for a fork; pins to give back; pages in T1 that verify, and fail by
TST_TILE_FAIL, in T2 and gone; proxies that promote and do not; an export that fits and one whose page has another version; references
owed. -/
theorem witness_PageExchanges : shared.open_ ∧ (shared.liveRef 0x100000001).isSome = true ∧ shared.liveRef 0 = none ∧
    shared.prof? 5 = some prof5 ∧ (∃ r ∈ shared.dom.rowPins, r.1 = 6 ∧ r.2.1 = 2) ∧ (∀ r ∈ shared.dom.rowPins, ¬ (r.1 = 6 ∧ r.2.1 = 3)) ∧
    (forking.dom.rows.find? fun y => y.req == 5) = some ⟨⟨0, 0⟩, 5, false⟩ ∧ ((forking.dropRows_ 5).cmd? ⟨0, 0⟩).isSome = true ∧
    ((forking.dropRows_ 5).ctx? 0).any (fun x => x.sdomOk 1 && (forking.dropRows_ 5).forkCheck x 5 16 16 == none) = true ∧
    (forking.dropRows_ 5).framesFit ((forking.dropRows_ 5).newProxies 6 [⟨0, 0, 0, 40, 7, .cleanT1⟩]) = true ∧
    ((shared.frame? 3).bind shared.holder?) = some (frameOf 3 .cleanT1) ∧
    (shared.verifyCopy (frameOf 3 .cleanT1) .t1 (shell 3) none).2 = none ∧
    ((((shared.setFld F.TST_TILE_FAIL_MODE 1).setFld F.TST_TILE_FAIL_TIERS 2).setFld F.TST_TILE_FAIL_COUNT 1).verifyCopy
      (frameOf 3 .cleanT1) .t1 (shell 3) none).2.isSome = true ∧
    ((shared.frame? 4).bind shared.holder?) = some (frameOf 4 .t2Only) ∧ (frameOf 4 .t2Only).readOk = false ∧
    (frameOf 4 .t2Only).reading = false ∧ (shared.frame? 99).bind shared.holder? = none ∧
    (page 30 true).isExport = true ∧ shared.proxyFor 6 30 = some proxy8 ∧ proxy8.prom = false ∧
    (shared.dom.exports.find? fun e => e.pfh == 3 && e.peer == 6) = some ⟨⟨0, 0⟩, 1, 0, 0, 0, 3, 7, 6⟩ ∧
    shared.exportFits ⟨⟨0, 0⟩, 1, 0, 0, 0, 3, 7, 6⟩ (frameOf 3 .cleanT1) = true ∧
    shared.exportFits ⟨⟨0, 0⟩, 1, 0, 0, 0, 3, 6, 6⟩ (frameOf 3 .cleanT1) = false ∧
    (∃ o ∈ shared.tier.owed, o.1 = 6) ∧ (∀ o ∈ shared.tier.owed, o.1 ≠ 7) ∧
    spGet 0 { frameOf 3 .cleanT1 with remote := [(6, 1)] }.remote 6 ≠ 0 :=
  ⟨opens _ (by decide +kernel), by decide +kernel⟩
theorem test_rows_req : after (exec (.rowsReq 6 9 0x100000001 16) shared) (fun t => t.dom.rowPins == [(6, 2, 1), (6, 9, 1)]) = true := by
  decide +kernel
theorem test_rows_resp_fails : after (exec (.rowsResp 6 5 St.badHandle 0 0 ⟨[], []⟩) forking)
    (fun t => t.cmds == [] && t.dom.rows == []) = true := by decide +kernel
theorem test_rows_done : after (exec (.rowsDone 6 2 1 [3]) shared)
    (fun t => t.dom.rowPins == [] && (t.frame? 3).map (·.remote) == some [(6, 1)]) = true := by decide +kernel
theorem test_page_req_of_nothing : after (exec (.pageReq 6 99 1) shared)
    (fun t => t.fxt.msgs.map (·.carry) == [.svc (.pageData (noPage 99 1))]) = true := by decide +kernel
theorem test_page_req_reads_flash : after (exec (.pageReq 6 4 7) shared) (fun t => (t.frame? 4).map (·.ladder) == some 1) = true := by
  decide +kernel
theorem test_page_data_unasked : after (exec (.pageData 6 (page 30 false)) shared) (fun t => t.tier == shared.tier) = true := by
  decide +kernel
theorem test_page_ack : after (exec (.pageAck 6 3 40 St.badField) shared) (fun t => t.dom.exports == []) = true := by decide +kernel
theorem test_ref_release : after (exec (.refRelease 6 [3]) (shared.setFrame 3 fun f => { f with refs := 2, remote := [(6, 1)] }))
    (fun t => (t.frame? 3).map (fun f => (f.refs, f.remote)) == some (1, [])) = true := by decide +kernel
theorem test_ref_release_retry : after (exec (.refReleaseRetry 6) shared)
    (fun t => t.fxt.msgs.map (·.carry) == [.svc (.refRelease [30])]) = true := by decide +kernel

/-- A cascade of four parts in which this one has position 1; `o` holds the claim. -/
def cascaded (o : Option Nat) : State :=
  { ((((inDom 2).setFld F.PXI_PART_ID_IN_CASCADE 1).setFld F.PXI_CASC_CFG_ENABLE 1).setFld F.PXI_CASC_CFG_POSITION 1).setFld
      F.PXI_CASC_PARTS_PART_2 6 with
    pxi := { (inDom 2).pxi with casc := { Casc.reset with owner := o, await := true },
                                lookups := [{ lookup1 with wait := [], casc := true }] } }

/-- The lookup that waits for its round, and its command. -/
def cascLookup : Lookup := { lookup1 with wait := [], casc := true }
def claiming : State := withCmd (cascaded none) (cmdOf .running (lookupCmd 1 5 []).desc)
/-- A strobe that droops beyond STB_TIMEOUT; a query of the round that has not arrived. -/
def drooping : State := (cascaded (some 1)).setFld F.TST_CASC_DROOP_STRETCH 65535
def unheard : State :=
  { cascaded (some 1) with fxt := { (cascaded (some 1)).fxt with msgs := [{ msg1 with carry := .svc (.cascQuery 0 1 5 1 false []) }] } }
/-- A member that keeps a match for the round of part 6. -/
def keeping : State := (cascaded (some 2)).setCasc fun c => { c with kept := [⟨6, 3, 9, [⟨1, 0x100000001#64⟩], 1000⟩], round := 3 }

/-- A free line with rivals above and below; a lookup that waits for its round, and one that asks for none; this part's claim, another's; parts
before and after this one. -/
theorem witness_CascadeRounds : (cascaded none).open_ ∧
    (claiming.cmd? ⟨0, 0⟩ = some (cmdOf .running (lookupCmd 1 5 []).desc) ∧ claiming.pxi.casc.owner = none ∧ claiming.inCascade = true ∧
      claiming.lookup? ⟨0, 0⟩ = some cascLookup ∧ cascLookup.casc = true ∧ (claiming.ctx? 0).isSome = true ∧ claiming.cascPos = 1) ∧
    ((cascaded (some 1)).pxi.casc.owner = some (cascaded (some 1)).cascPos ∧ (cascaded (some 2)).pxi.casc.owner = some 2 ∧
      2 ≠ (cascaded (some 2)).cascPos ∧ (cascaded none).fld F.PXI_CASC_CFG_ENABLE ≠ 0) ∧
    ((cascaded none).fld F.TST_CASC_DROOP_HOLD_RDY = 0 ∧ (cascaded none).asleep = false ∧ (cascaded (some 1)).pxi.casc.rdy = false ∧
      (cascaded none).pxi.casc.round = 0 ∧ keeping.pxi.casc.round ≠ 0 ∧ (cascaded none).pxi.casc.await = true) ∧
    ((cascaded (some 1)).queryOut = false ∧ unheard.queryOut = true ∧
      max 1 (drooping.fld F.PXI_CASC_CFG_STB_TIMEOUT) * 1000 < drooping.fld F.TST_CASC_DROOP_STRETCH ∧
      ¬ max 1 ((cascaded (some 1)).fld F.PXI_CASC_CFG_STB_TIMEOUT) * 1000 < (cascaded (some 1)).fld F.TST_CASC_DROOP_STRETCH) :=
  ⟨opens _ (by decide +kernel), by decide +kernel⟩
/-- A member contends with what it keeps for the round of part 6; the initiator without a hit does not. -/
theorem witness_contenders : keeping.pxi.casc.owner = some 2 ∧ keeping.cascPart 2 = 6 ∧
    keeping.contender = some ⟨1, 0x100000001#64⟩ ∧ (cascaded (some 1)).contender = none := by decide +kernel
/-- A cursor whose next match this part contends with in a PXI_NEXT round. -/
theorem witness_casc_step : (withCmd { cascaded none with pxi := { (cascaded none).pxi with
      lookups := [], cursors := [{ cursor1 with casc := some (3, 9) }] } } (cmdOf .running (nextCmd 0).desc)).stepCursor?
        (cmdOf .running (nextCmd 0).desc) = some { cursor1 with casc := some (3, 9) } := by decide +kernel
theorem test_claim : after (exec (.cascClaim ⟨⟨0, 0⟩, [0]⟩) claiming)
    (fun t => t.pxi.casc.owner == some 1 && t.fld F.PXI_CASC_STAT_ROUNDS == 1) = true := by decide +kernel
theorem test_claim_lost : after (exec (.cascClaim ⟨⟨0, 0⟩, [2]⟩) claiming)
    (fun t => t.pxi.casc.owner == none && t.fld F.PXI_CASC_STAT_CLAIMS_LOST == 1) = true := by decide +kernel
theorem test_claim_observed : after (exec (.cascClaimObserved ⟨2, 7⟩) (cascaded none))
    (fun t => t.pxi.casc.owner == some 2 && t.pxi.casc.round == 7) = true := by decide +kernel
theorem test_claim_observed_too_late : after (exec (.cascClaimObserved ⟨0, 7⟩) (cascaded (some 1))) (fun t => t.pxi.casc.owner == some 1) = true := by
  decide +kernel
theorem test_casc_query : after (exec (.cascQuery ⟨6, 3⟩ 1 5 16777215 false []) (cascaded (some 2)))
    (fun t => t.pxi.casc.kept.map (fun x => (x.src, x.req, x.lim, x.hits)) == [(6, 3, 16777216, [])]) = true := by decide +kernel
theorem test_member_done : after (exec .cascMemberSearchDone ((cascaded (some 2)).setCasc fun c => { c with rdy := true, round := 3 }))
    (fun t => t.pxi.casc.rdy == false) = true := by decide +kernel
theorem test_arbitration_lost : after (exec (.cascArbitration [(9, 2)]) (cascaded (some 1))) (fun t => t.pxi.casc.await) = true := by
  decide +kernel
theorem test_casc_result_unasked : after (exec (.cascResult 6 1) ((cascaded (some 1)).setCasc fun c => { c with await := false }))
    (fun t => t.pxi.lookups.length == 1) = true := by decide +kernel
theorem test_rdy_timeout : after (exec .cascRdyTimeout (cascaded (some 1))) (fun t => t.fld F.PXI_CASC_STAT_TIMEOUTS == 1) = true := by
  decide +kernel
theorem test_strobe_timeout : after (exec .cascStrobeTimeout (cascaded (some 2))) (fun t => t.pxi.casc.rdy == false) = true := by
  decide +kernel
theorem test_stuck_claim : after (exec .cascStuckClaim (cascaded (some 2)))
    (fun t => t.fld F.PXI_CASC_STAT_STUCK == 1 && t.pxi.casc.stuck) = true := by decide +kernel
theorem test_claim_released : after (exec .cascClaimReleased (cascaded (some 2))) (fun t => t.pxi.casc.owner == none) = true := by
  decide +kernel

/-! ## Tiers, flash, journal -/

def frame5 : Frame :=
  { frameOf 5 .promoting with readOk := true, t2 := some (inFlash 5), fill := [16 * 262144 + 5] }
def frame6 : Frame := { frameOf 6 .t2Only with ladder := 1 }
def frame7 : Frame := { frameOf 7 .cleanT1 with reread := some .t2, ladder := 1, t2 := some (inFlash 7) }
def frame8 : Frame := { frameOf 8 .cleanT1 with reread := some .t1, t2 := some (inFlash 8) }
def pgm9 : Program := { kind := .writeBack, ver := 7, dest := inFlash 9 }
def frame9 : Frame := { frameOf 9 .dirtyT1 with prog := some pgm9 }
def frame10 : Frame := { frameOf 10 .dirtyT1 with set := ⟨2, 2, 2⟩ }
/-- One frame of each kind, and a flash of one group. -/
def shelves : State :=
  { paged.setFld F.FLS_GROUPS_POPULATED 1 with
    tier := { paged.tier with
      frames := [{ frameOf 3 .cleanT1 with t2 := some (inFlash 3) }, frameOf 4 .t2Only, frame5, frame6, frame7, frame8, frame9, frame10]
      stripes := [⟨0, 0, 16, [], []⟩] } }

/-- A promotion whose read passed, and a frame that does not promote; a read in flight and none; a re-read of T2 and of T1, which passes or
fails; every step of the ladder; a burl with a second copy; a target with and without a frame. -/
theorem witness_ReadsAndLadder : shelves.frame? 5 = some frame5 ∧ frame5.st = .promoting ∧ frame5.readOk = true ∧
    frame5.t2 = some (inFlash 5) ∧ shelves.frame? 4 = some (frameOf 4 .t2Only) ∧ (frameOf 4 .t2Only).st ≠ .promoting ∧
    shelves.frame? 6 = some frame6 ∧ frame6.reading = true ∧ (frameOf 3 .cleanT1).reading = false ∧ frame7.reread = some .t2 ∧
    shelves.frame? 8 = some frame8 ∧ frame8.reread = some .t1 ∧ frame8.t1 = some (shell 8) ∧
    shelves.verifyCopy frame8 .t1 (shell 8) none = (shelves, none) ∧
    shelves.verifyCopy frame8 .t1 (shell 8) (some .check) = (shelves, some .check) ∧
    frame6.ladder = 1 ∧ { frame6 with ladder := 3, burl := true, t2b := some (inFlash 6) }.copy2 = true ∧
    shelves.fld F.FLS_READ_CFG_RETRY_MAX ≠ 0 ∧ (shelves.setFld F.FLS_READ_CFG_RETRY_MAX 0).fld F.FLS_READ_CFG_RETRY_MAX = 0 ∧
    frame6.t2.any shelves.copyLate = false ∧
    frame6.t2.any (State.copyLate { shelves with tier := { shelves.tier with failedTargets := [(dataChannel 0 0 1, 0)] } }) = true ∧
    63 < 64 ∧ shelves.frame? 99 = none := by decide +kernel
theorem test_promotion : after (exec (.promotionComplete 5) shelves)
    (fun t => (t.frame? 5).map (·.st) == some .cleanT1 && t.fld F.TIER_MOVE_STAT_PROMOTIONS == 1) = true := by decide +kernel
theorem test_flash_read_fails : after (exec (.flashReadComplete 6 .uncorrectable) shelves)
    (fun t => (t.frame? 6).map (·.ladder) == some 2) = true := by decide +kernel
theorem test_flash_read_passes : after (exec (.flashReadComplete 6 .pass) shelves)
    (fun t => (t.frame? 6).map (fun f => (f.ladder, f.readOk)) == some (0, true)) = true := by decide +kernel
theorem test_bad_copy_skips_read_retry : after (exec (.flashReadComplete 6 (.badCopy .check)) shelves)
    (fun t => (t.frame? 6).map (·.ladder) == some 3) = true := by decide +kernel
theorem test_rb_timeout : after (exec (.rbTimeout 63 0 6) shelves)
    (fun t => t.fld F.FLS_GROUPS_FAILED == 8 && (t.frame? 6).map (·.ladder) == some 2) = true := by decide +kernel
theorem test_lower_copy : after (exec (.lowerCopyReadComplete 8 none) shelves)
    (fun t => (t.frame? 8).map (·.reread) == some none) = true := by decide +kernel

/-- A partition that a frame of `n` chunks fills. -/
def crowd (n : Nat) : State :=
  { shelves with tier := { shelves.tier with frames := [{ frameOf 3 .cleanT1 with
      t1 := some { shell 3 with hdr := { (shell 3).hdr with chunk := List.replicate n (16 * 262144) } } }] } }
theorem crowd_used (n : Nat) : (crowd n).t1Used 0 = n := by
  have p : (crowd n).partPcs 0 = shelves.partPcs 0 := rfl
  have t : (crowd n).t1Taken = List.replicate n (16 * 262144) := by
    simp [State.t1Taken, crowd, Frame.t1Chunks, Frame.oldChunks, frameOf, emptyFrame, show shelves.fxt.regions = [] from rfl]
  have m : (shelves.partPcs 0).contains (chunkPc (16 * 262144)) = true := by decide +kernel
  rw [State.t1Used, t, p, List.filter_replicate_of_pos (p := fun c => (shelves.partPcs 0).contains (chunkPc c)) m, List.length_replicate]
theorem witness_partition_below_its_mark :
    (crowd 4194304).t1Free 0 * 100 < min 50 ((crowd 4194304).fld F.TIER_T1_WM_LOW) * (crowd 4194304).t1Total 0 := by
  have t : (crowd 4194304).t1Total 0 = 4194304 := by decide +kernel
  have m : (crowd 4194304).fld F.TIER_T1_WM_LOW = 4 := by decide +kernel
  rw [State.t1Free, crowd_used, t, m]; decide
def waiting (op : Nat) : Cmd := { cmdOf .running (desc [(0, 1, op)]) with alloc := some 7 }

/-- A part with something to commit, and the map as a commit has left it. -/
def shelved : State := { shelves with pxi := { shelves.pxi with anchors := [anchor1] } }
def settled : State := shelved.startCommit.endCommit

/-- A program on the version in force, and on an older one; a page that demotes; a page to write back and one that is not; a partition above
and below its mark; a command of each kind that waits; an error below and at the threshold; both keys; a journal that has nothing to write,
that may begin, and that ends. -/
theorem witness_ProgramsBudgetJournal : shelves.frame? 9 = some frame9 ∧ frame9.prog = some pgm9 ∧ pgm9.ver = frame9.ver ∧
    pgm9.ver ≠ { frame9 with ver := 8 }.ver ∧ pgm9.kind = .writeBack ∧ { frame9 with st := .demoting }.pins = 0 ∧
    frame10.st = .dirtyT1 ∧ frame10.prog = none ∧ frame10.wbAct = 2 ∧ frame10.peer = none ∧
    shelves.canProgram frame10 .writeBack frame10.discretionary = true ∧ frame5.st ≠ .dirtyT1 ∧
    min 50 (shelves.fld F.TIER_T1_WM_LOW) * shelves.t1Total 0 ≤ shelves.t1Free 0 * 100 ∧
    (withCmd queued (waiting Op.attend)).cmd? ⟨0, 0⟩ = some (waiting Op.attend) ∧ (waiting Op.kvAppend).alloc = some 7 ∧
    dOp (waiting Op.attend).desc = Op.attend ∧ dOp (waiting Op.stepPlan).desc = Op.stepPlan ∧
    dOp (waiting Op.pagesPlace).desc = Op.pagesPlace ∧ dOp (waiting Op.kvAppend).desc = Op.kvAppend ∧
    shelves.flashReserve ≤ shelves.flashFree ∧ shelves.frame? 0 = none ∧
    shelves.pcCount 1023 + 1 < max 1 ((shelves.setFld F.HBM_RETIRE_CFG_THRESHOLD 2).fld F.HBM_RETIRE_CFG_THRESHOLD) ∧
    max 1 (shelves.fld F.HBM_RETIRE_CFG_THRESHOLD) ≤ shelves.pcCount 1023 + 1 ∧
    (queued.setFld F.GLB_EXPERT_UNLOCK_UNLOCKED 1).fld F.GLB_EXPERT_UNLOCK_UNLOCKED = 1 ∧ (0x7E710040#32).toNat / 65536 = 0x7E71 ∧
    shelved.mapChanged = true ∧ shelved.flashGroups ≠ [] ∧ shelved.jrnl.busy = none ∧ shelved.startCommit.jrnl.busy.isSome = true := by
  decide +kernel
theorem witness_settled_map : settled.mapChanged = false := by decide +kernel
theorem witness_retire_is_the_pf : (queued.setFld F.GLB_EXPERT_UNLOCK_UNLOCKED 1).pfReady := rfl
theorem test_program_ends : after (exec (.flashProgramComplete 9) shelves)
    (fun t => (t.frame? 9).map (fun f => (f.st, f.t2, f.pgm)) == some (.cleanT1, some (inFlash 9), false)) = true := by decide +kernel
theorem test_program_of_an_old_version : after (exec (.flashProgramComplete 9) (shelves.setFrame 9 fun f => { f with ver := 8 }))
    (fun t => (t.frame? 9).map (fun f => (f.st, f.t2v)) == some (.dirtyT1, false)) = true := by decide +kernel
theorem test_eager_writeback : after (exec (.eagerWritebackStart 10) shelves) (fun t => (t.frame? 10).map (·.pgm) == some true) = true := by
  decide +kernel
theorem test_no_eviction_above_the_mark : after (exec (.t1Eviction 0) shelves) (fun t => t.tier == shelves.tier) = true := by
  decide +kernel
theorem test_eviction_takes_clean_copies : ((shelves.evictTo 0 4194304 (shelves.victims 0)).frame? 3).map (·.st) = some .t2Only := by
  decide +kernel
theorem test_alloc_resume : after (exec (.t1AllocResume 0) (withCmd queued (waiting Op.attend)))
    (fun t => t.cmds.map (·.alloc) == [none]) = true := by decide +kernel
theorem test_alloc_wait_ends : after (exec (.allocWaitExpire ⟨0, 0⟩) (withCmd queued (waiting Op.kvAppend)))
    (fun t => t.cmds == []) = true := by decide +kernel
theorem test_reclaim_with_reserve : after (exec .flashReserveReclaim shelves) (fun t => t.tier.frames.length == 8) = true := by
  decide +kernel
theorem test_credit : after (exec (.creditAccrue 3) shelves)
    (fun t => t.tier.credit == (3 * shelves.fld F.TIER_ENDURANCE_CFG_RATE * 1048576 * 15 : Nat)) = true := by decide +kernel
theorem test_hbm_error : after (exec (.hbmUncorrectable 1023 ⟨0, []⟩) (shelves.setFld F.HBM_RETIRE_CFG_THRESHOLD 2))
    (fun t => t.pcCount 1023 == 1 && t.fld F.HBM_ECC_STAT_UNCORRECTED == 1) = true := by decide +kernel
theorem test_hbm_retired_at_once : after (exec (.hbmUncorrectable 16 ⟨0, [3]⟩) shelves)
    (fun t => t.pcRetired 16 && (t.frame? 3).map (·.st) == some .t2Only) = true := by decide +kernel
theorem test_retire_command : after (exec (.hbmRetireCmd 0 0x7E710040) (queued.setFld F.GLB_EXPERT_UNLOCK_UNLOCKED 1))
    (fun t => t.pcRetired 64) = true := by decide +kernel
theorem test_commit : after (exec .journalCommit shelved)
    (fun t => t.jrnl.busy.map (fun c => (c.num, c.segs.map (·.1))) == some (1, [0])) = true := by decide +kernel
theorem test_commit_ends : after (exec .journalCommitComplete shelved.startCommit)
    (fun t => t.jrnl.busy == none && t.jrnl.num == 1 && t.fld F.FLS_JRNL_STAT_COMMIT_SEQ == 1) = true := by
  decide +kernel

/-! ## Sharing -/

def ctx0 : Ctx := { r := ctxRec 0 0, st := .up }
def tearing (flr : Bool) : State := queued.setCtx 0 fun x => { x with st := .tearing, byFlr := flr }
def downed : State := queued.setCtx 0 fun x => { x with st := .down }
def mount1 : Mount := { cmd := none, mgmt := none, img := blank0, remount := false, pmask := 0, step := 3, ups := [] }
def midMount : State := { queued with boot := { queued.boot with mount := some mount1 } }

theorem witness_ContextsComeAndGo : queued.fld F.SCH_CTX_STAT_BUSY ≠ 1 ∧ queued.asleep = false ∧ queued.ctx? ctx0.r.ctx = some ctx0 ∧
    ctx0.st = .up ∧ downed.ctx? 0 = some { ctx0 with st := .down } ∧
    ((downed.setFld F.SCH_CTX_CMD_CTX 0).setFld F.SCH_CTX_CMD_OP 2).tdiLocked 0 = false ∧
    (downed.bringUp 0).ctx? 0 = some { ctx0 with stats := { since := 0 } } ∧
    (tearing true).ctx? 0 = some { ctx0 with st := .tearing, byFlr := true } ∧
    (tearing false).ctx? 0 = some { ctx0 with st := .tearing } ∧ (∀ k ∈ (tearing false).att.chunks, k.ctx ≠ 0) ∧
    (∀ k ∈ (tearing false).cmds, k.ctx ≠ 0) ∧ (∃ k ∈ (withCmd (tearing false) (cmdOf .running 0)).cmds, k.ctx = 0) ∧
    queued.boot.mount = none ∧ midMount.boot.mount = some mount1 := by decide +kernel
theorem witness_contexts_pf : queued.pfReady ∧ downed.pfReady := ⟨rfl, rfl⟩
theorem test_teardown : after (exec (.teardown 0 0) queued)
    (fun t => (t.ctx? 0).map (·.st) == some .tearing && t.fld F.SCH_CTX_STAT_BUSY == 1) = true := by decide +kernel
theorem test_bringup : after (exec (.bringup 0 0) downed) (fun t => (t.ctx? 0).map (·.st) == some .up) = true := by decide +kernel
theorem test_context_fault : after (exec (.contextFaultTeardown 0) queued)
    (fun t => (t.ctx? 0).map (fun x => (x.st, x.cause)) == some (.tearing, St.contextFaulted) && t.fld F.RAS_ERR_CNT_CONTEXT == 1) =
    true := by decide +kernel
theorem test_release_ends_down : after (exec (.teardownReleaseDone 0) (tearing false)) (fun t => (t.ctx? 0).map (·.st) == some .down) =
    true := by decide +kernel
theorem test_release_ends_up_after_flr : after (exec (.teardownReleaseDone 0) (tearing true)) (fun t => (t.ctx? 0).map (·.st) == some .up) =
    true := by decide +kernel
theorem test_flr : after (exec (.flr 0) queued) (fun t => (t.ctx? 0).map (fun x => (x.st, x.byFlr)) == some (.tearing, true)) = true := by
  decide +kernel
theorem test_flr_waits_for_the_mount : after (exec (.flr 0) midMount) (fun t => t.boot.waitFlr == [0]) = true := by decide +kernel

def group1 (phase : Nat) (o : Option (Nat × Nat)) (ms : List Nat) : SGroup :=
  { r := { group := 1, die := 0, wayFirst := 0, ways := 4, members := ms }, holder := 0, phase := phase, start := 0, len := 5,
    owed := [], out := o, overrun := 0, prio := [] }
def staged (g : SGroup) : State :=
  { paged with
    seq := { paged.seq with parts := [{ partWith 100 2 with r := { partRec with records := 100, sgroup := some 1, slice := 20 } }] }
    sch := { paged.sch with groups := [g] } }

/-- A dedicated group; a shared one at rest, filling, in its grace time, and draining. -/
theorem witness_StagingSwitches : (staged (group1 0 none [0])).group? 1 = some (group1 0 none [0]) ∧ (group1 0 none [0]).holderPart = some 0 ∧
    (group1 0 none [0]).r.members.length ≤ 1 ∧ 1 < (group1 0 none [0, 1]).r.members.length ∧
    (∀ o, (group1 0 none [0, 1]).out = some o → o.2 ≠ 7500) ∧ (group1 3 none [0, 1]).phase = 3 ∧
    (group1 1 (some (0, 7500)) [0, 1]).out = some (0, 7500) ∧ (staged (group1 1 (some (0, 7500)) [0, 1])).boundary 0 = true ∧
    (staged (group1 1 (some (0, 7500)) [0, 1])).drained 0 = true :=
  ⟨by decide +kernel, by decide +kernel, by decide +kernel, by decide +kernel, by simp [group1], by decide +kernel, by decide +kernel,
   by decide +kernel, by decide +kernel⟩
theorem test_slice_ends : after (exec (.sliceEnd 1) (staged (group1 0 none [0, 1])))
    (fun t => (t.group? 1).map (fun g => (g.holder, g.phase)) == some (1, 3) && t.cycles == 7500) = true := by decide +kernel
theorem test_dedicated_group_stays : after (exec (.sliceEnd 1) (staged (group1 0 none [0])))
    (fun t => (t.group? 1) == some (group1 0 none [0])) = true := by decide +kernel
theorem test_grace_ends : after (exec (.graceExpire 1) (staged (group1 1 (some (0, 7500)) [0, 1])))
    (fun t => (t.group? 1).map (·.phase) == some 3) = true := by decide +kernel
theorem test_staging_fill : after (exec (.stagingFillDone 1) (staged (group1 3 none [0, 1])))
    (fun t => (t.group? 1).map (·.phase) == some 0) = true := by decide +kernel

/-! ## Faults -/

def deadPart : State := { queued with dead := true }
def onAe (n : Nat) : State := { chunked (.running 3) with att := { (chunked (.running 3)).att with
  chunks := (chunked (.running 3)).att.chunks.map fun k => { k with errors := n } } }

theorem witness_FaultsAreContained : queued.dead = false ∧ deadPart.dead = true ∧ queued.pwr.thermtrip = false ∧ 3 ≤ 7 ∧
    queued.aeOnline 255 = true ∧ (∀ k ∈ queued.att.chunks, k.st ≠ .running 255) ∧
    ((onAe 1).att.chunks.find? fun k => k.st == .running 3).map (·.errors) = some 1 ∧
    ((onAe 2).att.chunks.find? fun k => k.st == .running 3).map (·.errors) = some 2 ∧
    (onAe 2).chunkCounts { chunk0 (.running 3) with errors := 2 } = true ∧
    queued.ccOnline 127 = true ∧
    (((queued.setFld F.RAS_CC_ONLINE_ONLINE 1 0).setFld F.RAS_CC_ONLINE_ONLINE 0 1).ccOnline 0) = true ∧
    (queued.coreError 0).2 = false ∧ ((queued.setFld F.RAS_CFG_CE_FENCE 1).coreError 0).2 = true := by decide +kernel
theorem test_device_error : after (exec (.deviceError 2 1) (withCmd queued (cmdOf .waiting 0)))
    (fun t => t.dead && t.fld F.RAS_DEVICE_ERR_CAUSE == 2 && t.cmds == []) = true := by decide +kernel
theorem test_second_device_error : after (exec (.deviceError 2 1) deadPart) (fun t => t.fld F.RAS_DEVICE_ERR_CAUSE == 0) = true := by
  decide +kernel
theorem test_d2d : after (exec (.d2dLinkFailure 1) queued) (fun t => t.fld F.RAS_DEVICE_ERR_CAUSE == 1 &&
    t.fld F.RAS_DEVICE_ERR_DIE == 1) = true := by decide +kernel
theorem test_sysclk : after (exec .sysclkFault queued) (fun t => t.fld F.RAS_DEVICE_ERR_CAUSE == 3) = true := by decide +kernel
theorem test_thermal_trip : after (exec (.thermalTrip 0) queued) (fun t => t.pwr.railsOff && t.pwr.thermtrip && t.dead) = true := by
  decide +kernel
theorem test_jtag_takes_pins : after (exec (.jtagInstruction 3) queued) (fun t => t.dead && t.host.pinsTaken) = true := by decide +kernel
theorem test_jtag_sample : after (exec (.jtagInstruction 2) queued) (fun t => t.dead == false) = true := by decide +kernel
theorem test_ae_fence : after (exec (.aeFence 3 1) (onAe 0))
    (fun t => !t.aeOnline 3 && t.att.chunks.map (fun k => (k.st, k.errors)) == [(.waiting, 1)]) = true := by decide +kernel
theorem test_third_ae_error : after (exec (.aeFence 3 1) (onAe 2))
    (fun t => t.aeOnline 3 && (t.ctx? 0).map (·.st) == some .tearing) = true := by decide +kernel
theorem test_cc_fence : after (exec (.ccFence 127 1) queued) (fun t => !t.ccOnline 127 && !t.dead) = true := by decide +kernel
theorem test_last_cc : after (exec (.ccFence 0 1) ((queued.setFld F.RAS_CC_ONLINE_ONLINE 1 0).setFld F.RAS_CC_ONLINE_ONLINE 0 1))
    (fun t => t.dead && t.fld F.RAS_DEVICE_ERR_CAUSE == 6) = true := by decide +kernel
theorem test_corrected : after (exec (.correctedError 0 1) queued)
    (fun t => t.fld F.RAS_ERR_CNT_CORRECTED == 1 && t.fld F.HBM_ECC_STAT_CORRECTED == 1) = true := by decide +kernel
theorem test_corrected_fences : after (exec (.correctedError 9 0) (queued.setFld F.RAS_CFG_CE_FENCE 1)) (fun t => !t.aeOnline 9) = true := by
  decide +kernel

/-! ## Power -/

def falling : State := (queued.setFld F.PWR_STATUS_LEVEL 3).setPwr fun p => { p with fallFrom := some 10 }
def cold : Sensor := { last := 20, same := 0, failed := false }

theorem witness_LevelFollowsDemands : queued.pfReady ∧ (queued.setFld F.PWR_STATUS_L_CAP 5).level < (queued.setFld F.PWR_STATUS_L_CAP 5).demand ∧
    falling.demand < falling.level ∧ queued.demand = queued.level ∧ queued.pwr.fallFrom = none ∧ falling.pwr.fallFrom = some 10 ∧
    (queued.capMw : Int) < 1300000 ∧ predOk 1300000 100000 0 15 1200000 1 1 = true ∧ predOk 1300000 100000 0 0 1200000 1 1 = false ∧
    queued.fld F.PWR_STATUS_L_THERM = 0 ∧ cold.failed = false ∧ (-41 : Int) < -40 ∧ (151 : Int) > 150 ∧
    queued.ctx? 0 = some ctx0 ∧ ctx0.thrOwed = false :=
  ⟨rfl, by decide +kernel⟩
theorem witness_heat : let crit : Int := max (queued.fld F.PWR_THERM_CFG_CRIT) (queued.fld F.PWR_THERM_CFG_WARN)
    queued.pwr.tDie < crit ∧ queued.pwr.tHbm < queued.fld F.PWR_THERM_CFG_HBM_CRIT ∧
      queued.pwr.tDie < (queued.fld F.PWR_THERM_CFG_WARN : Int) - 5 ∧ queued.pwr.tHbm < (queued.fld F.PWR_THERM_CFG_HBM_HOT : Int) - 5 ∧
      (queued.fld F.PWR_THERM_CFG_WARN : Int) < crit := by decide +kernel
theorem test_cap_write : after (exec (.capWrite 0 800) queued) (fun t => t.fld F.PWR_CAP_CAP_W == 800) = true := by decide +kernel
theorem test_cap_loop_raises : after (exec (.capLoopTick 1300000 100000) queued)
    (fun t => decide (0 < t.level) && t.fld F.PWR_STATUS_MODEL_W == 1300) = true := by decide +kernel
theorem test_cap_loop_counts_activity :
    after (exec (.capLoopTick 0 0) (queued.setPwr fun p => { p with railFj := [10 ^ 14, 0, 0, 0, 10 ^ 14, 0, 0, 0] }))
      (fun t => t.fld F.PWR_STATUS_MODEL_W == 2000 && t.pwr.railFj.take 5 == List.replicate 5 0) = true := by decide +kernel
theorem test_forced_trip : after (exec (.capLoopTick 0 0) (((queued.setFld F.TST_CASC_DROOP_TRIP_US 50).setFld F.TST_CASC_DROOP_ISLAND 33)))
    (fun t => t.fld F.PWR_DROOP_STAT_STRETCHES == 2 && t.pwr.stretched.map (·.1) == [33]) = true := by decide +kernel
theorem test_level_falls : after (exec .levelFallStep falling) (fun t => t.level == 2) = true := by decide +kernel
theorem test_gap_end : after (exec (.throttleEventGapEnd 0) (queued.setCtx 0 fun x => { x with thrOwed := true, thrGap := 90, thrLast := 4 }))
    (fun t => (t.ctx? 0).map (fun x => (x.thrOwed, x.thrLast)) == some (false, 0)) = true := by decide +kernel
theorem test_sensor_out_of_range : after (exec (.sensorRead [151] []) queued)
    (fun t => t.pwr.sensors.map (·.failed) == true :: List.replicate 39 false && t.fld F.PWR_STATUS_SENSOR_FAIL == 1) = true := by
  decide +kernel
theorem test_thermal_loop : after (exec .thermalLoopTick (queued.setPwr fun p => { p with tDie := 200 })) (fun t => t.level == 15) = true := by
  decide +kernel

def stretched : State := queued.setPwr fun p => { p with stretched := [(47, 0)], trips := [(47, (0, 16))] }
def braked : State := queued.setPwr fun p => { p with brk := some (0, false) }
def calRun (n : Nat) : CalRun :=
  { left := n, start := 0, wins := [], stale := false, ofMount := false, since := 0, model := List.replicate 8 0,
    telem := List.replicate 8 0 }

theorem witness_DroopBrakeAndTelemetry : 47 < 48 ∧ (47, 0) ∈ stretched.stretchedNow ∧
    16 + 1 = max 1 (stretched.fld F.PWR_DROOP_CFG_DROOP_ESC) + 1 ∧ stretched.fld F.PWR_STATUS_L_DROOP < 4 ∧
    (stretched.setFld F.PWR_STATUS_L_DROOP 4).fld F.PWR_STATUS_L_DROOP = 4 ∧ queued.pwr.brk = none ∧
    braked.pwr.brk = some (0, false) ∧ (queued.setPwr fun p => { p with brk := some (0, true) }).pwr.brk = some (0, true) ∧
    railMax 7 < 100001 ∧ 100000 ≤ railMax 7 ∧ (0x801#32).toNat % 2 = 1 ∧ queued.fld F.PWR_CAL_STAT_BUSY = 0 ∧
    (queued.setPwr fun p => { p with cal := some (calRun 2) }).pwr.cal = some (calRun 2) ∧ 1 < (calRun 2).left ∧ (calRun 1).left ≤ 1 := by
  decide +kernel
theorem witness_calibration_pf : queued.pfReady := rfl
theorem test_droop_escalates : after (exec (.droopTrip 47) stretched)
    (fun t => t.level == 1 && t.fld F.PWR_DROOP_STAT_ESCALATIONS == 1) = true := by decide +kernel
theorem test_stretch_ends : after (exec (.stretchEnd 47) stretched) (fun t => t.pwr.stretched == []) = true := by decide +kernel
theorem test_droop_decays : after (exec .droopDecay (queued.setFld F.PWR_STATUS_L_DROOP 2)) (fun t => t.fld F.PWR_STATUS_L_DROOP == 1) =
    true := by decide +kernel
theorem witness_ramp_step : ({ queued with sch := { queued.sch with ramp := [(0, 2), (1, 2), (1, 9)] } } : State).sch.ramp.find?
    (fun y => y.1 == 1) = some (1, 2) ∧ (∀ x ∈ [(0, 2)], x.1 ≠ 1) ∧ aeDie 0 = 0 ∧ queued.rampOk 0 = true ∧
    queued.ctxs.all (fun y => y.heavyEnd.isNone) = true := by decide +kernel
theorem test_ramp : after (exec (.rampStepEnd 1) { queued with sch := { queued.sch with ramp := [(0, 2), (1, 2), (1, 9)] } })
    (fun t => t.sch.ramp == [(0, 2), (1, 9)] && t.cycles == 152) = true := by decide +kernel
theorem test_brake : after (exec .pwrbrkAssert queued) (fun t => t.level == t.fld F.PWR_BRK_CFG_BRK_LEVEL && decide (0 < t.level)) = true := by
  decide +kernel
theorem test_brake_off : after (exec .pwrbrkRelease braked) (fun t => t.pwr.brk == none) = true := by decide +kernel
theorem test_brake_stuck : after (exec .brkTimeout braked) (fun t => t.fld F.PWR_STATUS_BRK_STUCK == 1) = true := by decide +kernel
theorem test_poll : after (exec (.pmbusPoll 7 5000 true) queued) (fun t => t.lastPoll 7 == (5000, 750000) && t.fld F.PWR_STATUS_TELEM_W == 5) =
    true := by decide +kernel
theorem test_poll_bad_pec : after (exec (.pmbusPoll 7 5000 false) queued) (fun t => t.lastPoll 7 == (0, 0)) = true := by decide +kernel
theorem test_poll_timeout : after (exec (.pmbusPollTimeout 7) queued) (fun t => t.pwr == queued.pwr && t.cycles == 2250000) = true := by decide +kernel
theorem test_alert : after (exec (.pmbusAlert 2 5) queued) (fun t => decide (2 ≤ t.host.out.length)) = true := by decide +kernel
theorem test_calibration_starts : after (exec (.calStart 0 0x901) queued) (fun t => t.pwr.cal.map (·.left) == some 9) = true := by
  decide +kernel
theorem test_calibration_ends :
    after (exec (.calWindowEnd [1] [1]) ((queued.setFld F.PWR_CAL_STAT_BUSY 1).setPwr fun p => { p with cal := some (calRun 1) }))
      (fun t => t.pwr.cal == none && t.fld F.PWR_CAL_STAT_BUSY == 0 && t.fld F.PWR_CAL_STAT_FAILED == 255) = true := by decide +kernel

/-! ## Bring-up and low power -/

def training (n : Nat) : State := queued.setFld F.GLB_BOOT_STAT_PHASE n

/-- A part without firmware comes up in RECOVERY. -/
def unbootable (s : State) : State := { s with sec := { s.sec with fw := (none, none) } }

/-- An identity of 1,024 bytes that is not one, and none. -/
theorem witness_ResetsAndBringUp : queued.pwr.railsOff = false ∧ (queued.setPwr fun p => { p with railsOff := true }).pwr.railsOff = true ∧
    (training 2).fld F.GLB_BOOT_STAT_PHASE = 2 ∧ (training 3).fld F.GLB_BOOT_STAT_PHASE = 3 ∧ 15 ∉ (training 3).boot.modsRead := by
  decide +kernel
theorem test_por : after (exec (.por 1 8) State.reset)
    (fun t => t.sec.booted && t.fld F.GLB_BOOT_STAT_PHASE == 2 && t.fld F.GLB_RESET_CAUSE_PIN == 1 && t.fld F.GLB_STRAPS_MGMT_EN == 1 &&
      t.ctxs.map (·.r.ctx) == [0]) = true := by decide +kernel
theorem test_fund : after (exec .fund (unbootable paged))
    (fun t => t.tier.frames == [] && t.fld F.SEC_STATUS_RECOVERY == 1 && t.fld F.GLB_RESET_CAUSE_PERST == 1) = true := by decide +kernel
theorem test_trained : after (exec .hbmTrainingDone (training 2)) (fun t => t.fld F.GLB_BOOT_STAT_PHASE == 3) = true := by decide +kernel
theorem test_pcie_link_up : after (exec .pcieLinkUp queued) (fun t => t.boot.linkUp) = true := by decide +kernel
theorem test_module_without_answer : after (exec (.moduleIdentityRead 15 none) (training 3))
    (fun t => t.fld F.MGT_MODULE_STAT_REJECTED == 2 ^ 15 && t.boot.modsRead == [15]) = true := by decide +kernel

def lowered (st : Nat) : State := base.setFld F.GLB_PM_STAT_STATE st
def entering (g : Nat) (l : List Cmd) : State :=
  { lowered 4 with pm := { Pm.reset with entering := some (g, 0) }, cmds := l }

theorem witness_LowPowerStates : (base.setFld F.GLB_PM_CTL_AUTO_IDLE 1).fld F.GLB_PM_CTL_AUTO_IDLE = 1 ∧ base.fld F.GLB_PM_STAT_STATE = 0 ∧
    (base.setFld F.GLB_PM_CTL_AUTO_IDLE 1).quiet = true ∧ (entering 1 []).pm.entering = some (1, 0) ∧ (entering 1 []).pm.held = none ∧
    (entering 1 []).fld F.GLB_PM_STAT_STATE = 4 ∧ (entering 1 []).entryWaits = false ∧ (entering 2 []).cmdsDrained = true ∧
    (entering 2 [cmdOf .running 0]).cmdsDrained = false ∧ (lowered 2).fld F.GLB_PM_STAT_STATE = 2 ∧
    (lowered 2).fld F.GLB_PM_CTL_WAKE_DB = 1 ∧ ((lowered 2).setFld F.GLB_PM_CTL_WAKE_DB 0).fld F.GLB_PM_CTL_WAKE_DB = 0 ∧
    (lowered 5).fld F.GLB_PM_STAT_STATE = 5 ∧ (lowered 5).pm.held = none ∧ (lowered 5).pm.after = none := by decide +kernel
theorem witness_target_pf : base.pfReady := rfl
theorem test_idle : after (exec .idleEntry (base.setFld F.GLB_PM_CTL_AUTO_IDLE 1)) (fun t => t.fld F.GLB_PM_STAT_STATE == 1) = true := by
  decide +kernel
theorem test_target : after (exec (.pmTargetWrite 0 1) base) (fun t => t.pm.entering == some (1, 0)) = true := by decide +kernel
theorem test_entry_to_hold : after (exec .lowpowerDrainDone (entering 1 [])) (fun t => t.fld F.GLB_PM_STAT_STATE == 2) = true := by
  decide +kernel
theorem test_entry_to_park : after (exec .lowpowerDrainDone { entering 2 [] with att := hot.att })
    (fun t => t.fld F.GLB_PM_STAT_STATE == 3 && t.att.hot == []) = true := by decide +kernel
theorem test_entry_gives_up : after (exec .lowpowerDrainTimeout (entering 1 [cmdOf .running 0]))
    (fun t => t.fld F.GLB_PM_STAT_STATE == 0 && t.fld F.GLB_PM_STAT_RESULT == St.timeout) = true := by decide +kernel
theorem test_wake_by_flr : after (exec (.wake 2) (lowered 2)) (fun t => t.fld F.GLB_PM_STAT_STATE == 5 && t.fld F.GLB_PM_STAT_WAKE == 4) =
    true := by decide +kernel
theorem test_exit : after (exec .lowpowerExitDone (lowered 5)) (fun t => t.fld F.GLB_PM_STAT_STATE == 0) = true := by decide +kernel

/-! ## Security and the management port -/

def bound (st : Nat) : State :=
  { ((queued.setFld F.SEC_TDI_STATE_BOUND 1 255).setFld F.SEC_TDI_STATE_STATE st 255).setFld F.SEC_TDI_STATE_STREAM 15 255 with
    ctxs := [{ r := ctxRec 0 255, st := .up }] }
def doe : State := { queued with sec := { queued.sec with spdm := [2], ide := [(15, some 255)] } }
/-- DEVICE_ID of the part, and a debug token of it for challenge 5. -/
def myDevice : Nat := keyDigest deviceModulus 65537
/-- Ahnoon's signature block for it. -/
def tokenSig : Nat := joinParts [
  0x57a91a8d085d4eb249a38608faf3e69af6c9b9598e4a32f9673ba9f4fa61888c94d96b93da299ac9616b778994dcef794eff5c05aeb422d6d56ec8ca0d72a764c8752bb2048fec1a7faa1036df12699aba0c0cb0c66235d4c3c7e364472a1f1d7338aeb9,
  0xf614e0fc354088b59a20bfbe6060a9802eb69195b4a62b0f7032d6ca2e10cdf98487a002d8aa6cdc4cfcf92e018bc90e50622abbe5994059f297625f1c5be11b5d827532e129334545c704f35d5f2d3428c801b9ed0a106009721468148c400345a2dd62,
  0xff411f2ca22a924669cc99c04366e25a97c1a02fe7216a47f82e585eddda3ddedc3f06c541bc7cdc14d9e3d943c545d648c9af906359d5f6c4c1d4504438df3da4c478083c939664a32f681c54df5e894f4b010cab7018291793bfa6689d58151e0b26fa,
  0xba56ba22bb772f3c9651ca6eec39989f19eaee8f87aad4ba5a0e622ee051b991d7cf444f7ad2a4170fb87f2f45ec3d137d9237462308cef33cc63be1eb06729a3321f0bd78d4900801ebe328c3caf231d881ba5e00000000000000000000000001000100,
  0x1ff8469e1d0a754a21d4c09166a9798d3ff9f293c107172a4631daf0776e38d55217bad6662f065073857566dc62dcec7c345d1eabee827cbed46c411dc74e2594576c9af68413e6c27f9c05859f84f4a065bb3de11459036b5c35121406727cb9449e7c,
  0xfb04dc643c8d3ac2bf7b2611ee0849e7d0725b7aab6956248a12c1b673b46a4427ed016ee6141a26343d253f118378665278cdcec5e9f54b873bd9b1459f11d33b3c651b86ac58efc33f9d40734c833a403e4fbbbf42d4c9d935b43a622edc991ddb75df,
  0x44f9e739c3a423edb75168d7b55c5d39612880ef9dab481b1e7f966dc31c736b5673a5a03a23504f816828b233f535cd4ab14eed41b98d327e40f3fbb242a0612864fc5ff3938c43edeb4d377b9c77d2f28ecc9a2993029ec799a6670580945d139c6eb9,
  0x43c1151836df9bec87c68d441a4c459b3fa4c4f59b820afbe6a365f7e88029b68023d500bb6509f3b3d4ec428c6d26836df6249a6201f1c821a02b1c2398a54760213883d57bcc73e62e24e14a5ef6f3033350a900000000000000000000000000000001]
def token : Signed := tokenOf 5 myDevice tokenSig
def forged : Signed := tokenOf 5 myDevice 0
/-- A part whose challenge is 5. -/
def challenged : State := { queued with sec := { queued.sec with challenge := 5 } }

/-- A configuration bank that names two certification authorities and holds the blank. -/
def cfgBank : Bank := newBank { obj := ⟨[1], 0⟩, cas := [(77, 0), (78, 2)], blank := some readBlank } 1
def managed (sessions : List Session) : State :=
  { (queued.setFld F.GLB_STRAPS_MGMT_EN 1).setFld F.MGT_IO_STAT_LINK_UP 1 with
    sec := { queued.sec with cfg := (some cfgBank, none), cfgOk := true, sessions := sessions } }
def owner : State := managed [⟨0, 2, 0⟩]

theorem witness_InterfacesAndManagementLink : (bound 0).boot.mount = none ∧ midMount.boot.mount = some mount1 ∧
    (bound 0).fld F.SEC_TDI_STATE_STATE 255 = 0 ∧ (bound 0).fld F.SEC_TDI_STATE_BOUND 255 = 1 ∧
    (∃ x ∈ (bound 0).ctxs, x.r.func = 255 ∧ x.st = .up) ∧ (bound 1).fld F.SEC_TDI_STATE_STATE 255 = 1 ∧ 2 ∈ doe.sec.spdm ∧
    2 ∉ queued.sec.spdm ∧ (doe.sec.ide.find? fun y => y.1 == 15) = some (15, some 255) ∧ (bound 1).tdiLocked 255 = true ∧
    (bound 1).fld F.SEC_TDI_STATE_STREAM 255 = 15 ∧ (challenged.checkSig 0 forged).2 = false ∧
    5 = challenged.sec.challenge ∧ 5 ≠ queued.sec.challenge ∧ myDevice = challenged.deviceId ∧ doe.sec.booted = true ∧ doe.fld F.SEC_STATUS_RECOVERY ≠ 1 ∧
    doe.spdmMeasures 3 ≠ none ∧ doe.sec.spdm.length < 4 ∧ State.reset.sec.booted = false ∧ (managed []).mgmtOn = true ∧
    (managed []).fld F.MGT_IO_STAT_LINK_UP = 1 ∧ (managed []).clientRole 78 5 = some 2 ∧ (managed []).sec.hands.2 < 10 ∧
    (managed []).sec.sessions.length < 4 ∧ queued.mgmtOn = false ∧ (owner.sec.sessions.find? fun y => y.id == 0) = some ⟨0, 2, 0⟩ ∧
    ({ owner with sec := { owner.sec with linkDown := some 3 } } : State).sec.linkDown = some 3 ∧
    ({ owner with sec := { owner.sec with staging := some ⟨true, 4⟩ } } : State).sec.staging = some ⟨true, 4⟩ := by decide +kernel
theorem witness_token : (challenged.checkSig 0 token).2 = true := by decide +kernel
theorem test_lock : after (exec (.lockInterface 255) (bound 0)) (fun t => t.tdi 255 == 1) = true := by decide +kernel
theorem test_start : after (exec (.startInterface 255) (bound 1)) (fun t => t.tdi 255 == 2) = true := by decide +kernel
theorem test_start_of_an_unlocked_one : after (exec (.startInterface 255) (bound 0)) (fun t => t.tdi 255 == 0) = true := by decide +kernel
theorem test_stop_tdi : after (exec (.stopInterface 255) (bound 2)) (fun t => t.tdi 255 == 0) = true := by decide +kernel
theorem test_ide_go : after (exec (.ideKm 15 none true) doe)
    (fun t => t.fld F.SEC_TDI_STATE_BOUND 255 == 1 && t.fld F.SEC_TDI_STATE_STREAM 255 == 15) = true := by decide +kernel
theorem test_ide_failure : after (exec (.ideIntegrityFailure 15) (bound 1)) (fun t => t.tdi 255 == 3) = true := by decide +kernel
theorem test_unlock_with_a_bad_signature : after (exec (.debugUnlock 5 myDevice 0) challenged)
    (fun t => t.fld F.SEC_AUTH_STAT_SIG_FAIL == 1 && t.fld F.SEC_STATUS_DEBUG == 0) = true := by decide +kernel
theorem test_spdm : after (exec (.spdmRequest 2 Spdm.keyExchange 0) doe) (fun t => t.sec.spdm == [2, 2]) = true := by decide +kernel
theorem test_tls : after (exec (.tlsHandshake 78 5 true) (managed [])) (fun t => t.sec.sessions == [⟨1, 2, 0⟩]) = true := by decide +kernel
theorem test_tls_of_a_stranger : after (exec (.tlsHandshake 79 5 true) (managed [])) (fun t => t.sec.sessions == []) = true := by
  decide +kernel
theorem test_tls_idle : after (exec (.tlsIdleTimeout 0) owner) (fun t => t.sec.sessions == []) = true := by decide +kernel
theorem test_mgmt_link_loss : after (exec .mgmtLinkLoss { owner with sec := { owner.sec with linkDown := some 3 } })
    (fun t => t.sec.sessions == [] && t.fld F.MGT_IO_STAT_LINK_LOSSES == 1) = true := by decide +kernel
theorem test_phy_down : after (exec (.mgmtPhyInt false) owner) (fun t => t.sec.linkDown == some 0) = true := by decide +kernel
theorem test_phy_poll : after (exec (.mgmtPhyPoll true) (owner.setFld F.MGT_IO_STAT_LINK_UP 0)) (fun t => t.fld F.MGT_IO_STAT_LINK_UP == 1) =
    true := by decide +kernel
theorem test_mi3c : after (exec .mi3cStallTimeout queued) (fun t => t.fld F.MGT_IO_STAT_MI3C_ABORTS == 1) = true := by decide +kernel
theorem test_spi_busy : after (exec .spiBusyTimeout { owner with sec := { owner.sec with staging := some ⟨true, 4⟩ } })
    (fun t => t.sec.staging == none && t.host.out == [.spiReset]) = true := by decide +kernel

/-- A part in RECOVERY, and one with a configuration that holds no blank. -/
def recovering : State := owner.setFld F.SEC_STATUS_RECOVERY 1
def blankless : State := { owner with sec := { owner.sec with cfg := (none, none) } }

/-- Sessions of each role, and no session; lists of 64 and 65 registers, a cap of 2047 and of 2048, pieces to the end of their bank and beyond
it; RECOVERY; a MOUNT for which there is no blank; steps left and none. -/
theorem witness_ManagementRequests : owner.fld F.SEC_STATUS_RECOVERY ≠ 1 ∧ recovering.fld F.SEC_STATUS_RECOVERY = 1 ∧
    (owner.sec.sessions.find? fun y => y.id == 0) = some ⟨0, 2, 0⟩ ∧ (owner.sec.sessions.find? fun y => y.id == 1) = none ∧
    ((managed [⟨0, 0, 0⟩]).sec.sessions.find? fun y => y.id == 0) = some ⟨0, 0, 0⟩ ∧
    (List.replicate 64 (0, 4)).length ≤ 64 ∧ 64 < (List.replicate 65 (0, 4)).length ∧ 2047 < 2048 ∧
    33554400 + 32 ≤ 33554432 ∧ 33554432 < 33554401 + 32 ∧ 67108864 < 67108833 + 32 ∧
    owner.mountWaits (decide (1 = 0)) 1 = false ∧ decide (1 = 0) = owner.blank.isNone ∧ decide (0 = 0) ≠ owner.blank.isNone ∧
    ((owner.heard 0).cfgImg?.bind (·.blank)) = some readBlank ∧ ((blankless.heard 0).cfgImg?.bind (·.blank)) = none ∧
    ((owner.heard 0).mountChecks unsigned false 1 none).2 = some St.signatureInvalid ∧
    State.reset.fld F.SEC_STATUS_EPOCH_LEFT ≠ 0 ∧ (State.reset.setFld F.SEC_STATUS_EPOCH_LEFT 0).fld F.SEC_STATUS_EPOCH_LEFT = 0 := by
  decide +kernel
/-- A MOUNT that passes its checks, over partition 0 and over none; one that must wait for the one in progress. -/
theorem witness_mgmt_mount : (owner.heard 0).mountChecks readBlank false 1 none = (owner.heard 0, none) ∧
    (owner.heard 0).mountChecks readBlank false 0 none = (owner.heard 0, none) ∧ midMount.mountWaits (decide (1 = 0)) 1 = true :=
  ⟨checks_pass (blank_signed rfl rfl) (by decide +kernel), checks_pass (blank_signed rfl rfl) (by decide +kernel), by decide +kernel⟩
theorem test_reg_read : after (exec (.regRead 0 7 [(R.GLB_PM_CFG.addr, 4), (2, 4)]) (owner.setFld F.GLB_PM_CFG_DRAIN 9))
    (fun t => t.host.out == [.mgmt 0 1 7 St.ok [9, 0]]) = true := by decide +kernel
theorem test_telemetry : after (exec (.telemetry 0 7) owner) (fun t => t.host.out.length == 1) = true := by decide +kernel
theorem test_attest : after (exec (.attest 0 7 5) owner) (fun t => t.host.out.length == 1) = true := by decide +kernel
theorem test_challenge : after (exec (.debugChallenge 0 7) owner) (fun t => t.host.out.length == 1) = true := by decide +kernel
theorem test_set_cap : after (exec (.setCap 0 7 900) owner) (fun t => t.fld F.PWR_CAP_CAP_W == 900) = true := by decide +kernel
theorem test_set_cap_by_an_observer : after (exec (.setCap 0 7 900) (managed [⟨0, 0, 0⟩]))
    (fun t => t.host.out == [.mgmt 0 0x10 7 St.accessDenied []]) = true := by decide +kernel
theorem test_reset_request : after (exec (.reset 0 7) (unbootable owner))
    (fun t => t.host.out == [.mgmt 0 0x11 7 St.ok []] && t.fld F.GLB_RESET_CAUSE_MGMT == 1) = true := by decide +kernel
theorem test_stage : after (exec (.stage 0 7 true 0 32 none) owner)
    (fun t => t.sec.staging == some ⟨true, 32⟩) = true := by decide +kernel
theorem test_stage_final : after (exec (.stage 0 7 true 0 32 (some { obj := ⟨[2], 0⟩ })) owner)
    (fun t => t.sec.cfg.2.map (fun b => (b.seq, b.length, b.img.obj.body)) == some (2, 801, [2])) = true := by decide +kernel
theorem test_mount_of_a_mounted_part : after (exec (.mount 0 7 0 0) (owner.setFld F.GLB_BOOT_STAT_PHASE 5))
    (fun t => t.host.out == [.mgmt 0 0x13 7 St.badField []]) = true := by decide +kernel
theorem test_commit_svn : after (exec (.commitSvn 0 7) (owner.setFld F.SEC_FW_FW_SVN 6)) (fun t => t.fld F.SEC_FW_FW_MIN_SVN == 6) = true := by
  decide +kernel
theorem test_debug_token : after (exec (.debugToken 0 7 5 myDevice 0) owner)
    (fun t => t.host.out == [.mgmt 0 0x21 7 St.signatureInvalid []]) = true := by decide +kernel
theorem test_decommission : after (exec (.decommission 0 7) owner)
    (fun t => t.sec.cfg == (none, none) && t.sec.fuses.uds == 0 && t.sec.fuses.epoch == 1 && t.jrnl == Journal.reset) = true := by decide +kernel
theorem test_return : after (exec (.returnStep 0 7) owner) (fun t => t.fld F.SEC_STATUS_LIFECYCLE == 2 && t.sec.fuses.uds == udsBurned) = true := by
  decide +kernel

/-! ## Every step -/

theorem witness_FusesOnlyBlow : State.reset.fusesSince Fuses.reset ∧ ({ State.reset with pending := [.ethLinkUp 0] } : State).fusesSince Fuses.reset ∧
    after (step { State.reset with pending := [.ethLinkUp 0] }) (fun t => t.pending == []) = true := by
  refine ⟨?_, ?_, by decide +kernel⟩ <;>
    exact ⟨Or.inl rfl, rfl, rfl, rfl, Nat.le_refl _, fun r h => h, rfl, fun i d a h => ⟨a, h⟩⟩

end Sys2Proof.Tests
end

section
/-! PROOFS. Chapter 3: doorbells, the end of queues, consumer indices, and the order of commands (R82, R83, R87, R88, R90, R96, R107, R108). -/

namespace Sys2Proof.Machine

/-! ### Look-up in an updated list -/

/-- The first entry that satisfies `p` is the one that `updIf` rewrites first. -/
theorem find?_updIf_same {α : Type} {l : List α} {p : α → Bool} {f : α → α} {z : α} (h : l.find? p = some z)
    (hf : p (f z) = true) : (updIf l p f).find? p = some (f z) := by
  induction l with
  | nil => simp at h
  | cons x t ih =>
    by_cases hx : p x = true
    · obtain rfl : x = z := by simpa [hx] using h
      simp [updIf, hx, hf]
    · have ht : t.find? p = some z := by simpa [hx] using h
      simpa [updIf, hx] using ih ht

/-- Rewriting entries that `q` does not look for, into such entries, leaves what `q` finds. -/
theorem find?_updIf_other {α : Type} (l : List α) {p q : α → Bool} {f : α → α}
    (h : ∀ x, p x = true → q x = false ∧ q (f x) = false) : (updIf l p f).find? q = l.find? q := by
  induction l with
  | nil => rfl
  | cons x t ih =>
    have ih' : (t.map fun x => if p x then f x else x).find? q = t.find? q := ih
    by_cases hx : p x = true
    · simp [updIf, hx, h x hx, ih']
    · simp [updIf, hx, List.find?_cons, ih']

variable {s : State}

/-! ### Queues that are looked up -/

theorem wq?_number {q : Nat} {w : Wq} (h : s.wq? q = some w) : w.q = q := by
  simpa using List.find?_some h

theorem cq?_number {i : Nat} {z : Cq} (h : s.cq? i = some z) : z.id = i := by
  simpa using List.find?_some h

theorem eq?_context {c : Nat} {z : Eq} (h : s.eq? c = some z) : z.ctx = c := by
  simpa using List.find?_some h

theorem cq?_setCq_same {i : Nat} {z : Cq} {f : Cq → Cq} (h : s.cq? i = some z) (hf : (f z).id = z.id) :
    (s.setCq i f).cq? i = some (f z) :=
  find?_updIf_same h (by simp [hf, cq?_number h])

theorem cq?_setCq_ne {i j : Nat} {f : Cq → Cq} (hf : ∀ z, (f z).id = z.id) (h : j ≠ i) :
    (s.setCq i f).cq? j = s.cq? j :=
  find?_updIf_other s.qdb.cqs fun x hx => by
    obtain rfl : x.id = i := by simpa using hx
    simp [hf, h.symm]

theorem eq?_setEq_same {c : Nat} {z : Eq} {f : Eq → Eq} (h : s.eq? c = some z) (hf : (f z).ctx = z.ctx) :
    (s.setEq c f).eq? c = some (f z) :=
  find?_updIf_same h (by simp [hf, eq?_context h])

@[simp] theorem setCq_wqs (s : State) (i : Nat) (f : Cq → Cq) : (s.setCq i f).qdb.wqs = s.qdb.wqs := rfl
@[simp] theorem setCq_eqs (s : State) (i : Nat) (f : Cq → Cq) : (s.setCq i f).qdb.eqs = s.qdb.eqs := rfl
@[simp] theorem setEq_wqs (s : State) (c : Nat) (f : Eq → Eq) : (s.setEq c f).qdb.wqs = s.qdb.wqs := rfl
@[simp] theorem setEq_cqs (s : State) (c : Nat) (f : Eq → Eq) : (s.setEq c f).qdb.cqs = s.qdb.cqs := rfl

/-- A queue that leaves the part is found no more. -/
@[simp] theorem wq?_dropWq (s : State) (q : Nat) : (s.dropWq q).wq? q = none := by
  simp [State.wq?, State.dropWq]

@[simp] theorem dropWq_fld (s : State) (q : Nat) (f : Fld) (i c : Nat) : (s.dropWq q).fld f i c = s.fld f i c := rfl

/-- Without an event queue of the context an event is discarded (R88). -/
theorem postEvent_of_no_queue {c : Nat} (h : s.eq? c = none) (typ obj : Nat) (l : List Byte) : s.postEvent c typ obj l = s := by
  simp [State.postEvent, h]

/-! ### A wake event leaves queues and commands -/

@[simp] theorem wakeUp_qdb (s : State) (b : Nat) : (s.wakeUp b).qdb = s.qdb := by
  simp only [State.wakeUp]
  split <;> rfl

@[simp] theorem wakeUp_cmds (s : State) (b : Nat) : (s.wakeUp b).cmds = s.cmds := by
  simp only [State.wakeUp]
  split <;> rfl

@[simp] theorem wakeDb_qdb (s : State) : s.wakeDb.qdb = s.qdb := by
  unfold State.wakeDb
  split
  · exact wakeUp_qdb s 0
  · rfl

@[simp] theorem wakeDb_cmds (s : State) : s.wakeDb.cmds = s.cmds := by
  unfold State.wakeDb
  split
  · exact wakeUp_cmds s 0
  · rfl

@[simp] theorem wakeDb_cq? (s : State) (i : Nat) : s.wakeDb.cq? i = s.cq? i := by simp [State.cq?]
@[simp] theorem wakeDb_eq? (s : State) (c : Nat) : s.wakeDb.eq? c = s.eq? c := by simp [State.eq?]

/-! ### Doorbells -/

/-- The queue takes doorbells: it is ENABLED, and its context is UP (R83, R402). -/
def State.takesDoorbell (s : State) (w : Wq) : Prop := w.st = .enabled ∧ ∃ x, s.ctx? w.ctx = some x ∧ x.st = .up

theorem takesDoorbell_iff (s : State) (w : Wq) :
    s.takesDoorbell w ↔ w.st = .enabled ∧ (s.ctx? w.ctx).any (fun x => x.st == .up) = true := by
  simp [State.takesDoorbell, Option.any_eq_true]

theorem evalDoorbell_of_absent {q : Nat} (h : s.wq? q = none) (p : Nat) :
    s.evalDoorbell q p = s.bump F.QDB_STAT_DB_IGNORED := by
  simp [State.evalDoorbell, h, State.ignoreDb]

theorem evalDoorbell_of_not_taken {q : Nat} {w : Wq} (h : s.wq? q = some w) (ht : ¬ s.takesDoorbell w) (p : Nat) :
    s.evalDoorbell q p = s.bump F.QDB_STAT_DB_IGNORED := by
  rw [takesDoorbell_iff] at ht
  simp only [State.evalDoorbell, h, if_neg ht, State.ignoreDb]

theorem evalDoorbell_of_taken {q : Nat} {w : Wq} (h : s.wq? q = some w) (ht : s.takesDoorbell w) {p : Nat} (hp : p < two32) :
    s.evalDoorbell q p = s.ringDoorbell w p := by
  rw [takesDoorbell_iff] at ht
  simp only [State.evalDoorbell, h, if_pos ht, Nat.mod_eq_of_lt hp]

theorem ringDoorbell_of_not_ahead {w : Wq} {p : Nat}
    (h : (p + two32 - w.pi) % two32 = 0 ∨ 2 ^ 31 ≤ (p + two32 - w.pi) % two32) : s.ringDoorbell w p = s := by
  unfold State.ringDoorbell
  exact if_pos h

/-- A value ahead of the accepted index is taken, unless it would put more descriptors into the ring than it has entries. -/
theorem ringDoorbell_of_ahead {w : Wq} {p : Nat} (h0 : 0 < (p + two32 - w.pi) % two32)
    (h1 : (p + two32 - w.pi) % two32 < 2 ^ 31) :
    s.ringDoorbell w p = if w.entries < (p + two32 - w.fi) % two32 then s.stopQueue w.q St.badField
      else s.setWq w.q fun x => { x with pi := p } := by
  unfold State.ringDoorbell
  exact if_neg fun h => h.elim (by omega) (by omega)

theorem stopQueue_of_enabled {q : Nat} {w : Wq} (h : s.wq? q = some w) (he : w.st = .enabled) (r : Nat) :
    s.stopQueue q r = (s.setWq q fun x => { x with st := .stopped }).postEvent w.ctx Ev.queueStopped q (leBytes 1 r) := by
  simp [State.stopQueue, h, he]

/-- An access to the lower half of a doorbell is well formed (R13, R81). -/
theorem accessOk_of_doorbell {off bytes : Nat} (hb : bytes = 4 ∨ bytes = 8) (ho : off % 8 = 0) : accessOk off bytes = true := by
  obtain rfl | rfl := hb <;> simp [accessOk] <;> omega

section
variable {f off bytes q : Nat} (v : Word64) (hb : bytes = 4 ∨ bytes = 8) (ho : off % 8 = 0)
  (hq : s.bar2Queue f off = some (some q))
include hb ho hq

/-- A doorbell of an ABSENT queue (R83). -/
theorem exec_doorbellWrite_of_absent (hw : s.wq? q = none) :
    exec (.doorbellWrite f off bytes v) s = .next (s.bump F.QDB_STAT_DB_IGNORED).wakeDb := by
  change Host.Outcome.next (execDoorbell f off bytes v s) = _
  simp [execDoorbell, accessOk_of_doorbell hb ho, ho, hq, hw, State.ignoreDb]

/-- A doorbell of a queue without DB_IMM (R82). -/
theorem exec_doorbellWrite_of_present {w : Wq} (hw : s.wq? q = some w) (himm : w.dbImm = false) :
    exec (.doorbellWrite f off bytes v) s = .next (s.evalDoorbell q (v.toNat % two32)).wakeDb := by
  change Host.Outcome.next (execDoorbell f off bytes v s) = _
  simp [execDoorbell, accessOk_of_doorbell hb ho, ho, hq, hw, himm]

end

/-! ### Queue operations of the window -/

/-- An operation that is taken runs on the context of its window (R89, R402, R497). -/
theorem qOp_of_ready {f code : Nat} {x : Ctx} (h : s.qReady f x) (op : Ctx → State) : s.qOp f x.r.ctx code op = op x := by
  obtain ⟨⟨hx, hf⟩, hup, hbusy, hawake⟩ := h
  simp [State.qOp, State.ownsWindow, hx, hf, hup, hbusy, hawake]

theorem ownsWindow_of_windowOf {f : Nat} {x : Ctx} (h : s.windowOf f x) : s.ownsWindow f x.r.ctx = true := by
  obtain ⟨hx, hf⟩ := h
  simp [State.ownsWindow, hx, hf]

/-- A DESTROY whose checks fail gives the result of the first that does (R550). -/
theorem exec_destroy_of_failed {f r : Nat} {x : Ctx} (h : s.qReady f x)
    (hc : s.qCheck x (s.qsel x.r.ctx) true false = some r) : exec (.destroy f x.r.ctx) s = .next (s.qResult x.r.ctx r) := by
  change Host.Outcome.next (execDestroyF f x.r.ctx s) = _
  rw [execDestroyF, qOp_of_ready h]
  simp only [hc]

/-- A DESTROY whose checks pass acts on the kind of queue selected (R87, R88). -/
theorem exec_destroy_of_passed {f : Nat} {x : Ctx} (h : s.qReady f x)
    (hc : s.qCheck x (s.qsel x.r.ctx) true false = none) :
    exec (.destroy f x.r.ctx) s = .next (
      if (s.qsel x.r.ctx).kind = 0 then s.destroyWq x.r.ctx (s.qsel x.r.ctx).id
      else if (s.qsel x.r.ctx).kind = 1 then
        State.qResult { s with qdb := { s.qdb with
          cqs := s.qdb.cqs.filter fun z => z.id ≠ x.r.ctx * 64 + (s.qsel x.r.ctx).id } } x.r.ctx St.ok
      else State.qResult { s with qdb := { s.qdb with eqs := s.qdb.eqs.filter fun z => z.ctx ≠ x.r.ctx } } x.r.ctx St.ok) := by
  change Host.Outcome.next (execDestroyF f x.r.ctx s) = _
  rw [execDestroyF, qOp_of_ready h]
  simp only [hc]

theorem qCheck_destroy_wq {x : Ctx} {q : QSel} {w : Wq} (hk : q.kind = 0) (hg : x.r.groups.contains (q.id / 512) = true)
    (hw : s.wq? q.id = some w) (hd : w.st ≠ .draining) : s.qCheck x q true false = none := by
  simp [State.qCheck, selCheck, State.objExists, hk, hw, hd, List.contains_iff_mem.mp hg]

theorem qCheck_destroy_cq {x : Ctx} {q : QSel} {z : Cq} (hk : q.kind = 1) (hi : q.id ≤ 63)
    (hz : s.cq? (x.r.ctx * 64 + q.id) = some z) :
    s.qCheck x q true false =
      if s.qdb.wqs.any (fun w => w.cqid == x.r.ctx * 64 + q.id) then some St.busyRetry else none := by
  simp [State.qCheck, selCheck, State.objExists, hk, hz, Nat.not_lt.mpr hi]

theorem qCheck_destroy_eq {x : Ctx} {q : QSel} {z : Eq} (hk : q.kind = 2) (hi : q.id = 0) (hz : s.eq? x.r.ctx = some z) :
    s.qCheck x q true false = none := by
  simp [State.qCheck, selCheck, State.objExists, hk, hi, hz]

@[simp] theorem qResult_qdb (s : State) (c r : Nat) : (s.qResult c r).qdb = s.qdb := rfl

/-- The window shows OK. -/
@[simp] theorem qResult_ok (s : State) (c : Nat) : (s.qResult c St.ok).fld F.CTXW_QSTAT_RESULT 0 c = St.ok :=
  fld_setFld_same s F.CTXW_QSTAT_RESULT St.ok 0 c

/-- BUSY and RESULT are two fields of CTXW_QSTAT. -/
@[simp] theorem qResult_busy (s : State) (c r : Nat) :
    (s.qResult c r).fld F.CTXW_QSTAT_BUSY 0 c = s.fld F.CTXW_QSTAT_BUSY 0 c :=
  fld_setFld_ne s _ _ r 0 c 0 c (by simp [Fld.key, Fld.at, F.CTXW_QSTAT_BUSY, F.CTXW_QSTAT_RESULT])

/-- DESTROY of a work queue that does not drain (R87). -/
theorem exec_destroy_wq {f : Nat} {x : Ctx} {w : Wq} (h : s.qReady f x) (hk : (s.qsel x.r.ctx).kind = 0)
    (hg : x.r.groups.contains ((s.qsel x.r.ctx).id / 512) = true) (hw : s.wq? (s.qsel x.r.ctx).id = some w)
    (hd : w.st ≠ .draining) : exec (.destroy f x.r.ctx) s = .next (s.destroyWq x.r.ctx (s.qsel x.r.ctx).id) := by
  rw [exec_destroy_of_passed h (qCheck_destroy_wq hk hg hw hd), if_pos hk]

/-- DESTROY of a completion queue that no work queue names (R88). -/
theorem exec_destroy_cq {f : Nat} {x : Ctx} {z : Cq} (h : s.qReady f x) (hk : (s.qsel x.r.ctx).kind = 1)
    (hi : (s.qsel x.r.ctx).id ≤ 63) (hz : s.cq? (x.r.ctx * 64 + (s.qsel x.r.ctx).id) = some z)
    (hn : ∀ w ∈ s.qdb.wqs, w.cqid ≠ x.r.ctx * 64 + (s.qsel x.r.ctx).id) :
    exec (.destroy f x.r.ctx) s = .next (State.qResult { s with qdb := { s.qdb with
      cqs := s.qdb.cqs.filter fun z => z.id ≠ x.r.ctx * 64 + (s.qsel x.r.ctx).id } } x.r.ctx St.ok) := by
  have hany : (s.qdb.wqs.any fun w => w.cqid == x.r.ctx * 64 + (s.qsel x.r.ctx).id) = false := by simpa using hn
  rw [exec_destroy_of_passed h (by simp [qCheck_destroy_cq hk hi hz, hany]), if_neg (by simp [hk]), if_pos hk]

/-- DESTROY of a completion queue that a work queue names (R88). -/
theorem exec_destroy_named_cq {f : Nat} {x : Ctx} {z : Cq} {w : Wq} (h : s.qReady f x) (hk : (s.qsel x.r.ctx).kind = 1)
    (hi : (s.qsel x.r.ctx).id ≤ 63) (hz : s.cq? (x.r.ctx * 64 + (s.qsel x.r.ctx).id) = some z) (hw : w ∈ s.qdb.wqs)
    (hc : w.cqid = x.r.ctx * 64 + (s.qsel x.r.ctx).id) :
    exec (.destroy f x.r.ctx) s = .next (s.qResult x.r.ctx St.busyRetry) := by
  have hany : (s.qdb.wqs.any fun w => w.cqid == x.r.ctx * 64 + (s.qsel x.r.ctx).id) = true :=
    List.any_eq_true.mpr ⟨w, hw, by simp [hc]⟩
  exact exec_destroy_of_failed h (by simp [qCheck_destroy_cq hk hi hz, hany])

/-- DESTROY of the event queue (R88). -/
theorem exec_destroy_eq {f : Nat} {x : Ctx} {z : Eq} (h : s.qReady f x) (hk : (s.qsel x.r.ctx).kind = 2)
    (hi : (s.qsel x.r.ctx).id = 0) (hz : s.eq? x.r.ctx = some z) :
    exec (.destroy f x.r.ctx) s = .next (State.qResult { s with qdb := { s.qdb with
      eqs := s.qdb.eqs.filter fun z => z.ctx ≠ x.r.ctx } } x.r.ctx St.ok) := by
  rw [exec_destroy_of_passed h (qCheck_destroy_eq hk hi hz), if_neg (by simp [hk]), if_neg (by simp [hk])]

/-- The end of draining (R90, Table 3.2). -/
theorem exec_queueDrained_of_empty {q : Nat} {w : Wq} (hw : s.wq? q = some w) (hd : w.st = .draining)
    (hn : ∀ k ∈ s.cmds, k.id.q ≠ q) :
    exec (.queueDrained q) s = .next (if s.fld F.CTXW_QSTAT_BUSY 0 w.ctx = 1
      then ((s.dropWq q).setFld F.CTXW_QSTAT_BUSY 0 0 w.ctx).qResult w.ctx St.ok else s.dropWq q) := by
  have hany : (s.cmds.any fun k => k.id.q == q) = false := by simpa using hn
  change Host.Outcome.next (execDrained q s) = _
  by_cases hb : s.fld F.CTXW_QSTAT_BUSY 0 w.ctx = 1 <;> simp [execDrained, hw, hd, hany, hb]

theorem exec_queueDrained_of_busy {q : Nat} {w : Wq} (hw : s.wq? q = some w)
    (h : w.st ≠ .draining ∨ ∃ k ∈ s.cmds, k.id.q = q) : exec (.queueDrained q) s = .next s := by
  have hno : ¬ (w.st = .draining ∧ (!s.cmds.any fun k => k.id.q == q) = true) := by
    rintro ⟨hd, hn⟩
    obtain hne | ⟨k, hk, hq⟩ := h
    · exact hne hd
    · simp only [Bool.not_eq_true', List.any_eq_false, beq_iff_eq] at hn
      exact hn k hk hq
  change Host.Outcome.next (execDrained q s) = _
  simp only [execDrained, hw, if_neg hno]

/-! ### Messages and consumer indices -/

/-- A message of a completion queue clears its ARM and its pending count; without one nothing changes (R98). -/
theorem cqMsix_cases (s : State) (i : Nat) : s.cqMsix i = s ∨
    ∃ o, s.cqMsix i = (s.setCq i fun x => { x with arm := false, pend := 0 }).emit o := by
  unfold State.cqMsix
  split
  · exact .inl rfl
  · split
    · exact .inr ⟨_, rfl⟩
    · exact .inl rfl

theorem eqMsix_cases (s : State) (c : Nat) : s.eqMsix c = s ∨
    ∃ o, s.eqMsix c = (s.setEq c fun x => { x with arm := false, pend := 0 }).emit o := by
  unfold State.eqMsix
  split
  · exact .inl rfl
  · split
    · exact .inr ⟨_, rfl⟩
    · exact .inl rfl

@[simp] theorem cqMsix_cmds (s : State) (i : Nat) : (s.cqMsix i).cmds = s.cmds := by
  obtain h | ⟨o, h⟩ := cqMsix_cases s i <;> simp [h]

@[simp] theorem cqMsix_wqs (s : State) (i : Nat) : (s.cqMsix i).qdb.wqs = s.qdb.wqs := by
  obtain h | ⟨o, h⟩ := cqMsix_cases s i <;> simp [h]

@[simp] theorem cqMsix_eqs (s : State) (i : Nat) : (s.cqMsix i).qdb.eqs = s.qdb.eqs := by
  obtain h | ⟨o, h⟩ := cqMsix_cases s i <;> simp [h]

@[simp] theorem eqMsix_cmds (s : State) (c : Nat) : (s.eqMsix c).cmds = s.cmds := by
  obtain h | ⟨o, h⟩ := eqMsix_cases s c <;> simp [h]

@[simp] theorem eqMsix_wqs (s : State) (c : Nat) : (s.eqMsix c).qdb.wqs = s.qdb.wqs := by
  obtain h | ⟨o, h⟩ := eqMsix_cases s c <;> simp [h]

@[simp] theorem eqMsix_cqs (s : State) (c : Nat) : (s.eqMsix c).qdb.cqs = s.qdb.cqs := by
  obtain h | ⟨o, h⟩ := eqMsix_cases s c <;> simp [h]

theorem cqMsix_cq?_ne {i j : Nat} (h : j ≠ i) : (s.cqMsix i).cq? j = s.cq? j := by
  obtain hs | ⟨o, hs⟩ := cqMsix_cases s i
  · rw [hs]
  · rw [hs]
    exact cq?_setCq_ne (fun _ => rfl) h

/-- A message leaves the indices and the ring of its completion queue. -/
theorem cqMsix_cq?_same {i : Nat} {z : Cq} (h : s.cq? i = some z) : ∃ y, (s.cqMsix i).cq? i = some y ∧
    y.ci = z.ci ∧ y.wi = z.wi ∧ y.base = z.base ∧ y.entries = z.entries := by
  obtain hs | ⟨o, hs⟩ := cqMsix_cases s i
  · exact ⟨z, by rw [hs, h], rfl, rfl, rfl, rfl⟩
  · refine ⟨{ z with arm := false, pend := 0 }, ?_, rfl, rfl, rfl, rfl⟩
    rw [hs]
    exact cq?_setCq_same h rfl

theorem eqMsix_eq?_same {c : Nat} {z : Eq} (h : s.eq? c = some z) : ∃ y, (s.eqMsix c).eq? c = some y ∧
    y.ci = z.ci ∧ y.wi = z.wi ∧ y.base = z.base ∧ y.entries = z.entries := by
  obtain hs | ⟨o, hs⟩ := eqMsix_cases s c
  · exact ⟨z, by rw [hs, h], rfl, rfl, rfl, rfl⟩
  · refine ⟨{ z with arm := false, pend := 0 }, ?_, rfl, rfl, rfl, rfl⟩
    rw [hs]
    exact eq?_setEq_same h rfl

/-- A consumer index is taken where it stays within the records written (R96). -/
theorem cqDb_cq?_same {c n : Nat} {z : Cq} (h : s.cq? (c * 64 + n) = some z) (v : Nat) (arm : Bool) :
    ∃ y, (s.cqDb c n (some v) arm).cq? (c * 64 + n) = some y ∧ y.ci = (if ciOk z.ci z.wi v then v else z.ci) ∧
      y.wi = z.wi ∧ y.base = z.base ∧ y.entries = z.entries :=
  cqMsix_cq?_same (cq?_setCq_same h rfl)

theorem cqDb_cq?_ne {c n j : Nat} (h : j ≠ c * 64 + n) (ci : Option Nat) (arm : Bool) :
    (s.cqDb c n ci arm).cq? j = s.cq? j :=
  (cqMsix_cq?_ne h).trans (cq?_setCq_ne (fun _ => rfl) h)

theorem eqDb_eq?_same {c : Nat} {z : Eq} (h : s.eq? c = some z) (v : Nat) (arm : Bool) :
    ∃ y, (s.eqDb c (some v) arm).eq? c = some y ∧ y.ci = (if ciOk z.ci z.wi v then v else z.ci) ∧
      y.wi = z.wi ∧ y.base = z.base ∧ y.entries = z.entries :=
  eqMsix_eq?_same (eq?_setEq_same h rfl)

@[simp] theorem cqDb_cmds (s : State) (c n : Nat) (ci : Option Nat) (arm : Bool) : (s.cqDb c n ci arm).cmds = s.cmds :=
  cqMsix_cmds _ _
@[simp] theorem cqDb_wqs (s : State) (c n : Nat) (ci : Option Nat) (arm : Bool) :
    (s.cqDb c n ci arm).qdb.wqs = s.qdb.wqs := cqMsix_wqs _ _
@[simp] theorem cqDb_eqs (s : State) (c n : Nat) (ci : Option Nat) (arm : Bool) :
    (s.cqDb c n ci arm).qdb.eqs = s.qdb.eqs := cqMsix_eqs _ _
@[simp] theorem eqDb_cmds (s : State) (c : Nat) (ci : Option Nat) (arm : Bool) : (s.eqDb c ci arm).cmds = s.cmds :=
  eqMsix_cmds _ _
@[simp] theorem eqDb_wqs (s : State) (c : Nat) (ci : Option Nat) (arm : Bool) :
    (s.eqDb c ci arm).qdb.wqs = s.qdb.wqs := eqMsix_wqs _ _
@[simp] theorem eqDb_cqs (s : State) (c : Nat) (ci : Option Nat) (arm : Bool) :
    (s.eqDb c ci arm).qdb.cqs = s.qdb.cqs := eqMsix_cqs _ _

@[simp] theorem dropHalves_qdb (s : State) (f a : Nat) : (s.dropHalves f a).qdb = s.qdb := rfl
@[simp] theorem dropHalves_cmds (s : State) (f a : Nat) : (s.dropHalves f a).cmds = s.cmds := rfl
@[simp] theorem dropHalves_cq? (s : State) (f a i : Nat) : (s.dropHalves f a).cq? i = s.cq? i := rfl

theorem exec_cqDoorbellWrite {f n : Nat} {x : Ctx} (h : s.windowOf f x) (hn : n < 64) (v : Word64) :
    exec (.cqDoorbellWrite f x.r.ctx n v) s = .next (((s.dropHalves f (windowBase x.r.ctx + 0x100 + 8 * n)).cqDb x.r.ctx n
      (some (v.toNat % two32)) (v.toNat / two32 % 2 = 1)).wakeDb) := by
  change Host.Outcome.next (execCqDb f x.r.ctx n v s) = _
  simp [execCqDb, ownsWindow_of_windowOf h, hn]

theorem exec_eqDoorbellWrite {f : Nat} {x : Ctx} (h : s.windowOf f x) (v : Word64) :
    exec (.eqDoorbellWrite f x.r.ctx v) s = .next (((s.dropHalves f (windowBase x.r.ctx + 0x300)).eqDb x.r.ctx
      (some (v.toNat % two32)) (v.toNat / two32 % 2 = 1)).wakeDb) := by
  change Host.Outcome.next (execEqDb f x.r.ctx v s) = _
  simp [execEqDb, ownsWindow_of_windowOf h]

/-! ### The order of commands -/

theorem mem_earlier {k x : Cmd} : x ∈ s.earlier k ↔ x ∈ s.cmds ∧ x.id.q = k.id.q ∧ x.adm < k.adm := by
  simp [State.earlier]

/-- An ordered command waits for every earlier one of its queue (R107). -/
theorem mayStart_of_ordered {k x : Cmd} (hx : x ∈ s.earlier k) (ho : dOrd k.desc = true) : s.mayStart k = false := by
  have hne : (s.earlier k).isEmpty = false := by simpa using List.ne_nil_of_mem hx
  simp [State.mayStart, ho, hne]

/-- Every command waits for an earlier FENCE of its queue (R108). -/
theorem mayStart_of_behind_fence {k x : Cmd} (hx : x ∈ s.earlier k) (hf : dOp x.desc = Op.fence) : s.mayStart k = false := by
  have hall : (s.earlier k).all (fun y => dOp y.desc != Op.fence) = false :=
    List.all_eq_false.mpr ⟨x, hx, by simp [hf]⟩
  simp [State.mayStart, hall]

/-- The row of a command that may not start changes nothing. -/
theorem runCmd_of_held {k : Cmd} (hk : s.cmd? k.id = some k) (hw : k.st = .waiting) (hm : s.mayStart k = false)
    (ops : Word512 → Bool) (check : State → Cmd → Option Nat) (body : Cmd → State → State) :
    s.runCmd k.id ops check body = s := by
  simp [State.runCmd, hk, hw, hm]

/-- A command that may start acts as started, where its checks pass. -/
theorem runCmd_of_startable {k : Cmd} (h : s.startable k) {ops : Word512 → Bool} (ho : ops k.desc = true)
    {check : State → Cmd → Option Nat} (hc : check (s.started k) k = none) (body : Cmd → State → State) :
    s.runCmd k.id ops check body = body ((s.started k).startedCmd k) (s.started k) := by
  obtain ⟨hk, hw, howed, hfail, hmay, hspill⟩ := h
  change check (s.startCmd k.id k.ctx) k = none at hc
  simp [State.runCmd, hk, hw, howed, hfail, hmay, hspill, ho, hc, State.started, State.startedCmd]

/-- The commands that a FENCE waits for: those of its queue, or those of its context, admitted before it (R108). -/
def State.fenceScope (s : State) (k : Cmd) : List Cmd :=
  if dF k.desc 8 1 = 0 then s.earlier k else s.cmds.filter fun x => x.ctx == k.ctx && decide (x.adm < k.adm)

theorem exec_fence {k : Cmd} (h : s.begins k Op.fence) : exec (.fence k.id) s =
    .next (if (s.started k).fenceScope k = [] then (s.started k).complete k.id St.ok else s.started k) := by
  obtain ⟨hs, hop⟩ := h
  change Host.Outcome.next (s.runCmd k.id _ _ State.fenceBody) = _
  rw [runCmd_of_startable hs (by simp [hop]) rfl]
  change Host.Outcome.next (if ((s.started k).fenceScope k).isEmpty then _ else _) = _
  simp only [List.isEmpty_iff]
  rfl

end Sys2Proof.Machine

/-! ### The statements -/

namespace Sys2Proof.Proofs.Queues

open Sys2Proof Sys2Proof.Machine

/-- Settles O6: each clause is one case of `evalDoorbell`, which a write through BAR2 reaches. -/
theorem doorbellMovesAcceptedIndex : Obligations.DoorbellMovesAcceptedIndex := by
  refine ⟨fun s f off bytes q v hb ho hq => ⟨exec_doorbellWrite_of_absent v hb ho hq,
    fun w => exec_doorbellWrite_of_present v hb ho hq⟩, fun s q p hp => ⟨fun hw => evalDoorbell_of_absent hw p, fun w hw => ?_⟩⟩
  · have hwq : s.wq? w.q = some w := wq?_number hw ▸ hw
    refine ⟨fun ht => evalDoorbell_of_not_taken hw ht p, fun ht hd => ?_, fun ht h0 h1 hfull => ?_,
      fun ht h0 h1 hfits => ?_⟩ <;> rw [evalDoorbell_of_taken hw ht hp]
    · exact ringDoorbell_of_not_ahead hd
    · rw [ringDoorbell_of_ahead h0 h1, if_pos hfull, stopQueue_of_enabled hwq ht.1]
    · rw [ringDoorbell_of_ahead h0 h1, if_neg (Nat.not_lt.mpr hfits), wq?_number hw]

/-- Settles O9: one lemma per kind of queue gives the state after DESTROY, and two give QUEUE_DRAINED. -/
theorem destroyAndDrain : Obligations.DestroyAndDrain := by
  refine ⟨fun s f x h => ⟨fun w hk hg hw hd => exec_destroy_wq h hk hg hw hd,
    fun z hk hi hz hn => ⟨_, exec_destroy_cq h hk hi hz hn, ?_, rfl, rfl, qResult_ok _ _⟩,
    fun z w hk hi hz hw hc => exec_destroy_named_cq h hk hi hz hw hc,
    fun z hk hi hz => ⟨_, exec_destroy_eq h hk hi hz, ?_, ?_, rfl, rfl, qResult_ok _ _⟩⟩,
    fun s q w hw => ⟨fun hd hn => ⟨_, exec_queueDrained_of_empty hw hd hn, ?_⟩, exec_queueDrained_of_busy hw⟩⟩
  · simp [State.cq?]
  · simp [State.eq?]
  · exact postEvent_of_no_queue (by simp [State.eq?])
  · split
    · exact ⟨wq?_dropWq s q, rfl, rfl, fun _ => ⟨by rw [qResult_busy, fld_setFld_same]; rfl, qResult_ok _ _⟩⟩
    · next hb => exact ⟨wq?_dropWq s q, rfl, rfl, fun hb' => absurd hb' hb⟩

/-- Settles O15: `mayStart` is false behind an earlier command or a FENCE, and FENCE looks at its scope. -/
theorem orderedCommandsAndFences : Obligations.OrderedCommandsAndFences := by
  refine ⟨fun s k x ops check body hk hw hx hq hadm hor => ?_, fun s k h => ?_⟩
  · have he : x ∈ s.earlier k := mem_earlier.mpr ⟨hx, hq, hadm⟩
    have hm : s.mayStart k = false := hor.elim (mayStart_of_ordered he) (mayStart_of_behind_fence he)
    exact ⟨hm, runCmd_of_held hk hw hm ops check body⟩
  · rw [exec_fence h]
    exact ⟨fun hb => congrArg _ (if_pos hb), fun hb => congrArg _ (if_neg hb)⟩

/-- Settles O10: `cqDb` and `eqDb` judge the index, and neither the message nor the wake event touches it after. -/
theorem consumerIndexNeverPasses : Obligations.ConsumerIndexNeverPasses := by
  refine fun s f x v hx => ⟨fun i z hi hz => ?_, fun z hz => ?_⟩
  · obtain ⟨y, hy, hring⟩ := cqDb_cq?_same (s := s.dropHalves f (windowBase x.r.ctx + 0x100 + 8 * i)) hz (v.toNat % two32)
      (v.toNat / two32 % 2 = 1)
    obtain ⟨hci, hwi, hbase, hents⟩ := hring
    exact ⟨_, y, exec_cqDoorbellWrite hx hi v, by rw [wakeDb_cq?, hy], hci, hwi, hbase, hents, by simp, by simp, by simp,
      fun j hj => by simp [cqDb_cq?_ne hj]⟩
  · obtain ⟨y, hy, hring⟩ := eqDb_eq?_same (s := s.dropHalves f (windowBase x.r.ctx + 0x300)) hz (v.toNat % two32)
      (v.toNat / two32 % 2 = 1)
    obtain ⟨hci, hwi, hbase, hents⟩ := hring
    exact ⟨_, y, exec_eqDoorbellWrite hx v, by rw [wakeDb_eq?, hy], hci, hwi, hbase, hents, by simp, by simp, by simp⟩

end Sys2Proof.Proofs.Queues
end

section
/-! PROOFS. The fuses (R430, R449, R450): what every operation of the state leaves of them, in the order of the model's files, and that the five
commands which write them only blow more. -/

namespace Sys2Proof.Machine

/-! ### What keeps the fuses: a fold, and the state of a pair -/

theorem foldl_fuses {α : Type} (f : State → α → State) (h : ∀ s a, (f s a).sec.fuses = s.sec.fuses) (l : List α) (s : State) :
    (l.foldl f s).sec.fuses = s.sec.fuses := by
  induction l generalizing s with
  | nil => rfl
  | cons x l ih => rw [List.foldl_cons, ih, h]

theorem fuses_of_eq {α : Type} {p : State × α} {t : State} {r : α} (h : p = (t, r)) : t.sec.fuses = p.1.sec.fuses := by
  rw [h]

/-! ### Machine/Ops -/

theorem fuses_ite {c : Prop} [Decidable c] {a b s : State} (ha : a.sec.fuses = s.sec.fuses) (hb : b.sec.fuses = s.sec.fuses) :
    (if c then a else b).sec.fuses = s.sec.fuses := by
  split
  · exact ha
  · exact hb

@[simp] theorem setFld_fuses (s : State) (f : Fld) (v i c : Nat) :
    (s.setFld f v i c).sec.fuses = s.sec.fuses := rfl

@[simp] theorem bump_fuses (s : State) (f : Fld) (n i c : Nat) : (s.bump f n i c).sec.fuses = s.sec.fuses := rfl

@[simp] theorem bumpUnits_fuses (s : State) (f : Fld) (u n : Nat) : (s.bumpUnits f u n).sec.fuses = s.sec.fuses := rfl

@[simp] theorem clearFields_fuses (s : State) (keep : Fld → Nat → Bool) : (s.clearFields keep).sec.fuses = s.sec.fuses := rfl

@[simp] theorem reach_fuses (s : State) (t : Nat) : (s.reach t).sec.fuses = s.sec.fuses := rfl

@[simp] theorem nextFree_fuses (s : State) : s.nextFree.sec.fuses = s.sec.fuses := rfl

@[simp] theorem wakeUp_fuses (s : State) (bit : Nat) : (s.wakeUp bit).sec.fuses = s.sec.fuses := by
  simp only [State.wakeUp]
  split <;> simp

@[simp] theorem wakeDb_fuses (s : State) : s.wakeDb.sec.fuses = s.sec.fuses := by
  unfold State.wakeDb
  split <;> simp

@[simp] theorem wakeFab_fuses (s : State) : s.wakeFab.sec.fuses = s.sec.fuses := by
  unfold State.wakeFab
  split <;> simp

@[simp] theorem setHost_fuses (s : State) (f : HostIf → HostIf) : (s.setHost f).sec.fuses = s.sec.fuses := rfl

@[simp] theorem dropHalves_fuses (s : State) (f a : Nat) : (s.dropHalves f a).sec.fuses = s.sec.fuses := rfl

@[simp] theorem badAccess_fuses (s : State) (off bytes : Nat) : (s.badAccess off bytes).sec.fuses = s.sec.fuses := by
  unfold State.badAccess
  (repeat' split) <;> simp

@[simp] theorem emit_fuses (s : State) (o : Out) : (s.emit o).sec.fuses = s.sec.fuses := rfl

@[simp] theorem setCmd_fuses (s : State) (c : CmdId) (f : Cmd → Cmd) : (s.setCmd c f).sec.fuses = s.sec.fuses := rfl

@[simp] theorem setCtx_fuses (s : State) (c : Nat) (f : Ctx → Ctx) : (s.setCtx c f).sec.fuses = s.sec.fuses := rfl

@[simp] theorem setStats_fuses (s : State) (c : Nat) (f : Stats → Stats) : (s.setStats c f).sec.fuses = s.sec.fuses := rfl

@[simp] theorem setWq_fuses (s : State) (q : Nat) (f : Wq → Wq) : (s.setWq q f).sec.fuses = s.sec.fuses := rfl

@[simp] theorem setCq_fuses (s : State) (i : Nat) (f : Cq → Cq) : (s.setCq i f).sec.fuses = s.sec.fuses := rfl

@[simp] theorem setEq_fuses (s : State) (c : Nat) (f : Eq → Eq) : (s.setEq c f).sec.fuses = s.sec.fuses := rfl

@[simp] theorem setSeq_fuses (s : State) (idx : Nat) (f : SeqRec → SeqRec) : (s.setSeq idx f).sec.fuses = s.sec.fuses := rfl

@[simp] theorem setPart_fuses (s : State) (p : Nat) (f : Part → Part) : (s.setPart p f).sec.fuses = s.sec.fuses := rfl

@[simp] theorem setFrame_fuses (s : State) (p : Nat) (f : Frame → Frame) : (s.setFrame p f).sec.fuses = s.sec.fuses := rfl

@[simp] theorem addEnergy_fuses (s : State) (c fj : Nat) : (s.addEnergy c fj).sec.fuses = s.sec.fuses := by
  unfold State.addEnergy
  split <;> simp

@[simp] theorem activity_fuses (s : State) (c kind rail n : Nat) :
    (s.activity c kind rail n).sec.fuses = s.sec.fuses := by
  simp [State.activity]

@[simp] theorem chargeHost_fuses (s : State) (c n : Nat) : (s.chargeHost c n).sec.fuses = s.sec.fuses := by
  simp [State.chargeHost]

@[simp] theorem chargeCc_fuses (s : State) (c n : Nat) : (s.chargeCc c n).sec.fuses = s.sec.fuses := by
  simp [State.chargeCc]

@[simp] theorem chargeAe_fuses (s : State) (c die n : Nat) : (s.chargeAe c die n).sec.fuses = s.sec.fuses := by
  simp [State.chargeAe]

@[simp] theorem t1Bytes_fuses (s : State) (c n : Nat) : (s.t1Bytes c n).sec.fuses = s.sec.fuses := by
  simp [State.t1Bytes]

@[simp] theorem t0Bytes_fuses (s : State) (c n : Nat) : (s.t0Bytes c n).sec.fuses = s.sec.fuses := by
  simp [State.t0Bytes]

@[simp] theorem chargeFab_fuses (s : State) (c n : Nat) (tx : Bool) : (s.chargeFab c n tx).sec.fuses = s.sec.fuses := by
  simp [State.chargeFab]

@[simp] theorem chargeTier_fuses (s : State) (c seq n : Nat) :
    (s.chargeTier c seq n).sec.fuses = s.sec.fuses := by
  simp [State.chargeTier]

@[simp] theorem cmdHost_fuses (s : State) (k : CmdId) (c n : Nat) : (s.cmdHost k c n).sec.fuses = s.sec.fuses := by
  simp [State.cmdHost]

@[simp] theorem cmdTier_fuses (s : State) (k : CmdId) (c seq n : Nat) :
    (s.cmdTier k c seq n).sec.fuses = s.sec.fuses := by
  simp [State.cmdTier]

@[simp] theorem cqMsix_fuses (s : State) (i : Nat) : (s.cqMsix i).sec.fuses = s.sec.fuses := by
  unfold State.cqMsix
  (repeat' split) <;> simp

@[simp] theorem eqMsix_fuses (s : State) (c : Nat) : (s.eqMsix c).sec.fuses = s.sec.fuses := by
  unfold State.eqMsix
  (repeat' split) <;> simp

@[simp] theorem dropEvent_fuses (s : State) (c : Nat) : (s.dropEvent c).sec.fuses = s.sec.fuses := rfl

@[simp] theorem postEvent_fuses (s : State) (c typ obj : Nat) (detail : List Byte) :
    (s.postEvent c typ obj detail).sec.fuses = s.sec.fuses := by
  simp only [State.postEvent]
  (repeat' split) <;> simp

@[simp] theorem deviceEvent_fuses (s : State) (detail : List Byte) : (s.deviceEvent detail).sec.fuses = s.sec.fuses := by
  simp [State.deviceEvent]

@[simp] theorem stopQueue_fuses (s : State) (q reason : Nat) : (s.stopQueue q reason).sec.fuses = s.sec.fuses := by
  unfold State.stopQueue
  (repeat' split) <;> simp

@[simp] theorem stopNaming_fuses (s : State) (cq : Nat) (l : List Wq) : (s.stopNaming cq l).sec.fuses = s.sec.fuses := by
  induction l generalizing s cq with
  | nil => rfl
  | cons x t ih =>
    unfold State.stopNaming
    split <;> simp [ih]

@[simp] theorem traceRec_fuses (s : State) (kind c : Nat) (bytes : List Byte) :
    (s.traceRec kind c bytes).sec.fuses = s.sec.fuses := by
  simp only [State.traceRec]
  (repeat' split) <;> simp

@[simp] theorem retireCmd_fuses (s : State) (k : Cmd) : (s.retireCmd k).sec.fuses = s.sec.fuses := rfl

@[simp] theorem writeRecord_fuses (s : State) (k : Cmd) (status : Nat) (r : Fin) :
    (s.writeRecord k status r).sec.fuses = s.sec.fuses := by
  simp only [State.writeRecord]
  (repeat' split) <;> simp

@[simp] theorem complete_fuses (s : State) (c : CmdId) (status : Nat) (r : optParam Fin { }) :
    (s.complete c status r).sec.fuses = s.sec.fuses := by
  unfold State.complete
  (repeat' split) <;> simp

theorem writeHost_fuses {s t : State} {c : CmdId} {ctx f a : Nat} {b : List Byte} (h : s.writeHost c ctx f a b = some t) :
    t.sec.fuses = s.sec.fuses := by
  unfold State.writeHost at h
  (repeat' split at h) <;> cases h <;> simp

@[simp] theorem readHost_fuses (s : State) (c : CmdId) (a n : Nat) : (s.readHost c a n).sec.fuses = s.sec.fuses := rfl

@[simp] theorem regionStore_fuses (s : State) (r : Region) (off : Nat) (bytes : List Byte) :
    (s.regionStore r off bytes).sec.fuses = s.sec.fuses := rfl

@[simp] theorem spaceRead_fuses (s : State) (c : CmdId) (ctx : Nat) (sp : Space) (len : Nat) :
    (s.spaceRead c ctx sp len).sec.fuses = s.sec.fuses := by
  unfold State.spaceRead
  (repeat' split) <;> simp

theorem spaceWrite_fuses {s t : State} {c : CmdId} {ctx : Nat} {sp : Space} {b : List Byte} (h : s.spaceWrite c ctx sp b = .ok t) :
    t.sec.fuses = s.sec.fuses := by
  unfold State.spaceWrite at h
  cases sp with
  | host a =>
    dsimp only at h
    split at h
    · next hw => cases h; exact writeHost_fuses hw
    · cases h
  | region k off =>
    dsimp only at h
    split at h
    · cases h
    · split at h
      · split at h
        · next hw => cases h; exact writeHost_fuses hw
        · cases h
      · cases h; split <;> simp

@[simp] theorem setTrig_fuses (s : State) (n v : Nat) : (s.setTrig n v).sec.fuses = s.sec.fuses := rfl

@[simp] theorem advanceTrig_fuses (s : State) (n : Nat) : (s.advanceTrig n).sec.fuses = s.sec.fuses := by
  unfold State.advanceTrig
  split <;> simp

@[simp] theorem setDest_fuses (s : State) (d : Dest) : (s.setDest d).sec.fuses = s.sec.fuses := rfl

@[simp] theorem post_fuses (s : State) (m : TxMsg) : (s.post m).sec.fuses = s.sec.fuses := rfl

@[simp] theorem svcFor_fuses (s : State) (ctx dst : Nat) (m : SvcMsg) :
    (s.svcFor ctx dst m).sec.fuses = s.sec.fuses := rfl

@[simp] theorem svc_fuses (s : State) (dst : Nat) (m : SvcMsg) : (s.svc dst m).sec.fuses = s.sec.fuses := rfl

/-! ### Machine/Queues -/

@[simp] theorem ignoreDb_fuses (s : State) : s.ignoreDb.sec.fuses = s.sec.fuses := rfl

@[simp] theorem ringDoorbell_fuses (s : State) (w : Wq) (p : Nat) : (s.ringDoorbell w p).sec.fuses = s.sec.fuses := by
  simp only [State.ringDoorbell]
  (repeat' split) <;> simp

@[simp] theorem evalDoorbell_fuses (s : State) (q p : Nat) : (s.evalDoorbell q p).sec.fuses = s.sec.fuses := by
  unfold State.evalDoorbell
  (repeat' split) <;> simp

@[simp] theorem execDoorbell_fuses (f off bytes : Nat) (v : Word64) (s : State) :
    (execDoorbell f off bytes v s).sec.fuses = s.sec.fuses := by
  unfold execDoorbell
  (repeat' split) <;> simp

@[simp] theorem qResult_fuses (s : State) (c r : Nat) : (s.qResult c r).sec.fuses = s.sec.fuses := rfl

@[simp] theorem createObj_fuses (s : State) (c : Nat) (q : QSel) : (s.createObj c q).sec.fuses = s.sec.fuses := by
  unfold State.createObj
  (repeat' split) <;> simp

@[simp] theorem qOp_fuses {s : State} {f c code : Nat} {op : Ctx → State} (h : ∀ x, (op x).sec.fuses = s.sec.fuses) :
    (s.qOp f c code op).sec.fuses = s.sec.fuses := by
  unfold State.qOp
  (repeat' split) <;> simp [h]

@[simp] theorem execCreateF_fuses (f c : Nat) (s : State) : (execCreateF f c s).sec.fuses = s.sec.fuses := by
  refine qOp_fuses fun x => ?_
  split <;> simp

@[simp] theorem dropWq_fuses (s : State) (q : Nat) : (s.dropWq q).sec.fuses = s.sec.fuses := rfl

@[simp] theorem completeAll_fuses (s : State) (st : Nat) (l : List Cmd) : (s.completeAll st l).sec.fuses = s.sec.fuses := by
  induction l generalizing s st with
  | nil => rfl
  | cons x t ih => simp [State.completeAll, ih]

@[simp] theorem destroyWq_fuses (s : State) (c q : Nat) : (s.destroyWq c q).sec.fuses = s.sec.fuses := by
  simp only [State.destroyWq]
  split <;> simp

@[simp] theorem execDestroyF_fuses (f c : Nat) (s : State) : (execDestroyF f c s).sec.fuses = s.sec.fuses := by
  refine qOp_fuses fun x => ?_
  dsimp only
  (repeat' split) <;> simp

@[simp] theorem execStopF_fuses (f c : Nat) (s : State) : (execStopF f c s).sec.fuses = s.sec.fuses := by
  refine qOp_fuses fun x => ?_
  split <;> simp

@[simp] theorem execResumeF_fuses (f c : Nat) (s : State) : (execResumeF f c s).sec.fuses = s.sec.fuses := by
  refine qOp_fuses fun x => ?_
  split <;> simp

@[simp] theorem loadQ_fuses (s : State) (c space base ents cqid vec dbImm rkey cnt tim st : Nat) :
    (s.loadQ c space base ents cqid vec dbImm rkey cnt tim st).sec.fuses = s.sec.fuses := rfl

@[simp] theorem execQueryF_fuses (f c : Nat) (s : State) : (execQueryF f c s).sec.fuses = s.sec.fuses := by
  refine qOp_fuses fun x => ?_
  dsimp only
  (repeat' split) <;> simp

@[simp] theorem execDrained_fuses (q : Nat) (s : State) : (execDrained q s).sec.fuses = s.sec.fuses := by
  simp only [execDrained]
  (repeat' split) <;> simp

@[simp] theorem cqDb_fuses (s : State) (c n : Nat) (ci : Option Nat) (arm : Bool) :
    (s.cqDb c n ci arm).sec.fuses = s.sec.fuses := by
  simp [State.cqDb]

@[simp] theorem eqDb_fuses (s : State) (c : Nat) (ci : Option Nat) (arm : Bool) : (s.eqDb c ci arm).sec.fuses = s.sec.fuses := by
  simp [State.eqDb]

@[simp] theorem execCqDb_fuses (f c n : Nat) (v : Word64) (s : State) :
    (execCqDb f c n v s).sec.fuses = s.sec.fuses := by
  unfold execCqDb
  split <;> simp

@[simp] theorem execEqDb_fuses (f c : Nat) (v : Word64) (s : State) : (execEqDb f c v s).sec.fuses = s.sec.fuses := by
  unfold execEqDb
  split <;> simp

@[simp] theorem execHold_fuses (c : Nat) (isEq : Bool) (n : Nat) (s : State) : (execHold c isEq n s).sec.fuses = s.sec.fuses := by
  unfold execHold
  (repeat' split) <;> simp

@[simp] theorem admitOne_fuses (s : State) (w : Wq) : (s.admitOne w).sec.fuses = s.sec.fuses := by
  unfold State.admitOne
  split <;> simp

@[simp] theorem deadEvent_fuses (s : State) : s.deadEvent.sec.fuses = s.sec.fuses := by
  unfold State.deadEvent
  split <;> simp

@[simp] theorem fetchTurn_fuses (s : State) (q left : Nat) : (s.fetchTurn q left).sec.fuses = s.sec.fuses := by
  induction left generalizing s q with
  | zero => rfl
  | succ n ih =>
    unfold State.fetchTurn
    (repeat' split) <;> simp [ih]

@[simp] theorem touchCache_fuses (s : State) (q : Nat) : (s.touchCache q).sec.fuses = s.sec.fuses := rfl

@[simp] theorem execFetch_fuses (s : State) : (execFetch s).sec.fuses = s.sec.fuses := by
  simp only [execFetch]
  (repeat' split) <;> simp

@[simp] theorem startCmd_fuses (s : State) (c : CmdId) (ctx : Nat) : (s.startCmd c ctx).sec.fuses = s.sec.fuses := by
  simp [State.startCmd]

@[simp] theorem runCmd_fuses {s : State} {c : CmdId} {ops : Word512 → Bool} {check : State → Cmd → Option Nat} {body : Cmd → State → State}
    (h : ∀ k s, (body k s).sec.fuses = s.sec.fuses) : (s.runCmd c ops check body).sec.fuses = s.sec.fuses := by
  unfold State.runCmd
  dsimp only
  (repeat' split) <;> simp [h]

@[simp] theorem fenceBody_fuses (k : Cmd) (s : State) : (State.fenceBody k s).sec.fuses = s.sec.fuses := by
  simp only [State.fenceBody]
  (repeat' split) <;> simp

/-! ### Machine/Codec -/

theorem encodeTiles_fuses (s : State) (p : Profile) (d : Decoder) (tids : Nat × Nat) (pfh ver : Nat) (old : Option Copy)
    (before after : List (Nat × Byte)) (l : List Nat) :
    (s.encodeTiles p d tids pfh ver old before after l).1.sec.fuses = s.sec.fuses := by
  induction l generalizing s p d tids pfh ver old before after with
  | nil => rfl
  | cons x t ih =>
    unfold State.encodeTiles
    dsimp only
    (repeat' split) <;> simp [ih]

@[simp] theorem pruneTables_fuses (s : State) : s.pruneTables.sec.fuses = s.sec.fuses := rfl

@[simp] theorem storeTables_fuses (s : State) (l : List Table) : (s.storeTables l).sec.fuses = s.sec.fuses := rfl

@[simp] theorem damageTables_fuses (s : State) (bad : List (Nat × Bool)) : (s.damageTables bad).sec.fuses = s.sec.fuses := rfl

/-! ### Machine/Flash -/

theorem putFlash_fuses (s : State) (g num : Nat) (h : Hdr) (bytes : List Byte) :
    (s.putFlash g num h bytes).1.sec.fuses = s.sec.fuses := rfl

@[simp] theorem chargeProgram_fuses (s : State) (chunks : Nat) : (s.chargeProgram chunks).sec.fuses = s.sec.fuses := rfl

@[simp] theorem eraseBlocks_fuses (s : State) : s.eraseBlocks.sec.fuses = s.sec.fuses := rfl

/-! ### Machine/TierOps -/

@[simp] theorem notePrio_fuses (s : State) (p part : Nat) (disc : Bool) :
    (s.notePrio p part disc).sec.fuses = s.sec.fuses := by
  unfold State.notePrio
  split <;> simp

@[simp] theorem startProgram_fuses (s : State) (p : Nat) (k : PgmKind) (disc : Bool) :
    (s.startProgram p k disc).sec.fuses = s.sec.fuses := by
  unfold State.startProgram
  (repeat' split) <;> simp [putFlash_fuses]

@[simp] theorem startWanted_fuses (s : State) (p : Nat) : (s.startWanted p).sec.fuses = s.sec.fuses := by
  unfold State.startWanted
  (repeat' split) <;> simp

@[simp] theorem startWantedAll_fuses (s : State) (l : List Frame) : (s.startWantedAll l).sec.fuses = s.sec.fuses := by
  induction l generalizing s with
  | nil => rfl
  | cons x t ih =>
    unfold State.startWantedAll
    split <;> simp [ih]

@[simp] theorem burlUpdate_fuses (s : State) (p : Nat) : (s.burlUpdate p).sec.fuses = s.sec.fuses := by
  unfold State.burlUpdate
  split <;> simp

@[simp] theorem burlAll_fuses (s : State) (l : List Frame) : (s.burlAll l).sec.fuses = s.sec.fuses := by
  induction l generalizing s with
  | nil => rfl
  | cons x t ih => simp [State.burlAll, ih]

@[simp] theorem removeFrames_fuses (s : State) (gone : Frame → Bool) : (s.removeFrames gone).sec.fuses = s.sec.fuses := rfl

@[simp] theorem freeIfIdle_fuses (s : State) (p : Nat) : (s.freeIfIdle p).sec.fuses = s.sec.fuses := by
  unfold State.freeIfIdle
  (repeat' split) <;> simp

@[simp] theorem addRef_fuses (s : State) (p : Nat) : (s.addRef p).sec.fuses = s.sec.fuses := by
  simp [State.addRef]

@[simp] theorem subRef_fuses (s : State) (p : Nat) : (s.subRef p).sec.fuses = s.sec.fuses := by
  simp [State.subRef]

@[simp] theorem pin_fuses (s : State) (p : Nat) (rd : Bool) : (s.pin p rd).sec.fuses = s.sec.fuses := rfl

@[simp] theorem unpinRead_fuses (s : State) (p v : Nat) : (s.unpinRead p v).sec.fuses = s.sec.fuses := by
  unfold State.unpinRead
  (repeat' split) <;> simp

@[simp] theorem unpinRes_fuses (s : State) (p : Nat) : (s.unpinRes p).sec.fuses = s.sec.fuses := by
  simp [State.unpinRes]

theorem verdict_fuses (s : State) (f : Frame) (t : Tier) (k : Option FailKind) : (s.verdict f t k).1.sec.fuses = s.sec.fuses := by
  simp only [State.verdict]
  (repeat' split) <;> simp

theorem verifyCopy_fuses (s : State) (f : Frame) (t : Tier) (c : Copy) (found : Option FailKind) :
    (s.verifyCopy f t c found).1.sec.fuses = s.sec.fuses := by
  simp [State.verifyCopy, verdict_fuses]

theorem verifyT1_fuses (s : State) (f : Frame) : (s.verifyT1 f).1.sec.fuses = s.sec.fuses := by
  unfold State.verifyT1
  split <;> simp [verifyCopy_fuses]

@[simp] theorem countFail_fuses (s : State) (k : FailKind) : (s.countFail k).sec.fuses = s.sec.fuses := by
  unfold State.countFail
  split <;> simp

@[simp] theorem freeImport_fuses (s : State) (p : Nat) : (s.freeImport p).sec.fuses = s.sec.fuses := rfl

@[simp] theorem evictOne_fuses (s : State) (p : Nat) : (s.evictOne p).sec.fuses = s.sec.fuses := by
  unfold State.evictOne
  (repeat' split) <;> simp

@[simp] theorem evictTo_fuses (s : State) (part goal : Nat) (l : List Nat) :
    (s.evictTo part goal l).sec.fuses = s.sec.fuses := by
  induction l generalizing s part goal with
  | nil => rfl
  | cons x t ih =>
    unfold State.evictTo
    split <;> simp [ih]

theorem allocT1_fuses (s : State) (part n : Nat) : (s.allocT1 part n).1.sec.fuses = s.sec.fuses := by
  simp only [State.allocT1]
  (repeat' split) <;> simp

@[simp] theorem allocDone_fuses (s : State) (c : CmdId) : (s.allocDone c).sec.fuses = s.sec.fuses := rfl

@[simp] theorem waitAlloc_fuses (s : State) (c : CmdId) : (s.waitAlloc c).sec.fuses = s.sec.fuses := rfl

theorem startPromotion_fuses (s : State) (p : Nat) (k : CmdId) (ctx seq : Nat) (own : Bool) :
    (s.startPromotion p k ctx seq own).1.sec.fuses = s.sec.fuses := by
  simp only [State.startPromotion]
  split
  · rfl
  · split
    · rfl
    · split <;> next h => simp [fuses_of_eq h, allocT1_fuses]

@[simp] theorem requestPage_fuses (s : State) (p ctx : Nat) : (s.requestPage p ctx).sec.fuses = s.sec.fuses := by
  unfold State.requestPage
  (repeat' split) <;> simp

theorem needPage_fuses (s : State) (p : Nat) (k : CmdId) (ctx seq : Nat) (own : Bool) :
    (s.needPage p k ctx seq own).1.sec.fuses = s.sec.fuses := by
  unfold State.needPage
  (repeat' split) <;> simp [startPromotion_fuses]

@[simp] theorem addFrame_fuses (s : State) (f : Frame) : (s.addFrame f).sec.fuses = s.sec.fuses := rfl

@[simp] theorem readFrame_fuses (s : State) (p : Nat) : (s.readFrame p).sec.fuses = s.sec.fuses := rfl

@[simp] theorem putStg_fuses (s : State) (p : Nat) : (s.putStg p).sec.fuses = s.sec.fuses := by
  unfold State.putStg
  (repeat' split) <;> simp

@[simp] theorem commitWrite_fuses (s : State) (p : Nat) (c : Copy) (refill : Bool) (writer : Nat × Nat) :
    (s.commitWrite p c refill writer).sec.fuses = s.sec.fuses := by
  simp only [State.commitWrite]
  (repeat' split) <;> simp

@[simp] theorem abortPage_fuses (s : State) (w : PgBegun) : (s.abortPage w).sec.fuses = s.sec.fuses := by
  unfold State.abortPage
  split <;> simp

@[simp] theorem abortPages_fuses (s : State) (l : List PgBegun) : (s.abortPages l).sec.fuses = s.sec.fuses := by
  induction l generalizing s with
  | nil => rfl
  | cons x t ih => simp [State.abortPages, ih]

@[simp] theorem abortWrites_fuses (s : State) (c : CmdId) : (s.abortWrites c).sec.fuses = s.sec.fuses := by
  unfold State.abortWrites
  split <;> simp

@[simp] theorem dropPin_fuses (s : State) (c : CmdId) : (s.dropPin c).sec.fuses = s.sec.fuses := by
  unfold State.dropPin
  split <;> simp

theorem takePin_fuses {s t : State} {c : CmdId} {f : Frame} (h : s.takePin c f = some t) : t.sec.fuses = s.sec.fuses := by
  unfold State.takePin at h
  (repeat' split at h) <;> cases h <;> simp

@[simp] theorem unpinAll_fuses (s : State) (l : List Nat) : (s.unpinAll l).sec.fuses = s.sec.fuses := by
  induction l generalizing s with
  | nil => rfl
  | cons x t ih => simp [State.unpinAll, ih]

@[simp] theorem letGo_fuses (s : State) (c : CmdId) : (s.letGo c).sec.fuses = s.sec.fuses := by
  unfold State.letGo
  split <;> simp

@[simp] theorem finish_fuses (s : State) (c : CmdId) (status : Nat) (r : optParam Fin { }) :
    (s.finish c status r).sec.fuses = s.sec.fuses := by
  simp [State.finish]

/-! ### Machine/Leases -/

@[simp] theorem setLeases_fuses (s : State) (f : List Lease → List Lease) : (s.setLeases f).sec.fuses = s.sec.fuses := rfl

@[simp] theorem notifyWaiters_fuses (s : State) (outcome lease : Nat) (l : List Waiter) :
    (s.notifyWaiters outcome lease l).sec.fuses = s.sec.fuses := by
  induction l generalizing s outcome lease with
  | nil => rfl
  | cons x t ih => simp [State.notifyWaiters, ih]

@[simp] theorem endLease_fuses (s : State) (l : Lease) (outcome : Option Nat) :
    (s.endLease l outcome).sec.fuses = s.sec.fuses := by
  unfold State.endLease
  (repeat' split) <;> simp

@[simp] theorem settleLeases_fuses (s : State) (l : List Lease) : (s.settleLeases l).sec.fuses = s.sec.fuses := by
  induction l generalizing s with
  | nil => rfl
  | cons x t ih =>
    unfold State.settleLeases
    split <;> simp [ih]

@[simp] theorem mapLeasePages_fuses (s : State) (p : LeasePage → Bool) (f : LeasePage → LeasePage) :
    (s.mapLeasePages p f).sec.fuses = s.sec.fuses := rfl

@[simp] theorem leaseFilled_fuses (s : State) (m : MetPage) : (s.leaseFilled m).sec.fuses = s.sec.fuses := by
  simp [State.leaseFilled]

@[simp] theorem leaseLost_fuses (s : State) (m : MetPage) : (s.leaseLost m).sec.fuses = s.sec.fuses := by
  simp [State.leaseLost]

@[simp] theorem dropRef_fuses (s : State) (p : Nat) : (s.dropRef p).sec.fuses = s.sec.fuses := by
  simp only [State.dropRef]
  (repeat' split) <;> simp

@[simp] theorem dropRefs_fuses (s : State) (l : List Nat) : (s.dropRefs l).sec.fuses = s.sec.fuses := by
  induction l generalizing s with
  | nil => rfl
  | cons x t ih => simp [State.dropRefs, ih]

@[simp] theorem registerWaiters_fuses (s : State) (c : Nat) (r : RcpRun) : (s.registerWaiters c r).sec.fuses = s.sec.fuses := rfl

@[simp] theorem grantLease_fuses (s : State) (c : Nat) (r : RcpRun) : (s.grantLease c r).sec.fuses = s.sec.fuses := rfl

theorem listRun_fuses (s : State) (c : Nat) (r : RcpRun) (g : Listing) : (s.listRun c r g).1.sec.fuses = s.sec.fuses := by
  unfold State.listRun
  (repeat' split) <;> simp

theorem listRuns_fuses (s : State) (c seq left : Nat) (l : List MetPage) (rows : Listing) :
    (s.listRuns c seq left l rows).1.sec.fuses = s.sec.fuses := by
  induction left generalizing s l rows with
  | zero => rfl
  | succ n ih =>
    unfold State.listRuns
    split <;> simp [ih, listRun_fuses]

theorem listSeqs_fuses (s : State) (c : Nat) (met : List MetPage) (l : List Nat) (rows : Listing) :
    (s.listSeqs c met l rows).1.sec.fuses = s.sec.fuses := by
  induction l generalizing s rows with
  | nil => rfl
  | cons q t ih => simp [State.listSeqs, ih, listRuns_fuses]

@[simp] theorem retryImports_fuses (s : State) (met : List MetPage) : (s.retryImports met).sec.fuses = s.sec.fuses := rfl

theorem listMet_fuses (s : State) (c : Nat) (met : List MetPage) : (s.listMet c met).1.sec.fuses = s.sec.fuses := by
  simp [State.listMet, listSeqs_fuses]

@[simp] theorem execLeaseEnd_fuses (slot : Nat) (s : State) : (execLeaseEnd slot s).sec.fuses = s.sec.fuses := by
  unfold execLeaseEnd
  split <;> simp

@[simp] theorem leasesOfSeq_fuses (s : State) (h : Nat) (l : List Lease) : (s.leasesOfSeq h l).sec.fuses = s.sec.fuses := by
  induction l generalizing s h with
  | nil => rfl
  | cons x t ih =>
    unfold State.leasesOfSeq
    split <;> simp [ih]

@[simp] theorem closeSeqLeases_fuses (s : State) (h : Nat) : (s.closeSeqLeases h).sec.fuses = s.sec.fuses := by
  simp [State.closeSeqLeases]

/-! ### Machine/Seqs -/

theorem takeRecord_fuses (s : State) (part : Nat) : (s.takeRecord part).1.sec.fuses = s.sec.fuses := by
  unfold State.takeRecord
  (repeat' split) <;> simp

@[simp] theorem addSeq_fuses (s : State) (r : SeqRec) : (s.addSeq r).sec.fuses = s.sec.fuses := rfl

@[simp] theorem seqOpenBody_fuses (k : Cmd) (s : State) : (seqOpenBody k s).sec.fuses = s.sec.fuses := by
  unfold seqOpenBody
  (repeat' split) <;> simp [takeRecord_fuses]

@[simp] theorem execOpen_fuses (c : CmdId) (s : State) : (execOpen c s).sec.fuses = s.sec.fuses := by
  simp [execOpen]

@[simp] theorem addRefs_fuses (s : State) (l : List Pte) : (s.addRefs l).sec.fuses = s.sec.fuses := by
  induction l generalizing s with
  | nil => rfl
  | cons x t ih =>
    unfold State.addRefs
    split <;> simp [ih]

@[simp] theorem forkChild_fuses (s : State) (k : Cmd) (x : Ctx) (p : Profile) (sdom len : Nat) (set : Placement) (src : List Pte) :
    (s.forkChild k x p sdom len set src).sec.fuses = s.sec.fuses := by
  simp [State.forkChild, takeRecord_fuses]

@[simp] theorem forkFromSeq_fuses (s : State) (k : Cmd) (x : Ctx) (q : SeqRec) :
    (s.forkFromSeq k x q).sec.fuses = s.sec.fuses := by
  have h : @State.forkFromSeq = @State.forkFromSeq := rfl
  conv at h => rhs; delta State.forkFromSeq
  rw [h]
  beta_reduce
  generalize dForkLen k.desc = len
  generalize State.forkCheck = check
  refine id ?_
  simp only
  cases check s x q.mprof len q.len with
  | some st => simp
  | none => simp only; (repeat' split) <;> simp

@[simp] theorem dropPtes_fuses (s : State) (h : Nat) (l : List Pte) : (s.dropPtes h l).sec.fuses = s.sec.fuses := by
  induction l generalizing s h with
  | nil => rfl
  | cons x t ih =>
    unfold State.dropPtes
    split <;> simp [ih]

@[simp] theorem removeRefs_fuses (s : State) (r : SeqRec) : (s.removeRefs r).sec.fuses = s.sec.fuses := by
  simp [State.removeRefs]

@[simp] theorem closeSeq_fuses (s : State) (r : SeqRec) : (s.closeSeq r).sec.fuses = s.sec.fuses := by
  simp [State.closeSeq]

@[simp] theorem seqCloseBody_fuses (k : Cmd) (s : State) : (seqCloseBody k s).sec.fuses = s.sec.fuses := by
  unfold seqCloseBody
  split <;> simp

@[simp] theorem execClose_fuses (c : CmdId) (s : State) : (execClose c s).sec.fuses = s.sec.fuses := by
  simp [execClose]

@[simp] theorem execRefsRemoved_fuses (h : Nat) (s : State) : (execRefsRemoved h s).sec.fuses = s.sec.fuses := by
  unfold execRefsRemoved
  (repeat' split) <;> simp

@[simp] theorem execRestore_fuses (h : Nat) (s : State) : (execRestore h s).sec.fuses = s.sec.fuses := by
  unfold execRestore
  (repeat' split) <;> simp

@[simp] theorem completeMet_fuses (s : State) (k : Cmd) (met : List MetPage) : (s.completeMet k met).sec.fuses = s.sec.fuses := by
  simp [State.completeMet, listMet_fuses]

/-! ### Machine/Placement -/

@[simp] theorem coldAll_fuses (s : State) (l : List Nat) : (s.coldAll l).sec.fuses = s.sec.fuses := by
  induction l generalizing s with
  | nil => rfl
  | cons x t ih => simp [State.coldAll, ih]

@[simp] theorem hintColdBody_fuses (k : Cmd) (s : State) : (hintColdBody k s).sec.fuses = s.sec.fuses := by
  unfold hintColdBody
  split <;> simp

@[simp] theorem execHintC_fuses (c : CmdId) (s : State) : (execHintC c s).sec.fuses = s.sec.fuses := by
  simp [execHintC]

@[simp] theorem warm_fuses (s : State) (k : Cmd) (seq : Nat) (l : List Nat) : (s.warm k seq l).sec.fuses = s.sec.fuses := by
  induction l generalizing s with
  | nil => rfl
  | cons p t ih => 
    unfold State.warm
    (repeat' split) <;> simp [ih, startPromotion_fuses]

@[simp] theorem hintWarmBody_fuses (k : Cmd) (s : State) : (hintWarmBody k s).sec.fuses = s.sec.fuses := by
  unfold hintWarmBody
  split <;> simp

@[simp] theorem execHintW_fuses (c : CmdId) (s : State) : (execHintW c s).sec.fuses = s.sec.fuses := by
  simp [execHintW]

@[simp] theorem pagesDropBody_fuses (k : Cmd) (s : State) : (pagesDropBody k s).sec.fuses = s.sec.fuses := by
  simp only [pagesDropBody]
  (repeat' split) <;> simp

@[simp] theorem execDrop_fuses (c : CmdId) (s : State) : (execDrop c s).sec.fuses = s.sec.fuses := by
  simp [execDrop]

/-! ### Machine/Plans -/

@[simp] theorem t0Evict_fuses (s : State) (part n : Nat) (l : List Nat) :
    (s.t0Evict part n l).sec.fuses = s.sec.fuses := by
  induction l generalizing s part n with
  | nil => rfl
  | cons x t ih =>
    unfold State.t0Evict
    split <;> simp [ih]

@[simp] theorem copyT0_fuses (s : State) (p : Nat) (k : CmdId) (ctx seq : Nat) (repl : Bool) :
    (s.copyT0 p k ctx seq repl).sec.fuses = s.sec.fuses := by
  simp only [State.copyT0]
  (repeat' split) <;> simp

@[simp] theorem hotFill_fuses (s : State) (p : Nat) (l : List PlanEnt) : (s.hotFill p l).sec.fuses = s.sec.fuses := by
  induction l generalizing s p with
  | nil => rfl
  | cons x t ih =>
    unfold State.hotFill
    (repeat' split) <;> simp [ih]

@[simp] theorem setPlanEnt_fuses (s : State) (e : PlanEnt) (f : PlanEnt → PlanEnt) :
    (s.setPlanEnt e f).sec.fuses = s.sec.fuses := rfl

@[simp] theorem stageNeed_fuses (s : State) (e : PlanEnt) (seqIdx : Nat) (x : PlanPage) :
    (s.stageNeed e seqIdx x).sec.fuses = s.sec.fuses := by
  simp only [State.stageNeed]
  (repeat' split) <;> simp [needPage_fuses]

@[simp] theorem tracePlan_fuses (s : State) (e : PlanEnt) (q : SeqRec) (p : Profile) (l : List Pte) (rows : List (Nat × Nat)) :
    (s.tracePlan e q p l rows).sec.fuses = s.sec.fuses := by
  induction l generalizing s e q p rows with
  | nil => rfl
  | cons x t ih => simp [State.tracePlan, ih]

@[simp] theorem stagePage_fuses (s : State) (e : PlanEnt) (part seqIdx : Nat) (t : Pte) :
    (s.stagePage e part seqIdx t).sec.fuses = s.sec.fuses := by
  simp only [State.stagePage]
  (repeat' split) <;> simp

@[simp] theorem stagePages_fuses (s : State) (e : PlanEnt) (part seqIdx : Nat) (l : List Pte) :
    (s.stagePages e part seqIdx l).sec.fuses = s.sec.fuses := by
  induction l generalizing s e part seqIdx with
  | nil => rfl
  | cons x t ih => simp [State.stagePages, ih]

@[simp] theorem stageLayer_fuses (s : State) (plan : CmdId) (no l : Nat) :
    (s.stageLayer plan no l).sec.fuses = s.sec.fuses := by
  unfold State.stageLayer
  (repeat' split) <;> simp

@[simp] theorem stageRow_fuses (s : State) (l : Nat) (rows : List PlanEnt) : (s.stageRow l rows).sec.fuses = s.sec.fuses := by
  induction rows generalizing s l with
  | nil => rfl
  | cons x t ih => simp [State.stageRow, ih]

@[simp] theorem stageWindows_fuses (s : State) (es : List PlanEnt) (l : List Nat) :
    (s.stageWindows es l).sec.fuses = s.sec.fuses := by
  induction l generalizing s es with
  | nil => rfl
  | cons x t ih => simp [State.stageWindows, ih]

@[simp] theorem stageAll_fuses (s : State) (es : List PlanEnt) : (s.stageAll es).sec.fuses = s.sec.fuses := by
  simp [State.stageAll]

@[simp] theorem unpinList_fuses (s : State) (l : List PlanPage) : (s.unpinList l).sec.fuses = s.sec.fuses := by
  induction l generalizing s with
  | nil => rfl
  | cons x t ih => simp [State.unpinList, ih]

@[simp] theorem dropEnts_fuses (s : State) (bad : PlanEnt → Bool) : (s.dropEnts bad).sec.fuses = s.sec.fuses := by
  simp [State.dropEnts]

@[simp] theorem entAttended_fuses (s : State) (e : PlanEnt) (layer : Nat) (cov : PlanPage → Bool) :
    (s.entAttended e layer cov).sec.fuses = s.sec.fuses := by
  simp [State.entAttended]

@[simp] theorem entsAttended_fuses (s : State) (layer : Nat) (cov : PlanPage → Bool) (l : List PlanEnt) :
    (s.entsAttended layer cov l).sec.fuses = s.sec.fuses := by
  induction l generalizing s layer cov with
  | nil => rfl
  | cons x t ih => simp [State.entsAttended, ih]

@[simp] theorem planAttended_fuses (s : State) (seq layer b0 b1 h0 h1 : Nat) :
    (s.planAttended seq layer b0 b1 h0 h1).sec.fuses = s.sec.fuses := by
  simp [State.planAttended]

@[simp] theorem planFinish_fuses (s : State) (k : Cmd) (ign : Nat) (waited : Bool) :
    (s.planFinish k ign waited).sec.fuses = s.sec.fuses := by
  simp only [State.planFinish]
  (repeat' split) <;> simp

@[simp] theorem stepPlanBody_fuses (k : Cmd) (s : State) : (stepPlanBody k s).sec.fuses = s.sec.fuses := by
  unfold stepPlanBody
  extract_lets d list ents ok named s1 s2 s3 s4 ign s5
  have h4 : s4.sec.fuses = s.sec.fuses := (stageAll_fuses ..).trans (dropEnts_fuses ..)
  have h5 : s5.sec.fuses = s.sec.fuses := h4
  (repeat' split) <;> simp [h4, h5]

@[simp] theorem execPlan_fuses (c : CmdId) (s : State) : (execPlan c s).sec.fuses = s.sec.fuses := by
  simp [execPlan]

@[simp] theorem execPinExpire_fuses (c : CmdId) (s : State) : (execPinExpire c s).sec.fuses = s.sec.fuses := by
  unfold execPinExpire
  (repeat' split) <;> simp

@[simp] theorem retryEnt_fuses (s : State) (e : PlanEnt) (l : Nat) : (s.retryEnt e l).sec.fuses = s.sec.fuses := by
  unfold State.retryEnt
  split <;> simp [foldl_fuses]

@[simp] theorem retryRow_fuses (s : State) (l : Nat) (rows : List PlanEnt) : (s.retryRow l rows).sec.fuses = s.sec.fuses := by
  induction rows generalizing s l with
  | nil => rfl
  | cons x t ih => simp [State.retryRow, ih]

@[simp] theorem retryLayers_fuses (s : State) (es : List PlanEnt) (l : List Nat) :
    (s.retryLayers es l).sec.fuses = s.sec.fuses := by
  induction l generalizing s es with
  | nil => rfl
  | cons x t ih => simp [State.retryLayers, ih]

@[simp] theorem retryStaging_fuses (s : State) (es : List PlanEnt) : (s.retryStaging es).sec.fuses = s.sec.fuses := by
  simp [State.retryStaging]

@[simp] theorem giveUpStaging_fuses (s : State) (plan : CmdId) : (s.giveUpStaging plan).sec.fuses = s.sec.fuses := rfl

/-! ### Machine/Rsa -/

theorem checkSig_fuses (s : State) (signer : Nat) (g : Signed) : (s.checkSig signer g).1.sec.fuses = s.sec.fuses := by
  unfold State.checkSig
  split <;> simp

/-! ### Machine/Attend -/

@[simp] theorem loadProfile_fuses (s : State) (m : Nat) : (s.loadProfile m).sec.fuses = s.sec.fuses := by
  unfold State.loadProfile
  split <;> simp

@[simp] theorem touchHot_fuses (s : State) (m : Nat) : (s.touchHot m).sec.fuses = s.sec.fuses := rfl

@[simp] theorem verifyVariant_fuses (s : State) (v : Nat) : (s.verifyVariant v).sec.fuses = s.sec.fuses := by
  unfold State.verifyVariant
  split <;> simp

@[simp] theorem execProfLoad_fuses (m : Nat) (s : State) : (execProfLoad m s).sec.fuses = s.sec.fuses := by
  simp only [execProfLoad]
  (repeat' split) <;> simp

@[simp] theorem setAtt_fuses (s : State) (c : CmdId) (f : Att → Att) : (s.setAtt c f).sec.fuses = s.sec.fuses := rfl

@[simp] theorem bumpSeq_fuses (s : State) (h : Nat) (f : Stats → Stats) : (s.bumpSeq h f).sec.fuses = s.sec.fuses := rfl

@[simp] theorem traceDescs_fuses (s : State) (k : Chunk) (p : Profile) (l : List PageRef) :
    (s.traceDescs k p l).sec.fuses = s.sec.fuses := by
  induction l generalizing s k p with
  | nil => rfl
  | cons x t ih => simp [State.traceDescs, ih]

@[simp] theorem flushChunk_fuses (s : State) (c : CmdId) : (s.flushChunk c).sec.fuses = s.sec.fuses := by
  simp only [State.flushChunk]
  split
  · rfl
  · split
    · rfl
    · cases s.prof? _ <;> split <;> simp

@[simp] theorem countDesc_fuses (s : State) (seq layer lpi head pfh ver : Nat) (ok : Bool) :
    (s.countDesc seq layer lpi head pfh ver ok).sec.fuses = s.sec.fuses := by
  unfold State.countDesc
  split <;> simp

@[simp] theorem meet_fuses (s : State) (c : CmdId) (m : MetPage) : (s.meet c m).sec.fuses = s.sec.fuses := rfl

theorem walkOne_fuses {s : State} {a : Att} {pl : Nat × Nat × Nat} {r : State × PageRef} (h : s.walkOne a pl = some r) :
    r.1.sec.fuses = s.sec.fuses := by
  unfold State.walkOne at h
  dsimp only at h
  (repeat' split at h) <;> cases h <;> simp [needPage_fuses]

@[simp] theorem walkFrom_fuses (s : State) (c : CmdId) (l : List (Nat × Nat × Nat)) :
    (s.walkFrom c l).sec.fuses = s.sec.fuses := by
  induction l generalizing s with
  | nil => simp [State.walkFrom]
  | cons pl t ih =>
    unfold State.walkFrom
    extract_lets same s1
    have h1 : s1.sec.fuses = s.sec.fuses := by
      unfold s1; split <;> simp
    split
    · exact h1
    · split
      · simp [h1]
      · next u r h => 
        have hu : u.sec.fuses = s.sec.fuses := (walkOne_fuses h).trans h1
        rw [ih]
        split <;> simp [hu]

@[simp] theorem unpinPages_fuses (s : State) (l : List PageRef) : (s.unpinPages l).sec.fuses = s.sec.fuses := by
  induction l generalizing s with
  | nil => rfl
  | cons x t ih =>
    unfold State.unpinPages
    split <;> simp [ih]

@[simp] theorem dropAtt_fuses (s : State) (c : CmdId) : (s.dropAtt c).sec.fuses = s.sec.fuses := by
  unfold State.dropAtt
  split <;> simp

@[simp] theorem plansMove_fuses (s : State) (p : Profile) (d : Word512) (l : List AttEnt) :
    (s.plansMove p d l).sec.fuses = s.sec.fuses := by
  induction l generalizing s p d with
  | nil => rfl
  | cons x t ih => simp [State.plansMove, ih]

@[simp] theorem partialOut_fuses (s : State) (k : Cmd) (rlen : Nat) : (s.partialOut k rlen).sec.fuses = s.sec.fuses := by
  simp only [State.partialOut]
  split
  · next h => simpa using spaceWrite_fuses h
  · simp

@[simp] theorem failAttend_fuses (s : State) (c : CmdId) (st : Nat) : (s.failAttend c st).sec.fuses = s.sec.fuses := by
  unfold State.failAttend
  (repeat' split) <;> simp

@[simp] theorem attendDone_fuses (s : State) (c : CmdId) : (s.attendDone c).sec.fuses = s.sec.fuses := by
  unfold State.attendDone
  split
  · split
    · rfl
    · split
      · simp
      · extract_lets
        split
        · simp
        · next s1 h => 
          extract_lets s2 held l st s3 s4
          have h2 : s2.sec.fuses = s.sec.fuses := (bump_fuses ..).trans (spaceWrite_fuses h)
          have hl : l.1.sec.fuses = s.sec.fuses := by
            unfold l; split
            · exact h2
            · exact (listMet_fuses ..).trans h2
          have h3 : s3.sec.fuses = s.sec.fuses := by unfold s3; split <;> simp [hl]
          simp [s4, h3]
  · rfl

@[simp] theorem beginWalk_fuses (s : State) (k : Cmd) (p : Profile) (qs : List SeqRec) :
    (s.beginWalk k p qs).sec.fuses = s.sec.fuses := by
  unfold State.beginWalk
  extract_lets d rd queries stride vs g step r s1 a a' s2 s3
  have h1 : s1.sec.fuses = s.sec.fuses := foldl_fuses _ (by simp) _ _
  have h3 : s3.sec.fuses = s.sec.fuses := (walkFrom_fuses ..).trans h1
  split <;> simp [h3]

@[simp] theorem attendReads_fuses (s : State) (k : Cmd) (p : Profile) (qs : List SeqRec) :
    (s.attendReads k p qs).sec.fuses = s.sec.fuses := by
  simp only [State.attendReads]
  split <;> simp [foldl_fuses]

@[simp] theorem walkReady_fuses (s : State) (k : Cmd) : (s.walkReady k).sec.fuses = s.sec.fuses := by
  unfold State.walkReady
  split <;> simp

@[simp] theorem chargeWalk_fuses (s : State) (c : Nat) : (s.chargeWalk c).sec.fuses = s.sec.fuses := by
  simp only [State.chargeWalk]
  split <;> simp

@[simp] theorem serveWalk_fuses (s : State) : s.serveWalk.sec.fuses = s.sec.fuses := by
  unfold State.serveWalk
  (repeat' split) <;> simp

@[simp] theorem attendEmpty_fuses (s : State) (k : Cmd) : (s.attendEmpty k).sec.fuses = s.sec.fuses := by
  simp [State.attendEmpty]

@[simp] theorem attendGo_fuses (s : State) (c : CmdId) : (s.attendGo c).sec.fuses = s.sec.fuses := by
  unfold State.attendGo
  (repeat' split) <;> simp

@[simp] theorem attendStart_fuses (s : State) (k : Cmd) (p : Profile) (qs : List SeqRec) :
    (s.attendStart k p qs).sec.fuses = s.sec.fuses := by
  simp only [State.attendStart]
  (repeat' split) <;> simp

@[simp] theorem attendBody_fuses (k : Cmd) (s : State) : (attendBody k s).sec.fuses = s.sec.fuses := by
  unfold attendBody
  (repeat' split) <;> simp

@[simp] theorem execAttendF_fuses (c : CmdId) (s : State) : (execAttendF c s).sec.fuses = s.sec.fuses := by
  simp [execAttendF]

@[simp] theorem resumeWalks_fuses (s : State) (pfh : Nat) (l : List Att) : (s.resumeWalks pfh l).sec.fuses = s.sec.fuses := by
  induction l generalizing s pfh with
  | nil => rfl
  | cons x t ih =>
    unfold State.resumeWalks
    dsimp only
    (repeat' split) <;> simp [ih]

@[simp] theorem execPinResume_fuses (pfh : Nat) (s : State) : (execPinResume pfh s).sec.fuses = s.sec.fuses := by
  unfold execPinResume
  (repeat' split) <;> simp

/-! ### Machine/PrefixOps -/

theorem hashChain_fuses (s : State) (n : Nat) : (s.hashChain n).1.sec.fuses = s.sec.fuses := by
  simp only [State.hashChain]
  split <;> simp

@[simp] theorem setShardHome_fuses (s : State) (n v : Nat) : (s.setShardHome n v).sec.fuses = s.sec.fuses := rfl

@[simp] theorem setPxi_fuses (s : State) (f : Pxi → Pxi) : (s.setPxi f).sec.fuses = s.sec.fuses := rfl

@[simp] theorem setDirEnt_fuses (s : State) (bucket slot : Nat) (f : DirEnt → DirEnt) :
    (s.setDirEnt bucket slot f).sec.fuses = s.sec.fuses := rfl

@[simp] theorem camDrop_fuses (s : State) (die row : Nat) : (s.camDrop die row).sec.fuses = s.sec.fuses := rfl

@[simp] theorem camInstall_fuses (s : State) (e : DirEnt) : (s.camInstall e).sec.fuses = s.sec.fuses := rfl

@[simp] theorem dirHit_fuses (s : State) (e : DirEnt) : (s.dirHit e).sec.fuses = s.sec.fuses := rfl

theorem camVerify_fuses (s : State) (d sdom mprof : Nat) (l : List CamRow) :
    (s.camVerify d sdom mprof l).1.sec.fuses = s.sec.fuses := by
  induction l generalizing s d sdom mprof with
  | nil => rfl
  | cons x t ih =>
    unfold State.camVerify
    split <;> simp [ih]

theorem camSearch_fuses (s : State) (d sdom mprof : Nat) :
    (s.camSearch d sdom mprof).1.sec.fuses = s.sec.fuses := by
  simp only [State.camSearch]
  split <;> rename_i h <;> simp [fuses_of_eq h, camVerify_fuses]

theorem search_fuses (s : State) (d sdom mprof : Nat) (camOnly : Bool) :
    (s.search d sdom mprof camOnly).1.sec.fuses = s.sec.fuses := by
  simp only [State.search]
  (repeat' split) <;> simp [camSearch_fuses]

theorem insertEntry_fuses (s : State) (d sdom mprof depth anchor apart epoch : Nat) (row : Bool) :
    (s.insertEntry d sdom mprof depth anchor apart epoch row).1.sec.fuses = s.sec.fuses := by
  simp only [State.insertEntry]
  (repeat' split) <;> simp

@[simp] theorem setAnchor_fuses (s : State) (idx : Nat) (f : Anchor → Anchor) : (s.setAnchor idx f).sec.fuses = s.sec.fuses := rfl

@[simp] theorem persistUpdate_fuses (s : State) (p : Nat) : (s.persistUpdate p).sec.fuses = s.sec.fuses := rfl

@[simp] theorem persistAll_fuses (s : State) (l : List Pte) : (s.persistAll l).sec.fuses = s.sec.fuses := by
  induction l generalizing s with
  | nil => rfl
  | cons x t ih => simp [State.persistAll, ih]

@[simp] theorem dropRows_fuses (s : State) (l : List Pte) : (s.dropRows l).sec.fuses = s.sec.fuses := by
  induction l generalizing s with
  | nil => rfl
  | cons x t ih =>
    unfold State.dropRows
    split <;> simp [ih]

@[simp] theorem freeAnchor_fuses (s : State) (a : Anchor) : (s.freeAnchor a).sec.fuses = s.sec.fuses := by
  simp [State.freeAnchor]

@[simp] theorem freeIdle_fuses (s : State) (l : List Anchor) : (s.freeIdle l).sec.fuses = s.sec.fuses := by
  induction l generalizing s with
  | nil => rfl
  | cons x t ih =>
    unfold State.freeIdle
    (repeat' split) <;> simp [ih]

theorem takeAnchor_fuses {s : State} {r : State × Nat × Nat} (h : s.takeAnchor = some r) : r.1.sec.fuses = s.sec.fuses := by
  unfold State.takeAnchor at h
  (repeat' split at h) <;> cases h <;> simp

@[simp] theorem lowerLive_fuses (s : State) (l : List DirEnt) : (s.lowerLive l).sec.fuses = s.sec.fuses := by
  induction l generalizing s with
  | nil => rfl
  | cons x t ih =>
    unfold State.lowerLive
    (repeat' split) <;> simp [ih]

theorem retireWhere_fuses (s : State) (bad : DirEnt → Bool) : (s.retireWhere bad).1.sec.fuses = s.sec.fuses := by
  simp [State.retireWhere]

theorem retireKey_fuses (s : State) (k : RetireKey) : (s.retireKey k).1.sec.fuses = s.sec.fuses := by
  unfold State.retireKey
  (repeat' split) <;> simp [retireWhere_fuses]

@[simp] theorem retiredAt_fuses (s : State) (k : RetireKey) (at_ : Nat → Bool) : (s.retiredAt k at_).sec.fuses = s.sec.fuses := by
  simp [State.retiredAt]

theorem newReq_fuses (s : State) : s.newReq.1.sec.fuses = s.sec.fuses := rfl

@[simp] theorem missHomes_fuses (s : State) (idx fr : Nat) (l : List Nat) :
    (s.missHomes idx fr l).sec.fuses = s.sec.fuses := by
  induction l generalizing s idx fr with
  | nil => rfl
  | cons x t ih =>
    unfold State.missHomes
    dsimp only
    (repeat' split) <;> simp [ih]

@[simp] theorem sendRetires_fuses (s : State) (a : Anchor) (fr : Nat) (l : List Nat) :
    (s.sendRetires a fr l).sec.fuses = s.sec.fuses := by
  induction l generalizing s with
  | nil => rfl
  | cons h t ih => 
    unfold State.sendRetires
    simp [ih, newReq_fuses]

@[simp] theorem scanAnchor_fuses (s : State) (a : Anchor) (fr : Nat) : (s.scanAnchor a fr).sec.fuses = s.sec.fuses := by
  simp [State.scanAnchor, retireKey_fuses]

@[simp] theorem scanEnd_fuses (s : State) (req : Nat) (ok : Bool) : (s.scanEnd req ok).sec.fuses = s.sec.fuses := by
  simp only [State.scanEnd]
  (repeat' split) <;> simp

@[simp] theorem scanAnchors_fuses (s : State) (p : Nat) (l : List Anchor) : (s.scanAnchors p l).sec.fuses = s.sec.fuses := by
  induction l generalizing s p with
  | nil => rfl
  | cons x t ih =>
    unfold State.scanAnchors
    split <;> simp [ih]

@[simp] theorem poisonScan_fuses (s : State) (p sdom : Nat) : (s.poisonScan p sdom).sec.fuses = s.sec.fuses := by
  simp [State.poisonScan]

/-! ### Machine/Sched -/

@[simp] theorem trackActive_fuses (s : State) (set : Nat) (l : List Ctx) : (s.trackActive set l).sec.fuses = s.sec.fuses := by
  induction l generalizing s set with
  | nil => rfl
  | cons x t ih =>
    unfold State.trackActive
    dsimp only
    (repeat' split) <;> simp [ih]

@[simp] theorem setTracked_fuses (s : State) (set : Nat) : (s.setTracked set).sec.fuses = s.sec.fuses := by
  simp [State.setTracked]

@[simp] theorem loadExpander_fuses (s : State) (ae : Nat) (k : Chunk) : (s.loadExpander ae k).sec.fuses = s.sec.fuses := by
  unfold State.loadExpander
  exact foldl_fuses _ (by simp) _ _

@[simp] theorem place_fuses (s : State) (k : Chunk) (ae : Nat) : (s.place k ae).sec.fuses = s.sec.fuses := by
  unfold State.place
  split <;> simp

@[simp] theorem placeRound_fuses (s : State) (set left : Nat) : (s.placeRound set left).sec.fuses = s.sec.fuses := by
  induction left generalizing s set with
  | zero => rfl
  | succ n ih =>
    unfold State.placeRound
    (repeat' split) <;> simp [ih]

@[simp] theorem execRound_fuses (set : Nat) (s : State) : (execRound set s).sec.fuses = s.sec.fuses := by
  unfold execRound
  split <;> simp

@[simp] theorem maskPage_fuses (s : State) (pfh ver : Nat) (old : Bool) :
    (s.maskPage pfh ver old).sec.fuses = s.sec.fuses := by
  unfold State.maskPage
  exact foldl_fuses _ (fun t k => foldl_fuses _ (by simp) _ _) _ _

@[simp] theorem maskFrame_fuses (s : State) (f : Frame) : (s.maskFrame f).sec.fuses = s.sec.fuses := by
  unfold State.maskFrame
  split <;> simp

@[simp] theorem poison_fuses (s : State) (pfh : Nat) : (s.poison pfh).sec.fuses = s.sec.fuses := by
  unfold State.poison
  split <;> simp

@[simp] theorem poisonOwn_fuses (s : State) (pfh st : Nat) : (s.poisonOwn pfh st).sec.fuses = s.sec.fuses := by
  unfold State.poisonOwn
  (repeat' split) <;> simp

@[simp] theorem copyFailed_fuses (s : State) (f : Frame) (t : Tier) (k : FailKind) :
    (s.copyFailed f t k).sec.fuses = s.sec.fuses := by
  unfold State.copyFailed
  (repeat' split) <;> simp

@[simp] theorem pageFailed_fuses (s : State) (k : Chunk) (x : PageFail) : (s.pageFailed k x).sec.fuses = s.sec.fuses := by
  unfold State.pageFailed
  (repeat' split) <;> simp

@[simp] theorem pageFails_fuses (s : State) (k : Chunk) (l : List PageFail) : (s.pageFails k l).sec.fuses = s.sec.fuses := by
  induction l generalizing s k with
  | nil => rfl
  | cons x t ih => simp [State.pageFails, ih]

theorem rewrite_fuses {s : State} {f : Frame} {c : Copy} {r : State × Copy} (h : s.rewrite f c = some r) :
    r.1.sec.fuses = s.sec.fuses := by
  unfold State.rewrite at h
  dsimp only at h
  (repeat' split at h) <;> cases h
  simp

@[simp] theorem leaveDirty_fuses (s : State) (f : Frame) (c : Copy) (bad : Bool) :
    (s.leaveDirty f c bad).sec.fuses = s.sec.fuses := by
  unfold State.leaveDirty
  extract_lets v
  have hv : v.1.sec.fuses = s.sec.fuses := by
    unfold v; split
    · rfl
    · exact verifyCopy_fuses ..
  split
  · simp [hv]
  · split
    · next h => simp [rewrite_fuses h, hv]
    · simp [hv]

@[simp] theorem leavePrev_fuses (s : State) (f : Frame) (bad : Bool) : (s.leavePrev f bad).sec.fuses = s.sec.fuses := by
  unfold State.leavePrev
  split
  · rfl
  · split
    · rfl
    · extract_lets v
      have hv : v.1.sec.fuses = s.sec.fuses := verifyCopy_fuses ..
      split
      · next h => simp [rewrite_fuses h, hv]
      · simp [hv]

@[simp] theorem leaveRetired_fuses (s : State) (bad : Bool) (f : Frame) : (s.leaveRetired bad f).sec.fuses = s.sec.fuses := by
  simp only [State.leaveRetired]
  (repeat' split) <;> simp

@[simp] theorem leaveAll_fuses (s : State) (bad : List Nat) (l : List Frame) : (s.leaveAll bad l).sec.fuses = s.sec.fuses := by
  induction l generalizing s bad with
  | nil => rfl
  | cons x t ih => simp [State.leaveAll, ih]

@[simp] theorem clearRetired_fuses (s : State) (bad : List Nat) : (s.clearRetired bad).sec.fuses = s.sec.fuses := by
  simp [State.clearRetired]

@[simp] theorem mergeChunk_fuses (s : State) (k : Chunk) (p : Profile) (d : Word512) :
    (s.mergeChunk k p d).sec.fuses = s.sec.fuses := rfl

@[simp] theorem maxChunks_fuses (s : State) (k : Chunk) : (s.maxChunks k).sec.fuses = s.sec.fuses := by
  simp only [State.maxChunks]
  (repeat' split) <;> simp

@[simp] theorem grainsOf_fuses (s : State) (k : Chunk) (p : Profile) (l : List PageRef) :
    (s.grainsOf k p l).sec.fuses = s.sec.fuses := by
  induction l generalizing s k p with
  | nil => rfl
  | cons x t ih =>
    unfold State.grainsOf
    dsimp only
    (repeat' split) <;> simp [ih]

@[simp] theorem chargeReads_fuses (s : State) (c : Nat) (l : List PageRef) : (s.chargeReads c l).sec.fuses = s.sec.fuses := by
  induction l generalizing s c with
  | nil => rfl
  | cons x t ih =>
    unfold State.chargeReads
    (repeat' split) <;> simp [ih]

@[simp] theorem setBusy_fuses (s : State) (set n : Nat) : (s.setBusy set n).sec.fuses = s.sec.fuses := rfl

@[simp] theorem chargeChunk_fuses (s : State) (k : Chunk) (ae act : Nat) (p : Profile) :
    (s.chargeChunk k ae act p).sec.fuses = s.sec.fuses := by
  simp only [State.chargeChunk]
  split <;> simp

@[simp] theorem endChunk_fuses (s : State) (k : Chunk) (ae act : Nat) (p : Profile) :
    (s.endChunk k ae act p).sec.fuses = s.sec.fuses := by
  simp only [State.endChunk]
  (repeat' split) <;> simp

theorem verdicts_fuses (s : State) (given : List PageFail) (l : List PageRef) :
    (s.verdicts given l).1.sec.fuses = s.sec.fuses := by
  induction l generalizing s with
  | nil => rfl
  | cons r t ih => 
    unfold State.verdicts
    extract_lets
    split
    · exact ih ..
    · split
      · exact ih ..
      · simp [ih, verifyCopy_fuses]

@[simp] theorem execChunk_fuses (ae cycles : Nat) (fails : List PageFail) (s : State) :
    (execChunk ae cycles fails s).sec.fuses = s.sec.fuses := by
  simp only [execChunk]
  (repeat' split) <;> simp [verdicts_fuses]

/-! ### Machine/Append -/

theorem needAll_fuses (s : State) (k : Cmd) (seq : Nat) (l : List Frame) : (s.needAll k seq l).1.sec.fuses = s.sec.fuses := by
  induction l generalizing s with
  | nil => rfl
  | cons f t ih => simp [State.needAll, ih, needPage_fuses]

@[simp] theorem sawCopies_fuses (s : State) (c : CmdId) (seen : List Nat) : (s.sawCopies c seen).sec.fuses = s.sec.fuses := rfl

theorem verifyPage_fuses (s : State) (c : CmdId) (f : Frame) : (s.verifyPage c f).1.sec.fuses = s.sec.fuses := by
  unfold State.verifyPage
  split
  · rfl
  · split
    · rfl
    · split
      · rfl
      · next h => 
        extract_lets v
        have hv : v.1.sec.fuses = s.sec.fuses := (verifyT1_fuses ..).trans (by
          split at h
          · exact takePin_fuses h
          · cases h; rfl)
        split <;> simp [hv]

theorem verifyCopies_fuses (s : State) (c : CmdId) (seen : List Nat) (l : List Frame) :
    (s.verifyCopies c seen l).1.sec.fuses = s.sec.fuses := by
  induction l generalizing s seen with
  | nil => rfl
  | cons f t ih => 
    unfold State.verifyCopies
    split
    · exact ih ..
    · extract_lets v
      have hv : v.1.sec.fuses = s.sec.fuses := verifyPage_fuses ..
      split
      · simp [ih, hv]
      · exact hv

theorem newWriting_fuses (s : State) (q : SeqRec) (p : Profile) (set : Placement) (ver : Nat) :
    (s.newWriting q p set ver).1.sec.fuses = s.sec.fuses := rfl

theorem beginPage_fuses (s : State) (q : SeqRec) (p : Profile) (pl : Nat × Nat × Nat) :
    (s.beginPage q p pl).1.sec.fuses = s.sec.fuses := by
  unfold State.beginPage
  (repeat' split) <;> simp [newWriting_fuses]

theorem beginPages_fuses (s : State) (q : SeqRec) (p : Profile) (l : List (Nat × Nat × Nat)) :
    (s.beginPages q p l).1.sec.fuses = s.sec.fuses := by
  induction l generalizing s with
  | nil => rfl
  | cons pl t ih => simp [State.beginPages, ih, beginPage_fuses]

theorem encodePage_fuses (s : State) (p : Profile) (w : PgBegun) (ver : Nat) (data : List (Nat × Byte)) :
    (s.encodePage p w ver data).1.sec.fuses = s.sec.fuses := by
  unfold State.encodePage
  split <;> simp [encodeTiles_fuses]

theorem encodeAll_fuses (s : State) (p : Profile) (q : SeqRec) (src : List Byte) (pos n lf : Nat) (l : List PgBegun) :
    (s.encodeAll p q src pos n lf l).1.sec.fuses = s.sec.fuses := by
  induction l generalizing s with
  | nil => rfl
  | cons w t ih => simp [State.encodeAll, ih, encodePage_fuses]

theorem fillAll_fuses (s : State) (l : List PgForm) : (s.fillAll l).1.sec.fuses = s.sec.fuses := by
  induction l generalizing s with
  | nil => rfl
  | cons x t ih => 
    unfold State.fillAll
    split
    · exact ih ..
    · split <;> next h => simp [ih, fuses_of_eq h, allocT1_fuses]

@[simp] theorem unfill_fuses (s : State) (l : List PgForm) : (s.unfill l).sec.fuses = s.sec.fuses := by
  induction l generalizing s with
  | nil => rfl
  | cons x t ih => simp [State.unfill, ih]

@[simp] theorem commitForm_fuses (s : State) (p : Profile) (writer : Nat × Nat) (refill : Bool) (x : PgForm) :
    (s.commitForm p writer refill x).sec.fuses = s.sec.fuses := by
  unfold State.commitForm
  split <;> simp

@[simp] theorem commitPage_fuses (s : State) (c : Nat) (p : Profile) (q : SeqRec) (vis : Nat) (x : PgForm) :
    (s.commitPage c p q vis x).sec.fuses = s.sec.fuses := by
  simp only [State.commitPage]
  split <;> simp

@[simp] theorem commitPages_fuses (s : State) (c : Nat) (p : Profile) (q : SeqRec) (vis : Nat) (l : List PgForm) :
    (s.commitPages c p q vis l).sec.fuses = s.sec.fuses := by
  induction l generalizing s c p q vis with
  | nil => rfl
  | cons x t ih => simp [State.commitPages, ih]

@[simp] theorem noteWait_fuses (s : State) (c : CmdId) : (s.noteWait c).sec.fuses = s.sec.fuses := by
  unfold State.noteWait
  (repeat' split) <;> simp

@[simp] theorem appendWrite_fuses (s : State) (k : Cmd) (q : SeqRec) (p : Profile) (src : List Byte) :
    (s.appendWrite k q p src).sec.fuses = s.sec.fuses := by
  simp only [State.appendWrite]
  split <;> rename_i h <;> simp [fuses_of_eq h, encodeAll_fuses, fillAll_fuses]

@[simp] theorem appendMet_fuses (s : State) (k : Cmd) (q : SeqRec) (met : List MetPage) :
    (s.appendMet k q met).sec.fuses = s.sec.fuses := by
  simp [State.appendMet]

@[simp] theorem appendGo_fuses (s : State) (k : Cmd) (q : SeqRec) (p : Profile) (src : List Byte) (places : List (Nat × Nat × Nat)) :
    (s.appendGo k q p src places).sec.fuses = s.sec.fuses := by
  simp only [State.appendGo]
  (repeat' split) <;> simp [verifyCopies_fuses]

@[simp] theorem appendBegin_fuses (s : State) (k : Cmd) (q : SeqRec) (p : Profile) (src : List Byte) (places : List (Nat × Nat × Nat)) :
    (s.appendBegin k q p src places).sec.fuses = s.sec.fuses := by
  simp only [State.appendBegin]
  (repeat' split) <;> simp [beginPages_fuses]

@[simp] theorem appendBody_fuses (k : Cmd) (s : State) : (appendBody k s).sec.fuses = s.sec.fuses := by
  simp only [appendBody]
  (repeat' split) <;> simp [needAll_fuses]

@[simp] theorem execAppend_fuses (c : CmdId) (s : State) : (execAppend c s).sec.fuses = s.sec.fuses := by
  simp [execAppend]

theorem beginRefill_fuses (s : State) (q : SeqRec) (p : Profile) (m : MetPage) :
    (s.beginRefill q p m).1.sec.fuses = s.sec.fuses := by
  unfold State.beginRefill
  (repeat' split) <;> simp [newWriting_fuses]

theorem beginRefills_fuses (s : State) (q : SeqRec) (p : Profile) (l : List MetPage) :
    (s.beginRefills q p l).1.sec.fuses = s.sec.fuses := by
  induction l generalizing s with
  | nil => rfl
  | cons m t ih => simp [State.beginRefills, ih, beginRefill_fuses]

theorem refillForms_fuses (s : State) (p : Profile) (src : List Byte) (pos n lf : Nat) (l : List PgBegun) :
    (s.refillForms p src pos n lf l).1.sec.fuses = s.sec.fuses := by
  induction l generalizing s with
  | nil => rfl
  | cons w t ih => simp [State.refillForms, ih, encodeTiles_fuses]

@[simp] theorem refillPage_fuses (s : State) (c : Nat) (p : Profile) (q : SeqRec) (x : PgForm) :
    (s.refillPage c p q x).sec.fuses = s.sec.fuses := by
  simp only [State.refillPage]
  split <;> simp

@[simp] theorem refillPages_fuses (s : State) (c : Nat) (p : Profile) (q : SeqRec) (l : List PgForm) :
    (s.refillPages c p q l).sec.fuses = s.sec.fuses := by
  induction l generalizing s c p q with
  | nil => rfl
  | cons x t ih => simp [State.refillPages, ih]

@[simp] theorem refillWrite_fuses (s : State) (k : Cmd) (q : SeqRec) (p : Profile) (src : List Byte) :
    (s.refillWrite k q p src).sec.fuses = s.sec.fuses := by
  unfold State.refillWrite
  extract_lets d skipped ws enc
  have he : enc.1.sec.fuses = s.sec.fuses := refillForms_fuses ..
  split
  · simp
  · split <;> next h => simp [fillAll_fuses, fuses_of_eq h, he]

@[simp] theorem refillBegin_fuses (s : State) (k : Cmd) (q : SeqRec) (p : Profile) (src : List Byte) (places : List (Nat × Nat × Nat)) :
    (s.refillBegin k q p src places).sec.fuses = s.sec.fuses := by
  simp only [State.refillBegin]
  (repeat' split) <;> simp [beginRefills_fuses]

@[simp] theorem refillBody_fuses (k : Cmd) (s : State) : (refillBody k s).sec.fuses = s.sec.fuses := by
  simp only [refillBody]
  (repeat' split) <;> simp

@[simp] theorem execRefill_fuses (c : CmdId) (s : State) : (execRefill c s).sec.fuses = s.sec.fuses := by
  simp [execRefill]

/-! ### Machine/TierRows -/

@[simp] theorem readPassed_fuses (s : State) (p : Nat) : (s.readPassed p).sec.fuses = s.sec.fuses := by
  unfold State.readPassed
  split <;> simp

@[simp] theorem repair_fuses (s : State) (f : Frame) (b : List Byte) : (s.repair f b).sec.fuses = s.sec.fuses := by
  unfold State.repair
  split <;> simp

@[simp] theorem exhausted_fuses (s : State) (f : Frame) : (s.exhausted f).sec.fuses = s.sec.fuses := by
  simp [State.exhausted]

@[simp] theorem ladderStep_fuses (s : State) (f : Frame) (e : LadderEnd) : (s.ladderStep f e).sec.fuses = s.sec.fuses := by
  simp only [State.ladderStep]
  (repeat' split) <;> simp

theorem forceRead_fuses (s : State) (f : Frame) : (s.forceRead f).1.sec.fuses = s.sec.fuses := by
  simp only [State.forceRead]
  (repeat' split) <;> simp

theorem stepEnd_fuses (s : State) (f : Frame) (e : LadderEnd) : (s.stepEnd f e).1.sec.fuses = s.sec.fuses := by
  simp only [State.stepEnd]
  (repeat' split) <;> simp [verdict_fuses, forceRead_fuses]

@[simp] theorem ladderEnd_fuses (s : State) (f : Frame) (e : LadderEnd) : (s.ladderEnd f e).sec.fuses = s.sec.fuses := by
  simp only [State.ladderEnd]
  split <;> simp [stepEnd_fuses]

@[simp] theorem execFlashRead_fuses (p : Nat) (e : LadderEnd) (s : State) : (execFlashRead p e s).sec.fuses = s.sec.fuses := by
  unfold execFlashRead
  (repeat' split) <;> simp

@[simp] theorem execRb_fuses (ch target p : Nat) (s : State) :
    (execRb ch target p s).sec.fuses = s.sec.fuses := by
  simp only [execRb]
  (repeat' split) <;> simp

@[simp] theorem execPromo_fuses (p : Nat) (s : State) : (execPromo p s).sec.fuses = s.sec.fuses := by
  unfold execPromo
  (repeat' split) <;> simp

@[simp] theorem execLower_fuses (p : Nat) (fail : Option FailKind) (s : State) :
    (execLower p fail s).sec.fuses = s.sec.fuses := by
  simp only [execLower]
  (repeat' split) <;> simp [verifyCopy_fuses]

@[simp] theorem chargeMove_fuses (s : State) (f : Frame) (k : PgmKind) : (s.chargeMove f k).sec.fuses = s.sec.fuses := by
  unfold State.chargeMove
  split <;> simp

@[simp] theorem execProg_fuses (p : Nat) (s : State) : (execProg p s).sec.fuses = s.sec.fuses := by
  simp only [execProg]
  (repeat' split) <;> simp

@[simp] theorem execEager_fuses (p : Nat) (s : State) : (execEager p s).sec.fuses = s.sec.fuses := by
  unfold execEager
  (repeat' split) <;> simp

@[simp] theorem execEvict_fuses (part : Nat) (s : State) : (execEvict part s).sec.fuses = s.sec.fuses := by
  simp only [execEvict]
  split <;> simp

theorem retryPages_fuses (s : State) (k : Chunk) (l : List PageRef) : (s.retryPages k l).1.sec.fuses = s.sec.fuses := by
  induction l generalizing s with
  | nil => rfl
  | cons r t ih => 
    unfold State.retryPages
    split
    · exact ih ..
    · simp [ih, needPage_fuses]

@[simp] theorem retryChunks_fuses (s : State) (l : List Chunk) : (s.retryChunks l).sec.fuses = s.sec.fuses := by
  induction l generalizing s with
  | nil => rfl
  | cons k t ih => 
    unfold State.retryChunks
    extract_lets x
    have hx : x.1.sec.fuses = s.sec.fuses := retryPages_fuses ..
    rw [ih]
    split <;> simp [hx]

@[simp] theorem execResumeT1_fuses (part : Nat) (s : State) : (execResumeT1 part s).sec.fuses = s.sec.fuses := by
  simp [execResumeT1]

@[simp] theorem execAllocEnd_fuses (c : CmdId) (s : State) : (execAllocEnd c s).sec.fuses = s.sec.fuses := by
  unfold execAllocEnd
  (repeat' split) <;> simp

@[simp] theorem relocate_fuses (s : State) (b : Nat × Nat) (l : List Frame) : (s.relocate b l).sec.fuses = s.sec.fuses := by
  induction l generalizing s b with
  | nil => rfl
  | cons x t ih => simp [State.relocate, ih]

@[simp] theorem clean_fuses (s : State) : s.clean.sec.fuses = s.sec.fuses := by
  simp only [State.clean]
  (repeat' split) <;> simp

@[simp] theorem reclaim_fuses (s : State) (l : List Nat) : (s.reclaim l).sec.fuses = s.sec.fuses := by
  induction l generalizing s with
  | nil => rfl
  | cons x t ih =>
    unfold State.reclaim
    (repeat' split) <;> simp [ih]

@[simp] theorem execReclaim_fuses (s : State) : (execReclaim s).sec.fuses = s.sec.fuses := by
  simp [execReclaim]

@[simp] theorem execCredit_fuses (us : Nat) (s : State) : (execCredit us s).sec.fuses = s.sec.fuses := rfl

@[simp] theorem retirePc_fuses (s : State) (pc : Nat) (bad : List Nat) : (s.retirePc pc bad).sec.fuses = s.sec.fuses := by
  unfold State.retirePc
  split <;> simp

@[simp] theorem startCommit_fuses (s : State) : s.startCommit.sec.fuses = s.sec.fuses := by
  unfold State.startCommit
  split <;> simp

@[simp] theorem execCommit_fuses (s : State) : (execCommit s).sec.fuses = s.sec.fuses := by
  unfold execCommit
  split <;> simp

@[simp] theorem endCommit_fuses (s : State) : s.endCommit.sec.fuses = s.sec.fuses := by
  unfold State.endCommit
  split <;> simp

@[simp] theorem execCommitDone_fuses (s : State) : (execCommitDone s).sec.fuses = s.sec.fuses := by
  simp [execCommitDone]

/-! ### Machine/Deliver -/

theorem deliverPin_fuses {s t : State} {c : CmdId} {f : Frame} (h : s.deliverPin c f = some t) : t.sec.fuses = s.sec.fuses := by
  unfold State.deliverPin at h
  split at h
  · split at h
    · cases h; rfl
    · simp [takePin_fuses h]
  · exact takePin_fuses h

/-- The state in which a page's step leaves the part; an unavailable page leaves the one it began in. -/
def PageStep.state (s : State) : PageStep → State
  | .ready t _ => t
  | .unavailable _ => s
  | .wait t => t

theorem readInPlace_fuses (d s : State) (k : Cmd) (q : SeqRec) (g : Frame) :
    (PageStep.state d (s.readInPlace k q g)).sec.fuses = s.sec.fuses := by
  unfold State.readInPlace
  (repeat' split) <;> simp [PageStep.state]

theorem deliverStep_fuses (s : State) (k : Cmd) (q : SeqRec) (pl : Nat × Nat × Nat) :
    (PageStep.state s (s.deliverStep k q pl)).sec.fuses = s.sec.fuses := by
  unfold State.deliverStep
  split
  · rfl
  · split
    · rfl
    · split
      · rfl
      · next u h =>
        have hu : u.sec.fuses = s.sec.fuses := by
          obtain ⟨f, -, hf⟩ := Option.bind_eq_some_iff.mp h
          exact deliverPin_fuses hf
        split
        · simp [PageStep.state, needPage_fuses, hu]
        · split
          · exact hu
          · split
            · exact (readInPlace_fuses ..).trans hu
            · extract_lets r
              have hr : r.1.sec.fuses = s.sec.fuses := (needPage_fuses ..).trans hu
              split <;> simp [PageStep.state, hr]

@[simp] theorem deliverNext_fuses (s : State) (k : Cmd) (q : SeqRec) (p : Profile) (f : Frame) (i : Nat) :
    (s.deliverNext k q p f i).sec.fuses = s.sec.fuses := by
  unfold State.deliverNext
  split <;> simp

theorem deliverFrom_fuses {s : State} {k : Cmd} {q : SeqRec} {p : Profile} {caps : List Nat} {l : List (Nat × Nat × Nat)} {i : Nat}
    {r : State × Bool} (h : s.deliverFrom k q p caps l i = .ok r) : r.1.sec.fuses = s.sec.fuses := by
  induction l generalizing s i with
  | nil => cases h; rfl
  | cons pl t ih =>
    unfold State.deliverFrom at h
    have hd := deliverStep_fuses s k q pl
    split at h
    · next heq => cases h; rwa [heq] at hd
    · simpa using ih h
    · next u f heq =>
      rw [heq] at hd
      extract_lets v at h
      have hv : v.1.sec.fuses = s.sec.fuses := by
        unfold v; split
        · exact (verifyT1_fuses ..).trans hd
        · exact hd
      split at h
      · cases h; simp [hv]
      · split at h
        · cases h
        · next hw => simpa [spaceWrite_fuses hw, hv] using ih h

@[simp] theorem deliverEnd_fuses (s : State) (k : Cmd) (rlen : Nat) : (s.deliverEnd k rlen).sec.fuses = s.sec.fuses := by
  simp only [State.deliverEnd]
  split <;> simp [listMet_fuses]

@[simp] theorem deliverRun_fuses (s : State) (k : Cmd) (q : SeqRec) (p : Profile) :
    (s.deliverRun k q p).sec.fuses = s.sec.fuses := by
  unfold State.deliverRun
  extract_lets
  split
  · simp
  · split
    · simp
    · next h => exact deliverFrom_fuses h
    · next h => simpa using deliverFrom_fuses h

@[simp] theorem deliverBody_fuses (k : Cmd) (s : State) : (deliverBody k s).sec.fuses = s.sec.fuses := by
  simp only [deliverBody]
  (repeat' split) <;> simp

@[simp] theorem execDeliver_fuses (c : CmdId) (s : State) : (execDeliver c s).sec.fuses = s.sec.fuses := by
  simp [execDeliver]

/-! ### Machine/Egress -/

@[simp] theorem setMka_fuses (s : State) (i : Nat) (f : MacSec → MacSec) : (s.setMka i f).sec.fuses = s.sec.fuses := rfl

@[simp] theorem saDown_fuses (s : State) (l : List Nat) : (s.saDown l).sec.fuses = s.sec.fuses := rfl

@[simp] theorem setEgs_fuses (s : State) (f : Egs → Egs) : (s.setEgs f).sec.fuses = s.sec.fuses := rfl

theorem pickSub_fuses (s : State) (i svc : Nat) : (s.pickSub i svc).1.sec.fuses = s.sec.fuses := by
  simp only [State.pickSub]
  split <;> simp

theorem pickPacket_fuses (s : State) (i : Nat) : (s.pickPacket i).1.sec.fuses = s.sec.fuses := by
  simp only [State.pickPacket]
  split <;> simp [pickSub_fuses]

@[simp] theorem takePacket_fuses (s : State) (h : QPkt) : (s.takePacket h).sec.fuses = s.sec.fuses := rfl

@[simp] theorem putPacket_fuses (s : State) (i : Nat) (p : Packet) : (s.putPacket i p).sec.fuses = s.sec.fuses := rfl

@[simp] theorem sendPacket_fuses (s : State) (i : Nat) (p : Packet) : (s.sendPacket i p).sec.fuses = s.sec.fuses := by
  simp only [State.sendPacket]
  (repeat' split) <;> simp

@[simp] theorem setSub_fuses (s : State) (n : Nat) (e : EgsEntry) : (s.setSub n e).sec.fuses = s.sec.fuses := rfl

@[simp] theorem setSvc_fuses (s : State) (n : Nat) (e : EgsEntry) : (s.setSvc n e).sec.fuses = s.sec.fuses := rfl

@[simp] theorem execSubWrite_fuses (f : Nat) (s : State) : (execSubWrite f s).sec.fuses = s.sec.fuses := by
  unfold execSubWrite
  split <;> simp

@[simp] theorem execSubLoad_fuses (f : Nat) (s : State) : (execSubLoad f s).sec.fuses = s.sec.fuses := by
  unfold execSubLoad
  split <;> simp

@[simp] theorem execSvcWrite_fuses (f : Nat) (s : State) : (execSvcWrite f s).sec.fuses = s.sec.fuses := by
  unfold execSvcWrite
  split <;> simp

@[simp] theorem execSvcLoad_fuses (f : Nat) (s : State) : (execSvcLoad f s).sec.fuses = s.sec.fuses := by
  unfold execSvcLoad
  split <;> simp

@[simp] theorem execEgsTick_fuses (s : State) : (execEgsTick s).sec.fuses = s.sec.fuses := rfl

@[simp] theorem execSampleSel_fuses (f : Nat) (v : Word32) (s : State) : (execSampleSel f v s).sec.fuses = s.sec.fuses := by
  simp only [execSampleSel]
  (repeat' split) <;> simp

/-! ### Machine/Prefix -/

@[simp] theorem askRef_fuses (s : State) (k : Cmd) (r : Nat) : (s.askRef k r).sec.fuses = s.sec.fuses := by
  unfold State.askRef
  split <;> simp [newReq_fuses]

theorem searchLocal_fuses (s : State) (sdom mprof : Nat) (camOnly : Bool) (l : Lookup) (rows : List (Nat × Nat)) :
    (s.searchLocal sdom mprof camOnly l rows).1.sec.fuses = s.sec.fuses := by
  induction rows generalizing s l with
  | nil => rfl
  | cons x t ih => 
    unfold State.searchLocal
    extract_lets r l'
    have hr : r.1.sec.fuses = s.sec.fuses := search_fuses ..
    split
    · exact ih ..
    · split <;> simp [ih, hr]

theorem askHome_fuses (s : State) (ctx home sdom mprof : Nat) (camOnly : Bool) (l : Lookup) (rows : List (List (Nat × Nat))) :
    (s.askHome ctx home sdom mprof camOnly l rows).1.sec.fuses = s.sec.fuses := by
  induction rows generalizing s l with
  | nil => rfl
  | cons g t ih => simp [State.askHome, ih, newReq_fuses]

theorem askHomes_fuses (s : State) (ctx sdom mprof : Nat) (camOnly : Bool) (l : Lookup) (rows : List Nat) :
    (s.askHomes ctx sdom mprof camOnly l rows).1.sec.fuses = s.sec.fuses := by
  induction rows generalizing s l with
  | nil => rfl
  | cons h t ih => simp [State.askHomes, ih, askHome_fuses]

theorem issueCursor_fuses (s : State) (ctx : Nat) (l : List Match) (casc : Option (Nat × Nat)) :
    (s.issueCursor ctx l casc).1.sec.fuses = s.sec.fuses := by
  simp only [State.issueCursor]
  split <;> simp

@[simp] theorem dropLookup_fuses (s : State) (c : CmdId) : (s.dropLookup c).sec.fuses = s.sec.fuses := rfl

@[simp] theorem lookupDone_fuses (s : State) (l : Lookup) : (s.lookupDone l).sec.fuses = s.sec.fuses := by
  unfold State.lookupDone
  split
  · simp
  · extract_lets d s1 base ms held ref mm r
    have hr : r.1.sec.fuses = s.sec.fuses := by
      unfold r; split
      · exact (issueCursor_fuses ..).trans (dropLookup_fuses ..)
      · exact dropLookup_fuses ..
    split
    · simp [s1]
    · next h => simp [spaceWrite_fuses h, hr]

@[simp] theorem setLookup_fuses (s : State) (c : CmdId) (f : Lookup → Lookup) : (s.setLookup c f).sec.fuses = s.sec.fuses := rfl

@[simp] theorem settleLookup_fuses (s : State) (c : CmdId) : (s.settleLookup c).sec.fuses = s.sec.fuses := by
  unfold State.settleLookup
  (repeat' split) <;> simp

@[simp] theorem lookupRun_fuses (s : State) (k : Cmd) (p : Profile) (b : Base) (toks : List Byte) :
    (s.lookupRun k p b toks).sec.fuses = s.sec.fuses := by
  simp only [State.lookupRun]
  split <;> simp [hashChain_fuses, searchLocal_fuses, askHomes_fuses]

@[simp] theorem lookupBody_fuses (k : Cmd) (s : State) : (lookupBody k s).sec.fuses = s.sec.fuses := by
  unfold lookupBody
  (repeat' split) <;> simp

@[simp] theorem execLookupF_fuses (c : CmdId) (s : State) : (execLookupF c s).sec.fuses = s.sec.fuses := by
  simp [execLookupF]

@[simp] theorem execLookupResp_fuses (req cam : Nat) (hits : List Match) (s : State) :
    (execLookupResp req cam hits s).sec.fuses = s.sec.fuses := by
  unfold execLookupResp
  split <;> simp

@[simp] theorem execRemoteTimeout_fuses (c : CmdId) (s : State) : (execRemoteTimeout c s).sec.fuses = s.sec.fuses := by
  unfold execRemoteTimeout
  (repeat' split) <;> simp

theorem searchAll_fuses (s : State) (sdom mprof : Nat) (camOnly : Bool) (l : List (Nat × Nat)) :
    (s.searchAll sdom mprof camOnly l).1.sec.fuses = s.sec.fuses := by
  induction l generalizing s with
  | nil => rfl
  | cons x t ih => 
    unfold State.searchAll
    extract_lets r x'
    have hx : x'.1.sec.fuses = s.sec.fuses := (ih ..).trans (search_fuses ..)
    split <;> exact hx

@[simp] theorem execLookupReq_fuses (src req sdom mprof : Nat) (camOnly : Bool) (items : List (Nat × Nat)) (s : State) :
    (execLookupReq src req sdom mprof camOnly items s).sec.fuses = s.sec.fuses := by
  simp [execLookupReq, searchAll_fuses]

@[simp] theorem freeCursor_fuses (s : State) (slot : Nat) : (s.freeCursor slot).sec.fuses = s.sec.fuses := rfl

@[simp] theorem setCasc_fuses (s : State) (f : Casc → Casc) : (s.setCasc f).sec.fuses = s.sec.fuses := rfl

@[simp] theorem sendQuery_fuses (s : State) (ctx : Nat) (m : SvcMsg) (l : List Nat) :
    (s.sendQuery ctx m l).sec.fuses = s.sec.fuses := by
  induction l generalizing s ctx m with
  | nil => rfl
  | cons x t ih => simp [State.sendQuery, ih]

@[simp] theorem endCursor_fuses (s : State) (c : Cursor) : (s.endCursor c).sec.fuses = s.sec.fuses := by
  unfold State.endCursor
  split <;> simp

@[simp] theorem cascNext_fuses (s : State) (k : CmdId) (c : Cursor) (m : Option Match) :
    (s.cascNext k c m).sec.fuses = s.sec.fuses := by
  unfold State.cascNext
  split <;> simp

@[simp] theorem nextBody_fuses (k : Cmd) (s : State) : (nextBody k s).sec.fuses = s.sec.fuses := by
  unfold nextBody
  (repeat' split) <;> simp

@[simp] theorem execNext_fuses (c : CmdId) (s : State) : (execNext c s).sec.fuses = s.sec.fuses := by
  simp [execNext]

@[simp] theorem execCursorEnd_fuses (slot : Nat) (s : State) : (execCursorEnd slot s).sec.fuses = s.sec.fuses := by
  unfold execCursorEnd
  split <;> simp

@[simp] theorem claimTime_fuses (s : State) : s.claimTime.sec.fuses = s.sec.fuses := rfl

@[simp] theorem execClaim_fuses (c : CmdId) (rivals : List Nat) (s : State) : (execClaim c rivals s).sec.fuses = s.sec.fuses := by
  simp only [execClaim]
  (repeat' split) <;> simp [newReq_fuses]

@[simp] theorem execObserved_fuses (p query : Nat) (s : State) : (execObserved p query s).sec.fuses = s.sec.fuses := by
  unfold execObserved
  split <;> simp

@[simp] theorem execCascQ_fuses (src req sdom mprof limit : Nat) (camOnly : Bool) (items : List (Nat × Nat)) (s : State) :
    (execCascQ src req sdom mprof limit camOnly items s).sec.fuses = s.sec.fuses := by
  unfold execCascQ
  (repeat' split) <;> simp [searchAll_fuses]

@[simp] theorem execSearchDone_fuses (s : State) : (execSearchDone s).sec.fuses = s.sec.fuses := by
  unfold execSearchDone
  split <;> simp

@[simp] theorem cascEnd_fuses (s : State) (m : Option Match) (inc : Bool) : (s.cascEnd m inc).sec.fuses = s.sec.fuses := by
  unfold State.cascEnd
  (repeat' split) <;> simp

@[simp] theorem execArb_fuses (others : List (Nat × Nat)) (s : State) : (execArb others s).sec.fuses = s.sec.fuses := by
  simp only [execArb]
  (repeat' split) <;> simp

@[simp] theorem execCascR_fuses (ref : Word64) (s : State) : (execCascR ref s).sec.fuses = s.sec.fuses := by
  unfold execCascR
  split <;> simp

@[simp] theorem execStrobe_fuses (s : State) : (execStrobe s).sec.fuses = s.sec.fuses := by
  unfold execStrobe
  (repeat' split) <;> simp

@[simp] theorem execRdyOut_fuses (s : State) : (execRdyOut s).sec.fuses = s.sec.fuses := by
  unfold execRdyOut
  split <;> simp

@[simp] theorem queryFailed_fuses (s : State) (req : Nat) : (s.queryFailed req).sec.fuses = s.sec.fuses := rfl

@[simp] theorem cascGiveUp_fuses (s : State) (l : List Lookup) : (s.cascGiveUp l).sec.fuses = s.sec.fuses := by
  induction l generalizing s with
  | nil => rfl
  | cons x t ih =>
    unfold State.cascGiveUp
    split <;> simp [ih]

@[simp] theorem execStuck_fuses (s : State) : (execStuck s).sec.fuses = s.sec.fuses := by
  unfold execStuck
  (repeat' split) <;> simp

@[simp] theorem execReleased_fuses (s : State) : (execReleased s).sec.fuses = s.sec.fuses := by
  unfold execReleased
  (repeat' split) <;> simp

@[simp] theorem setPub_fuses (s : State) (c : CmdId) (f : Publish → Publish) : (s.setPub c f).sec.fuses = s.sec.fuses := rfl

@[simp] theorem pubDone_fuses (s : State) (u : Publish) (fail : Option Nat) : (s.pubDone u fail).sec.fuses = s.sec.fuses := by
  simp only [State.pubDone]
  (repeat' split) <;> simp

@[simp] theorem pubStep_fuses (s : State) (u : Publish) (sdom mprof ctx left : Nat) :
    (s.pubStep u sdom mprof ctx left).sec.fuses = s.sec.fuses := by
  induction left generalizing s u with
  | zero => simp [State.pubStep]
  | succ n ih => 
    unfold State.pubStep
    split
    · simp
    · extract_lets h items r u'
      split
      · split <;> next hi => simp [ih, fuses_of_eq hi, insertEntry_fuses]
      · split <;> simp [r, newReq_fuses]

@[simp] theorem pubRun_fuses (s : State) (k : Cmd) (q : SeqRec) (p : Profile) (b : Base) (toks : List Byte) :
    (s.pubRun k q p b toks).sec.fuses = s.sec.fuses := by
  unfold State.pubRun
  extract_lets d depth ds s1 lim
  have h1 : s1.sec.fuses = s.sec.fuses := hashChain_fuses ..
  split
  · simp [h1]
  · split
    · simp [h1]
    · next u i g h => 
      have hu : u.sec.fuses = s.sec.fuses := (takeAnchor_fuses h).trans h1
      extract_lets base a s2 s3 s4 p
      have h4 : s4.sec.fuses = s.sec.fuses := by simp [s4, s3, s2, hu]
      simp [h4]

@[simp] theorem publishBody_fuses (k : Cmd) (s : State) : (publishBody k s).sec.fuses = s.sec.fuses := by
  unfold publishBody
  (repeat' split) <;> simp

@[simp] theorem execPublish_fuses (c : CmdId) (s : State) : (execPublish c s).sec.fuses = s.sec.fuses := by
  simp [execPublish]

@[simp] theorem fillEnd_fuses (s : State) (req : Nat) (sts : List Nat) (refs : List Word64) :
    (s.fillEnd req sts refs).sec.fuses = s.sec.fuses := by
  simp only [State.fillEnd]
  (repeat' split) <;> simp

@[simp] theorem batchEnd_fuses (s : State) (req : Nat) (sts : List Nat) (refs : List Word64) :
    (s.batchEnd req sts refs).sec.fuses = s.sec.fuses := by
  simp only [State.batchEnd]
  (repeat' split) <;> simp

@[simp] theorem execInsertReply_fuses (req : Nat) (sts : List Nat) (refs : List Word64) (s : State) :
    (execInsertReply req sts refs s).sec.fuses = s.sec.fuses := by
  simp [execInsertReply]

theorem insertItems_fuses (s : State) (fill : Bool) (l : List InsertItem) :
    (s.insertItems fill l).1.sec.fuses = s.sec.fuses := by
  induction l generalizing s with
  | nil => rfl
  | cons i t ih => 
    unfold State.insertItems
    split <;> next h => simp [ih, fuses_of_eq h, insertEntry_fuses]

@[simp] theorem execInsert_fuses (src req : Nat) (fill : Bool) (items : List InsertItem) (s : State) :
    (execInsert src req fill items s).sec.fuses = s.sec.fuses := by
  unfold execInsert
  split <;> simp [insertItems_fuses]

@[simp] theorem ownRetired_fuses (s : State) (key : RetireKey) : (s.ownRetired key).sec.fuses = s.sec.fuses := by
  simp only [State.ownRetired]
  (repeat' split) <;> simp

@[simp] theorem execRetire_fuses (src req : Nat) (key : RetireKey) (s : State) :
    (execRetire src req key s).sec.fuses = s.sec.fuses := by
  unfold execRetire
  split <;> simp [retireKey_fuses]

@[simp] theorem trimItems_fuses (s : State) (src : Nat) (l : List (Nat × Nat)) :
    (s.trimItems src l).sec.fuses = s.sec.fuses := by
  induction l generalizing s with
  | nil => rfl
  | cons i t ih => simp [State.trimItems, ih, retireKey_fuses]

@[simp] theorem execTrim_fuses (src : Nat) (items : List (Nat × Nat)) (s : State) :
    (execTrim src items s).sec.fuses = s.sec.fuses := by
  unfold execTrim
  split <;> simp

theorem askRetire_fuses (s : State) (ctx : Nat) (key : RetireKey) (l : List Nat) (rows : List (Nat × Nat)) :
    (s.askRetire ctx key l rows).1.sec.fuses = s.sec.fuses := by
  induction l generalizing s rows with
  | nil => rfl
  | cons h t ih => simp [State.askRetire, ih, newReq_fuses]

@[simp] theorem setRetire_fuses (s : State) (c : CmdId) (f : Retiring → Retiring) :
    (s.setRetire c f).sec.fuses = s.sec.fuses := rfl

@[simp] theorem settleRetire_fuses (s : State) (c : CmdId) : (s.settleRetire c).sec.fuses = s.sec.fuses := by
  unfold State.settleRetire
  (repeat' split) <;> simp

@[simp] theorem retireAt_fuses (s : State) (k : Cmd) (key : RetireKey) (homes : List Nat) (count : Nat) :
    (s.retireAt k key homes count).sec.fuses = s.sec.fuses := by
  simp [State.retireAt, askRetire_fuses]

@[simp] theorem retireDomain_fuses (s : State) (k : Cmd) (x : Ctx) : (s.retireDomain k x).sec.fuses = s.sec.fuses := by
  unfold State.retireDomain
  split <;> simp [retireKey_fuses]

@[simp] theorem retireRef_fuses (s : State) (k : Cmd) (r fr : Nat) : (s.retireRef k r fr).sec.fuses = s.sec.fuses := by
  unfold State.retireRef
  (repeat' split) <;> simp [retireKey_fuses]

@[simp] theorem retireBody_fuses (k : Cmd) (s : State) : (retireBody k s).sec.fuses = s.sec.fuses := by
  simp only [retireBody]
  (repeat' split) <;> simp

@[simp] theorem execRetireCmd_fuses (c : CmdId) (s : State) : (execRetireCmd c s).sec.fuses = s.sec.fuses := by
  simp [execRetireCmd]

@[simp] theorem retireEnd_fuses (s : State) (req : Nat) (ans : Option (Nat × Nat)) :
    (s.retireEnd req ans).sec.fuses = s.sec.fuses := by
  simp only [State.retireEnd]
  (repeat' split) <;> simp

@[simp] theorem execRetireReply_fuses (req st n : Nat) (s : State) :
    (execRetireReply req st n s).sec.fuses = s.sec.fuses := by
  simp [execRetireReply]

theorem forkFromAnchor_cases {P : State → Prop} {s : State} {k : Cmd} {x : Ctx} {a : Anchor} (hc : ∀ st, P (s.complete k.id st))
    (hf : ∀ p len d, P (s.forkChild k x p a.sdom len d a.ptes)) : P (s.forkFromAnchor k x a) := by
  have h : @State.forkFromAnchor = @State.forkFromAnchor := rfl
  conv at h => rhs; delta State.forkFromAnchor
  rw [h]
  clear h
  beta_reduce
  generalize dForkLen k.desc = len
  generalize State.forkCheck = check
  generalize refDepth (fkRef k.desc) = rd
  refine id ?_
  split
  · exact hc _
  · simp only
    split
    · exact hc _
    · split
      · exact hc _
      · exact hf ..

@[simp] theorem forkFromAnchor_fuses (s : State) (k : Cmd) (x : Ctx) (a : Anchor) :
    (s.forkFromAnchor k x a).sec.fuses = s.sec.fuses := by
  exact forkFromAnchor_cases (P := fun t => t.sec.fuses = s.sec.fuses) (fun st => by simp) fun p len d => by simp

@[simp] theorem forkRemote_fuses (s : State) (k : Cmd) (x : Ctx) : (s.forkRemote k x).sec.fuses = s.sec.fuses := by
  simp only [State.forkRemote]
  (repeat' split) <;> simp [newReq_fuses]

@[simp] theorem forkBody_fuses (k : Cmd) (s : State) : (forkBody k s).sec.fuses = s.sec.fuses := by
  unfold forkBody
  (repeat' split) <;> simp

@[simp] theorem execFork_fuses (c : CmdId) (s : State) : (execFork c s).sec.fuses = s.sec.fuses := by
  simp [execFork]

/-! ### Machine/Domain -/

@[simp] theorem setDom_fuses (s : State) (f : Dom → Dom) : (s.setDom f).sec.fuses = s.sec.fuses := rfl

@[simp] theorem svcAll_fuses (s : State) (m : SvcMsg) (l : List Nat) : (s.svcAll m l).sec.fuses = s.sec.fuses := by
  induction l generalizing s m with
  | nil => rfl
  | cons x t ih => simp [State.svcAll, ih]

@[simp] theorem domEvents_fuses (s : State) (d : List Byte) (l : List Ctx) : (s.domEvents d l).sec.fuses = s.sec.fuses := by
  induction l generalizing s d with
  | nil => rfl
  | cons x t ih =>
    unfold State.domEvents
    split <;> simp [ih]

@[simp] theorem setDomState_fuses (s : State) (st : Nat) : (s.setDomState st).sec.fuses = s.sec.fuses := by
  unfold State.setDomState
  split <;> simp

@[simp] theorem setEpoch_fuses (s : State) (e : Nat) : (s.setEpoch e).sec.fuses = s.sec.fuses := by
  unfold State.setEpoch
  split <;> simp

@[simp] theorem see_fuses (s : State) (e : Nat) : (s.see e).sec.fuses = s.sec.fuses := rfl

@[simp] theorem detach_fuses (s : State) : s.detach.sec.fuses = s.sec.fuses := by
  simp [State.detach]

@[simp] theorem dropEntries_fuses (s : State) (bad : DirEnt → Bool) : (s.dropEntries bad).sec.fuses = s.sec.fuses := rfl

@[simp] theorem reinsert_fuses (s : State) (a : Anchor) (l : List (Nat × Nat)) : (s.reinsert a l).sec.fuses = s.sec.fuses := by
  induction l generalizing s with
  | nil => rfl
  | cons h t ih => simp [State.reinsert, ih, insertEntry_fuses]

@[simp] theorem sendInserts_fuses (s : State) (a : Anchor) (home : Nat) (l : List (List (Nat × Nat))) :
    (s.sendInserts a home l).sec.fuses = s.sec.fuses := by
  induction l generalizing s with
  | nil => rfl
  | cons h t ih => 
    unfold State.sendInserts
    simp [ih, newReq_fuses]

@[simp] theorem refillHome_fuses (s : State) (a : Anchor) (home : Nat) (ds : List (Nat × Nat)) :
    (s.refillHome a home ds).sec.fuses = s.sec.fuses := by
  unfold State.refillHome
  (repeat' split) <;> simp

@[simp] theorem refillHomes_fuses (s : State) (a : Anchor) (q : Nat → Bool) (l : List Nat) :
    (s.refillHomes a q l).sec.fuses = s.sec.fuses := by
  induction l generalizing s a q with
  | nil => rfl
  | cons x t ih => simp [State.refillHomes, ih]

@[simp] theorem refillAll_fuses (s : State) (q : Nat → Bool) (homes : List Nat) (l : List Anchor) :
    (s.refillAll q homes l).sec.fuses = s.sec.fuses := by
  induction l generalizing s q homes with
  | nil => rfl
  | cons x t ih => simp [State.refillAll, ih]

@[simp] theorem sendTrims_fuses (s : State) (l : List Anchor) : (s.sendTrims l).sec.fuses = s.sec.fuses := by
  induction l generalizing s with
  | nil => rfl
  | cons x t ih =>
    unfold State.sendTrims
    split <;> simp [ih]

@[simp] theorem rebuild_fuses (s : State) (e : Nat) : (s.rebuild e).sec.fuses = s.sec.fuses := by
  simp [State.rebuild]

@[simp] theorem startRound_fuses (s : State) (e : Nat) (ps : List Nat) (first : optParam Bool false) :
    (s.startRound e ps first).sec.fuses = s.sec.fuses := by
  simp [State.startRound]

@[simp] theorem roundFor_fuses (s : State) (keep : List Nat) : (s.roundFor keep).sec.fuses = s.sec.fuses := by
  simp [State.roundFor]

@[simp] theorem welcome_fuses (s : State) (l : List Nat) : (s.welcome l).sec.fuses = s.sec.fuses := by
  induction l generalizing s with
  | nil => rfl
  | cons x t ih =>
    unfold State.welcome
    split <;> simp [ih]

@[simp] theorem admitSelf_fuses (s : State) (e : Nat) : (s.admitSelf e).sec.fuses = s.sec.fuses := by
  simp [State.admitSelf]

@[simp] theorem execRoundEnd_fuses (s : State) : (execRoundEnd s).sec.fuses = s.sec.fuses := by
  simp only [execRoundEnd]
  (repeat' split) <;> simp

@[simp] theorem execAdmit_fuses (src e : Nat) (s : State) : (execAdmit src e s).sec.fuses = s.sec.fuses := by
  unfold execAdmit
  split <;> simp

@[simp] theorem execAdmitReply_fuses (src e : Nat) (s : State) : (execAdmitReply src e s).sec.fuses = s.sec.fuses := by
  unfold execAdmitReply
  (repeat' split) <;> simp

@[simp] theorem execJoin_fuses (src last highest : Nat) (s : State) :
    (execJoin src last highest s).sec.fuses = s.sec.fuses := by
  simp only [execJoin]
  (repeat' split) <;> simp

@[simp] theorem declareLost_fuses (s : State) (p : Nat) : (s.declareLost p).sec.fuses = s.sec.fuses := by
  unfold State.declareLost
  (repeat' split) <;> simp

@[simp] theorem execMemberLost_fuses (p : Nat) (s : State) : (execMemberLost p s).sec.fuses = s.sec.fuses := by
  simp [execMemberLost]

@[simp] theorem reportLost_fuses (s : State) (p : Nat) : (s.reportLost p).sec.fuses = s.sec.fuses := by
  unfold State.reportLost
  (repeat' split) <;> simp

@[simp] theorem promise_fuses (s : State) (c e : Nat) : (s.promise c e).sec.fuses = s.sec.fuses := rfl

@[simp] theorem elected_fuses (s : State) (el : Election) : (s.elected el).sec.fuses = s.sec.fuses := by
  simp [State.elected]

@[simp] theorem gotGrant_fuses (s : State) (src e highest : Nat) :
    (s.gotGrant src e highest).sec.fuses = s.sec.fuses := by
  simp only [State.gotGrant]
  (repeat' split) <;> simp

@[simp] theorem vote_fuses (s : State) (src e rank : Nat) : (s.vote src e rank).sec.fuses = s.sec.fuses := by
  simp only [State.vote]
  (repeat' split) <;> simp

@[simp] theorem execLeaseReq_fuses (src e rank : Nat) (s : State) :
    (execLeaseReq src e rank s).sec.fuses = s.sec.fuses := by
  unfold execLeaseReq
  split <;> simp

@[simp] theorem execLeaseGrant_fuses (src e highest : Nat) (s : State) :
    (execLeaseGrant src e highest s).sec.fuses = s.sec.fuses := by
  simp [execLeaseGrant]

@[simp] theorem voteEach_fuses (s : State) (l : List (Nat × Nat × Nat)) : (s.voteEach l).sec.fuses = s.sec.fuses := by
  induction l generalizing s with
  | nil => rfl
  | cons x t ih => simp [State.voteEach, ih]

@[simp] theorem grantHeld_fuses (s : State) : s.grantHeld.sec.fuses = s.sec.fuses := by
  simp [State.grantHeld]

@[simp] theorem execPromiseLapse_fuses (s : State) : (execPromiseLapse s).sec.fuses = s.sec.fuses := by
  unfold execPromiseLapse
  split <;> simp

@[simp] theorem execHoldEnd_fuses (s : State) : (execHoldEnd s).sec.fuses = s.sec.fuses := by
  unfold execHoldEnd
  split <;> simp

@[simp] theorem askLease_fuses (s : State) (e : Nat) : (s.askLease e).sec.fuses = s.sec.fuses := by
  simp [State.askLease]

@[simp] theorem execElect_fuses (s : State) : (execElect s).sec.fuses = s.sec.fuses := by
  unfold execElect
  split <;> simp

@[simp] theorem execElectAgain_fuses (s : State) : (execElectAgain s).sec.fuses = s.sec.fuses := by
  unfold execElectAgain
  (repeat' split) <;> simp

theorem renew_fuses (s : State) (mgr e : Nat) : (s.renew mgr e).1.sec.fuses = s.sec.fuses := by
  unfold State.renew
  split <;> simp

@[simp] theorem extendLease_fuses (s : State) : s.extendLease.sec.fuses = s.sec.fuses := by
  unfold State.extendLease
  split <;> simp

@[simp] theorem execBeat_fuses (s : State) : (execBeat s).sec.fuses = s.sec.fuses := by
  simp only [execBeat]
  (repeat' split) <;> simp [renew_fuses]

@[simp] theorem attach_fuses (s : State) (src e until_ : Nat) (members : List Nat) :
    (s.attach src e until_ members).sec.fuses = s.sec.fuses := by
  simp [State.attach]

@[simp] theorem roundOver_fuses (s : State) (e : Nat) : (s.roundOver e).sec.fuses = s.sec.fuses := by
  unfold State.roundOver
  split <;> simp

@[simp] theorem execHeartbeat_fuses (src e rUs _mapVer : Nat) (members : List Nat) (s : State) :
    (execHeartbeat src e rUs _mapVer members s).sec.fuses = s.sec.fuses := by
  simp only [execHeartbeat]
  (repeat' split) <;> simp [renew_fuses]

@[simp] theorem execHbAck_fuses (src e : Nat) (s : State) : (execHbAck src e s).sec.fuses = s.sec.fuses := by
  unfold execHbAck
  split <;> simp

@[simp] theorem execLeaseOver_fuses (s : State) : (execLeaseOver s).sec.fuses = s.sec.fuses := by
  unfold execLeaseOver
  split <;> simp

@[simp] theorem execAttachEnd_fuses (s : State) : (execAttachEnd s).sec.fuses = s.sec.fuses := by
  unfold execAttachEnd
  split <;> simp

theorem putMap_fuses (s : State) (l : List (Nat × Nat)) : (s.putMap l).1.sec.fuses = s.sec.fuses := by
  induction l generalizing s with
  | nil => rfl
  | cons x t ih => simp [State.putMap, ih]

@[simp] theorem homesMoved_fuses (s : State) (ch : List Nat) : (s.homesMoved ch).sec.fuses = s.sec.fuses := by
  unfold State.homesMoved
  split <;> simp

@[simp] theorem execMapWrite_fuses (f n : Nat) (v : Word32) (s : State) :
    (execMapWrite f n v s).sec.fuses = s.sec.fuses := by
  simp only [execMapWrite]
  (repeat' split) <;> simp [putMap_fuses]

@[simp] theorem execMapUpdate_fuses (src ver : Nat) (map : List Nat) (s : State) :
    (execMapUpdate src ver map s).sec.fuses = s.sec.fuses := by
  unfold execMapUpdate
  split <;> simp [putMap_fuses]

@[simp] theorem putEps_fuses (s : State) (l : List (Nat × Word512)) : (s.putEps l).sec.fuses = s.sec.fuses := by
  induction l generalizing s with
  | nil => rfl
  | cons x t ih => simp [State.putEps, ih]

@[simp] theorem putRegs_fuses (s : State) (l : List (Nat × Word128)) : (s.putRegs l).sec.fuses = s.sec.fuses := by
  induction l generalizing s with
  | nil => rfl
  | cons x t ih => simp [State.putRegs, ih]

@[simp] theorem execRegUpdate_fuses (src : Nat) (eps : List (Nat × Word512)) (regs : List (Nat × Word128)) (s : State) :
    (execRegUpdate src eps regs s).sec.fuses = s.sec.fuses := by
  unfold execRegUpdate
  split <;> simp

@[simp] theorem execEpStore_fuses (f : Nat) (s : State) : (execEpStore f s).sec.fuses = s.sec.fuses := by
  simp only [execEpStore]
  (repeat' split) <;> simp

@[simp] theorem loadFields_fuses (s : State) (f : Fld) (v : Nat) (l : List Nat) :
    (s.loadFields f v l).sec.fuses = s.sec.fuses := by
  induction l generalizing s f v with
  | nil => rfl
  | cons x t ih => simp [State.loadFields, ih]

@[simp] theorem execEpFetch_fuses (f : Nat) (s : State) : (execEpFetch f s).sec.fuses = s.sec.fuses := by
  unfold execEpFetch
  split <;> simp

@[simp] theorem execRegStore_fuses (f : Nat) (s : State) : (execRegStore f s).sec.fuses = s.sec.fuses := by
  unfold execRegStore
  split <;> simp

@[simp] theorem execRegFetch_fuses (f : Nat) (s : State) : (execRegFetch f s).sec.fuses = s.sec.fuses := by
  unfold execRegFetch
  split <;> simp

@[simp] theorem execRefillReq_fuses (src part : Nat) (s : State) :
    (execRefillReq src part s).sec.fuses = s.sec.fuses := by
  unfold execRefillReq
  split <;> simp

@[simp] theorem execRefillDone_fuses (s : State) : (execRefillDone s).sec.fuses = s.sec.fuses := rfl

@[simp] theorem execRowsReq_fuses (src req : Nat) (ref : Word64) (forkLen : Nat) (s : State) :
    (execRowsReq src req ref forkLen s).sec.fuses = s.sec.fuses := by
  unfold execRowsReq
  (repeat' split) <;> simp

theorem makeProxies_fuses (s : State) (peer part sdom mprof tiles : Nat) (l : List RowPage) :
    (s.makeProxies peer part sdom mprof tiles l).1.sec.fuses = s.sec.fuses := by
  induction l generalizing s peer part sdom mprof tiles with
  | nil => rfl
  | cons x t ih =>
    unfold State.makeProxies
    dsimp only
    (repeat' split) <;> simp [ih]

@[simp] theorem dropRows_fuses_ (s : State) (req : Nat) : (s.dropRows_ req).sec.fuses = s.sec.fuses := rfl

@[simp] theorem forkFails_fuses (s : State) (src req : Nat) (k : Cmd) (st : Nat) :
    (s.forkFails src req k st).sec.fuses = s.sec.fuses := by
  simp [State.forkFails]

@[simp] theorem forkRows_fuses (s : State) (src req : Nat) (k : Cmd) (x : Ctx) (mprof sdom : Nat) (rows : List RowPage) :
    (s.forkRows src req k x mprof sdom rows).sec.fuses = s.sec.fuses := by
  have h : @State.forkRows = @State.forkRows := rfl
  conv at h => rhs; delta State.forkRows
  rw [h]
  beta_reduce
  generalize dForkLen k.desc = len
  generalize State.forkCheck = check
  generalize refDepth (dF k.desc 8 8) = d
  generalize refAnchor (dF k.desc 8 8) = a
  refine id ?_
  split
  · simp
  · split
    · simp
    · simp only
      split
      · simp
      · split <;> simp [makeProxies_fuses]

@[simp] theorem execRowsResp_fuses (src req status mprof sdom : Nat) (rows : List RowPage) (digests : List Nat) (s : State) :
    (execRowsResp src req status mprof sdom rows digests s).sec.fuses = s.sec.fuses := by
  simp only [execRowsResp]
  (repeat' split) <;> simp

@[simp] theorem takeRemote_fuses (s : State) (peer : Nat) (l : List Nat) : (s.takeRemote peer l).sec.fuses = s.sec.fuses := by
  induction l generalizing s peer with
  | nil => rfl
  | cons x t ih => simp [State.takeRemote, ih]

@[simp] theorem unpinRows_fuses (s : State) (src req : Nat) : (s.unpinRows src req).sec.fuses = s.sec.fuses := by
  simp only [State.unpinRows]
  (repeat' split) <;> simp

@[simp] theorem execRowsDone_fuses (src req : Nat) (frames : List Nat) (s : State) :
    (execRowsDone src req frames s).sec.fuses = s.sec.fuses := by
  unfold execRowsDone
  split <;> simp

@[simp] theorem sendPage_fuses (s : State) (ctx dst : Nat) (b : PageBody) :
    (s.sendPage ctx dst b).sec.fuses = s.sec.fuses := by
  unfold State.sendPage
  split <;> simp

theorem openPage_fuses (s : State) (src : Nat) (b : PageBody) (part : Nat) :
    (s.openPage src b part).1.sec.fuses = s.sec.fuses := by
  simp only [State.openPage]
  (repeat' split) <;> simp

@[simp] theorem givePage_fuses (s : State) (src : Nat) (f : Frame) (g : Frame) :
    (s.givePage src f g).sec.fuses = s.sec.fuses := by
  simp [State.givePage]

@[simp] theorem execPageReq_fuses (src pfh ver : Nat) (s : State) :
    (execPageReq src pfh ver s).sec.fuses = s.sec.fuses := by
  simp only [execPageReq]
  (repeat' split) <;> simp [verifyCopy_fuses]

@[simp] theorem importFails_fuses (s : State) (p : Nat) : (s.importFails p).sec.fuses = s.sec.fuses := by
  simp [State.importFails]

theorem placePage_fuses (s : State) (b : PageBody) (data : List Byte) (p : Profile) (part sdom refs : Nat)
    (set : Placement) (tids : Nat × Nat) (remote : List (Nat × Nat)) :
    (s.placePage b data p part sdom refs set tids remote).1.sec.fuses = s.sec.fuses := by
  simp only [State.placePage]
  split <;> rename_i h <;> simp [fuses_of_eq h, encodeTiles_fuses, allocT1_fuses]

@[simp] theorem importPage_fuses (s : State) (src : Nat) (f : Frame) (b : PageBody) :
    (s.importPage src f b).sec.fuses = s.sec.fuses := by
  unfold State.importPage
  split
  · simp
  · split
    · simp
    · split
      · next h => simp [fuses_of_eq h, openPage_fuses]
      · next h => 
        have hs := fuses_of_eq h
        split
        · simp [hs, openPage_fuses]
        · split <;> next h' => simp [fuses_of_eq h', placePage_fuses, hs, openPage_fuses]

@[simp] theorem receiveExport_fuses (s : State) (src : Nat) (b : PageBody) : (s.receiveExport src b).sec.fuses = s.sec.fuses := by
  unfold State.receiveExport
  extract_lets no
  split
  · simp [no]
  · simp [no]
  · split
    · next h => simp [no, fuses_of_eq h, openPage_fuses]
    · next h => 
      have hs := fuses_of_eq h
      split
      · simp [no, hs, openPage_fuses]
      · split
        · simp [no, hs, openPage_fuses]
        · split <;> next h' => simp [no, fuses_of_eq h', placePage_fuses, hs, openPage_fuses]

@[simp] theorem execPageData_fuses (src : Nat) (b : PageBody) (s : State) : (execPageData src b s).sec.fuses = s.sec.fuses := by
  unfold execPageData
  (repeat' split) <;> simp

@[simp] theorem exportOver_fuses (s : State) (e : Export) (moved : Bool) : (s.exportOver e moved).sec.fuses = s.sec.fuses := by
  simp [State.exportOver]

@[simp] theorem giveBack_fuses (s : State) (peer pfh : Nat) : (s.giveBack peer pfh).sec.fuses = s.sec.fuses := rfl

@[simp] theorem execPageAck_fuses (src spfh newPfh status : Nat) (s : State) :
    (execPageAck src spfh newPfh status s).sec.fuses = s.sec.fuses := by
  simp only [execPageAck]
  (repeat' split) <;> simp

@[simp] theorem dropRemote_fuses (s : State) (src : Nat) (l : List Nat) : (s.dropRemote src l).sec.fuses = s.sec.fuses := by
  induction l generalizing s src with
  | nil => rfl
  | cons x t ih =>
    unfold State.dropRemote
    (repeat' split) <;> simp [ih]

@[simp] theorem execRefRelease_fuses (src : Nat) (frames : List Nat) (s : State) :
    (execRefRelease src frames s).sec.fuses = s.sec.fuses := by
  simp [execRefRelease]

@[simp] theorem execReleaseAgain_fuses (peer : Nat) (s : State) : (execReleaseAgain peer s).sec.fuses = s.sec.fuses := by
  simp [execReleaseAgain]

@[simp] theorem released_fuses (s : State) (peer : Nat) (frames : List Nat) :
    (s.released peer frames).sec.fuses = s.sec.fuses := rfl

@[simp] theorem unpinPeer_fuses (s : State) (peer : Nat) (l : List (Nat × Nat × Nat)) :
    (s.unpinPeer peer l).sec.fuses = s.sec.fuses := by
  induction l generalizing s peer with
  | nil => rfl
  | cons x t ih =>
    unfold State.unpinPeer
    split <;> simp [ih]

@[simp] theorem peerGone_fuses (s : State) (peer : Nat) : (s.peerGone peer).sec.fuses = s.sec.fuses := by
  simp [State.peerGone]

@[simp] theorem execPace_fuses (c : CmdId) (s : State) : (execPace c s).sec.fuses = s.sec.fuses := by
  unfold execPace
  (repeat' split) <;> simp

@[simp] theorem svcAcked_fuses (s : State) (dst : Nat) (m : SvcMsg) : (s.svcAcked dst m).sec.fuses = s.sec.fuses := by
  unfold State.svcAcked
  split <;> simp

@[simp] theorem trimOwed_fuses (s : State) (h fr : Nat) : (s.trimOwed h fr).sec.fuses = s.sec.fuses := by
  unfold State.trimOwed
  split <;> simp

@[simp] theorem trimsOwed_fuses (s : State) (l : List (Nat × Nat)) : (s.trimsOwed l).sec.fuses = s.sec.fuses := by
  induction l generalizing s with
  | nil => rfl
  | cons x t ih => simp [State.trimsOwed, ih]

@[simp] theorem rowsFailed_fuses (s : State) (req : Nat) : (s.rowsFailed req).sec.fuses = s.sec.fuses := by
  unfold State.rowsFailed
  split <;> simp

@[simp] theorem requestFails_fuses (s : State) (peer pfh : Nat) : (s.requestFails peer pfh).sec.fuses = s.sec.fuses := by
  unfold State.requestFails
  split <;> simp

@[simp] theorem svcFailed_fuses (s : State) (dst : Nat) (m : SvcMsg) : (s.svcFailed dst m).sec.fuses = s.sec.fuses := by
  unfold State.svcFailed
  (repeat' split) <;> simp

/-! ### Machine/Rma -/

theorem takeRegion_fuses {s : State} {r : State × Nat × Nat} (h : s.takeRegion = some r) : r.1.sec.fuses = s.sec.fuses := by
  unfold State.takeRegion at h
  (repeat' split at h) <;> cases h <;> simp

@[simp] theorem register_fuses (s : State) (k : Cmd) (part : Nat) (chunks : List Nat) :
    (s.register k part chunks).sec.fuses = s.sec.fuses := by
  unfold State.register
  split
  · simp
  · next h => 
    extract_lets r x s1
    have h1 : s1.sec.fuses = s.sec.fuses := takeRegion_fuses h
    simp [h1]

@[simp] theorem registerBody_fuses (k : Cmd) (s : State) : (registerBody k s).sec.fuses = s.sec.fuses := by
  unfold registerBody
  split
  · rfl
  · extract_lets
    (repeat' split)
    · simp
    · simp
    · simp
    all_goals next h => simp [fuses_of_eq h, allocT1_fuses]

@[simp] theorem execRegister_fuses (c : CmdId) (s : State) : (execRegister c s).sec.fuses = s.sec.fuses := by
  simp [execRegister]

@[simp] theorem setRegion_fuses (s : State) (index : Nat) (f : Region → Region) :
    (s.setRegion index f).sec.fuses = s.sec.fuses := rfl

@[simp] theorem revokeBody_fuses (k : Cmd) (s : State) : (revokeBody k s).sec.fuses = s.sec.fuses := by
  unfold revokeBody
  (repeat' split) <;> simp

@[simp] theorem execRevoke_fuses (c : CmdId) (s : State) : (execRevoke c s).sec.fuses = s.sec.fuses := by
  simp [execRevoke]

@[simp] theorem freeRegion_fuses (s : State) (r : Region) : (s.freeRegion r).sec.fuses = s.sec.fuses := rfl

@[simp] theorem execDrain_fuses (index : Nat) (s : State) : (execDrain index s).sec.fuses = s.sec.fuses := by
  unfold execDrain
  (repeat' split) <;> simp

@[simp] theorem rmaEnd_fuses (s : State) (k : Cmd) (status rlen : Nat) :
    (s.rmaEnd k status rlen).sec.fuses = s.sec.fuses := by
  unfold State.rmaEnd
  (repeat' split) <;> simp

@[simp] theorem flushSettle_fuses (s : State) (k : Cmd) : (s.flushSettle k).sec.fuses = s.sec.fuses := by
  unfold State.flushSettle
  split <;> simp

@[simp] theorem dropHeld_fuses (s : State) (k : Cmd) : (s.dropHeld k).sec.fuses = s.sec.fuses := by
  unfold State.dropHeld
  split <;> simp

@[simp] theorem settleRma_fuses (s : State) (c : CmdId) : (s.settleRma c).sec.fuses = s.sec.fuses := by
  simp only [State.settleRma]
  (repeat' split) <;> simp

@[simp] theorem pruneFlushes_fuses (s : State) (l : List Cmd) : (s.pruneFlushes l).sec.fuses = s.sec.fuses := by
  induction l generalizing s with
  | nil => rfl
  | cons x t ih => simp [State.pruneFlushes, ih]

@[simp] theorem prune_fuses (s : State) : s.prune.sec.fuses = s.sec.fuses := by
  simp [State.prune]

@[simp] theorem noteLost_fuses (s : State) (q node st : Nat) :
    (s.noteLost q node st).sec.fuses = s.sec.fuses := by
  unfold State.noteLost
  split <;> simp

@[simp] theorem dropMsg_fuses (s : State) (m : TxMsg) : (s.dropMsg m).sec.fuses = s.sec.fuses := rfl

@[simp] theorem settleMsg_fuses (s : State) (m : TxMsg) : (s.settleMsg m).sec.fuses = s.sec.fuses := by
  unfold State.settleMsg
  (repeat' split) <;> simp

@[simp] theorem msgDone_fuses (s : State) (m : TxMsg) : (s.msgDone m).sec.fuses = s.sec.fuses := by
  simp [State.msgDone]

@[simp] theorem countLost_fuses (s : State) (m : TxMsg) (st : Nat) : (s.countLost m st).sec.fuses = s.sec.fuses := rfl

@[simp] theorem msgLost_fuses (s : State) (m : TxMsg) (st : Nat) : (s.msgLost m st).sec.fuses = s.sec.fuses := by
  simp only [State.msgLost]
  (repeat' split) <;> simp

@[simp] theorem postAll_fuses (s : State) (l : List TxMsg) : (s.postAll l).sec.fuses = s.sec.fuses := by
  induction l generalizing s with
  | nil => rfl
  | cons x t ih => simp [State.postAll, ih]

@[simp] theorem posted_fuses (s : State) (c : CmdId) : (s.posted c).sec.fuses = s.sec.fuses := rfl

@[simp] theorem flushStart_fuses (s : State) (k : Cmd) (o : RmaOp) : (s.flushStart k o).sec.fuses = s.sec.fuses := by
  simp [State.flushStart]

@[simp] theorem peerRun_fuses (s : State) (k : Cmd) (o : RmaOp) (bytes : List Byte) :
    (s.peerRun k o bytes).sec.fuses = s.sec.fuses := by
  unfold State.peerRun
  extract_lets base note f s1 s2
  have h1 : s1.sec.fuses = s.sec.fuses := by unfold s1; split <;> simp
  have h2 : s2.sec.fuses = s.sec.fuses := by unfold s2; split <;> simp [h1]
  split
  · split <;> simp
  · split
    · split
      · simp
      · split
        · simp
        · next h => simp [spaceWrite_fuses h]
    · split <;> simp [h2]

@[simp] theorem rmaRun_fuses (s : State) (k : Cmd) : (s.rmaRun k).sec.fuses = s.sec.fuses := by
  simp only [State.rmaRun]
  (repeat' split) <;> simp

@[simp] theorem rmaBody_fuses (k : Cmd) (s : State) : (rmaBody k s).sec.fuses = s.sec.fuses := by
  simp [rmaBody]

@[simp] theorem execRmaW_fuses (c : CmdId) (s : State) : (execRmaW c s).sec.fuses = s.sec.fuses := by
  simp [execRmaW]

@[simp] theorem execRmaI_fuses (c : CmdId) (s : State) : (execRmaI c s).sec.fuses = s.sec.fuses := by
  simp [execRmaI]

@[simp] theorem execRmaR_fuses (c : CmdId) (s : State) : (execRmaR c s).sec.fuses = s.sec.fuses := by
  simp [execRmaR]

@[simp] theorem execRmaF_fuses (c : CmdId) (s : State) : (execRmaF c s).sec.fuses = s.sec.fuses := by
  simp [execRmaF]

@[simp] theorem armBody_fuses (k : Cmd) (s : State) : (armBody k s).sec.fuses = s.sec.fuses := by
  unfold armBody
  (repeat' split) <;> simp

@[simp] theorem armStep_fuses {s : State} {c : CmdId} {go : State → State} (h : ∀ s, (go s).sec.fuses = s.sec.fuses) :
    (s.armStep c go).sec.fuses = s.sec.fuses := by
  unfold State.armStep
  (repeat' split) <;> simp [h]

@[simp] theorem execArm_fuses (c : CmdId) (s : State) : (execArm c s).sec.fuses = s.sec.fuses := by
  simp [execArm]

@[simp] theorem execFire_fuses (c : CmdId) (s : State) : (execFire c s).sec.fuses = s.sec.fuses := by
  refine armStep_fuses fun s => ?_
  (repeat' split) <;> simp

@[simp] theorem execArmEnd_fuses (c : CmdId) (s : State) : (execArmEnd c s).sec.fuses = s.sec.fuses := by
  unfold execArmEnd
  (repeat' split) <;> simp

@[simp] theorem execTrigVal_fuses (f ctx : Nat) (v : Word32) (s : State) :
    (execTrigVal f ctx v s).sec.fuses = s.sec.fuses := by
  simp only [execTrigVal]
  split <;> simp

/-! ### Machine/Move -/

@[simp] theorem setAll_fuses (s : State) (new : Placement) (l : List Nat) : (s.setAll new l).sec.fuses = s.sec.fuses := by
  induction l generalizing s new with
  | nil => rfl
  | cons x t ih => simp [State.setAll, ih]

@[simp] theorem placed_fuses (s : State) (c : CmdId) (moved : Bool) : (s.placed c moved).sec.fuses = s.sec.fuses := by
  simp [State.placed]

@[simp] theorem placePin_fuses (s : State) (c : CmdId) (p : Nat) : (s.placePin c p).sec.fuses = s.sec.fuses := by
  unfold State.placePin
  (repeat' split) <;> simp

/-- The state in which a page's move leaves the part. -/
def Moved.state : Moved → State
  | .done s => s
  | .wait s => s

@[simp] theorem Moved.state_done (s : State) : (Moved.done s).state = s := by simp only [Moved.state]

@[simp] theorem Moved.state_wait (s : State) : (Moved.wait s).state = s := by simp only [Moved.state]

@[simp] theorem moveFailed_fuses (s : State) (k : Cmd) (f : Frame) (why : FailKind) :
    (s.moveFailed k f why).sec.fuses = s.sec.fuses := by
  simp [State.moveFailed]

theorem moveT0_fuses (s : State) (k : Cmd) (seq : Nat) (g : Frame) : (s.moveT0 k seq g).state.sec.fuses = s.sec.fuses := by
  unfold State.moveT0
  split
  · simp [Moved.state]
  · extract_lets v s1
    have hv : v.1.sec.fuses = s.sec.fuses := verifyT1_fuses ..
    split <;> simp [Moved.state, s1, hv]

theorem moveUp_fuses (s : State) (k : Cmd) (seq : Nat) (f : Frame) (b : Bool) :
    (s.moveUp k seq f b).state.sec.fuses = s.sec.fuses := by
  unfold State.moveUp
  extract_lets r u
  have hu : u.sec.fuses = s.sec.fuses := by simp [u]
  have hr : r.1.sec.fuses = s.sec.fuses := needPage_fuses ..
  split
  · simp [Moved.state]
  · simp [Moved.state, hr]
  · simp [Moved.state, hr]
  · split
    · rfl
    · split
      · exact (moveT0_fuses ..).trans hu
      · simp [Moved.state, hu]

theorem moveDown_fuses (s : State) (k : Cmd) (f : Frame) : (s.moveDown k f).state.sec.fuses = s.sec.fuses := by
  unfold State.moveDown
  (repeat' split) <;> simp [Moved.state]

theorem sendExport_fuses (s : State) (k : Cmd) (q : SeqRec) (f g : Frame) :
    (s.sendExport k q f g).state.sec.fuses = s.sec.fuses := by
  unfold State.sendExport
  split
  · simp [Moved.state]
  · rfl
  · next h =>
    extract_lets v ldec u b
    have hv : v.1.sec.fuses = s.sec.fuses := (verifyT1_fuses ..).trans ((takePin_fuses h).trans (allocDone_fuses ..))
    split <;> simp [Moved.state, u, hv]

theorem moveOut_fuses (s : State) (k : Cmd) (q : SeqRec) (f : Frame) : (s.moveOut k q f).state.sec.fuses = s.sec.fuses := by
  unfold State.moveOut
  split
  · rfl
  · split
    · simp [Moved.state]
    · extract_lets r
      have hr : r.1.sec.fuses = s.sec.fuses := needPage_fuses ..
      split
      · simp [Moved.state]
      · simp [Moved.state, hr]
      · simp [Moved.state, hr]
      · split
        · rfl
        · exact sendExport_fuses ..

theorem moveOne_fuses (s : State) (k : Cmd) (q : SeqRec) (p : Nat) : (s.moveOne k q p).state.sec.fuses = s.sec.fuses := by
  unfold State.moveOne
  split
  · simp [Moved.state]
  · extract_lets
    split
    · exact moveUp_fuses ..
    · split
      · exact moveDown_fuses ..
      · exact moveOut_fuses ..

@[simp] theorem moveAll_fuses (s : State) (c : CmdId) (h left : Nat) : (s.moveAll c h left).sec.fuses = s.sec.fuses := by
  induction left generalizing s with
  | zero => rfl
  | succ n ih =>
    unfold State.moveAll
    split
    · split
      · rfl
      · next k q _ _ _ p _ _ =>
        have hm := moveOne_fuses s k q p
        split <;> next heq => rw [heq] at hm; simpa [ih, Moved.state] using hm
    · rfl

@[simp] theorem placeEnd_fuses (s : State) (c : CmdId) : (s.placeEnd c).sec.fuses = s.sec.fuses := by
  unfold State.placeEnd
  (repeat' split) <;> simp

@[simp] theorem placeSettings_fuses (s : State) (k : Cmd) (q : SeqRec) (ps : List Nat) :
    (s.placeSettings k q ps).sec.fuses = s.sec.fuses := by
  unfold State.placeSettings
  (repeat' split) <;> simp

@[simp] theorem placeBody_fuses (k : Cmd) (s : State) : (placeBody k s).sec.fuses = s.sec.fuses := by
  simp only [placeBody]
  (repeat' split) <;> simp

@[simp] theorem execPlace_fuses (c : CmdId) (s : State) : (execPlace c s).sec.fuses = s.sec.fuses := by
  simp [execPlace]

@[simp] theorem loadTables_fuses (s : State) (img : TableSetImage) (obj : Signed) :
    (s.loadTables img obj).sec.fuses = s.sec.fuses := rfl

@[simp] theorem tableRun_fuses (s : State) (k : Cmd) (bad : List (Nat × Bool)) (b : List Byte) :
    (s.tableRun k bad b).sec.fuses = s.sec.fuses := by
  unfold State.tableRun
  extract_lets d obj img
  split
  · next h => simp [fuses_of_eq h, checkSig_fuses]
  · next h =>
    have hs := (fuses_of_eq h).trans (checkSig_fuses ..)
    (repeat' split) <;> simp [hs]

@[simp] theorem tableGo_fuses (s : State) (bad : List (Nat × Bool)) (c : CmdId) : (s.tableGo bad c).sec.fuses = s.sec.fuses := by
  unfold State.tableGo
  (repeat' split) <;> simp

@[simp] theorem tableBody_fuses (bad : List (Nat × Bool)) (k : Cmd) (s : State) :
    (tableBody bad k s).sec.fuses = s.sec.fuses := by
  simp only [tableBody]
  (repeat' split) <;> simp

@[simp] theorem execTableF_fuses (c : CmdId) (bad : List (Nat × Bool)) (s : State) :
    (execTableF c bad s).sec.fuses = s.sec.fuses := by
  simp [execTableF]

/-! ### Machine/Wire -/

@[simp] theorem setFxt_fuses (s : State) (f : Fabric → Fabric) : (s.setFxt f).sec.fuses = s.sec.fuses := rfl

@[simp] theorem setRate_fuses (s : State) (node r : Nat) : (s.setRate node r).sec.fuses = s.sec.fuses := by
  unfold State.setRate
  split <;> simp

@[simp] theorem gotEce_fuses (s : State) (node : Nat) : (s.gotEce node).sec.fuses = s.sec.fuses := by
  simp only [State.gotEce]
  split <;> simp

@[simp] theorem execRateUp_fuses (node : Nat) (s : State) : (execRateUp node s).sec.fuses = s.sec.fuses := by
  simp only [execRateUp]
  split <;> simp

theorem paceTo_fuses (s : State) (node n : Nat) : (s.paceTo node n).1.sec.fuses = s.sec.fuses := rfl

@[simp] theorem sendBody_fuses (s : State) (i dst : Nat) (b : EgsBody) (last : Bool) :
    (s.sendBody i dst b last).sec.fuses = s.sec.fuses := by
  unfold State.sendBody
  (repeat' split) <;> simp

@[simp] theorem setMsg_fuses (s : State) (m : TxMsg) (f : TxMsg → TxMsg) : (s.setMsg m f).sec.fuses = s.sec.fuses := rfl

@[simp] theorem queuePackets_fuses (s : State) (m : TxMsg) (ifs : List Nat) (l : List (EgsBody × Nat)) :
    (s.queuePackets m ifs l).sec.fuses = s.sec.fuses := by
  induction l generalizing s with
  | nil => rfl
  | cons x t ih => simp [State.queuePackets, ih, paceTo_fuses]

@[simp] theorem unqueue_fuses (s : State) (m : TxMsg) : (s.unqueue m).sec.fuses = s.sec.fuses := rfl

@[simp] theorem transmit_fuses (s : State) (m : TxMsg) (retx : Bool) : (s.transmit m retx).sec.fuses = s.sec.fuses := by
  simp only [State.transmit]
  (repeat' split) <;> simp

@[simp] theorem firstSend_fuses (s : State) (m : TxMsg) : (s.firstSend m).sec.fuses = s.sec.fuses := by
  unfold State.firstSend
  split <;> simp

@[simp] theorem execMsgSend_fuses (dst msgid : Nat) (s : State) : (execMsgSend dst msgid s).sec.fuses = s.sec.fuses := by
  unfold execMsgSend
  (repeat' split) <;> simp

@[simp] theorem execDestLoad_fuses (node : Nat) (s : State) : (execDestLoad node s).sec.fuses = s.sec.fuses := by
  simp only [execDestLoad]
  (repeat' split) <;> simp

@[simp] theorem packetLeft_fuses (s : State) (dst msgid : Nat) : (s.packetLeft dst msgid).sec.fuses = s.sec.fuses := by
  unfold State.packetLeft
  (repeat' split) <;> simp

@[simp] theorem execSelect_fuses (i : Nat) (s : State) : (execSelect i s).sec.fuses = s.sec.fuses := by
  simp only [execSelect]
  (repeat' split) <;> simp [pickPacket_fuses]

@[simp] theorem msgFails_fuses (s : State) (m : TxMsg) (st : Nat) : (s.msgFails m st).sec.fuses = s.sec.fuses := by
  unfold State.msgFails
  split <;> simp

@[simp] theorem resend_fuses (s : State) (m : TxMsg) : (s.resend m).sec.fuses = s.sec.fuses := by
  simp [State.resend]

@[simp] theorem acked_fuses (s : State) (src msgid : Nat) : (s.acked src msgid).sec.fuses = s.sec.fuses := by
  unfold State.acked
  (repeat' split) <;> simp

@[simp] theorem naked_fuses (s : State) (src msgid st : Nat) :
    (s.naked src msgid st).sec.fuses = s.sec.fuses := by
  simp only [State.naked]
  (repeat' split) <;> simp

@[simp] theorem execBusyAgain_fuses (dst msgid : Nat) (s : State) :
    (execBusyAgain dst msgid s).sec.fuses = s.sec.fuses := by
  unfold execBusyAgain
  (repeat' split) <;> simp

@[simp] theorem execBusyEnd_fuses (dst msgid : Nat) (s : State) : (execBusyEnd dst msgid s).sec.fuses = s.sec.fuses := by
  unfold execBusyEnd
  (repeat' split) <;> simp

@[simp] theorem timeoutMsg_fuses (s : State) (m : TxMsg) : (s.timeoutMsg m).sec.fuses = s.sec.fuses := by
  simp only [State.timeoutMsg]
  split <;> simp

@[simp] theorem execRetx_fuses (dst msgid : Nat) (s : State) : (execRetx dst msgid s).sec.fuses = s.sec.fuses := by
  unfold execRetx
  (repeat' split) <;> simp

@[simp] theorem execReadAgain_fuses (dst msgid : Nat) (s : State) :
    (execReadAgain dst msgid s).sec.fuses = s.sec.fuses := by
  unfold execReadAgain
  (repeat' split) <;> simp

@[simp] theorem heardPn_fuses (s : State) (x : RxFrame) : (s.heardPn x).sec.fuses = s.sec.fuses := by
  unfold State.heardPn
  split <;> simp

theorem linkCheck_fuses {s t : State} {x : RxFrame} (h : s.linkCheck x = some t) : t.sec.fuses = s.sec.fuses := by
  unfold State.linkCheck at h
  (repeat' split at h) <;> cases h <;> simp

@[simp] theorem setSource_fuses (s : State) (node inc low : Nat) :
    (s.setSource node inc low).sec.fuses = s.sec.fuses := rfl

theorem incCheck_fuses {s t : State} {p : Packet} (h : s.incCheck p = some t) : t.sec.fuses = s.sec.fuses := by
  unfold State.incCheck at h
  (repeat' split at h) <;> cases h <;> simp

@[simp] theorem answer_fuses (s : State) (x : RxFrame) (status : Nat) (ece : Bool) :
    (s.answer x status ece).sec.fuses = s.sec.fuses := by
  simp [State.answer]

theorem filterRoom_fuses {s t : State} (h : s.filterRoom = some t) : t.sec.fuses = s.sec.fuses := by
  unfold State.filterRoom at h
  (repeat' split at h) <;> cases h <;> simp

@[simp] theorem setDup_fuses (s : State) (src msgid st status : Nat) :
    (s.setDup src msgid st status).sec.fuses = s.sec.fuses := rfl

@[simp] theorem dropDup_fuses (s : State) (src msgid : Nat) : (s.dropDup src msgid).sec.fuses = s.sec.fuses := rfl

@[simp] theorem dropReasm_fuses (s : State) (src msgid : Nat) : (s.dropReasm src msgid).sec.fuses = s.sec.fuses := rfl

@[simp] theorem refuse_fuses (s : State) (x : RxFrame) (st : Nat) : (s.refuse x st).sec.fuses = s.sec.fuses := by
  simp [State.refuse]

@[simp] theorem busyNak_fuses (s : State) (x : RxFrame) : (s.busyNak x).sec.fuses = s.sec.fuses := by
  simp [State.busyNak]

theorem putBytes_fuses {s t : State} {r : Region} {off : Nat} {b : List Byte} (h : s.putBytes r off b = some t) :
    t.sec.fuses = s.sec.fuses := by
  unfold State.putBytes at h
  dsimp only at h
  (repeat' split at h) <;> cases h <;> simp

@[simp] theorem setReasm_fuses (s : State) (r : Reasm) : (s.setReasm r).sec.fuses = s.sec.fuses := rfl

def Posted.state : Posted → State
  | .done s => s
  | .busy s => s
  | .denied s => s

@[simp] theorem Posted.state_done (s : State) : (Posted.done s).state = s := by simp only [Posted.state]

@[simp] theorem Posted.state_busy (s : State) : (Posted.busy s).state = s := by simp only [Posted.state]

@[simp] theorem Posted.state_denied (s : State) : (Posted.denied s).state = s := by simp only [Posted.state]

@[simp] theorem readControl_fuses (s : State) (r : Region) : (s.readControl r).sec.fuses = s.sec.fuses := by
  unfold State.readControl
  split <;> simp

theorem notify_cases {Q : Posted → Prop} {s : State} {r : Region} {p : Packet} {n : Nat} (hden : Q (.denied (s.readControl r)))
    (hbusy : Q (.busy (s.readControl r)))
    (hdone : ∀ f a b c i g, ∀ w, w = (((s.readControl r).emit (.hostWrite f a b)).chargeHost c 16).setRegion i g →
      Q (.done w) ∧ ∀ v, Q (.done (w.emit (.msix f v)))) : Q (s.notify r p n) := by
  have h : @State.notify = @State.notify := rfl
  conv at h => rhs; delta State.notify
  rw [h]
  clear h
  beta_reduce
  generalize two32 = m
  refine id ?_
  extract_lets u
  split
  · exact hden
  · split
    · exact hbusy
    · extract_lets f a b w
      split
      · exact hden
      · split
        · exact (hdone _ _ _ _ _ _ _ rfl).1
        · exact (hdone _ _ _ _ _ _ _ rfl).2 _

theorem notify_fuses (s : State) (r : Region) (p : Packet) (n : Nat) : (s.notify r p n).state.sec.fuses = s.sec.fuses := by
  refine notify_cases (Q := fun p => p.state.sec.fuses = s.sec.fuses) ?_ ?_ ?_
  · rw [Posted.state_denied, readControl_fuses]
  · rw [Posted.state_busy, readControl_fuses]
  · rintro f a b c i g w rfl
    rw [Posted.state_done]
    refine ⟨?_, fun v => ?_⟩
    · rw [setRegion_fuses, chargeHost_fuses, emit_fuses, readControl_fuses]
    · rw [Posted.state_done, emit_fuses, setRegion_fuses, chargeHost_fuses, emit_fuses, readControl_fuses]

@[simp] theorem ringEach_fuses (s : State) (p : Nat) (l : List Wq) : (s.ringEach p l).sec.fuses = s.sec.fuses := by
  induction l generalizing s p with
  | nil => rfl
  | cons x t ih => simp [State.ringEach, ih]

theorem deliverImm_fuses (s : State) (r : Region) (p : Packet) (n : Nat) :
    (s.deliverImm r p n).state.sec.fuses = s.sec.fuses := by
  unfold State.deliverImm
  split
  · simp [Posted.state]
  · split
    · simp [Posted.state]
    · have hn := notify_fuses s r p n
      split <;> next heq => rw [heq] at hn; simpa [Posted.state] using hn

@[simp] theorem rxDone_fuses (s : State) (x : RxFrame) (ece : Bool) : (s.rxDone x ece).sec.fuses = s.sec.fuses := by
  simp [State.rxDone]

@[simp] theorem rxComplete_fuses (s : State) (x : RxFrame) (r : Option Region) (w : Reasm) :
    (s.rxComplete x r w).sec.fuses = s.sec.fuses := by
  unfold State.rxComplete
  extract_lets p
  split
  · simp
  · next r =>
    split
    · simp
    · split
      · simp
      · have hd := deliverImm_fuses s r p w.first
        split <;> next heq => rw [heq] at hd; simpa [Posted.state] using hd

@[simp] theorem rxPlace_fuses (s : State) (x : RxFrame) (r : Option Region) : (s.rxPlace x r).sec.fuses = s.sec.fuses := by
  unfold State.rxPlace
  extract_lets p old
  split
  · simp
  · split
    · simp
    · next u h =>
      have hu : u.sec.fuses = s.sec.fuses := by
        split at h
        · cases h; rfl
        · exact filterRoom_fuses h
      extract_lets u'
      have hu' : u'.sec.fuses = s.sec.fuses := by unfold u'; split <;> simp [hu]
      split
      · simp [hu']
      · next v h' =>
        have hv : v.sec.fuses = s.sec.fuses := by
          split at h'
          · exact (putBytes_fuses h').trans hu'
          · cases h'; exact hu'
        extract_lets cord w
        split <;> simp [w, hv]

@[simp] theorem rxData_fuses (s : State) (x : RxFrame) : (s.rxData x).sec.fuses = s.sec.fuses := by
  unfold State.rxData
  extract_lets p fresh
  have hf : ∀ s, (fresh s).sec.fuses = s.sec.fuses := by
    intro s
    unfold fresh
    split
    · split <;> simp
    · split
      · simp
      · split
        · simp
        · next h =>
          split at h
          · cases h; simp
          · simp [filterRoom_fuses h]
  split
  · simp
  · split
    · split <;> simp [hf]
    · exact hf s

theorem readBytes_fuses (s : State) (r : Region) (off n : Nat) : (s.readBytes r off n).1.sec.fuses = s.sec.fuses := by
  unfold State.readBytes
  split <;> simp

@[simp] theorem queueResp_fuses (s : State) (i ctx : Nat) (q : Packet) (l : List (Nat × List Byte)) :
    (s.queueResp i ctx q l).sec.fuses = s.sec.fuses := by
  induction l generalizing s with
  | nil => rfl
  | cons x t ih => simp [State.queueResp, ih, paceTo_fuses]

@[simp] theorem rxRead_fuses (s : State) (x : RxFrame) : (s.rxRead x).sec.fuses = s.sec.fuses := by
  simp only [State.rxRead]
  (repeat' split) <;> simp [readBytes_fuses]

@[simp] theorem rxResp_fuses (s : State) (x : RxFrame) : (s.rxResp x).sec.fuses = s.sec.fuses := by
  unfold State.rxResp
  extract_lets p
  split
  · rfl
  · split
    · split
      · rfl
      · extract_lets rel sp
        split
        · simp
        · next h =>
          extract_lets u w
          have hu : u.sec.fuses = s.sec.fuses := by unfold u; split <;> simp [spaceWrite_fuses h]
          have hw : w.sec.fuses = s.sec.fuses := by unfold w; split <;> simp [hu]
          split <;> simp [hw]
    · rfl

@[simp] theorem rxPast_fuses (s : State) (x : RxFrame) : (s.rxPast x).sec.fuses = s.sec.fuses := by
  unfold State.rxPast
  split
  · rfl
  · next u h =>
    extract_lets v
    have hv : v.sec.fuses = s.sec.fuses := by unfold v; split <;> simp [incCheck_fuses h]
    split
    · simp [hv]
    · simp [hv]
    · split <;> simp [hv]
    · simp [hv]
    · split <;> simp [hv]
    · split <;> simp [hv]

@[simp] theorem rxIn_fuses (s : State) (x : RxFrame) : (s.rxIn x).sec.fuses = s.sec.fuses := by
  unfold State.rxIn
  split
  · next h => exact linkCheck_fuses h
  · extract_lets u n v
    have hu : u.sec.fuses = s.sec.fuses := heardPn_fuses ..
    have hv : v.sec.fuses = s.sec.fuses := hu
    (repeat' split) <;> simp [hu, hv]

@[simp] theorem execRx_fuses (x : RxFrame) (s : State) : (execRx x s).sec.fuses = s.sec.fuses := by
  unfold execRx
  split <;> simp

@[simp] theorem execRxRead_fuses (x : RxFrame) (s : State) : (execRxRead x s).sec.fuses = s.sec.fuses := by
  unfold execRxRead
  split <;> simp

@[simp] theorem execRxResp_fuses (x : RxFrame) (s : State) : (execRxResp x s).sec.fuses = s.sec.fuses := by
  unfold execRxResp
  split <;> simp

@[simp] theorem execRxAck_fuses (x : RxFrame) (s : State) : (execRxAck x s).sec.fuses = s.sec.fuses := by
  unfold execRxAck
  split <;> simp

@[simp] theorem execRxNak_fuses (x : RxFrame) (s : State) : (execRxNak x s).sec.fuses = s.sec.fuses := by
  unfold execRxNak
  split <;> simp

@[simp] theorem execReasmEnd_fuses (src msgid : Nat) (s : State) :
    (execReasmEnd src msgid s).sec.fuses = s.sec.fuses := by
  unfold execReasmEnd
  split <;> simp

@[simp] theorem purgeMsgs_fuses (s : State) (l : List QPkt) : (s.purgeMsgs l).sec.fuses = s.sec.fuses := by
  induction l generalizing s with
  | nil => rfl
  | cons x t ih =>
    unfold State.purgeMsgs
    (repeat' split) <;> simp [ih]

@[simp] theorem ifaceDown_fuses (s : State) (i : Nat) : (s.ifaceDown i).sec.fuses = s.sec.fuses := by
  simp [State.ifaceDown]

@[simp] theorem execLinkLoss_fuses (i : Nat) (s : State) : (execLinkLoss i s).sec.fuses = s.sec.fuses := by
  unfold execLinkLoss
  split <;> simp

@[simp] theorem execLinkUp_fuses (i : Nat) (s : State) : (execLinkUp i s).sec.fuses = s.sec.fuses := by
  unfold execLinkUp
  split <;> simp

@[simp] theorem portDown_fuses (s : State) (l : List Nat) : (s.portDown l).sec.fuses = s.sec.fuses := by
  induction l generalizing s with
  | nil => rfl
  | cons x t ih => simp [State.portDown, ih]

@[simp] theorem execPortMode_fuses (f port : Nat) (v : Word32) (s : State) :
    (execPortMode f port v s).sec.fuses = s.sec.fuses := by
  simp only [execPortMode]
  (repeat' split) <;> simp

@[simp] theorem execPfc_fuses (i : Nat) (pause : List (Nat × Bool)) (s : State) :
    (execPfc i pause s).sec.fuses = s.sec.fuses := by
  unfold execPfc
  split <;> simp

/-! ### Machine/Share -/

@[simp] theorem clearSamples_fuses (s : State) (c : Nat) : (s.clearSamples c).sec.fuses = s.sec.fuses := rfl

@[simp] theorem resetStats_fuses (s : State) (c : Nat) : (s.resetStats c).sec.fuses = s.sec.fuses := rfl

@[simp] theorem statsBody_fuses (k : Cmd) (s : State) : (statsBody k s).sec.fuses = s.sec.fuses := by
  unfold statsBody
  extract_lets d t
  have ht : t.sec.fuses = s.sec.fuses := by unfold t; split <;> simp
  split
  · simp
  · split
    · simp
    · split
      · simp
      · next h => simp [spaceWrite_fuses h, ht]

@[simp] theorem execStats_fuses (c : CmdId) (s : State) : (execStats c s).sec.fuses = s.sec.fuses := by
  simp [execStats]

@[simp] theorem pubClean_fuses (s : State) (u : Publish) : (s.pubClean u).sec.fuses = s.sec.fuses := by
  simp only [State.pubClean]
  split <;> simp

@[simp] theorem abandon_fuses (s : State) (k : Cmd) : (s.abandon k).sec.fuses = s.sec.fuses := by
  simp only [State.abandon]
  split <;> simp

@[simp] theorem anchorsIdle_fuses (s : State) : s.anchorsIdle.sec.fuses = s.sec.fuses := by
  simp [State.anchorsIdle]

@[simp] theorem endCmds_fuses (s : State) (started : Option Nat) (waiting : Nat) (l : List Cmd) :
    (s.endCmds started waiting l).sec.fuses = s.sec.fuses := by
  induction l generalizing s started waiting with
  | nil => rfl
  | cons x t ih =>
    unfold State.endCmds
    (repeat' split) <;> simp [ih]

@[simp] theorem dropQueues_fuses (s : State) (c : Nat) : (s.dropQueues c).sec.fuses = s.sec.fuses := rfl

@[simp] theorem freeRegions_fuses (s : State) (l : List Region) : (s.freeRegions l).sec.fuses = s.sec.fuses := by
  induction l generalizing s with
  | nil => rfl
  | cons x t ih => simp [State.freeRegions, ih]

@[simp] theorem closeSeqs_fuses (s : State) (l : List SeqRec) : (s.closeSeqs l).sec.fuses = s.sec.fuses := by
  induction l generalizing s with
  | nil => rfl
  | cons x t ih => simp [State.closeSeqs, ih]

@[simp] theorem endLeases_fuses (s : State) (l : List Lease) : (s.endLeases l).sec.fuses = s.sec.fuses := by
  induction l generalizing s with
  | nil => rfl
  | cons x t ih => simp [State.endLeases, ih]

@[simp] theorem endExchanges_fuses (s : State) (l : List Cmd) : (s.endExchanges l).sec.fuses = s.sec.fuses := by
  induction l generalizing s with
  | nil => rfl
  | cons x t ih =>
    unfold State.endExchanges
    split <;> simp [ih]

@[simp] theorem dropMsgs_fuses (s : State) (c : Nat) : (s.dropMsgs c).sec.fuses = s.sec.fuses := by
  simp only [State.dropMsgs]
  split <;> simp

@[simp] theorem setPwr_fuses (s : State) (f : Pwr → Pwr) : (s.setPwr f).sec.fuses = s.sec.fuses := rfl

@[simp] theorem putRaise_fuses (s : State) (mv : Nat) (l : List Nat) : (s.putRaise mv l).sec.fuses = s.sec.fuses := by
  induction l generalizing s mv with
  | nil => rfl
  | cons x t ih => simp [State.putRaise, ih]

@[simp] theorem dropRaises_fuses (s : State) : s.dropRaises.sec.fuses = s.sec.fuses := by
  simp [State.dropRaises]

@[simp] theorem heavyOver_fuses (s : State) (c : Nat) : (s.heavyOver c).sec.fuses = s.sec.fuses := by
  unfold State.heavyOver
  split <;> simp

@[simp] theorem release_fuses (s : State) (c : Nat) : (s.release c).sec.fuses = s.sec.fuses := by
  simp [State.release]

@[simp] theorem settleTear_fuses (s : State) (c : Nat) : (s.settleTear c).sec.fuses = s.sec.fuses := by
  unfold State.settleTear
  split <;> simp

@[simp] theorem tearDown_fuses (s : State) (c : Nat) (cause : Option Nat) : (s.tearDown c cause).sec.fuses = s.sec.fuses := by
  unfold State.tearDown
  (repeat' split) <;> simp

@[simp] theorem flrTearing_fuses (s : State) (c : Nat) : (s.flrTearing c).sec.fuses = s.sec.fuses := by
  simp only [State.flrTearing]
  split <;> simp

@[simp] theorem loadRet_fuses (s : State) (c : Nat) (r : CtxRec) : (s.loadRet c r).sec.fuses = s.sec.fuses := rfl

@[simp] theorem clearWindow_fuses (s : State) (c : Nat) : (s.clearWindow c).sec.fuses = s.sec.fuses := by
  unfold State.clearWindow
  split <;> simp

@[simp] theorem clearTrigs_fuses (s : State) (r : CtxRec) : (s.clearTrigs r).sec.fuses = s.sec.fuses := rfl

@[simp] theorem bringUp_fuses (s : State) (c : Nat) : (s.bringUp c).sec.fuses = s.sec.fuses := by
  simp [State.bringUp]

@[simp] theorem freeRecs_fuses (s : State) (l : List SeqRec) : (s.freeRecs l).sec.fuses = s.sec.fuses := by
  induction l generalizing s with
  | nil => rfl
  | cons x t ih => simp [State.freeRecs, ih]

@[simp] theorem execReleaseDone_fuses (c : Nat) (s : State) : (execReleaseDone c s).sec.fuses = s.sec.fuses := by
  simp only [execReleaseDone]
  (repeat' split) <;> simp

@[simp] theorem faultCtx_fuses (s : State) (c : Nat) : (s.faultCtx c).sec.fuses = s.sec.fuses := by
  unfold State.faultCtx
  (repeat' split) <;> simp

@[simp] theorem execFaultCtx_fuses (c : Nat) (s : State) : (execFaultCtx c s).sec.fuses = s.sec.fuses := by
  simp [execFaultCtx]

@[simp] theorem setTdi_fuses (s : State) (v t : Nat) : (s.setTdi v t).sec.fuses = s.sec.fuses := by
  unfold State.setTdi
  split <;> simp

@[simp] theorem schTeardown_fuses (s : State) (c : Nat) : (s.schTeardown c).sec.fuses = s.sec.fuses := by
  unfold State.schTeardown
  (repeat' split) <;> simp

@[simp] theorem schBringup_fuses (s : State) (c : Nat) : (s.schBringup c).sec.fuses = s.sec.fuses := by
  unfold State.schBringup
  (repeat' split) <;> simp

@[simp] theorem schCmd_fuses (s : State) (f c op : Nat) : (s.schCmd f c op).sec.fuses = s.sec.fuses := by
  simp only [State.schCmd]
  (repeat' split) <;> simp

@[simp] theorem execTeardownF_fuses (f c : Nat) (s : State) : (execTeardownF f c s).sec.fuses = s.sec.fuses := by
  simp [execTeardownF]

@[simp] theorem execBringupF_fuses (f c : Nat) (s : State) : (execBringupF f c s).sec.fuses = s.sec.fuses := by
  simp [execBringupF]

@[simp] theorem tearAll_fuses (s : State) (l : List Ctx) : (s.tearAll l).sec.fuses = s.sec.fuses := by
  induction l generalizing s with
  | nil => rfl
  | cons x t ih =>
    unfold State.tearAll
    split <;> simp [ih]

@[simp] theorem resetTdis_fuses (s : State) (l : List Nat) : (s.resetTdis l).sec.fuses = s.sec.fuses := by
  induction l generalizing s with
  | nil => rfl
  | cons x t ih => simp [State.resetTdis, ih]

@[simp] theorem clearDown_fuses (s : State) (l : List Ctx) : (s.clearDown l).sec.fuses = s.sec.fuses := by
  induction l generalizing s with
  | nil => rfl
  | cons x t ih =>
    unfold State.clearDown
    split <;> simp [ih]

@[simp] theorem doFlr_fuses (s : State) (f : Nat) : (s.doFlr f).sec.fuses = s.sec.fuses := by
  simp only [State.doFlr]
  split <;> simp

@[simp] theorem execFlrF_fuses (f : Nat) (s : State) : (execFlrF f s).sec.fuses = s.sec.fuses := by
  simp only [execFlrF]
  split <;> simp

@[simp] theorem setGroup_fuses (s : State) (g : Nat) (f : SGroup → SGroup) : (s.setGroup g f).sec.fuses = s.sec.fuses := rfl

@[simp] theorem sliceEvent_fuses (s : State) (part kind group len overrun owed : Nat) (l : List Ctx) :
    (s.sliceEvent part kind group len overrun owed l).sec.fuses = s.sec.fuses := by
  induction l generalizing s part kind group len overrun owed with
  | nil => rfl
  | cons x t ih =>
    unfold State.sliceEvent
    split <;> simp [ih]

@[simp] theorem handOver_fuses (s : State) (g : SGroup) (part nominal : Nat) :
    (s.handOver g part nominal).sec.fuses = s.sec.fuses := by
  simp [State.handOver]

@[simp] theorem pollGroup_fuses (s : State) (g : SGroup) : (s.pollGroup g).sec.fuses = s.sec.fuses := by
  unfold State.pollGroup
  (repeat' split) <;> simp

@[simp] theorem pollGroups_fuses (s : State) (l : List SGroup) : (s.pollGroups l).sec.fuses = s.sec.fuses := by
  induction l generalizing s with
  | nil => rfl
  | cons x t ih => simp [State.pollGroups, ih]

@[simp] theorem execSliceEnd_fuses (g : Nat) (s : State) : (execSliceEnd g s).sec.fuses = s.sec.fuses := by
  simp only [execSliceEnd]
  (repeat' split) <;> simp

@[simp] theorem execGrace_fuses (g : Nat) (s : State) : (execGrace g s).sec.fuses = s.sec.fuses := by
  unfold execGrace
  (repeat' split) <;> simp

@[simp] theorem fillHot_fuses (s : State) (e : PlanEnt) (l : List PlanPage) : (s.fillHot e l).sec.fuses = s.sec.fuses := by
  induction l generalizing s e with
  | nil => rfl
  | cons x t ih =>
    unfold State.fillHot
    split <;> simp [ih]

@[simp] theorem fillHotAll_fuses (s : State) (part : Nat) (l : List PlanEnt) :
    (s.fillHotAll part l).sec.fuses = s.sec.fuses := by
  induction l generalizing s part with
  | nil => rfl
  | cons x t ih =>
    unfold State.fillHotAll
    split <;> simp [ih]

@[simp] theorem execFill_fuses (g : Nat) (s : State) : (execFill g s).sec.fuses = s.sec.fuses := by
  unfold execFill
  (repeat' split) <;> simp

@[simp] theorem execChunkEnd_fuses (ae cycles : Nat) (fails : List PageFail) (s : State) :
    (execChunkEnd ae cycles fails s).sec.fuses = s.sec.fuses := by
  simp [execChunkEnd]

/-! ### Machine/Sec -/

@[simp] theorem setSec_fuses (s : State) (f : Sec → Sec) : (s.setSec f).sec.fuses = (f s.sec).fuses := rfl

@[simp] theorem doLock_fuses (s : State) (v : Nat) : (s.doLock v).sec.fuses = s.sec.fuses := by
  unfold State.doLock
  split <;> simp

@[simp] theorem execLock_fuses (v : Nat) (s : State) : (execLock v s).sec.fuses = s.sec.fuses := by
  unfold execLock
  split <;> simp

@[simp] theorem execStart_fuses (v : Nat) (s : State) : (execStart v s).sec.fuses = s.sec.fuses := by
  unfold execStart
  split <;> simp

@[simp] theorem execStopTdi_fuses (v : Nat) (s : State) : (execStopTdi v s).sec.fuses = s.sec.fuses := by
  simp [execStopTdi]

@[simp] theorem execIde_fuses (stream : Nat) (rid : Option Nat) (go : Bool) (s : State) :
    (execIde stream rid go s).sec.fuses = s.sec.fuses := by
  unfold execIde
  (repeat' split) <;> simp

@[simp] theorem tdisToError_fuses (s : State) (p : Nat → Bool) (l : List Nat) :
    (s.tdisToError p l).sec.fuses = s.sec.fuses := by
  induction l generalizing s p with
  | nil => rfl
  | cons x t ih =>
    unfold State.tdisToError
    split <;> simp [ih]

@[simp] theorem execIdeFail_fuses (stream : Nat) (s : State) : (execIdeFail stream s).sec.fuses = s.sec.fuses := by
  simp [execIdeFail]

@[simp] theorem scrambleRegions_fuses (s : State) (l : List Region) : (s.scrambleRegions l).sec.fuses = s.sec.fuses := by
  induction l generalizing s with
  | nil => rfl
  | cons x t ih =>
    unfold State.scrambleRegions
    split <;> simp [ih]

@[simp] theorem keysChanged_fuses (s : State) (p : Nat → Bool) : (s.keysChanged p).sec.fuses = s.sec.fuses := by
  simp [State.keysChanged]

@[simp] theorem leaveDomain_fuses (s : State) : s.leaveDomain.sec.fuses = s.sec.fuses := by
  unfold State.leaveDomain
  split <;> simp

@[simp] theorem tearTdis_fuses (s : State) (was : Nat → Bool) (l : List Ctx) : (s.tearTdis was l).sec.fuses = s.sec.fuses := by
  induction l generalizing s was with
  | nil => rfl
  | cons x t ih =>
    unfold State.tearTdis
    split <;> simp [ih]

@[simp] theorem unlockDebug_fuses (s : State) : s.unlockDebug.sec.fuses = s.sec.fuses := by
  unfold State.unlockDebug
  extract_lets was s1 s2 s3 s4
  have h4 : s4.sec.fuses = s.sec.fuses := by simp [s4, s3, s2, s1]
  exact (leaveDomain_fuses ..).trans h4

@[simp] theorem newChallenge_fuses (s : State) : s.newChallenge.sec.fuses = s.sec.fuses := rfl

theorem tryToken_fuses (s : State) (challenge deviceId sig : Nat) :
    (s.tryToken challenge deviceId sig).1.sec.fuses = s.sec.fuses := by
  unfold State.tryToken
  split
  · next h => exact (fuses_of_eq h).trans (checkSig_fuses ..)
  · next h =>
    have hs := (fuses_of_eq h).trans (checkSig_fuses ..)
    split
    · exact hs
    · simp only [newChallenge_fuses]; split <;> simp [hs]

@[simp] theorem execUnlockF_fuses (challenge deviceId sig : Nat) (s : State) :
    (execUnlockF challenge deviceId sig s).sec.fuses = s.sec.fuses := by
  simp [execUnlockF, tryToken_fuses]

@[simp] theorem execRekey_fuses (i : Nat) (s : State) : (execRekey i s).sec.fuses = s.sec.fuses := by
  unfold execRekey
  (repeat' split) <;> simp

@[simp] theorem execMka_fuses (i : Nat) (live : Option Nat) (s : State) : (execMka i live s).sec.fuses = s.sec.fuses := by
  unfold execMka
  (repeat' split) <;> simp

@[simp] theorem execSpdm_fuses (transport code param : Nat) (s : State) :
    (execSpdm transport code param s).sec.fuses = s.sec.fuses := by
  unfold execSpdm
  (repeat' split) <;> simp

@[simp] theorem execTls_fuses (ca serial : Nat) (clientOk : Bool) (s : State) :
    (execTls ca serial clientOk s).sec.fuses = s.sec.fuses := by
  unfold execTls
  generalize cyclesPerS = second
  extract_lets h0 h1 u
  have hu : u.sec.fuses = s.sec.fuses := setSec_fuses ..
  split
  · rfl
  · split
    · rfl
    · split
      · exact hu
      · split
        · exact (setSec_fuses ..).trans hu
        · exact hu

@[simp] theorem execTlsIdle_fuses (i : Nat) (s : State) : (execTlsIdle i s).sec.fuses = s.sec.fuses := by
  unfold execTlsIdle
  split <;> simp

@[simp] theorem execMgmtLoss_fuses (s : State) : (execMgmtLoss s).sec.fuses = s.sec.fuses := by
  unfold execMgmtLoss
  split <;> simp

@[simp] theorem phyRead_fuses (s : State) (up : Bool) : (s.phyRead up).sec.fuses = s.sec.fuses := by
  unfold State.phyRead
  (repeat' split) <;> simp

@[simp] theorem execPhyInt_fuses (up : Bool) (s : State) : (execPhyInt up s).sec.fuses = s.sec.fuses := by
  simp [execPhyInt]

@[simp] theorem execPhyPoll_fuses (up : Bool) (s : State) : (execPhyPoll up s).sec.fuses = s.sec.fuses := by
  unfold execPhyPoll
  split <;> simp

@[simp] theorem execMi3c_fuses (s : State) : (execMi3c s).sec.fuses = s.sec.fuses := rfl

@[simp] theorem execSpiBusy_fuses (s : State) : (execSpiBusy s).sec.fuses = s.sec.fuses := by
  unfold execSpiBusy
  split <;> simp

/-! ### Machine/Power -/

@[simp] theorem throttleEvent_fuses (s : State) (x : Ctx) : (s.throttleEvent x).sec.fuses = s.sec.fuses := by
  simp [State.throttleEvent]

@[simp] theorem throttleEvents_fuses (s : State) (l : List Ctx) : (s.throttleEvents l).sec.fuses = s.sec.fuses := by
  induction l generalizing s with
  | nil => rfl
  | cons x t ih =>
    unfold State.throttleEvents
    (repeat' split) <;> simp [ih]

@[simp] theorem setLevel_fuses (s : State) (n : Nat) : (s.setLevel n).sec.fuses = s.sec.fuses := by
  simp [State.setLevel]

@[simp] theorem relevel_fuses (s : State) : s.relevel.sec.fuses = s.sec.fuses := by
  simp only [State.relevel]
  (repeat' split) <;> simp

@[simp] theorem execFall_fuses (s : State) : (execFall s).sec.fuses = s.sec.fuses := by
  unfold execFall
  (repeat' split) <;> simp

@[simp] theorem execGapEnd_fuses (c : Nat) (s : State) : (execGapEnd c s).sec.fuses = s.sec.fuses := by
  simp only [execGapEnd]
  (repeat' split) <;> simp

@[simp] theorem refreshPower_fuses (s : State) : s.refreshPower.sec.fuses = s.sec.fuses := by
  unfold State.refreshPower
  split <;> simp

@[simp] theorem shareRail_fuses (s : State) (rail fj : Nat) (l : List PartRec) :
    (s.shareRail rail fj l).sec.fuses = s.sec.fuses := by
  induction l generalizing s fj with
  | nil => exact setPwr_fuses ..
  | cons q t ih => exact (ih _ _).trans (setPwr_fuses ..)

@[simp] theorem shareRails_fuses (s : State) (l : List Nat) : (s.shareRails l).sec.fuses = s.sec.fuses := by
  induction l generalizing s with
  | nil => rfl
  | cons x t ih => simp [State.shareRails, ih]

@[simp] theorem accrue_fuses (s : State) : s.accrue.sec.fuses = s.sec.fuses := by
  simp [State.accrue]

@[simp] theorem staleCheck_fuses (s : State) : s.staleCheck.sec.fuses = s.sec.fuses := by
  unfold State.staleCheck
  (repeat' split) <;> simp

@[simp] theorem goodPoll_fuses (s : State) (r mw : Nat) : (s.goodPoll r mw).sec.fuses = s.sec.fuses := by
  unfold State.goodPoll
  extract_lets last s1 s2
  have h2 : s2.sec.fuses = s.sec.fuses := (setFld_fuses ..).trans (setPwr_fuses ..)
  split
  · exact (setFld_fuses ..).trans h2
  · exact h2

@[simp] theorem execPoll_fuses (r mw : Nat) (pecOk : Bool) (s : State) :
    (execPoll r mw pecOk s).sec.fuses = s.sec.fuses := by
  unfold execPoll
  (repeat' split) <;> simp

@[simp] theorem execPollEnd_fuses (r : Nat) (s : State) : (execPollEnd r s).sec.fuses = s.sec.fuses := by
  unfold execPollEnd
  split <;> simp

@[simp] theorem pkgUpdate_fuses (s : State) (avg : Nat) : (s.pkgUpdate avg).sec.fuses = s.sec.fuses := by
  simp only [State.pkgUpdate]
  (repeat' split) <;> simp

@[simp] theorem errUpdate_fuses (s : State) (pm pt : Nat) : (s.errUpdate pm pt).sec.fuses = s.sec.fuses := by
  simp only [State.errUpdate]
  split <;> simp

@[simp] theorem takeCoefs_fuses (s : State) : s.takeCoefs.sec.fuses = s.sec.fuses := by
  simp [State.takeCoefs]

@[simp] theorem execTick_fuses (pm ps : Nat) (s : State) : (execTick pm ps s).sec.fuses = s.sec.fuses := by
  unfold execTick
  extract_lets from_ s1 m pm' ps' s2 s3 pt p s4 rec' s5
  have h1 : s1.sec.fuses = s.sec.fuses := reach_fuses ..
  have h2 : s2.sec.fuses = s.sec.fuses := (takeCoefs_fuses ..).trans ((setPwr_fuses ..).trans h1)
  have h3 : s3.sec.fuses = s.sec.fuses := (setFld_fuses ..).trans h2
  clear_value s3 p
  have h4 : s4.sec.fuses = s.sec.fuses := (relevel_fuses ..).trans ((setFld_fuses ..).trans h3)
  exact (errUpdate_fuses ..).trans ((pkgUpdate_fuses ..).trans ((setPwr_fuses ..).trans h4))

@[simp] theorem sensorEvents_fuses (s : State) (l : List (Nat × Sensor × Sensor)) :
    (s.sensorEvents l).sec.fuses = s.sec.fuses := by
  induction l generalizing s with
  | nil => rfl
  | cons x t ih =>
    unfold State.sensorEvents
    split <;> simp [ih]

@[simp] theorem execSensors_fuses (dies : List ℤ) (stackT : List ℤ) (s : State) :
    (execSensors dies stackT s).sec.fuses = s.sec.fuses := by
  simp [execSensors]

@[simp] theorem execTherm_fuses (s : State) : (execTherm s).sec.fuses = s.sec.fuses := by
  simp [execTherm]

@[simp] theorem execDroop_fuses (i : Nat) (s : State) : (execDroop i s).sec.fuses = s.sec.fuses := by
  simp only [execDroop]
  (repeat' split) <;> simp

@[simp] theorem tripAll_fuses (s : State) (l : List Nat) (left : Nat) : (s.tripAll l left).sec.fuses = s.sec.fuses := by
  induction left generalizing s with
  | zero => rfl
  | succ n ih => simp [State.tripAll, ih, foldl_fuses]

@[simp] theorem forceTrips_fuses (s : State) : s.forceTrips.sec.fuses = s.sec.fuses := by
  simp only [State.forceTrips]
  split <;> simp

@[simp] theorem execStretchEnd_fuses (i : Nat) (s : State) : (execStretchEnd i s).sec.fuses = s.sec.fuses := rfl

@[simp] theorem execDecay_fuses (s : State) : (execDecay s).sec.fuses = s.sec.fuses := by
  simp only [execDecay]
  split <;> simp

@[simp] theorem execRamp_fuses (die : Nat) (s : State) : (execRamp die s).sec.fuses = s.sec.fuses := by
  unfold execRamp
  split <;> simp

@[simp] theorem execBrk_fuses (s : State) : (execBrk s).sec.fuses = s.sec.fuses := by
  unfold execBrk
  split <;> simp

@[simp] theorem execBrkOff_fuses (s : State) : (execBrkOff s).sec.fuses = s.sec.fuses := by
  simp [execBrkOff]

@[simp] theorem execBrkEnd_fuses (s : State) : (execBrkEnd s).sec.fuses = s.sec.fuses := by
  unfold execBrkEnd
  (repeat' split) <;> simp

@[simp] theorem heavyHint_fuses (s : State) (c dur : Nat) : (s.heavyHint c dur).sec.fuses = s.sec.fuses := by
  unfold State.heavyHint
  (repeat' split) <;> simp

@[simp] theorem hintHeavyBody_fuses (k : Cmd) (s : State) : (hintHeavyBody k s).sec.fuses = s.sec.fuses := by
  simp only [hintHeavyBody]
  split <;> simp

@[simp] theorem execHintH_fuses (c : CmdId) (s : State) : (execHintH c s).sec.fuses = s.sec.fuses := by
  simp [execHintH]

@[simp] theorem execHeavyEnd_fuses (c : Nat) (s : State) : (execHeavyEnd c s).sec.fuses = s.sec.fuses := by
  unfold execHeavyEnd
  split <;> simp

@[simp] theorem startCal_fuses (s : State) (n : Nat) (ofMount : Bool) : (s.startCal n ofMount).sec.fuses = s.sec.fuses := rfl

@[simp] theorem execCalStart_fuses (f : Nat) (v : Word32) (s : State) : (execCalStart f v s).sec.fuses = s.sec.fuses := by
  unfold execCalStart
  split <;> simp

theorem fitAll_fuses (s : State) (c : CalRun) (l : List Nat) : (s.fitAll c l).1.sec.fuses = s.sec.fuses := by
  induction l generalizing s c with
  | nil => rfl
  | cons x t ih =>
    unfold State.fitAll
    split <;> simp [ih]

@[simp] theorem endCal_fuses (s : State) (c : CalRun) : (s.endCal c).sec.fuses = s.sec.fuses := by
  unfold State.endCal
  split <;> simp [fitAll_fuses]

@[simp] theorem execCalWin_fuses (model : List Nat) (telem : List Nat) (s : State) :
    (execCalWin model telem s).sec.fuses = s.sec.fuses := by
  simp only [execCalWin]
  (repeat' split) <;> simp

@[simp] theorem coefWrite_fuses (s : State) (v : Nat) : (s.coefWrite v).sec.fuses = s.sec.fuses := rfl

/-! ### Machine/Faults -/

@[simp] theorem deviceErr_fuses (s : State) (cause die : Nat) : (s.deviceErr cause die).sec.fuses = s.sec.fuses := by
  unfold State.deviceErr
  split <;> simp

@[simp] theorem execDevErr_fuses (cause die : Nat) (s : State) : (execDevErr cause die s).sec.fuses = s.sec.fuses := by
  simp [execDevErr]

@[simp] theorem execD2d_fuses (die : Nat) (s : State) : (execD2d die s).sec.fuses = s.sec.fuses := by
  simp [execD2d]

@[simp] theorem execSysclk_fuses (s : State) : (execSysclk s).sec.fuses = s.sec.fuses := by
  simp [execSysclk]

@[simp] theorem offAll_fuses (s : State) (l : List Nat) : (s.offAll l).sec.fuses = s.sec.fuses := by
  induction l generalizing s with
  | nil => rfl
  | cons x t ih => simp [State.offAll, ih]

@[simp] theorem execTrip_fuses (die : Nat) (s : State) : (execTrip die s).sec.fuses = s.sec.fuses := by
  unfold execTrip
  split <;> simp

@[simp] theorem execJtag_fuses (ir : Nat) (s : State) : (execJtag ir s).sec.fuses = s.sec.fuses := by
  unfold execJtag
  (repeat' split) <;> simp

@[simp] theorem logFence_fuses (s : State) (unit cause code n : Nat) :
    (s.logFence unit cause code n).sec.fuses = s.sec.fuses := by
  simp [State.logFence]

@[simp] theorem clearBit_fuses (s : State) (f : Fld) (n : Nat) : (s.clearBit f n).sec.fuses = s.sec.fuses := by
  simp only [State.clearBit]
  split <;> simp

@[simp] theorem failSet_fuses (s : State) (set : Nat) (l : List Cmd) : (s.failSet set l).sec.fuses = s.sec.fuses := by
  induction l generalizing s set with
  | nil => rfl
  | cons x t ih =>
    unfold State.failSet
    (repeat' split) <;> simp [ih]

@[simp] theorem checkEmpty_fuses (s : State) (ae : Nat) : (s.checkEmpty ae).sec.fuses = s.sec.fuses := by
  unfold State.checkEmpty
  (repeat' split) <;> simp

@[simp] theorem sendBack_fuses (s : State) (k : Chunk) : (s.sendBack k).sec.fuses = s.sec.fuses := by
  simp only [State.sendBack]
  split <;> simp

@[simp] theorem fenceAe_fuses (s : State) (ae cause : Nat) : (s.fenceAe ae cause).sec.fuses = s.sec.fuses := by
  simp [State.fenceAe]

@[simp] theorem execAeFence_fuses (ae cause : Nat) (s : State) : (execAeFence ae cause s).sec.fuses = s.sec.fuses := by
  simp only [execAeFence]
  (repeat' split) <;> simp

@[simp] theorem execCcFence_fuses (cc cause : Nat) (s : State) : (execCcFence cc cause s).sec.fuses = s.sec.fuses := by
  simp only [execCcFence]
  (repeat' split) <;> simp

theorem coreError_fuses (s : State) (unit : Nat) : (s.coreError unit).1.sec.fuses = s.sec.fuses := rfl

@[simp] theorem execCorrected_fuses (unit source : Nat) (s : State) :
    (execCorrected unit source s).sec.fuses = s.sec.fuses := by
  simp only [execCorrected]
  (repeat' split) <;> simp [coreError_fuses]

theorem loseCtxs_fuses (s : State) (pc : Nat) (l : List Ctx) : (s.loseCtxs pc l).1.sec.fuses = s.sec.fuses := by
  induction l generalizing s pc with
  | nil => rfl
  | cons x t ih =>
    unfold State.loseCtxs
    split <;> simp [ih]

@[simp] theorem reinsertLost_fuses (s : State) (lost : List DirEnt) (l : List Anchor) :
    (s.reinsertLost lost l).sec.fuses = s.sec.fuses := by
  induction l generalizing s lost with
  | nil => rfl
  | cons x t ih => simp [State.reinsertLost, ih]

@[simp] theorem loseStructs_fuses (s : State) (pc : Nat) : (s.loseStructs pc).sec.fuses = s.sec.fuses := by
  simp only [State.loseStructs]
  (repeat' split) <;> simp [loseCtxs_fuses]

@[simp] theorem retireAll_fuses (s : State) (pc : Nat) (bad : List Nat) : (s.retireAll pc bad).sec.fuses = s.sec.fuses := by
  unfold State.retireAll
  split <;> simp

@[simp] theorem execHbmErr_fuses (pc met : Nat) (bad : List Nat) (s : State) :
    (execHbmErr pc met bad s).sec.fuses = s.sec.fuses := by
  simp only [execHbmErr]
  (repeat' split) <;> simp

@[simp] theorem execRetireF_fuses (f : Nat) (v : Word32) (s : State) : (execRetireF f v s).sec.fuses = s.sec.fuses := by
  unfold execRetireF
  split <;> simp

@[simp] theorem execAlert_fuses (rail word : Nat) (s : State) : (execAlert rail word s).sec.fuses = s.sec.fuses := by
  simp [execAlert]

@[simp] theorem checkTables_fuses (s : State) : s.checkTables.sec.fuses = s.sec.fuses := by
  unfold State.checkTables
  split <;> simp

@[simp] theorem execRoundF_fuses (set : Nat) (s : State) : (execRoundF set s).sec.fuses = s.sec.fuses := by
  simp [execRoundF]

/-! ### Machine/Mount -/

theorem mountChecks_fuses (s : State) (b : Blank) (full : Bool) (mask : Nat) (issuer : Option Nat) :
    (s.mountChecks b full mask issuer).1.sec.fuses = s.sec.fuses := by
  unfold State.mountChecks
  extract_lets signed
  split
  · next h => exact (fuses_of_eq h).trans (checkSig_fuses ..)
  · next h =>
    have hs := (fuses_of_eq h).trans (checkSig_fuses ..)
    (repeat' split) <;> simp [hs]

@[simp] theorem setBoot_fuses (s : State) (f : Boot → Boot) : (s.setBoot f).sec.fuses = s.sec.fuses := rfl

@[simp] theorem mountResult_fuses (s : State) (st : Nat) : (s.mountResult st).sec.fuses = s.sec.fuses := rfl

@[simp] theorem tearEach_fuses (s : State) (l : List Ctx) : (s.tearEach l).sec.fuses = s.sec.fuses := by
  induction l generalizing s with
  | nil => rfl
  | cons x t ih => simp [State.tearEach, ih]

@[simp] theorem beginMount_fuses (s : State) (cmd : Option CmdId) (mgmt : Option (Nat × Nat)) (b : Blank) (full : Bool) (mask : Nat) :
    (s.beginMount cmd mgmt b full mask).sec.fuses = s.sec.fuses := by
  unfold State.beginMount
  split <;> simp

@[simp] theorem maskAll_fuses (s : State) (l : List Frame) : (s.maskAll l).sec.fuses = s.sec.fuses := by
  induction l generalizing s with
  | nil => rfl
  | cons x t ih => simp [State.maskAll, ih]

@[simp] theorem scrubPart_fuses (s : State) (p : Nat) : (s.scrubPart p).sec.fuses = s.sec.fuses := by
  simp [State.scrubPart]

@[simp] theorem remountPart_fuses (s : State) (b : Blank) (o : Part) : (s.remountPart b o).sec.fuses = s.sec.fuses := by
  unfold State.remountPart
  (repeat' split) <;> simp

@[simp] theorem remountParts_fuses (s : State) (b : Blank) (ps : List Part) : (s.remountParts b ps).sec.fuses = s.sec.fuses := by
  simp [State.remountParts, foldl_fuses]

@[simp] theorem loadSets_fuses (s : State) (objs : List (List Byte)) : (s.loadSets objs).sec.fuses = s.sec.fuses := rfl

@[simp] theorem mountStores_fuses (s : State) (b : Blank) (full : Bool) : (s.mountStores b full).sec.fuses = s.sec.fuses := by
  unfold State.mountStores
  extract_lets ks dss t u ps hot
  have hu : u.sec.fuses = s.sec.fuses := by unfold u; split <;> rfl
  exact (loadSets_fuses ..).trans hu

@[simp] theorem setFlds_fuses (s : State) (f : Fld) (l : List (Nat × Nat)) : (s.setFlds f l).sec.fuses = s.sec.fuses := by
  induction l generalizing s f with
  | nil => rfl
  | cons x t ih => simp [State.setFlds, ih]

@[simp] theorem setShards_fuses (s : State) (l : List (Nat × Nat)) : (s.setShards l).sec.fuses = s.sec.fuses := by
  induction l generalizing s with
  | nil => rfl
  | cons x t ih => simp [State.setShards, ih]

@[simp] theorem mountDomain_fuses (s : State) (b : Blank) : (s.mountDomain b).sec.fuses = s.sec.fuses := by
  simp only [State.mountDomain]
  (repeat' split) <;> simp

@[simp] theorem mountCascade_fuses (s : State) (b : Blank) : (s.mountCascade b).sec.fuses = s.sec.fuses := by
  unfold State.mountCascade
  split <;> simp

@[simp] theorem startMka_fuses (s : State) (b : Blank) (l : List MkaRec) : (s.startMka b l).sec.fuses = s.sec.fuses := by
  induction l generalizing s with
  | nil => rfl
  | cons m t ih =>
    unfold State.startMka
    split <;> simp [ih]

@[simp] theorem setSubs_fuses (s : State) (l : List (Nat × EgsEntry)) : (s.setSubs l).sec.fuses = s.sec.fuses := by
  induction l generalizing s with
  | nil => rfl
  | cons x t ih => simp [State.setSubs, ih]

@[simp] theorem setSvcs_fuses (s : State) (l : List (Nat × EgsEntry)) : (s.setSvcs l).sec.fuses = s.sec.fuses := by
  induction l generalizing s with
  | nil => rfl
  | cons x t ih => simp [State.setSvcs, ih]

@[simp] theorem mountRegs_fuses (s : State) (b : Blank) : (s.mountRegs b).sec.fuses = s.sec.fuses := by
  simp [State.mountRegs]

@[simp] theorem mountTables_fuses (s : State) (m : Mount) : (s.mountTables m).sec.fuses = s.sec.fuses := by
  unfold State.mountTables
  split <;> simp

@[simp] theorem restart_fuses (s : State) : s.restart.sec.fuses = s.sec.fuses := rfl

@[simp] theorem upEach_fuses (s : State) (l : List Nat) : (s.upEach l).sec.fuses = s.sec.fuses := by
  induction l generalizing s with
  | nil => rfl
  | cons x t ih => simp [State.upEach, ih]

@[simp] theorem flrEach_fuses (s : State) (l : List Nat) : (s.flrEach l).sec.fuses = s.sec.fuses := by
  induction l generalizing s with
  | nil => rfl
  | cons x t ih => simp [State.flrEach, ih]

@[simp] theorem lockEach_fuses (s : State) (l : List Nat) : (s.lockEach l).sec.fuses = s.sec.fuses := by
  induction l generalizing s with
  | nil => rfl
  | cons x t ih => simp [State.lockEach, ih]

@[simp] theorem leaveBootstrap_fuses (s : State) (b : Blank) : (s.leaveBootstrap b).sec.fuses = s.sec.fuses := by
  simp [State.leaveBootstrap]

@[simp] theorem mountDone_fuses (s : State) (m : Mount) : (s.mountDone m).sec.fuses = s.sec.fuses := by
  unfold State.mountDone
  extract_lets dig s1 s2 s3 s4 src s5 s6 s7 s8 s9 fl lk s10
  have h1 : s1.sec.fuses = s.sec.fuses := by unfold s1; split <;> simp
  have h2 : s2.sec.fuses = s.sec.fuses := by unfold s2; split <;> simp [h1]
  have h4 : s4.sec.fuses = s.sec.fuses := by unfold s4; split <;> simp [s3, h2]
  have h6 : s6.sec.fuses = s.sec.fuses := by simp [s6, s5, h4]
  have h7 : s7.sec.fuses = s.sec.fuses := by unfold s7; split <;> simp [h6]
  simp [s10, s9, s8, h7]

@[simp] theorem reinsertAll_fuses (s : State) (l : List Anchor) : (s.reinsertAll l).sec.fuses = s.sec.fuses := by
  induction l generalizing s with
  | nil => rfl
  | cons x t ih => simp [State.reinsertAll, ih]

@[simp] theorem mountStep9_fuses (s : State) : s.mountStep9.sec.fuses = s.sec.fuses := by
  unfold State.mountStep9
  (repeat' split) <;> simp

@[simp] theorem mountStep10_fuses (s : State) : s.mountStep10.sec.fuses = s.sec.fuses := by
  unfold State.mountStep10
  split <;> simp

@[simp] theorem execMountStep_fuses (s : State) : (execMountStep s).sec.fuses = s.sec.fuses := by
  unfold execMountStep
  (repeat' split) <;> simp

@[simp] theorem mountFails_fuses (s : State) (k : Cmd) (st : Nat) : (s.mountFails k st).sec.fuses = s.sec.fuses := by
  unfold State.mountFails
  split <;> simp

@[simp] theorem mountRun_fuses (s : State) (k : Cmd) (b : Blank) (len : Option Nat) :
    (s.mountRun k b len).sec.fuses = s.sec.fuses := by
  unfold State.mountRun
  extract_lets d full
  split
  · simp
  · split
    · next h => simp [fuses_of_eq h, mountChecks_fuses]
    · next h => (repeat' split) <;> simp [fuses_of_eq h, mountChecks_fuses]

@[simp] theorem mountGo_fuses (s : State) (c : CmdId) (img : Blank) : (s.mountGo c img).sec.fuses = s.sec.fuses := by
  unfold State.mountGo
  (repeat' split) <;> simp

@[simp] theorem mountBody_fuses (img : Blank) (k : Cmd) (s : State) : (mountBody img k s).sec.fuses = s.sec.fuses := by
  simp only [mountBody]
  (repeat' split) <;> simp

@[simp] theorem execMountF_fuses (c : CmdId) (img : Blank) (s : State) : (execMountF c img s).sec.fuses = s.sec.fuses := by
  simp [execMountF]

/-! ### Machine/Fetch -/

@[simp] theorem readList_fuses (s : State) (k : Cmd) : (s.readList k).sec.fuses = s.sec.fuses := by
  unfold State.readList
  (repeat' split) <;> simp

@[simp] theorem arrived_fuses (s : State) (k : Cmd) : (s.arrived k).sec.fuses = s.sec.fuses := by
  unfold State.arrived
  split <;> simp

@[simp] theorem absorb_fuses (s : State) (q idx : Nat) : (s.absorb q idx).sec.fuses = s.sec.fuses := rfl

@[simp] theorem armArrived_fuses (s : State) (k : Cmd) (w : Wq) : (s.armArrived k w).sec.fuses = s.sec.fuses := by
  simp only [State.armArrived]
  (repeat' split) <;> simp

@[simp] theorem ringFail_fuses (s : State) (k : Cmd) (reason : Nat) : (s.ringFail k reason).sec.fuses = s.sec.fuses := by
  simp [State.ringFail]

@[simp] theorem slotData_fuses (s : State) (k : Cmd) (w : Wq) (bytes : List Byte) :
    (s.slotData k w bytes).sec.fuses = s.sec.fuses := by
  simp only [State.slotData]
  (repeat' split) <;> simp

@[simp] theorem ringOver_fuses (s : State) (k : Cmd) : (s.ringOver k).sec.fuses = s.sec.fuses := by
  simp only [State.ringOver]
  (repeat' split) <;> simp

@[simp] theorem execRing_fuses (c : CmdId) (r : HostRead) (s : State) : (execRing c r s).sec.fuses = s.sec.fuses := by
  unfold execRing
  (repeat' split) <;> simp

@[simp] theorem execRingLate_fuses (c : CmdId) (s : State) : (execRingLate c s).sec.fuses = s.sec.fuses := by
  unfold execRingLate
  (repeat' split) <;> simp

@[simp] theorem hostFail_fuses (s : State) (k : Cmd) (status : Nat) : (s.hostFail k status).sec.fuses = s.sec.fuses := by
  unfold State.hostFail
  (repeat' split) <;> simp

@[simp] theorem execHostRead_fuses (c : CmdId) (r : HostRead) (s : State) : (execHostRead c r s).sec.fuses = s.sec.fuses := by
  unfold execHostRead
  (repeat' split) <;> simp

@[simp] theorem execHostLate_fuses (c : CmdId) (s : State) : (execHostLate c s).sec.fuses = s.sec.fuses := by
  unfold execHostLate
  (repeat' split) <;> simp

@[simp] theorem execFenceF_fuses (c : CmdId) (s : State) : (execFenceF c s).sec.fuses = s.sec.fuses := by
  simp [execFenceF]

/-! ### Machine/Boot -/

theorem pickBank_fuses (s : State) (signer min : Nat) (l : List (Nat × Bank)) :
    (s.pickBank signer min l).1.sec.fuses = s.sec.fuses := by
  induction l generalizing s with
  | nil => rfl
  | cons x t ih =>
    unfold State.pickBank
    split
    · next h => split <;> simp [ih, fuses_of_eq h, checkSig_fuses]
    · next h => simp [ih, fuses_of_eq h, checkSig_fuses]

@[simp] theorem wiped_fuses (s : State) (rank now : Nat) : (s.wiped rank now).sec.fuses = s.sec.fuses := rfl

@[simp] theorem execTrained_fuses (s : State) : (execTrained s).sec.fuses = s.sec.fuses := by
  unfold execTrained
  split <;> simp

@[simp] theorem execPcieUp_fuses (s : State) : (execPcieUp s).sec.fuses = s.sec.fuses := rfl

@[simp] theorem addBit_fuses (s : State) (f : Fld) (n : Nat) : (s.addBit f n).sec.fuses = s.sec.fuses := by
  unfold State.addBit
  split <;> simp

@[simp] theorem groupsNow_fuses (s : State) : s.groupsNow.sec.fuses = s.sec.fuses := rfl

@[simp] theorem acceptModule_fuses (s : State) (m : Nat) (d : List Byte) : (s.acceptModule m d).sec.fuses = s.sec.fuses := by
  simp [State.acceptModule]

@[simp] theorem rejectModule_fuses (s : State) (m : Nat) : (s.rejectModule m).sec.fuses = s.sec.fuses := by
  simp [State.rejectModule]

@[simp] theorem bootMount_fuses (s : State) : s.bootMount.sec.fuses = s.sec.fuses := by
  unfold State.bootMount
  split
  · rfl
  · split
    · rfl
    · split <;> next h => simp [fuses_of_eq h, mountChecks_fuses]

@[simp] theorem execModule_fuses (m : Nat) (ident : Option (List Byte)) (s : State) :
    (execModule m ident s).sec.fuses = s.sec.fuses := by
  unfold execModule
  extract_lets s1 s2 s3
  have h1 : s1.sec.fuses = s.sec.fuses := rfl
  have h3 : s3.sec.fuses = s.sec.fuses := by
    unfold s3; split
    · simp [h1]
    · split <;> simp [s2, h1]
  (repeat' split) <;> simp [h3]

/-! ### Machine/LowPower -/

@[simp] theorem setPm_fuses (s : State) (f : Pm → Pm) : (s.setPm f).sec.fuses = s.sec.fuses := rfl

@[simp] theorem execIdle_fuses (s : State) : (execIdle s).sec.fuses = s.sec.fuses := by
  unfold execIdle
  split <;> simp

@[simp] theorem startEntry_fuses (s : State) (t : Nat) : (s.startEntry t).sec.fuses = s.sec.fuses := rfl

@[simp] theorem actTarget_fuses (s : State) (t : Nat) : (s.actTarget t).sec.fuses = s.sec.fuses := by
  simp only [State.actTarget]
  (repeat' split) <;> simp

@[simp] theorem commitNow_fuses (s : State) : s.commitNow.sec.fuses = s.sec.fuses := by
  simp only [State.commitNow]
  split <;> simp

@[simp] theorem parkGroups_fuses (s : State) : s.parkGroups.sec.fuses = s.sec.fuses := rfl

@[simp] theorem park_fuses (s : State) : s.park.sec.fuses = s.sec.fuses := by
  simp [State.park]

@[simp] theorem actHeld_fuses (s : State) : s.actHeld.sec.fuses = s.sec.fuses := by
  unfold State.actHeld
  split <;> simp

@[simp] theorem execDrainDone_fuses (s : State) : (execDrainDone s).sec.fuses = s.sec.fuses := by
  unfold execDrainDone
  (repeat' split) <;> simp

@[simp] theorem execDrainEnd_fuses (s : State) : (execDrainEnd s).sec.fuses = s.sec.fuses := by
  unfold execDrainEnd
  (repeat' split) <;> simp

@[simp] theorem execWakeEvent_fuses (cause : Nat) (s : State) : (execWakeEvent cause s).sec.fuses = s.sec.fuses := by
  unfold execWakeEvent
  (repeat' split) <;> simp

@[simp] theorem runDeferred_fuses (s : State) (l : List (Nat × Nat × Nat)) : (s.runDeferred l).sec.fuses = s.sec.fuses := by
  induction l generalizing s with
  | nil => rfl
  | cons x t ih =>
    unfold State.runDeferred
    dsimp only
    (repeat' split) <;> simp [ih]

@[simp] theorem answerReqs_fuses (s : State) (l : List RxFrame) : (s.answerReqs l).sec.fuses = s.sec.fuses := by
  induction l generalizing s with
  | nil => rfl
  | cons x t ih => simp [State.answerReqs, ih]

@[simp] theorem execExitDone_fuses (s : State) : (execExitDone s).sec.fuses = s.sec.fuses := by
  simp only [execExitDone]
  (repeat' split) <;> simp

/-! ### Machine/RegAcc -/

theorem read32_fuses (s : State) (f a : Nat) : (s.read32 f a).1.sec.fuses = s.sec.fuses := by
  unfold State.read32
  (repeat' split) <;> simp

theorem readAt_fuses (s : State) (f a bytes : Nat) : (s.readAt f a bytes).1.sec.fuses = s.sec.fuses := by
  unfold State.readAt
  (repeat' split) <;> simp [read32_fuses]

@[simp] theorem execBadAccess_fuses (f off bytes : Nat) (isWrite : Bool) (s : State) :
    (execBadAccess f off bytes isWrite s).sec.fuses = s.sec.fuses := by
  unfold execBadAccess
  (repeat' split) <;> simp

@[simp] theorem execRegRead_fuses (f off bytes : Nat) (bar2 : Bool) (s : State) :
    (execRegRead f off bytes bar2 s).sec.fuses = s.sec.fuses := by
  unfold execRegRead
  (repeat' split) <;> simp [readAt_fuses]

@[simp] theorem writeFlds_fuses (s : State) (i c v m : Nat) (l : List Fld) :
    (s.writeFlds i c v m l).sec.fuses = s.sec.fuses := by
  induction l generalizing s i c v m with
  | nil => rfl
  | cons x t ih =>
    unfold State.writeFlds
    split <;> simp [ih]

@[simp] theorem rcpAttr_fuses (s : State) (c v : Nat) : (s.rcpAttr c v).sec.fuses = s.sec.fuses := by
  simp only [State.rcpAttr]
  (repeat' split) <;> simp

@[simp] theorem execRcpAttr_fuses (f c : Nat) (v : Word64) (s : State) :
    (execRcpAttr f c v s).sec.fuses = s.sec.fuses := by
  unfold execRcpAttr
  split <;> simp

@[simp] theorem qCmd_fuses (s : State) (f c op : Nat) : (s.qCmd f c op).sec.fuses = s.sec.fuses := by
  unfold State.qCmd
  (repeat' split) <;> simp

@[simp] theorem writeWin_fuses (s : State) (f : Nat) (h : RegHit) (v : Nat) (upperOnly : Bool) :
    (s.writeWin f h v upperOnly).sec.fuses = s.sec.fuses := by
  unfold State.writeWin
  extract_lets a m c gen
  have hg : gen.sec.fuses = s.sec.fuses := writeFlds_fuses ..
  (repeat' split) <;> simp [hg]

@[simp] theorem execUnlockWrite_fuses (f : Nat) (v : Word32) (s : State) : (execUnlockWrite f v s).sec.fuses = s.sec.fuses := by
  simp only [execUnlockWrite]
  (repeat' split) <;> simp

@[simp] theorem powerWritten_fuses (s : State) : s.powerWritten.sec.fuses = s.sec.fuses := by
  simp [State.powerWritten]

@[simp] theorem capWrite_fuses (s : State) (v : Nat) : (s.capWrite v).sec.fuses = s.sec.fuses := rfl

@[simp] theorem pmCtl_fuses (s : State) (v : Nat) : (s.pmCtl v).sec.fuses = s.sec.fuses := by
  simp [State.pmCtl]

@[simp] theorem cascCfg_fuses (s : State) (h : RegHit) (v m : Nat) : (s.cascCfg h v m).sec.fuses = s.sec.fuses := by
  simp only [State.cascCfg]
  (repeat' split) <;> simp

@[simp] theorem shareWrite_fuses (s : State) (v : Nat) : (s.shareWrite v).sec.fuses = s.sec.fuses := rfl

@[simp] theorem writeBlk_fuses (s : State) (h : RegHit) (v : Nat) (upperOnly : Bool) :
    (s.writeBlk h v upperOnly).sec.fuses = s.sec.fuses := by
  unfold State.writeBlk
  extract_lets a m w gen op
  have hg : gen.sec.fuses = s.sec.fuses := writeFlds_fuses ..
  clear_value gen a op
  repeat' with_reducible refine fuses_ite ?_ ?_
  all_goals simp [hg]

@[simp] theorem writeReg_fuses (s : State) (f : Nat) (h : RegHit) (v : Nat) (upperOnly : Bool) :
    (s.writeReg f h v upperOnly).sec.fuses = s.sec.fuses := by
  unfold State.writeReg
  split
  · exact writeWin_fuses ..
  · exact writeBlk_fuses ..

@[simp] theorem write32_fuses (s : State) (f a v : Nat) : (s.write32 f a v).sec.fuses = s.sec.fuses := by
  unfold State.write32
  (repeat' split) <;> simp

@[simp] theorem writeAt_fuses (s : State) (f a bytes v : Nat) :
    (s.writeAt f a bytes v).sec.fuses = s.sec.fuses := by
  unfold State.writeAt
  (repeat' split) <;> simp

@[simp] theorem execRegWrite_fuses (f off bytes : Nat) (v : Word64) (s : State) :
    (execRegWrite f off bytes v s).sec.fuses = s.sec.fuses := by
  unfold execRegWrite
  (repeat' split) <;> simp

@[simp] theorem pfWrite_fuses {s : State} {f : Nat} {b : Bool} {op : State → State} (h : ∀ s, (op s).sec.fuses = s.sec.fuses) :
    (s.pfWrite f b op).sec.fuses = s.sec.fuses := by
  unfold State.pfWrite
  split <;> simp [h]

@[simp] theorem execCapWrite_fuses (f : Nat) (v : Word32) (s : State) : (execCapWrite f v s).sec.fuses = s.sec.fuses := by
  exact pfWrite_fuses fun s => by simp

@[simp] theorem execPmTarget_fuses (f : Nat) (v : Word32) (s : State) : (execPmTarget f v s).sec.fuses = s.sec.fuses := by
  exact pfWrite_fuses fun s => by simp

/-! ### Machine/Mgmt -/

@[simp] theorem reply_fuses (s : State) (sess typ req st : Nat) (body : optParam (List Nat) []) :
    (s.reply sess typ req st body).sec.fuses = s.sec.fuses := rfl

@[simp] theorem request_fuses {s : State} {sess req typ role : Nat} {inRec : Bool} {op : State → State}
    (h : ∀ s, (op s).sec.fuses = s.sec.fuses) : (s.request sess req typ role inRec op).sec.fuses = s.sec.fuses := by
  simp only [State.request]
  (repeat' split) <;> simp [h]

theorem mgmtReads_fuses (s : State) (l : List (Nat × Nat)) : (s.mgmtReads l).1.sec.fuses = s.sec.fuses := by
  induction l generalizing s with
  | nil => rfl
  | cons x t ih =>
    unfold State.mgmtReads
    dsimp only
    (repeat' split) <;> simp [ih]

@[simp] theorem execMgmtRead_fuses (sess req : Nat) (pairs : List (Nat × Nat)) (s : State) :
    (execMgmtRead sess req pairs s).sec.fuses = s.sec.fuses := by
  refine request_fuses fun s => ?_
  split <;> simp [mgmtReads_fuses]

@[simp] theorem execTelemetry_fuses (sess req : Nat) (s : State) :
    (execTelemetry sess req s).sec.fuses = s.sec.fuses := by
  exact request_fuses fun s => by simp

@[simp] theorem execAttest_fuses (sess req nonce : Nat) (s : State) :
    (execAttest sess req nonce s).sec.fuses = s.sec.fuses := by
  exact request_fuses fun s => by simp

@[simp] theorem execChallenge_fuses (sess req : Nat) (s : State) :
    (execChallenge sess req s).sec.fuses = s.sec.fuses := by
  exact request_fuses fun s => by simp

@[simp] theorem execSetCap_fuses (sess req watts : Nat) (s : State) :
    (execSetCap sess req watts s).sec.fuses = s.sec.fuses := by
  refine request_fuses fun s => ?_
  split <;> simp

@[simp] theorem setBank_fuses (s : State) (isCfg : Bool) (f : Option Bank → Option Bank) :
    (s.setBank isCfg f).sec.fuses = s.sec.fuses := by
  unfold State.setBank
  extract_lets b upd
  simp only [setSec_fuses]
  split <;> rfl

@[simp] theorem stagePiece_fuses (s : State) (isCfg : Bool) (off len : Nat) (final : Option BankImage) :
    (s.stagePiece isCfg off len final).sec.fuses = s.sec.fuses := by
  unfold State.stagePiece
  extract_lets seq w
  split <;> simp

@[simp] theorem execStage_fuses (sess req : Nat) (isCfg : Bool) (off len : Nat) (final : Option BankImage) (s : State) :
    (execStage sess req isCfg off len final s).sec.fuses = s.sec.fuses := by
  unfold execStage
  extract_lets rec_
  refine request_fuses fun s => ?_
  generalize (if isCfg then 67108864 else 33554432) = size
  split <;> simp

@[simp] theorem execMgmtMount_fuses (sess req mode pmask : Nat) (s : State) :
    (execMgmtMount sess req mode pmask s).sec.fuses = s.sec.fuses := by
  unfold execMgmtMount
  split
  · rfl
  · refine request_fuses fun s => ?_
    extract_lets fails full
    split
    · simp [fails]
    · split
      · simp [fails]
      · split
        · next h => simp [fails, fuses_of_eq h, mountChecks_fuses]
        · next h => split <;> simp [fuses_of_eq h, mountChecks_fuses]

@[simp] theorem execCommitSvn_fuses (sess req : Nat) (s : State) :
    (execCommitSvn sess req s).sec.fuses = s.sec.fuses := by
  exact request_fuses fun s => by simp

@[simp] theorem execToken_fuses (sess req challenge deviceId sig : Nat) (s : State) :
    (execToken sess req challenge deviceId sig s).sec.fuses = s.sec.fuses := by
  simp [execToken, tryToken_fuses]

/-! ### Machine/Trace -/

@[simp] theorem traceChanged_fuses (s : State) (old : List Frame) (l : List Frame) :
    (s.traceChanged old l).sec.fuses = s.sec.fuses := by
  induction l generalizing s old with
  | nil => rfl
  | cons x t ih =>
    unfold State.traceChanged
    split <;> simp [ih]

@[simp] theorem traced_fuses (s t : State) : (s.traced t).sec.fuses = t.sec.fuses := by
  unfold State.traced
  split <;> simp

@[simp] theorem idleWake_fuses (s : State) : s.idleWake.sec.fuses = s.sec.fuses := by
  unfold State.idleWake
  split <;> simp

/-! ### The commands -/

theorem arrival_fuses {s : State} {op : State → State} (h : ∀ s, (op s).sec.fuses = s.sec.fuses) :
    (s.arrival op).sec.fuses = s.sec.fuses := by
  unfold State.arrival; split <;> simp [h]
theorem memberMsg_fuses {s : State} {op : State → State} (h : ∀ s, (op s).sec.fuses = s.sec.fuses) :
    (s.memberMsg op).sec.fuses = s.sec.fuses := by
  unfold State.memberMsg; split <;> simp [h]
theorem peerMsg_fuses {s : State} {op : State → State} (h : ∀ s, (op s).sec.fuses = s.sec.fuses) :
    (s.peerMsg op).sec.fuses = s.sec.fuses := by
  unfold State.peerMsg; (repeat' split) <;> simp [h]
theorem domClock_fuses {s : State} {op : State → State} (h : ∀ s, (op s).sec.fuses = s.sec.fuses) :
    (s.domClock op).sec.fuses = s.sec.fuses := by
  unfold State.domClock; split <;> simp [h]
/-- The five commands that can blow a fuse. -/
def blows : Instr → Bool
  | .por .. | .fund | .reset .. | .decommission .. | .returnStep .. => true
  | _ => false
theorem exec_fuses {i : Instr} {s t : State} (hi : blows i = false) (h : exec i s = .next t) : t.sec.fuses = s.sec.fuses := by
  cases i
  case por | fund | reset | decommission | returnStep => cases hi
  case lowerHalfRead f off bytes =>
    obtain rfl := Host.Outcome.next.inj h
    cases off <;> simp
  all_goals
    obtain rfl := Host.Outcome.next.inj h
    simp [arrival_fuses, memberMsg_fuses, peerMsg_fuses, domClock_fuses]

theorem fusesSince_of_eq {f : Fuses} {s t : State} (h : t.sec.fuses = s.sec.fuses) (hs : s.fusesSince f) : t.fusesSince f := by
  unfold State.fusesSince at *
  rwa [h]

theorem enrolOwners_getElem? (l : List (Nat × Bool × Bool)) (n i : Nat) :
    (enrolOwners l n)[i]? = l[i]?.map fun o => if i < n then (o.1, false, true) else if i = n then (o.1, true, false) else o := by
  unfold enrolOwners
  rw [List.getElem?_map]
  rcases lt_or_ge i l.length with hi | hi
  · simp [hi]
  · simp [hi]

/-- Enrolling an owner keeps every slot's digest. -/
theorem enrolOwners_digests (l : List (Nat × Bool × Bool)) (n : Nat) : (enrolOwners l n).map (·.1) = l.map (·.1) := by
  apply List.ext_getElem?
  intro i
  rw [List.getElem?_map, List.getElem?_map, enrolOwners_getElem?, Option.map_map]
  congr 1
  funext o
  simp only [Function.comp]
  split
  · rfl
  · split <;> rfl

/-- A bank's owner is enrolled in a slot that is not revoked. -/
theorem enrolSlot_fresh {l : List (Nat × Bool × Bool)} {slot digest n : Nat} (h : enrolSlot l slot digest = some n) {d : Nat} {a : Bool} :
    l[n]? ≠ some (d, a, true) := by
  intro hn
  have := List.find?_some h
  simp [hn] at this

theorem fusesSince_blowUds {f : Fuses} {s : State} (hs : s.fusesSince f) :
    (s.setSec fun x => { x with fuses := { x.fuses with uds := udsBurned } }).fusesSince f := by
  obtain ⟨-, hrest⟩ := hs
  exact ⟨.inr rfl, hrest⟩

theorem spendEpoch_fusesSince {f : Fuses} {s : State} (hs : s.fusesSince f) : s.spendEpoch.fusesSince f := by
  unfold State.spendEpoch
  extract_lets n
  split
  · exact fusesSince_blowUds hs
  · obtain ⟨huds, hn, hd, hserial, hepoch, hrest⟩ := hs
    exact ⟨huds, hn, hd, hserial, hepoch.trans (Nat.le_succ _), hrest⟩

theorem enrol_fusesSince {f : Fuses} {s : State} (g : BankImage) (hs : s.fusesSince f) : (s.enrol g).fusesSince f := by
  unfold State.enrol
  split
  · exact hs
  · next n hn =>
    obtain ⟨d, -, hslot⟩ := Option.bind_eq_some_iff.mp hn
    obtain ⟨huds, hn, hd, hserial, hepoch, hrev, hdig, hown⟩ := hs
    refine ⟨huds, hn, hd, hserial, hepoch, hrev, ?_, ?_⟩
    · exact (enrolOwners_digests ..).trans hdig
    · intro i d a hi
      obtain ⟨b, hb⟩ := hown i d a hi
      change ∃ b, (enrolOwners s.sec.fuses.owners n)[i]? = _
      rw [enrolOwners_getElem?, hb, Option.map_some]
      split
      · exact ⟨_, rfl⟩
      · split
        · next h => subst h; exact absurd hb (enrolSlot_fresh hslot)
        · exact ⟨_, rfl⟩

theorem chooseCfg_fusesSince {f : Fuses} {s : State} (hs : s.fusesSince f) : s.chooseCfg.fusesSince f := by
  unfold State.chooseCfg
  split
  · next h => exact fusesSince_of_eq ((fuses_of_eq h).trans (pickBank_fuses ..)) hs
  · next u c h =>
    refine enrol_fusesSince _ (fusesSince_of_eq (s := s) ?_ hs)
    exact (fuses_of_eq h).trans (pickBank_fuses ..)

theorem bootOn_fusesSince {f : Fuses} {s : State} (n : Nat) (b : Bank) (hs : s.fusesSince f) : (s.bootOn n b).fusesSince f := by
  have h : ((s.setFld F.SEC_STATUS_FW_BANK n).setFld F.SEC_FW_FW_SVN (sigSvn b.img.obj)).chooseCfg.fusesSince f := chooseCfg_fusesSince hs
  unfold State.bootOn
  extract_lets s1 s2 s3
  exact fusesSince_of_eq (s := s1) rfl h

theorem setFld_fusesSince {f : Fuses} {s : State} (fl : Fld) (v : Nat) (hs : s.fusesSince f) : (s.setFld fl v).fusesSince f := hs

theorem bootRom_fusesSince {f : Fuses} {s : State} (hs : s.fusesSince f) : s.bootRom.fusesSince f := by
  unfold State.bootRom
  split
  · next h => exact bootOn_fusesSince _ _ (fusesSince_of_eq ((fuses_of_eq h).trans (pickBank_fuses ..)) hs)
  · next h =>
    exact setFld_fusesSince _ _ (setFld_fusesSince _ _
      (chooseCfg_fusesSince (fusesSince_of_eq ((fuses_of_eq h).trans (pickBank_fuses ..)) hs)))

theorem doFund_fusesSince {f : Fuses} {s : State} (cause : Fld) (hs : s.fusesSince f) : (s.doFund cause).fusesSince f := by
  unfold State.doFund
  extract_lets t1 t2 t3
  split
  · exact hs
  · refine fusesSince_of_eq (refreshPower_fuses ..) (bootRom_fusesSince (fusesSince_of_eq (s := s) ?_ hs))
    have h1 : t1.sec.fuses = s.sec.fuses := (wiped_fuses ..).trans (putRaise_fuses ..)
    exact h1

theorem request_fusesSince {f : Fuses} {s : State} {sess req typ role : Nat} {inRec : Bool} {op : State → State}
    (h : ∀ s, s.fusesSince f → (op s).fusesSince f) (hs : s.fusesSince f) : (s.request sess req typ role inRec op).fusesSince f := by
  simp only [State.request]
  split
  · exact hs
  · split
    · exact fusesSince_of_eq (by simp) hs
    · exact h _ (fusesSince_of_eq (by simp) hs)

theorem execPorF_fusesSince {f : Fuses} {s : State} (cause straps : Nat) (hs : s.fusesSince f) : (execPorF cause straps s).fusesSince f := by
  unfold execPorF
  exact bootRom_fusesSince (fusesSince_of_eq (s := s.wiped 2 0) rfl (fusesSince_of_eq (wiped_fuses ..) hs))

theorem execDecommission_fusesSince {f : Fuses} {s : State} (sess req : Nat) (hs : s.fusesSince f) :
    (execDecommission sess req s).fusesSince f := by
  refine request_fusesSince (fun s hs => ?_) hs
  have h := spendEpoch_fusesSince hs
  exact fusesSince_of_eq (s := s.spendEpoch) ((reply_fuses ..).trans (keysChanged_fuses ..)) h

theorem execReturn_fusesSince {f : Fuses} {s : State} (sess req : Nat) (hs : s.fusesSince f) :
    (execReturn sess req s).fusesSince f :=
  request_fusesSince (fun _ hs => fusesSince_of_eq (reply_fuses ..) (fusesSince_blowUds (setFld_fusesSince _ _ hs))) hs

theorem execMgmtReset_fusesSince {f : Fuses} {s : State} (sess req : Nat) (hs : s.fusesSince f) :
    (execMgmtReset sess req s).fusesSince f :=
  request_fusesSince (fun _ hs => doFund_fusesSince _ (fusesSince_of_eq (reply_fuses ..) hs)) hs

theorem exec_fusesSince {f : Fuses} {i : Instr} {s t : State} (h : exec i s = .next t) (hs : s.fusesSince f) : t.fusesSince f := by
  cases hb : blows i
  · exact fusesSince_of_eq (exec_fuses hb h) hs
  · cases i
    case por => exact Host.Outcome.next.inj h ▸ execPorF_fusesSince _ _ hs
    case fund => exact Host.Outcome.next.inj h ▸ doFund_fusesSince _ hs
    case reset => exact Host.Outcome.next.inj h ▸ execMgmtReset_fusesSince _ _ hs
    case decommission =>
      exact Host.Outcome.next.inj h ▸ fusesSince_of_eq (traced_fuses ..) (execDecommission_fusesSince _ _ hs)
    case returnStep => exact Host.Outcome.next.inj h ▸ fusesSince_of_eq (traced_fuses ..) (execReturn_fusesSince _ _ hs)
    all_goals cases hb

end Sys2Proof.Machine

namespace Sys2Proof.Proofs.Fuses
open Sys2Proof Sys2Proof.Machine

/-- Settles O59: the command at the front is run on the state with the rest of the queue, and no command un-blows a fuse. -/
theorem fusesOnlyBlow : Obligations.FusesOnlyBlow := by
  intro f s t hs h
  unfold step at h
  split at h
  · exact Host.Outcome.next.inj h ▸ hs
  · exact exec_fusesSince h hs

/-- Settles O60: the reset keeps the fuses it was given. -/
theorem fusesSinceReset : Obligations.FusesSinceReset :=
  ⟨⟨.inl rfl, rfl, rfl, rfl, le_rfl, fun _ h => h, rfl, fun _ _ a h => ⟨a, h⟩⟩, rfl, rfl⟩
end Sys2Proof.Proofs.Fuses
end

section
/-! PROOFS. The step and the accesses to registers (chapter 0): R6, R8, R10, R12, R81. -/

namespace Sys2Proof.Machine

/-! ### The bits of a number after a write by access code -/

/-- Subtracting the common bits clears them. -/
theorem testBit_sub_land (a b k : Nat) : (a - Nat.land a b).testBit k = (a.testBit k && !b.testBit k) := by
  induction k generalizing a b with
  | zero =>
    have hle : a &&& b ≤ a := Nat.and_le_left
    have hmod : (a &&& b).testBit 0 = (a.testBit 0 && b.testBit 0) := Nat.testBit_and ..
    simp only [Nat.testBit_zero, Nat.land_eq] at *
    grind
  | succ k ih =>
    have hle : a &&& b ≤ a := Nat.and_le_left
    have hdiv : (a &&& b) / 2 = a / 2 &&& b / 2 := Nat.and_div_two
    have hmod : (a &&& b).testBit 0 = (a.testBit 0 && b.testBit 0) := Nat.testBit_and ..
    have hhalf : (a - (a &&& b)) / 2 = a / 2 - (a / 2 &&& b / 2) := by
      simp only [Nat.testBit_zero] at hmod
      grind
    simp only [Nat.testBit_succ, Nat.land_eq, hhalf]
    exact ih _ _

/-- Of a whole write, every bit of a field of at most 64 bits is written. -/
theorem wholeMask {lo w : Nat} (h : lo + w ≤ 64) : (2 ^ 64 - 1) / 2 ^ lo % 2 ^ w = 2 ^ w - 1 := by
  apply Nat.eq_of_testBit_eq
  intro i
  rw [Nat.testBit_mod_two_pow, Nat.testBit_div_two_pow, Nat.testBit_two_pow_sub_one, Nat.testBit_two_pow_sub_one, ← Bool.decide_and,
    decide_eq_decide]
  omega

/-- A field takes a value modulo its width. -/
theorem setFld_mod (s : State) (f : Fld) (v i c : Nat) : s.setFld f (v % 2 ^ f.width) i c = s.setFld f v i c := by
  simp only [State.setFld, Nat.mod_mod]

/-! ### Reads of registers -/

section
variable {s : State} {f off a : Nat} {h : RegHit}

theorem exec_regRead4 (hoff : off % 4 = 0) (ha : s.mapAddr f off = some a) : exec (.lowerHalfRead f (.bar0 off) 4) s =
    .next ((s.read32 f a).1.emit (.regData f (BitVec.ofNat 64 (s.read32 f a).2))) := by
  change Host.Outcome.next (execRegRead f off 4 false s) = _
  simp [execRegRead, accessOk, hoff, ha, State.readAt]

theorem exec_regRead8 (hoff : off % 8 = 0) (ha : s.mapAddr f off = some a) (hit : s.hitAt a = some h) (hb : h.r.bytes = 8) :
    exec (.lowerHalfRead f (.bar0 off) 8) s =
      .next ((s.dropHalves f a).emit (.regData f (BitVec.ofNat 64 (s.readReg h.r h.i h.c)))) := by
  change Host.Outcome.next (execRegRead f off 8 false s) = _
  simp [execRegRead, accessOk, hoff, ha, State.readAt, hit, hb]

theorem exec_regRead_unmapped {bytes : Nat} (ok : accessOk off bytes = true) (ha : s.mapAddr f off = none) :
    exec (.lowerHalfRead f (.bar0 off) bytes) s = .next (s.emit (.regData f 0)) := by
  change Host.Outcome.next (execRegRead f off bytes false s) = _
  simp [execRegRead, ok, ha]

theorem exec_regRead_bar2 {bytes : Nat} (ok : accessOk off bytes = true) : exec (.lowerHalfRead f (.bar2 off) bytes) s =
    .next (s.emit (.regData f (BitVec.ofNat 64 (s.bar2Read f off bytes)))) := by
  change Host.Outcome.next (execRegRead f off bytes true s) = _
  simp [execRegRead, ok]

theorem read32_none (hit : s.hitAt a = none) : s.read32 f a = (s, 0) := by
  simp [State.read32, hit]

theorem read32_narrow (hit : s.hitAt a = some h) (hu : h.upper = false) (hb : h.r.bytes ≠ 8) :
    s.read32 f a = (s, s.readReg h.r h.i h.c) := by
  simp [State.read32, hit, hu, hb]

/-- The state with the upper half `u` of the register at `a` latched for the function. -/
def State.latch (s : State) (f a u : Nat) : State :=
  s.setHost fun x => { x with latches := x.latches.filter (fun l => l.1 != f || l.2.1 != a + 4) ++ [(f, a + 4, BitVec.ofNat 32 u)] }

/-- The state with the latch at `a` of the function released. -/
def State.unlatch (s : State) (f a : Nat) : State :=
  s.setHost fun x => { x with latches := x.latches.filter fun l => l.1 != f || l.2.1 != a }

theorem read32_lower (hit : s.hitAt a = some h) (hu : h.upper = false) (hb : h.r.bytes = 8) :
    s.read32 f a = (s.latch f a (s.readReg h.r h.i h.c / two32), s.readReg h.r h.i h.c % two32) := by
  simp [State.read32, hit, hu, hb, State.latch]

theorem read32_upper_latched {l : Nat × Nat × BitVec 32} (hit : s.hitAt a = some h) (hu : h.upper = true)
    (hl : (s.host.latches.find? fun l => l.1 == f && l.2.1 == a) = some l) : s.read32 f a = (s.unlatch f a, l.2.2.toNat) := by
  simp [State.read32, hit, hu, hl, State.unlatch]

theorem read32_upper_unlatched (hit : s.hitAt a = some h) (hu : h.upper = true)
    (hl : (s.host.latches.find? fun l => l.1 == f && l.2.1 == a) = none) :
    s.read32 f a = (s, s.readReg h.r h.i h.c / two32) := by
  simp [State.read32, hit, hu, hl]

/-- The latch just taken is the one that the function's next read of the upper half finds. -/
theorem latch_find? (s : State) (f a u : Nat) :
    ((s.latch f a u).host.latches.find? fun l => l.1 == f && l.2.1 == a + 4) = some (f, a + 4, BitVec.ofNat 32 u) := by
  have hnone : (s.host.latches.filter fun l => l.1 != f || l.2.1 != a + 4).find? (fun l => l.1 == f && l.2.1 == a + 4) = none := by
    simp only [List.find?_eq_none, List.mem_filter]
    rintro l ⟨-, hl⟩
    simpa [bne, Bool.or_eq_true, imp_iff_not_or] using hl
  change (_ ++ [(f, a + 4, BitVec.ofNat 32 u)]).find? _ = _
  rw [List.find?_append, hnone]
  simp

/-! ### Writes of registers -/

theorem exec_regWrite4 {v : Word64} (hoff : off % 4 = 0) (ha : s.mapAddr f off = some a) :
    exec (.registerWrite f off 4 v) s = .next (s.traced (s.write32 f a (v.toNat % two32))) := by
  change Host.Outcome.next (s.traced (execRegWrite f off 4 v s)) = _
  simp [execRegWrite, accessOk, hoff, ha, State.writeAt]

theorem exec_regWrite8 {v : Word64} (hoff : off % 8 = 0) (ha : s.mapAddr f off = some a) (hit : s.hitAt a = some h)
    (hb : h.r.bytes = 8) :
    exec (.registerWrite f off 8 v) s = .next (s.traced ((s.dropHalves f a).writeReg f h v.toNat false)) := by
  change Host.Outcome.next (s.traced (execRegWrite f off 8 v s)) = _
  simp [execRegWrite, accessOk, hoff, ha, State.writeAt, hit, hb]

theorem exec_regWrite_unmapped {bytes : Nat} {v : Word64} (ok : accessOk off bytes = true) (ha : s.mapAddr f off = none) :
    exec (.registerWrite f off bytes v) s = .next (s.traced s) := by
  change Host.Outcome.next (s.traced (execRegWrite f off bytes v s)) = _
  simp [execRegWrite, ok, ha]

/-- A register without further effect takes a write in its fields alone. -/
theorem writeReg_plain (hp : h.r.plain = true) (v : Nat) (u : Bool) :
    s.writeReg f h v u = s.writeFlds h.i 0 v (writeMask u) h.r.flds := by
  have hwin : h.r.win = false := by
    simp only [RegD.plain, Bool.and_eq_true, Bool.not_eq_true'] at hp
    exact hp.1.1
  have haddr : hooked.contains h.r.addr = false ∧ (h.r.addr < 0xD00000 ∨ 0xE00000 ≤ h.r.addr) := by
    simp only [RegD.plain, Bool.and_eq_true, Bool.not_eq_true', Bool.or_eq_true, decide_eq_true_eq] at hp
    exact ⟨hp.1.2, hp.2⟩
  obtain ⟨hhook, hpwr⟩ := haddr
  simp only [hooked, List.contains_cons, List.contains_nil, Bool.or_eq_false_iff, beq_eq_false_iff_ne] at hhook
  obtain ⟨h1, h2, h3, h4, h5, h6, h7, h8, h9, h10, h11, h12, h13, h14, h15, h16, -⟩ := hhook
  have hcap : h.r.addr ≠ 0xD00000 := by omega
  have hcal : h.r.addr ≠ 0xD00100 := by omega
  have hcoef : h.r.addr ≠ 0xD80028 := by omega
  have hrange : ¬ (0xD00000 ≤ h.r.addr ∧ h.r.addr < 0xE00000) := by omega
  rw [State.writeReg, if_neg (by simp [hwin]), State.writeBlk]
  extract_lets
  rw [if_neg h1, if_neg h2, if_neg h3, if_neg h4, if_neg h5, if_neg h6, if_neg h7, if_neg h8, if_neg h9, if_neg h10, if_neg h11,
    if_neg h12, if_neg h13, if_neg h14, if_neg hcap, if_neg hcal, if_neg hcoef, if_neg h15, if_neg h16, if_neg hrange]

theorem write32_none (hit : s.hitAt a = none) (v : Nat) : s.write32 f a v = s := by
  simp [State.write32, hit]

theorem write32_narrow (hit : s.hitAt a = some h) (hu : h.upper = false) (hb : h.r.bytes ≠ 8) (v : Nat) :
    s.write32 f a v = s.writeReg f h v false := by
  simp [State.write32, hit, hu, hb]

theorem write32_lower (hit : s.hitAt a = some h) (hu : h.upper = false) (hb : h.r.bytes = 8) (v : Nat) :
    s.write32 f a v = s.setHost fun x =>
      { x with held := x.held.filter (fun l => l.1 != f || l.2.1 != a) ++ [(f, a, BitVec.ofNat 32 v)] } := by
  simp [State.write32, hit, hu, hb]

theorem write32_upper_held {l : Nat × Nat × BitVec 32} (hit : s.hitAt a = some h) (hu : h.upper = true)
    (hl : (s.host.held.find? fun l => l.1 == f && l.2.1 == a - 4) = some l) (v : Nat) :
    s.write32 f a v = (s.setHost fun x => { x with held := x.held.filter fun l => l.1 != f || l.2.1 != a - 4 }).writeReg f h
      (l.2.2.toNat + v * two32) false := by
  simp [State.write32, hit, hu, hl]

theorem write32_upper_alone (hit : s.hitAt a = some h) (hu : h.upper = true)
    (hl : (s.host.held.find? fun l => l.1 == f && l.2.1 == a - 4) = none) (v : Nat) :
    s.write32 f a v = s.writeReg f h (v * two32) true := by
  simp [State.write32, hit, hu, hl]

end

end Sys2Proof.Machine

namespace Sys2Proof.Proofs.Registers
open Sys2Proof Sys2Proof.Machine

/-- Settles O1. -/
theorem stepRunsFrontCommand : Obligations.StepRunsFrontCommand := by
  refine ⟨fun _ _ => rfl, fun s h => ?_⟩
  unfold step
  split
  · rfl
  · next heq => simp [h] at heq

/-- Settles O2: `execUnlockWrite` by its three branches. -/
theorem expertUnlockByKey : Obligations.ExpertUnlockByKey := by
  intro s v hb
  have hexec : exec (.expertUnlockWrite 0 v) s = .next (execUnlockWrite 0 v s) := rfl
  refine ⟨fun hl hk => ?_, fun hl hk => ?_, fun hl => ?_⟩
  · rw [hexec, execUnlockWrite, if_neg (by simp [show s.sec.booted = true from hb, hl]), if_pos hk]
    exact congrArg _ (setFld_mod ..).symm
  · refine ⟨_, rfl, ?_⟩
    rw [execUnlockWrite, if_neg (by simp [show s.sec.booted = true from hb, hl]), if_neg hk]
    extract_lets u
    split
    · exact ⟨rfl, fld_setFld_ne u _ _ 1 0 0 0 0 (by decide), fun _ => fld_setFld_same u _ 1 0 0⟩
    · next h4 => exact ⟨rfl, rfl, fun h => absurd h h4⟩
  · simp [hexec, execUnlockWrite, hl]

/-- Settles O3, access code by access code. -/
theorem accessCodesActAsTabled : Obligations.AccessCodesActAsTabled := by
  intro f old v k hlo hold hk
  have hmask := wholeMask hlo
  have hx : (v / 2 ^ f.lo % 2 ^ f.width).testBit k = v.testBit (f.lo + k) := by
    rw [Nat.testBit_mod_two_pow, Nat.testBit_div_two_pow]
    simp [hk, Nat.add_comm]
  have hx' : v / 2 ^ f.lo % 2 ^ f.width < 2 ^ f.width := Nat.mod_lt _ (Nat.two_pow_pos _)
  unfold Fld.written
  refine ⟨fun h => ?_, fun h => ?_, fun h => ?_, fun h => ?_⟩
  · simp only [h, hmask, Nat.land_eq, Nat.and_two_pow_sub_one_eq_mod, Nat.mod_eq_of_lt hold, Nat.mod_eq_of_lt hx']
    simpa using hx
  · simp only [h, hmask]
    rw [testBit_sub_land, Nat.land_eq, Nat.and_two_pow_sub_one_eq_mod, Nat.mod_eq_of_lt hx', hx]
  · simp only [h, hmask]
    rw [Nat.lor_eq, Nat.land_eq, Nat.testBit_or, Nat.and_two_pow_sub_one_eq_mod, Nat.mod_eq_of_lt hx', hx]
  · rcases h with h | h | h <;> simp only [h]

/-- Settles O5: reads by `read32`, writes by `write32` and `writeReg_plain`, in the order of the statement. -/
theorem registerAccessesTakeEffect : Obligations.RegisterAccessesTakeEffect := by
  refine ⟨fun s f off a h hoff ha hit => ⟨fun hu hb => ?_, fun hu hl => ?_, fun hu hb => ?_, fun hb h8 => exec_regRead8 h8 ha hit hb⟩,
    fun s f off bytes ok => ⟨exec_regRead_bar2 ok, fun ha => ⟨exec_regRead_unmapped ok ha, fun v => exec_regWrite_unmapped ok ha⟩,
      fun a hb ha hit => ?_⟩,
    fun s f off a v h ha hit => ⟨fun hu hp hb hoff => ?_, fun hu hb hoff => ?_, fun _ hp hb h8 => ?_, fun hu hp hoff => ⟨fun l hl => ?_, fun hl => ?_⟩⟩⟩
  · refine ⟨by rw [exec_regRead4 hoff ha, read32_lower hit hu hb]; rfl, fun k hk hitk huk => ?_⟩
    have hl := latch_find? s f a (s.readReg h.r h.i h.c / two32)
    refine (exec_regRead4 (s := (s.latch f a _).emit _) (off := off + 4) (by omega) hk).trans ?_
    rw [read32_upper_latched (s := (s.latch f a _).emit _) hitk huk hl, BitVec.toNat_ofNat]
    rfl
  · rw [exec_regRead4 hoff ha, read32_upper_unlatched hit hu]
    simpa using hl
  · rw [exec_regRead4 hoff ha, read32_narrow hit hu hb]
  · subst hb
    have hoff : off % 4 = 0 := by simpa [accessOk] using ok
    exact ⟨by rw [exec_regRead4 hoff ha, read32_none hit]; rfl, fun v => by rw [exec_regWrite4 hoff ha, write32_none hit]⟩
  · rw [exec_regWrite4 hoff ha, write32_narrow hit hu (by omega), writeReg_plain hp]
    rfl
  · rw [exec_regWrite4 hoff ha, write32_lower hit hu hb]
  · rw [exec_regWrite8 h8 ha hit hb, writeReg_plain hp]
    rfl
  · rw [exec_regWrite4 hoff ha, write32_upper_held hit hu hl, writeReg_plain hp]
    rfl
  · rw [exec_regWrite4 hoff ha, write32_upper_alone hit hu hl, writeReg_plain hp]

end Sys2Proof.Proofs.Registers
end

section
/-! PROOFS. Chapter 3: the queue commands of the window, fetching, and completions with their messages (R85, R86, R89, R94, R97, R98, R111, R112,
R199, R360, R402). -/

namespace Sys2Proof.Machine

section
variable {s : State}

/-! ### The commands of the window -/

theorem qOp_of_busy {f code : Nat} {x : Ctx} (h : s.windowOf f x) (hb : s.fld F.CTXW_QSTAT_BUSY 0 x.r.ctx = 1) (op : Ctx → State) :
    s.qOp f x.r.ctx code op = s := by
  obtain ⟨hx, hf⟩ := h
  simp [State.qOp, State.ownsWindow, hx, hf, hb]

theorem qOp_of_down {f code : Nat} {x : Ctx} (h : s.windowOf f x) (hb : s.fld F.CTXW_QSTAT_BUSY 0 x.r.ctx = 0) (ha : s.asleep = false)
    (hd : x.st ≠ .up) (op : Ctx → State) : s.qOp f x.r.ctx code op = s.qResult x.r.ctx St.accessDenied := by
  obtain ⟨hx, hf⟩ := h
  simp [State.qOp, State.ownsWindow, hx, hf, hb, ha, hd]

theorem exec_create_of_failed {f r : Nat} {x : Ctx} (h : s.qReady f x) (hc : s.createCheck x (s.qsel x.r.ctx) = some r) :
    exec (.create f x.r.ctx) s = .next (s.qResult x.r.ctx r) := by
  change Host.Outcome.next (execCreateF f x.r.ctx s) = _
  rw [execCreateF, qOp_of_ready h]
  simp only [hc]

theorem exec_create_of_passed {f : Nat} {x : Ctx} (h : s.qReady f x) (hc : s.createCheck x (s.qsel x.r.ctx) = none) :
    exec (.create f x.r.ctx) s = .next ((s.createObj x.r.ctx (s.qsel x.r.ctx)).qResult x.r.ctx St.ok) := by
  change Host.Outcome.next (execCreateF f x.r.ctx s) = _
  rw [execCreateF, qOp_of_ready h]
  simp only [hc]

theorem selCheck_wq {x : Ctx} {q : QSel} (hk : q.kind = 0) (hg : x.r.groups.contains (q.id / 512) = true) : selCheck x q = none := by
  simp [selCheck, hk, List.contains_iff_mem.mp hg]

theorem qCheck_stop_wq {x : Ctx} {q : QSel} {w : Wq} (hk : q.kind = 0) (hg : x.r.groups.contains (q.id / 512) = true)
    (hw : s.wq? q.id = some w) (hd : w.st ≠ .draining) : s.qCheck x q false true = none := by
  simp [State.qCheck, selCheck_wq hk hg, State.objExists, hk, hw, hd]

theorem qCheck_resume_wq {x : Ctx} {q : QSel} {w : Wq} (hk : q.kind = 0) (hg : x.r.groups.contains (q.id / 512) = true)
    (hw : s.wq? q.id = some w) (hst : w.st = .stopped) : s.qCheck x q false false = none := by
  simp [State.qCheck, selCheck_wq hk hg, State.objExists, hk, hw, hst]

/-! ### Values written through the window -/

/-- Fields of the window with other places are other fields. -/
theorem fld_setFld_window {f g : Fld} (hf : f.win = true ∧ f.stride = 0) (hg : g.win = true ∧ g.stride = 0)
    (hne : f.addr * 64 + f.lo ≠ g.addr * 64 + g.lo) (v c : Nat) : (s.setFld f v 0 c).fld g 0 c = s.fld g 0 c := by
  refine fld_setFld_ne s f g v 0 c 0 c ?_
  simp only [Fld.key, Fld.at, hf, hg]
  omega

/-- Enabling the recompute ring with a valid size and base (Table 5.6, R199). -/
theorem rcpAttr_enables {c v : Nat} (h0 : s.fld F.CTXW_RCP_ATTR_ENABLE 0 c = 0) (h1 : v / 2 ^ 17 % 2 = 1)
    (hn : isPow2In (v % 2 ^ 17) 16 65536 = true) (hb : s.fld F.CTXW_RCP_BASE_ADDR 0 c * 16 % min (16 * (v % 2 ^ 17)) 4096 = 0)
    (ht : s.fld F.CTXW_RCP_BASE_ADDR 0 c * 16 + 16 * (v % 2 ^ 17) ≤ 2 ^ 64) :
    ∃ u : State, u.cmds = s.cmds ∧ u.att = s.att ∧ u.fxt = s.fxt ∧ s.rcpAttr c v =
      ((((u.setFld F.CTXW_RCP_ATTR_ENTRIES (v % 2 ^ 17) 0 c).setFld F.CTXW_RCP_ATTR_ENABLE 1 0 c).setFld F.CTXW_RCP_IDX_PI 0 0 c).setFld
        F.CTXW_RCP_IDX_CI 0 0 c) := by
  refine ⟨(s.setFld F.CTXW_RCP_ATTR_MODE (v / 2 ^ 18) 0 c).setFld F.CTXW_RCP_ATTR_LEASE_TIME (v / 2 ^ 32) 0 c, by simp, by simp, by simp, ?_⟩
  rw [State.rcpAttr, if_neg (by rw [h0]; decide), if_pos ⟨h1, hn, hb, ht⟩]

theorem exec_rcpAttrWrite {f : Nat} {x : Ctx} (h : s.windowOf f x) (v : Word64) : exec (.rcpAttrWrite f x.r.ctx v) s =
    .next ((s.dropHalves f (windowBase x.r.ctx + 0x408)).rcpAttr x.r.ctx v.toNat) := by
  change Host.Outcome.next (execRcpAttr f x.r.ctx v s) = _
  rw [execRcpAttr, if_pos (ownsWindow_of_windowOf h)]

theorem exec_trigValWrite {f : Nat} {x : Ctx} (h : s.windowOf f x) (v : Word32) : exec (.trigValWrite f x.r.ctx v) s =
    .next (if s.fld F.CTXW_TRIG_SEL_TRIG 0 x.r.ctx ≠ 0 ∧ s.trigOwned x.r.ctx (s.fld F.CTXW_TRIG_SEL_TRIG 0 x.r.ctx) = true then
      s.setTrig (s.fld F.CTXW_TRIG_SEL_TRIG 0 x.r.ctx) v.toNat else s) := by
  change Host.Outcome.next (execTrigVal f x.r.ctx v s) = _
  simp [execTrigVal, ownsWindow_of_windowOf h]

theorem trigVal_setTrig_same (s : State) (n v : Nat) : (s.setTrig n v).trigVal n = v % two32 := by
  simp [State.trigVal, State.setTrig]

theorem trigVal_setTrig_ne {m n : Nat} (h : m ≠ n) (v : Nat) : (s.setTrig n v).trigVal m = s.trigVal m := by
  simp [State.trigVal, State.setTrig, spGet_spSet_ne _ _ _ h]

/-! ### Admission and fetch -/

@[simp] theorem admitOne_cmds (s : State) (w : Wq) : (s.admitOne w).cmds = s.cmds ++ [newCmd w.q w.fi w.ctx s.qdb.admitted 0] := by
  unfold State.admitOne
  split <;> simp

@[simp] theorem admitOne_ctxs (s : State) (w : Wq) : (s.admitOne w).ctxs = s.ctxs := by
  unfold State.admitOne
  split <;> simp

@[simp] theorem admitOne_tier (s : State) (w : Wq) : (s.admitOne w).tier = s.tier := by
  unfold State.admitOne
  split <;> simp

@[simp] theorem admitOne_seq (s : State) (w : Wq) : (s.admitOne w).seq = s.seq := by
  unfold State.admitOne
  split <;> simp

theorem ctx?_of_ctxs {t : State} (h : t.ctxs = s.ctxs) (c : Nat) : t.ctx? c = s.ctx? c := by
  simp [State.ctx?, h]

theorem countOf_admitOne (s : State) (w : Wq) (c : Nat) : (s.admitOne w).countOf c = s.countOf c + if w.ctx = c then 1 else 0 := by
  simp only [State.countOf, admitOne_cmds, List.filter_append, List.length_append]
  split <;> simp [newCmd, *]

theorem ringReads_admitOne (s : State) (w : Wq) : (s.admitOne w).ringReads = s.ringReads + 1 := by
  simp [State.ringReads, List.filter_append, newCmd]

/-- An admissible queue's context is below its maximum in flight. -/
theorem countOf_lt_of_admissible {w : Wq} {x : Ctx} (h : s.admissible w = true) (hx : s.ctx? w.ctx = some x) :
    s.countOf w.ctx < x.r.maxC := by
  simp only [State.admissible, hx, Bool.and_eq_true, decide_eq_true_eq] at h
  exact h.2.1.2

theorem fetchTurn_countOf {c : Nat} {x : Ctx} (hx : s.ctx? c = some x) (q n : Nat) :
    (s.fetchTurn q n).countOf c ≤ max (s.countOf c) x.r.maxC := by
  induction n generalizing s with
  | zero => exact le_max_left ..
  | succ n ih =>
    unfold State.fetchTurn
    split
    · exact le_max_left ..
    · next w _ =>
      split
      · next hadm =>
        refine (ih ((ctx?_of_ctxs (admitOne_ctxs ..) c).trans hx)).trans ?_
        rw [countOf_admitOne]
        split
        · next hc =>
          subst hc
          have := countOf_lt_of_admissible hadm.1 hx
          omega
        · exact le_rfl
      · exact le_max_left ..

theorem fetchTurn_ringReads (s : State) (q n : Nat) : (s.fetchTurn q n).ringReads ≤ max s.ringReads 256 := by
  induction n generalizing s with
  | zero => exact le_max_left ..
  | succ n ih =>
    unfold State.fetchTurn
    split
    · exact le_max_left ..
    · next w _ =>
      split
      · next h =>
        have := ih (s.admitOne w)
        rw [ringReads_admitOne] at this
        omega
      · exact le_max_left ..

/-- A turn only adds commands. -/
theorem fetchTurn_cmds (s : State) (q n : Nat) : ∃ l, (s.fetchTurn q n).cmds = s.cmds ++ l := by
  induction n generalizing s with
  | zero => exact ⟨[], by simp [State.fetchTurn]⟩
  | succ n ih =>
    unfold State.fetchTurn
    split
    · exact ⟨[], by simp⟩
    · next w _ =>
      split
      · obtain ⟨l, hl⟩ := ih (s.admitOne w)
        exact ⟨_ :: l, by rw [hl, admitOne_cmds, List.append_assoc]; rfl⟩
      · exact ⟨[], by simp⟩

theorem fetchTurn_keeps (s : State) (q n : Nat) :
    (s.fetchTurn q n).ctxs = s.ctxs ∧ (s.fetchTurn q n).tier = s.tier ∧ (s.fetchTurn q n).seq = s.seq := by
  induction n generalizing s with
  | zero => exact ⟨rfl, rfl, rfl⟩
  | succ n ih =>
    unfold State.fetchTurn
    split
    · exact ⟨rfl, rfl, rfl⟩
    · next w _ =>
      split
      · simpa using ih (s.admitOne w)
      · exact ⟨rfl, rfl, rfl⟩

theorem roundRobin_nil (last : Nat) : roundRobin [] last = none := rfl

theorem roundRobin_singleton (x last : Nat) : roundRobin [x] last = some x := by
  unfold roundRobin
  by_cases h : last < x <;> simp [h]

/-- The state in which the turn of context `c`'s queue `q` begins: the turn, and the queue-context cache (R113), are noted. -/
def State.turnOf (s : State) (c q : Nat) : State :=
  State.touchCache { s with qdb := { s.qdb with rrCtx := c, rrQ := spSet 0 s.qdb.rrQ c q } } q

theorem touchCache_fld (s : State) (q : Nat) {g : Fld} (hh : g.key 0 0 ≠ F.QDB_QCACHE_STAT_HITS.key 0 0)
    (hm : g.key 0 0 ≠ F.QDB_QCACHE_STAT_MISSES.key 0 0) : (s.touchCache q).fld g = s.fld g := by
  unfold State.touchCache
  extract_lets hit _ u
  cases hit
  · exact fld_setFld_ne u _ g _ 0 0 0 0 hm
  · exact fld_setFld_ne u _ g _ 0 0 0 0 hh

theorem turnOf_ringReads (s : State) (c q : Nat) : (s.turnOf c q).ringReads = s.ringReads := rfl

theorem turnOf_countOf (s : State) (c q d : Nat) : (s.turnOf c q).countOf d = s.countOf d := rfl

/-- The counters of the queue-context cache are no part of what makes a queue admissible. -/
theorem turnOf_admissible (s : State) (c q : Nat) (w : Wq) : (s.turnOf c q).admissible w = s.admissible w := by
  have hst : (s.turnOf c q).fld F.GLB_PM_STAT_STATE = s.fld F.GLB_PM_STAT_STATE :=
    touchCache_fld _ q (by decide) (by decide)
  have hf : (s.turnOf c q).fetching = s.fetching := by
    unfold State.fetching
    rw [hst]
    rfl
  unfold State.admissible
  rw [hf]
  rfl

theorem burst_pos (s : State) : 0 < s.burst := by
  unfold State.burst
  simp only
  split <;> omega

/-- DESCRIPTOR_FETCH gives one admissible queue its turn, or there is none. -/
theorem execFetch_cases (s : State) : execFetch s = s ∨
    (s.ringReads < 256 ∧ ∃ c q, execFetch s = (s.turnOf c q).fetchTurn q s.burst) := by
  unfold execFetch
  extract_lets adm
  split
  · exact .inl rfl
  · next c hc =>
    split
    · exact .inl rfl
    · next q _ =>
      refine .inr ⟨?_, c, q, rfl⟩
      by_contra h
      simp [adm, h, roundRobin_nil] at hc

theorem execFetch_none (h : s.qdb.wqs.filter s.admissible = []) : execFetch s = s := by
  simp [execFetch, h, roundRobin_nil]

theorem execFetch_single {w : Wq} (hr : s.ringReads < 256) (h : s.qdb.wqs.filter s.admissible = [w]) :
    execFetch s = (s.turnOf w.ctx w.q).fetchTurn w.q s.burst := by
  simp only [execFetch, hr, if_true, h, List.map_cons, List.map_nil, roundRobin_singleton, List.filter_cons, beq_self_eq_true, List.filter_nil]
  rfl

/-- The first descriptor of an admissible queue's turn is taken. -/
theorem fetchTurn_takes {w : Wq} {n : Nat} (hn : 0 < n) (hw : s.wq? w.q = some w) (ha : s.admissible w = true)
    (hr : s.ringReads < 256) : ∃ l, (s.fetchTurn w.q n).cmds = s.cmds ++ newCmd w.q w.fi w.ctx s.qdb.admitted 0 :: l := by
  obtain ⟨n, rfl⟩ := Nat.exists_eq_succ_of_ne_zero hn.ne'
  obtain ⟨l, hl⟩ := fetchTurn_cmds (s.admitOne w) w.q n
  refine ⟨l, ?_⟩
  simp [State.fetchTurn, hw, ha, hr, hl]

/-! ### Completions -/

/-- The state without what a record or a message to the host touches: registers, the host interface, the queues, the statistics of the contexts
and the energy they are charged. -/
def State.kept (s : State) : State :=
  { s with regs := [], host := HostIf.reset, qdb := Qdb.reset, pwr := Pwr.reset 0, ctxs := s.ctxs.map fun x => { x with stats := {} } }

@[simp] theorem setStats_kept (s : State) (c : Nat) (f : Stats → Stats) : (s.setStats c f).kept = s.kept := by
  have h : (s.setStats c f).ctxs.map (fun x => { x with stats := {} }) = s.ctxs.map fun x => { x with stats := {} } := by
    simp only [State.setStats, State.setCtx, updIf, List.map_map]
    apply List.map_congr_left
    intro x _
    simp only [Function.comp]
    split <;> rfl
  unfold State.kept
  rw [h]
  rfl

@[simp] theorem emit_kept (s : State) (o : Out) : (s.emit o).kept = s.kept := rfl

@[simp] theorem setWq_kept (s : State) (q : Nat) (f : Wq → Wq) : (s.setWq q f).kept = s.kept := rfl

@[simp] theorem setCq_kept (s : State) (i : Nat) (f : Cq → Cq) : (s.setCq i f).kept = s.kept := rfl

@[simp] theorem setEq_kept (s : State) (c : Nat) (f : Eq → Eq) : (s.setEq c f).kept = s.kept := rfl

@[simp] theorem dropEvent_kept (s : State) (c : Nat) : (s.dropEvent c).kept = s.kept := rfl

@[simp] theorem addEnergy_kept (s : State) (c fj : Nat) : (s.addEnergy c fj).kept = s.kept := by
  unfold State.addEnergy
  split
  · rfl
  · exact Eq.trans rfl (setStats_kept s c fun y => { y with energy := y.energy + fj })

@[simp] theorem activity_kept (s : State) (c kind rail n : Nat) : (s.activity c kind rail n).kept = s.kept :=
  addEnergy_kept s c _

@[simp] theorem chargeHost_kept (s : State) (c n : Nat) : (s.chargeHost c n).kept = s.kept :=
  (activity_kept ..).trans (setStats_kept ..)

@[simp] theorem cqMsix_kept (s : State) (i : Nat) : (s.cqMsix i).kept = s.kept := by
  obtain h | ⟨o, h⟩ := cqMsix_cases s i <;> simp [h]

@[simp] theorem eqMsix_kept (s : State) (c : Nat) : (s.eqMsix c).kept = s.kept := by
  obtain h | ⟨o, h⟩ := eqMsix_cases s c <;> simp [h]

@[simp] theorem postEvent_kept (s : State) (c typ obj : Nat) (l : List Byte) : (s.postEvent c typ obj l).kept = s.kept := by
  unfold State.postEvent
  split
  · rfl
  · extract_lets f a
    split
    · simp
    · split <;> simp

@[simp] theorem stopNaming_kept (s : State) (i : Nat) (l : List Wq) : (s.stopNaming i l).kept = s.kept := by
  induction l generalizing s with
  | nil => rfl
  | cons w t ih =>
    unfold State.stopNaming
    split <;> simp [ih]

@[simp] theorem writeRecord_kept (s : State) (k : Cmd) (st : Nat) (r : Fin) : (s.writeRecord k st r).kept = s.kept := by
  unfold State.writeRecord
  split
  · rfl
  · split
    · rfl
    · extract_lets f a
      split <;> simp

@[simp] theorem retireCmd_kept (s : State) (k : Cmd) :
    (s.retireCmd k).kept = State.kept { s with cmds := s.cmds.filter fun x => x.id ≠ k.id } := setStats_kept ..

/-- Beside its record, a completion takes its command out of the table. -/
theorem complete_kept {k : Cmd} (hk : s.cmd? k.id = some k) (st : Nat) (r : Fin) :
    (s.complete k.id st r).kept = State.kept { s with cmds := s.cmds.filter fun x => x.id ≠ k.id } := by
  simp only [State.complete, hk]
  split <;> simp

theorem complete_cmds {k : Cmd} (hk : s.cmd? k.id = some k) (st : Nat) (r : Fin) :
    (s.complete k.id st r).cmds = s.cmds.filter fun x => x.id ≠ k.id := congrArg State.cmds (complete_kept hk st r)

/-- How the contexts stand, their statistics apart. -/
def State.standing (s : State) : List Ctx := s.ctxs.map fun x => { x with stats := {} }

theorem standing_of_kept {t : State} (h : t.kept = s.kept) : t.standing = s.standing := congrArg State.ctxs h

@[simp] theorem setCmd_standing (s : State) (c : CmdId) (f : Cmd → Cmd) : (s.setCmd c f).standing = s.standing := rfl

@[simp] theorem chargeHost_standing (s : State) (c n : Nat) : (s.chargeHost c n).standing = s.standing :=
  standing_of_kept (chargeHost_kept ..)

@[simp] theorem postEvent_standing (s : State) (c typ obj : Nat) (l : List Byte) : (s.postEvent c typ obj l).standing = s.standing :=
  standing_of_kept (postEvent_kept ..)

@[simp] theorem chargeHost_dead (s : State) (c n : Nat) : (s.chargeHost c n).dead = s.dead :=
  (congrArg State.dead (chargeHost_kept s c n) :)

theorem ctx?_of_standing {t : State} (h : t.standing = s.standing) (c : Nat) :
    (t.ctx? c).map (fun x => { x with stats := {} }) = (s.ctx? c).map fun x => { x with stats := {} } := by
  have hq : ∀ u : State, (u.ctx? c).map (fun x => { x with stats := {} }) = u.standing.find? fun x => x.r.ctx == c := by
    intro u
    rw [State.standing, List.find?_map]
    rfl
  rw [hq, hq, h]

theorem tearing_of_standing {t : State} (h : t.standing = s.standing) (c : Nat) : t.tearing c = s.tearing c := by
  have hx := congrArg (Option.any fun x => x.st == .tearing) (ctx?_of_standing h c)
  rw [Option.any_map, Option.any_map] at hx
  exact hx

@[simp] theorem complete_standing (s : State) (c : CmdId) (st : Nat) (r : Fin) : (s.complete c st r).standing = s.standing := by
  unfold State.complete
  split
  · rfl
  · next k _ =>
    have hk : (s.retireCmd k).standing = s.standing := congrArg State.ctxs (retireCmd_kept s k)
    extract_lets t
    split
    · exact hk
    · exact (standing_of_kept (writeRecord_kept ..)).trans hk

@[simp] theorem complete_dead (s : State) (c : CmdId) (st : Nat) (r : Fin) : (s.complete c st r).dead = s.dead := by
  unfold State.complete
  split
  · rfl
  · next k _ =>
    extract_lets t
    split
    · rfl
    · exact (congrArg State.dead (writeRecord_kept t k st r) :)

theorem complete_suppressed {k : Cmd} (hk : s.cmd? k.id = some k) (hs : dSuppress k.desc = true) {st : Nat}
    (hst : st = St.ok ∨ st = St.okEmpty) (r : Fin) : s.complete k.id st r = s.retireCmd k := by
  simp [State.complete, hk, hs, hst]

theorem find?_filter_ne_same {α β : Type} [DecidableEq β] (l : List α) (g : α → β) (a : β) :
    (l.filter fun x => g x ≠ a).find? (fun x => g x == a) = none := by
  simp

theorem find?_filter_ne_other {α β : Type} [DecidableEq β] (l : List α) (g : α → β) {a b : β} (h : b ≠ a) :
    (l.filter fun x => g x ≠ a).find? (fun x => g x == b) = l.find? fun x => g x == b := by
  rw [List.find?_filter]
  congr 1
  funext x
  grind

/-! ### Messages -/

theorem announces_of {count time pend first : Nat}
    (h : max 1 count ≤ pend ∨ (1 ≤ pend ∧ first + time * cyclesPerUs ≤ s.cycles)) : s.announces count time pend first = true := by
  simpa [State.announces] using h

/-- When TIME has passed since the first pending record, the message goes (R98). -/
theorem reach_announces {count time pend first : Nat} (h : 1 ≤ pend) :
    (s.reach (first + time * cyclesPerUs)).announces count time pend first = true :=
  announces_of (.inr ⟨h, le_max_right ..⟩)

theorem cqMsix_of_disarmed {i : Nat} {z : Cq} (hz : s.cq? i = some z) (ha : z.arm = false) : s.cqMsix i = s := by
  simp [State.cqMsix, hz, ha]

theorem cqMsix_of_announced {i : Nat} {z : Cq} (hz : s.cq? i = some z) (ha : z.arm = true)
    (hn : s.announces z.count z.time z.pend z.first = true) :
    s.cqMsix i = (s.setCq i fun y => { y with arm := false, pend := 0 }).emit (.msix (s.funcOf (i / 64)) z.vector) := by
  simp [State.cqMsix, hz, ha, hn]

theorem eqMsix_of_announced {c : Nat} {z : Eq} (hz : s.eq? c = some z) (ha : z.arm = true)
    (hn : s.announces z.count z.time z.pend z.first = true) :
    s.eqMsix c = (s.setEq c fun y => { y with arm := false, pend := 0 }).emit (.msix (s.funcOf c) z.vector) := by
  simp [State.eqMsix, hz, ha, hn]

theorem exec_hold_cq {c n : Nat} {z : Cq} (hz : s.cq? (c * 64 + n) = some z) : exec (.msixHoldExpire c false n) s =
    .next (if 1 ≤ z.pend then (s.reach (z.first + z.time * cyclesPerUs)).cqMsix (c * 64 + n) else s) := by
  change Host.Outcome.next (execHold c false n s) = _
  simp [execHold, hz]

theorem exec_hold_eq {c n : Nat} {z : Eq} (hz : s.eq? c = some z) : exec (.msixHoldExpire c true n) s =
    .next (if 1 ≤ z.pend then (s.reach (z.first + z.time * cyclesPerUs)).eqMsix c else s) := by
  change Host.Outcome.next (execHold c true n s) = _
  simp [execHold, hz]

end

end Sys2Proof.Machine

namespace Sys2Proof.Proofs.Windows
open Sys2Proof Sys2Proof.Machine

/-- Settles O7. -/
theorem createMakesTheObject : Obligations.CreateMakesTheObject := by
  refine ⟨fun s f x h => ⟨fun r hr => exec_create_of_failed h hr, fun hc => ⟨fun hk => ?_, fun hk => ?_, fun hk => ?_⟩⟩,
    fun s f x h hb ha hd => ?_, fun s f x h hb => ?_, fun s c r => fld_setFld_same ..⟩
  · rw [exec_create_of_passed h hc, State.createObj, if_pos hk]
  · rw [exec_create_of_passed h hc, State.createObj, if_neg (by omega), if_pos hk]
  · rw [exec_create_of_passed h hc, State.createObj, if_neg (by omega), if_neg (by omega)]
  · exact congrArg Host.Outcome.next (qOp_of_down h hb ha hd _)
  · exact congrArg Host.Outcome.next (qOp_of_busy h hb _)

/-- Settles O8. -/
theorem stopResumeQuery : Obligations.StopResumeQuery := by
  intro s f x w h c q hk hg hw
  refine ⟨fun hd => ?_, fun hst => ?_, ?_⟩
  · change Host.Outcome.next (execStopF f x.r.ctx s) = _
    rw [execStopF, qOp_of_ready h, qCheck_stop_wq hk hg hw hd]
  · change Host.Outcome.next (execResumeF f x.r.ctx s) = _
    rw [execResumeF, qOp_of_ready h, qCheck_resume_wq hk hg hw hst]
  · change Host.Outcome.next (execQueryF f x.r.ctx s) = _
    have hs : selCheck x (s.qsel x.r.ctx) = none := selCheck_wq hk hg
    have hk' : (s.qsel x.r.ctx).kind = 0 := hk
    have hw' : s.wq? (s.qsel x.r.ctx).id = some w := hw
    rw [execQueryF, qOp_of_ready h]
    simp only [hs, hk', if_true, hw']
    rfl

/-- Settles O11. -/
theorem windowValueWrites : Obligations.WindowValueWrites := by
  intro s f x h
  refine ⟨fun v h0 h1 hn hb ht => ?_, fun v => ⟨fun h0 ho => ?_, fun hno => ?_⟩⟩
  · obtain ⟨u, hcmds, hatt, hfxt, hu⟩ := rcpAttr_enables (s := s.dropHalves f (windowBase x.r.ctx + 0x408)) h0 h1 hn hb ht
    refine ⟨_, (exec_rcpAttrWrite h v).trans (congrArg _ hu), ?_, ?_, ?_, ?_, hcmds, hatt, hfxt⟩
    · rw [fld_setFld_window (by decide) (by decide) (by decide), fld_setFld_window (by decide) (by decide) (by decide), fld_setFld_same]
      rfl
    · rw [fld_setFld_window (by decide) (by decide) (by decide), fld_setFld_window (by decide) (by decide) (by decide),
        fld_setFld_window (by decide) (by decide) (by decide), fld_setFld_same]
      exact Nat.mod_mod ..
    · rw [fld_setFld_window (by decide) (by decide) (by decide), fld_setFld_same]
      rfl
    · rw [fld_setFld_same]
      rfl
  · refine ⟨_, (exec_trigValWrite h v).trans (congrArg _ (if_pos ⟨h0, ho⟩)), ?_, fun m hm => trigVal_setTrig_ne hm _, rfl, rfl, rfl⟩
    exact (trigVal_setTrig_same ..).trans (Nat.mod_eq_of_lt v.isLt)
  · refine (exec_trigValWrite h v).trans (congrArg _ (if_neg ?_))
    rintro ⟨h0, ho⟩
    rcases hno with hz | hz
    · exact h0 hz
    · simp [hz] at ho

/-- Settles O12: each descriptor is taken only while its context is below its maximum and fewer than 256 ring reads are out. -/
theorem fetchKeepsTheMaximum : Obligations.FetchKeepsTheMaximum := by
  intro s
  refine ⟨execFetch s, rfl, fun c x hx => ?_, ?_, fun h => ?_, fun w hr hw hq => ?_, execFetch_none, ?_⟩
  · obtain h | ⟨-, d, q, h⟩ := execFetch_cases s <;> rw [h]
    · exact le_max_left ..
    · exact fetchTurn_countOf (s := s.turnOf d q) hx q _
  · obtain h | ⟨-, d, q, h⟩ := execFetch_cases s <;> rw [h]
    · exact le_max_left ..
    · exact fetchTurn_ringReads (s.turnOf d q) q _
  · obtain hs | ⟨hr, -⟩ := execFetch_cases s
    · exact hs
    · omega
  · rw [execFetch_single hr hw]
    have ha : s.admissible w = true := (List.mem_filter.mp (hw ▸ List.mem_singleton_self w)).2
    exact fetchTurn_takes (s := s.turnOf w.ctx w.q) (burst_pos s) hq ((turnOf_admissible ..).trans ha) hr
  · obtain h | ⟨-, d, q, h⟩ := execFetch_cases s <;> rw [h]
    · exact ⟨rfl, rfl, rfl⟩
    · exact fetchTurn_keeps (s.turnOf d q) q _

/-- Settles O16. -/
theorem completionsAndMessages : Obligations.CompletionsAndMessages := by
  refine ⟨fun s k st r hk => ?_, fun s c n z hz => ?_, fun s c n z hz ha hp => ?_⟩
  · have hst := complete_kept hk st r
    refine ⟨?_, fun c hc => ?_, fun hs hok => ?_, (congrArg State.seq hst :), (congrArg State.tier hst :),
      (congrArg State.fxt hst :)⟩
    · rw [State.cmd?, complete_cmds hk]
      exact find?_filter_ne_same ..
    · rw [State.cmd?, complete_cmds hk]
      exact find?_filter_ne_other _ _ hc
    · rw [complete_suppressed hk hs hok]
      rfl
  · refine ⟨fun ha => ⟨cqMsix_of_disarmed hz ha, fun hp => ?_, fun hp => ?_⟩, fun ha hn => cqMsix_of_announced hz ha (announces_of hn),
      fun ha hp hn => ?_⟩
    · rw [exec_hold_cq hz, if_neg (by omega)]
    · rw [exec_hold_cq hz, if_pos hp, cqMsix_of_disarmed (s := s.reach (z.first + z.time * cyclesPerUs)) hz ha]
    · have hm := cqMsix_of_announced (s := s.reach (z.first + z.time * cyclesPerUs)) hz ha (reach_announces hp)
      have hy := cq?_setCq_same (s := s.reach (z.first + z.time * cyclesPerUs)) (f := fun y => { y with arm := false, pend := 0 }) hz rfl
      have he := (exec_hold_cq hz).trans (congrArg Host.Outcome.next ((if_pos hp).trans hm))
      refine ⟨_, _, he, hy, rfl, rfl, rfl, rfl, ?_, le_max_left .., le_max_right ..⟩
      rw [show (c * 64 + n) / 64 = c by omega]
      rfl
  · have hm := eqMsix_of_announced (s := s.reach (z.first + z.time * cyclesPerUs)) hz ha (reach_announces hp)
    have hy := eq?_setEq_same (s := s.reach (z.first + z.time * cyclesPerUs)) (f := fun y => { y with arm := false, pend := 0 }) hz rfl
    have he := (exec_hold_eq (n := n) hz).trans (congrArg Host.Outcome.next ((if_pos hp).trans hm))
    exact ⟨_, _, he, hy, rfl, rfl, rfl, rfl, rfl, le_max_left .., le_max_right ..⟩

end Sys2Proof.Proofs.Windows
end

section
/-! PROOFS. Chapter 3: ring reads and host reads (R87, R90, R101, R104, R105, R117). -/

namespace Sys2Proof.Machine

section
variable {s : State} {k : Cmd} {w : Wq}

/-! ### What charging and posting leave of the queues -/

@[simp] theorem addEnergy_qdb (s : State) (c fj : Nat) : (s.addEnergy c fj).qdb = s.qdb := by
  unfold State.addEnergy
  split <;> simp

@[simp] theorem chargeHost_qdb (s : State) (c n : Nat) : (s.chargeHost c n).qdb = s.qdb := addEnergy_qdb (s.setStats c _) c _

@[simp] theorem postEvent_wqs (s : State) (c typ obj : Nat) (l : List Byte) : (s.postEvent c typ obj l).qdb.wqs = s.qdb.wqs := by
  unfold State.postEvent
  split
  · rfl
  · extract_lets f a
    split
    · rfl
    · split
      · rfl
      · simp [State.setEq]

/-! ### A ring read returns -/

/-- Where nothing waits for the ring read, its return is all that happens. -/
theorem ringOver_of_calm (hd : s.dead = false) (ht : s.tearing k.ctx = false) : s.ringOver k = s := by
  simp [State.ringOver, hd, ht]

/-- A command whose slot does not end on arrival is of a context that stands, and no device-level error is in force. -/
theorem calm_of_endsOnArrival (h : s.endsOnArrival k = none) : s.dead = false ∧ s.tearing k.ctx = false := by
  unfold State.endsOnArrival at h
  split at h
  · cases h
  · next hd =>
    refine ⟨by simpa using hd, ?_⟩
    split at h
    · cases h
    · next hx =>
      cases hc : s.ctx? k.ctx with
      | none => simp [State.tearing, hc]
      | some x =>
        rw [hc, Option.filter_eq_none_iff] at hx
        have hup : x.st = .up := by simpa using hx x rfl
        simp [State.tearing, hc, hup]

theorem exec_ring_of_slot (hk : s.cmd? k.id = some k) (hw : s.wq? k.id.q = some w) (hf : k.st = .fetching) (hr : w.region = false)
    (hb : s.ringBehind k = false) (r : HostRead) : exec (.ringReadComplete k.id r) s =
      .next (State.ringOver (k := k) (match r with
        | .data b => s.slotData k w b
        | _ => s.ringFail k St.accessDenied)) := by
  change Host.Outcome.next (execRing k.id r s) = _
  simp only [execRing, hk, hw, hf, hb, hr]
  rfl

theorem exec_ring_behind (hk : s.cmd? k.id = some k) (hw : s.wq? k.id.q = some w) (hb : s.ringBehind k = true) (r : HostRead) :
    exec (.ringReadComplete k.id r) s = .next s := by
  change Host.Outcome.next (execRing k.id r s) = _
  simp [execRing, hk, hw, hb]

theorem exec_ringTimeout (hk : s.cmd? k.id = some k) (hw : s.wq? k.id.q = some w) (hf : k.st = .fetching) (hr : w.region = false)
    (hb : s.ringBehind k = false) : exec (.ringReadTimeout k.id) s = .next ((s.ringFail k St.timeout).ringOver k) := by
  change Host.Outcome.next (execRingLate k.id s) = _
  simp [execRingLate, hk, hw, hf, hb, hr]

/-- The state in which a slot's descriptor has arrived and been charged. -/
def State.slotIn (s : State) (k : Cmd) (d : Word512) : State :=
  (s.chargeHost k.ctx 64).setCmd k.id fun x => { x with desc := d }

@[simp] theorem slotIn_dead (s : State) (k : Cmd) (d : Word512) : (s.slotIn k d).dead = s.dead :=
  chargeHost_dead s k.ctx 64

@[simp] theorem slotIn_standing (s : State) (k : Cmd) (d : Word512) : (s.slotIn k d).standing = s.standing :=
  chargeHost_standing s k.ctx 64

theorem endsOnArrival_congr {t : State} (hd : t.dead = s.dead) (hc : t.standing = s.standing) (hw : t.wq? k.id.q = s.wq? k.id.q) :
    t.endsOnArrival k = s.endsOnArrival k := by
  have hx := ctx?_of_standing hc k.ctx
  unfold State.endsOnArrival
  rw [hd, hw]
  cases ht : t.ctx? k.ctx with
  | none =>
    cases hs : s.ctx? k.ctx with
    | none => rfl
    | some y => simp [ht, hs] at hx
  | some x =>
    cases hs : s.ctx? k.ctx with
    | none => simp [ht, hs] at hx
    | some y =>
      rw [ht, hs, Option.map_some, Option.map_some, Option.some_inj] at hx
      have hst : x.st = y.st := (congrArg Ctx.st hx :)
      have hcause : x.cause = y.cause := (congrArg Ctx.cause hx :)
      cases hup : y.st != .up <;> simp [Option.filter, hst, hcause, hup]

theorem slotIn_endsOnArrival (s : State) (k : Cmd) (d : Word512) : (s.slotIn k d).endsOnArrival k = s.endsOnArrival k :=
  endsOnArrival_congr (slotIn_dead ..) (slotIn_standing ..) (by simp [State.wq?, State.slotIn])

/-- An unarmed slot's data: the descriptor ends, or goes on (R101). -/
theorem slotData_unarmed (ha : k.armed = none) (hr : w.region = false) (b : List Byte)
    (hop : dOp (BitVec.ofNat 512 (leNat (bytesAt b 0 64))) ≠ Op.wrArm) : s.slotData k w b =
      match s.endsOnArrival k with
      | some st => (s.slotIn k (BitVec.ofNat 512 (leNat (bytesAt b 0 64)))).complete k.id st
      | none => (s.slotIn k (BitVec.ofNat 512 (leNat (bytesAt b 0 64)))).arrived { k with desc := BitVec.ofNat 512 (leNat (bytesAt b 0 64)) } := by
  rw [← slotIn_endsOnArrival s k (BitVec.ofNat 512 (leNat (bytesAt b 0 64)))]
  simp only [State.slotData, hr, ha, if_neg hop]
  rfl

/-! ### A ring read that fails -/

theorem wq?_setWq_same {q : Nat} {f : Wq → Wq} (h : s.wq? q = some w) (hf : (f w).q = w.q) : (s.setWq q f).wq? q = some (f w) :=
  find?_updIf_same h (by have := List.find?_some h; simpa [hf] using this)

/-- The queue stops at the failed slot; only slots still being fetched leave. -/
theorem ringFail_stops (hw : s.wq? k.id.q = some w) (he : w.st = .enabled) (reason : Nat) :
    (s.ringFail k reason).wq? k.id.q = some { w with fi := k.id.idx, st := .stopped } ∧
    (s.ringFail k reason).cmds =
      s.cmds.filter (fun x => !(x.id.q == k.id.q && x.st == CmdSt.fetching && decide (k.adm ≤ x.adm))) ∧
    (s.ringFail k reason).dead = s.dead ∧ (s.ringFail k reason).standing = s.standing := by
  unfold State.ringFail
  extract_lets u
  have hu : u.wq? k.id.q = some w := hw
  have h1 := wq?_setWq_same (f := fun x => { x with fi := k.id.idx }) hu rfl
  have h2 := wq?_setWq_same (f := fun x => { x with st := .stopped }) h1 rfl
  rw [stopQueue_of_enabled h1 he]
  have hkept := postEvent_kept ((u.setWq k.id.q fun x => { x with fi := k.id.idx }).setWq k.id.q fun x => { x with st := .stopped })
    w.ctx Ev.queueStopped k.id.q (leBytes 1 reason)
  exact ⟨by rw [State.wq?, postEvent_wqs]; exact h2, (congrArg State.cmds hkept :), (congrArg State.dead hkept :), postEvent_standing ..⟩

/-! ### Reads of host memory -/

theorem exec_hostRead_data (hk : s.cmd? k.id = some k) (ho : k.owed ≠ 0) (b : List Byte) : exec (.hostReadComplete k.id (.data b)) s =
    .next (s.traced ((s.setCmd k.id fun x => { x with reads := x.reads ++ [b], owed := x.owed - 1 }).cmdHost k.id k.ctx b.length)) := by
  change Host.Outcome.next (s.traced (execHostRead k.id (.data b) s)) = _
  simp [execHostRead, hk, ho]

theorem exec_hostTimeout (hk : s.cmd? k.id = some k) (ho : k.owed ≠ 0) : exec (.hostAccessTimeout k.id) s =
    .next (s.traced (s.hostFail k St.timeout)) := by
  change Host.Outcome.next (s.traced (execHostLate k.id s)) = _
  simp [execHostLate, hk, ho]

theorem hostFail_plain (ha : k.armed = none) (hop : dOp k.desc ≠ Op.blankMount) (status : Nat) :
    s.hostFail k status = (s.finish k.id status).prune := by
  simp [State.hostFail, ha, hop]

end

end Sys2Proof.Machine

namespace Sys2Proof.Proofs.Reads
open Sys2Proof Sys2Proof.Machine

/-- Settles O13: the arrival of a slot by `slotData_unarmed`, and its failure by `ringFail_stops`. -/
theorem ringReads : Obligations.RingReads := by
  refine ⟨fun s k w b hk hw hf ha hr => ⟨fun hb => exec_ring_behind hk hw hb _, fun hb he hop hl hc => ?_, fun st hb he hop hc => ?_,
    fun st hb he hop => ?_⟩, fun s k w hk hw hf hr hst hb hd ht i hi => ?_⟩
  · obtain ⟨hd, ht⟩ := calm_of_endsOnArrival he
    rw [exec_ring_of_slot hk hw hf hr hb]
    simp only [slotData_unarmed ha hr b hop, he]
    rw [State.arrived, show State.fetchCheck (s.slotIn k _) _ = none from hc]
    simp only [State.readList, hl]
    refine congrArg _ (ringOver_of_calm ?_ ?_)
    · exact (slotIn_dead s k (BitVec.ofNat 512 (leNat (bytesAt b 0 64)))).trans hd
    · exact (tearing_of_standing (slotIn_standing s k (BitVec.ofNat 512 (leNat (bytesAt b 0 64)))) k.ctx).trans ht
  · obtain ⟨hd, ht⟩ := calm_of_endsOnArrival he
    rw [exec_ring_of_slot hk hw hf hr hb]
    simp only [slotData_unarmed ha hr b hop, he]
    rw [State.arrived, show State.fetchCheck (s.slotIn k _) _ = some st from hc]
    exact congrArg _ (ringOver_of_calm (by simp [hd]) ((tearing_of_standing (by simp) _).trans ht))
  · rw [exec_ring_of_slot hk hw hf hr hb]
    simp only [slotData_unarmed ha hr b hop, he]
    rfl
  · obtain ⟨reason, hexec⟩ : ∃ reason, exec i s = .next ((s.ringFail k reason).ringOver k) := by
      rcases hi with rfl | rfl | rfl | rfl
      · exact ⟨_, exec_ringTimeout hk hw hf hr hb⟩
      · exact ⟨_, exec_ring_of_slot hk hw hf hr hb _⟩
      · exact ⟨_, exec_ring_of_slot hk hw hf hr hb _⟩
      · exact ⟨_, exec_ring_of_slot hk hw hf hr hb _⟩
    obtain ⟨hwq, hcmds, hdead, hctxs⟩ := ringFail_stops (k := k) hw hst reason
    rw [ringOver_of_calm (hdead.trans hd) ((tearing_of_standing hctxs _).trans ht)] at hexec
    refine ⟨_, _, hexec, hwq, rfl, rfl, rfl, fun x hx hn => ?_, fun x hx => ?_⟩
    · rw [hcmds]
      exact List.mem_filter.mpr ⟨hx, by simp [hn]⟩
    · rw [hcmds] at hx
      exact (List.mem_filter.mp hx).1

/-- Settles O14. -/
theorem hostReadsOfACommand : Obligations.HostReadsOfACommand := by
  refine fun s k hk ho => ⟨exec_hostRead_data hk ho, fun ha hop => ?_⟩
  rw [exec_hostTimeout hk ho, hostFail_plain ha hop]

end Sys2Proof.Proofs.Reads
end

section
/-! PROOFS. Chapter 2: commands that start, and sequences that are opened, closed, restored and forked (R38 to R41, R64, R68 to R70). -/

namespace Sys2Proof.Machine

section
variable {s : State} {k : Cmd} {op : Nat}

/-- Two rows that give one state give one outcome. -/
theorem next_traced {a b : State} (h : a = b) :
    (Host.Outcome.next (s.traced a) : Host.Outcome State Fault Refusal) = .next (s.traced b) := h ▸ rfl

/-! ### A command that starts, and one that goes on -/

@[simp] theorem addEnergy_regs (s : State) (c fj : Nat) : (s.addEnergy c fj).regs = s.regs := by
  unfold State.addEnergy
  split <;> simp

/-- Starting a command charges CC cycles and leaves the registers alone. -/
@[simp] theorem started_regs (s : State) (k : Cmd) : (s.started k).regs = s.regs := addEnergy_regs ..

@[simp] theorem started_level (s : State) (k : Cmd) : (s.started k).level = s.level :=
  congrArg (fun r => spGet _ r _) (started_regs s k)

@[simp] theorem startedCmd_id (s : State) (k : Cmd) : (s.startedCmd k).id = k.id := rfl

@[simp] theorem startedCmd_ctx (s : State) (k : Cmd) : (s.startedCmd k).ctx = k.ctx := rfl

@[simp] theorem startedCmd_desc (s : State) (k : Cmd) : (s.startedCmd k).desc = k.desc := rfl

@[simp] theorem startedCmd_mark (s : State) (k : Cmd) : (s.startedCmd k).mark = k.mark := rfl

@[simp] theorem startedCmd_reads (s : State) (k : Cmd) : (s.startedCmd k).reads = k.reads := rfl

@[simp] theorem started_startedCmd (s : State) (k : Cmd) : (s.started k).startedCmd k = s.startedCmd k := by
  simp [State.startedCmd]

/-- A command that begins and passes its checks acts in the state in which it has started. -/
theorem runCmd_begins (h : s.begins k op) {check : State → Cmd → Option Nat} (hc : check (s.started k) k = none)
    (body : Cmd → State → State) :
    s.runCmd k.id (fun d => dOp d == op) check body = body (s.startedCmd k) (s.started k) := by
  obtain ⟨hs, hop⟩ := h
  rw [runCmd_of_startable hs (by simp [hop]) hc, started_startedCmd]

/-- A command that begins and fails a check completes with its status. -/
theorem runCmd_fails (h : s.begins k op) {check : State → Cmd → Option Nat} {st : Nat} (hc : check (s.started k) k = some st)
    (body : Cmd → State → State) : s.runCmd k.id (fun d => dOp d == op) check body = (s.started k).complete k.id st := by
  obtain ⟨⟨hk, hw, howed, hfail, hmay, hspill⟩, hop⟩ := h
  change check (s.startCmd k.id k.ctx) k = some st at hc
  simp [State.runCmd, hk, hw, howed, hfail, hmay, hspill, hop, hc, State.started]

/-- A started command goes on in the state at hand. -/
theorem runCmd_resumes (h : s.resumes k op) (check : State → Cmd → Option Nat) (body : Cmd → State → State) :
    s.runCmd k.id (fun d => dOp d == op) check body = body k s := by
  obtain ⟨hk, hr, howed, hfail, hop⟩ := h
  simp [State.runCmd, hk, hr, howed, hfail, hop]

/-- A command that names no sequence and no region passes the checks of its start. -/
theorem startCheck_of_none (hl : hasList k.desc = false) (hq : cmdSeqs k = []) (hp : cmdSpaces k.desc = []) : s.startCheck k = none := by
  simp [State.startCheck, hl, hq, hp]

/-- A command that names one open sequence and no region passes the checks of its start. -/
theorem startCheck_of_open {r : SeqRec} (hq : ∀ h ∈ cmdSeqs k, h = dHandle k.desc)
    (hr : s.openSeq? k.ctx (dHandle k.desc) = some r) (hp : cmdSpaces k.desc = []) : s.startCheck k = none := by
  have hany : (cmdSeqs k).any (fun h => (s.openSeq? k.ctx h).isNone) = false := by
    rw [List.any_eq_false]
    intro h hh
    simp [hq h hh, hr]
  simp [State.startCheck, hany, hp]

theorem hasList_of_op (h : dOp k.desc ≠ Op.attend) (h' : dOp k.desc ≠ Op.stepPlan) : hasList k.desc = false := by
  simp [hasList, h, h']

/-- A command without a list names at most the sequence of its handle. -/
theorem cmdSeqs_handle (hl : hasList k.desc = false) : ∀ h ∈ cmdSeqs k, h = dHandle k.desc := by
  intro h hh
  simp only [cmdSeqs, hl] at hh
  split at hh
  · contradiction
  · split at hh
    · split at hh
      · cases hh
      · simpa using hh
    · cases hh

/-! ### Opening -/

theorem exec_seqOpen (h : s.begins k Op.seqOpen) :
    exec (.seqOpen k.id) s = .next (seqOpenBody (s.startedCmd k) (s.started k)) := by
  have hop := h.2
  have hl : hasList k.desc = false := hasList_of_op (by rw [hop]; decide) (by rw [hop]; decide)
  have hq : cmdSeqs k = [] := by
    simp only [cmdSeqs, hl, hop]
    rfl
  have hp : cmdSpaces k.desc = [] := by
    simp only [cmdSpaces, hop]
    rfl
  exact congrArg Host.Outcome.next (runCmd_begins h (startCheck_of_none hl hq hp) _)

/-! ### Closing -/

theorem exec_seqClose {r : SeqRec} (h : s.begins k Op.seqClose) (hr : (s.started k).openSeq? k.ctx (dHandle k.desc) = some r) :
    exec (.seqClose k.id) s = .next (s.traced ((((s.started k).closeSeq r).removeRefs r).complete k.id St.ok)) := by
  have hop := h.2
  have hl : hasList k.desc = false := hasList_of_op (by rw [hop]; decide) (by rw [hop]; decide)
  have hp : cmdSpaces k.desc = [] := by
    simp only [cmdSpaces, hop]
    rfl
  refine next_traced
    ((runCmd_begins h (startCheck_of_open (cmdSeqs_handle hl) hr hp) seqCloseBody).trans ?_)
  simp [seqCloseBody, hr]

@[simp] theorem notifyWaiters_kept (s : State) (o l : Nat) (ws : List Waiter) : (s.notifyWaiters o l ws).kept = s.kept := by
  induction ws generalizing s with
  | nil => rfl
  | cons w t ih => rw [State.notifyWaiters, ih, postEvent_kept]

/-- The end of a lease is no matter of the sequence table. -/
theorem endLease_seq (s : State) (l : Lease) (o : Option Nat) : (s.endLease l o).seq = s.seq := by
  unfold State.endLease
  extract_lets t _ u
  split
  · rfl
  · next n =>
    have hn : (u.notifyWaiters n l.id l.waiters).seq = s.seq := (congrArg State.seq (notifyWaiters_kept u n l.id l.waiters) :)
    extract_lets v
    split <;> exact hn

@[simp] theorem closeSeqLeases_seq (s : State) (h : Nat) : (s.closeSeqLeases h).seq = s.seq := by
  have hl : ∀ (l : List Lease) (u : State), (u.leasesOfSeq h l).seq = u.seq := by
    intro l
    induction l with
    | nil => exact fun _ => rfl
    | cons x t ih =>
      intro u
      unfold State.leasesOfSeq
      split
      · rw [ih, endLease_seq]
      · exact ih u
  exact hl _ _

/-- The state in which the last reference of the record has gone (R70). -/
def State.freed (s : State) (h : Nat) (r : SeqRec) : State :=
  let u := (s.removeRefs r).closeSeqLeases h
  ({ u with seq := { u.seq with recs := u.seq.recs.filter fun q => q.idx ≠ r.idx } } : State).setPart r.part fun p =>
    { p with freed := p.freed ++ [(r.idx, (r.gen + 1) % 16)] }

theorem exec_refsRemoved {h : Nat} {r : SeqRec} (hr : s.seqOf? h = some r) (hc : r.st = .closing)
    (hx : ∀ x ∈ s.cmds, x.st = .running → ¬ h ∈ cmdSeqs x) : exec (.seqReferencesRemoved h) s = .next (s.traced (s.freed h r)) := by
  change Host.Outcome.next (s.traced (execRefsRemoved h s)) = _
  simp only [execRefsRemoved, hr]
  rw [if_pos ⟨hc, by simpa using hx⟩]
  rfl

theorem freed_recs {h : Nat} {r q : SeqRec} (hq : q ∈ (s.freed h r).seq.recs) : q.idx ≠ r.idx := by
  have : q ∈ ((s.removeRefs r).closeSeqLeases h).seq.recs.filter fun q => q.idx ≠ r.idx := hq
  simpa using (List.mem_filter.mp this).2

theorem freed_part {h : Nat} {r : SeqRec} {p : Part} (hp : (s.removeRefs r).part? r.part = some p) :
    (s.freed h r).part? r.part = some { p with freed := p.freed ++ [(r.idx, (r.gen + 1) % 16)] } := by
  have hp' : ((s.removeRefs r).closeSeqLeases h).part? r.part = some p := by
    rw [State.part?, closeSeqLeases_seq]
    exact hp
  exact find?_updIf_same hp' (by simpa using List.find?_some hp)

/-! ### Restoring -/

theorem exec_restore {h : Nat} {r : SeqRec} (hr : s.seqOf? h = some r) : exec (.spilledRecordRestore h) s = .next
    (if r.spilled then
      State.setSeq { s with seq := { s.seq with recs := makeResident s.seq.recs } } r.idx fun q => { q with spilled := false }
     else s) := by
  change Host.Outcome.next (execRestore h s) = _
  simp only [execRestore, hr]

/-! ### Forking -/

/-- The rows of the source below the child's length are marked shared (R64). -/
def State.shareRows (s : State) (q : SeqRec) (n : Nat) : State :=
  s.setSeq q.idx fun r => { r with ptes := updIf r.ptes (fun e => decide (e.lpi < n) && e.pfh != 0) fun e => { e with s := true } }

section
variable {x : Ctx} {q : SeqRec} {len st : Nat}

theorem forkFromSeq_failed (hl : dForkLen k.desc = len) (hc : s.forkCheck x q.mprof len q.len = some st) :
    s.forkFromSeq k x q = s.complete k.id st := by
  have h : @State.forkFromSeq = @State.forkFromSeq := rfl
  conv at h => rhs; delta State.forkFromSeq
  rw [h]
  beta_reduce
  rw [hl]
  simp only [hc]

theorem forkFromSeq_empty (hl : dForkLen k.desc = len) (hc : s.forkCheck x q.mprof len q.len = none) (h0 : len = 0) :
    s.forkFromSeq k x q = s.complete k.id St.okEmpty := by
  have h : @State.forkFromSeq = @State.forkFromSeq := rfl
  conv at h => rhs; delta State.forkFromSeq
  rw [h]
  beta_reduce
  rw [hl]
  simp only [hc]
  exact if_pos h0

theorem forkFromSeq_shares {p : Profile} (hl : dForkLen k.desc = len) (hc : s.forkCheck x q.mprof len q.len = none) (h0 : len ≠ 0)
    (hp : s.prof? q.mprof = some p) :
    s.forkFromSeq k x q = (s.shareRows q (p.blocks len)).forkChild k x p q.sdom len q.defaults q.ptes := by
  have h : @State.forkFromSeq = @State.forkFromSeq := rfl
  conv at h => rhs; delta State.forkFromSeq
  rw [h]
  beta_reduce
  rw [hl]
  simp only [hc, h0, if_false, hp]
  rfl

end

theorem exec_seqFork {x : Ctx} {q : SeqRec} (h : s.begins k Op.seqFork) (hh : dHandle k.desc ≠ 0) (hx : (s.started k).ctx? k.ctx = some x)
    (hq : (s.started k).openSeq? k.ctx (dHandle k.desc) = some q) :
    exec (.seqFork k.id) s = .next (s.traced ((s.started k).forkFromSeq (s.startedCmd k) x q)) := by
  have hop := h.2
  have hl : hasList k.desc = false := hasList_of_op (by rw [hop]; decide) (by rw [hop]; decide)
  have hp : cmdSpaces k.desc = [] := by
    simp only [cmdSpaces, hop]
    rfl
  refine next_traced
    ((runCmd_begins h (startCheck_of_open (cmdSeqs_handle hl) hq hp) forkBody).trans ?_)
  simp only [forkBody, startedCmd_ctx, hx, startedCmd_desc, if_pos hh, hq]

theorem forkCheck_of_long {x : Ctx} {m len limit : Nat} (h : limit < len) : s.forkCheck x m len limit = some St.badField :=
  if_pos h

/-- The rows a child shares are those below its length, at the same frames and versions, with S where there is a frame. -/
theorem sharePtes_places (l : List Pte) (n : Nat) (b : Bool) :
    (sharePtes l n b).map (fun e : Pte => (e.lpi, e.layer, e.head, e.pfh, e.ver)) =
      (l.filter fun e => decide (e.lpi < n)).map fun e => (e.lpi, e.layer, e.head, e.pfh, e.ver) := by
  simp [sharePtes, Function.comp_def]

theorem sharePtes_s {l : List Pte} {n : Nat} {b : Bool} {e : Pte} (he : e ∈ sharePtes l n b) (hp : e.pfh ≠ 0) : e.s = true := by
  obtain ⟨e', -, rfl⟩ := List.mem_map.mp he
  simpa using hp

end

end Sys2Proof.Machine

namespace Sys2Proof.Proofs.Sequences
open Sys2Proof Sys2Proof.Machine

/-- Settles O17, by the row of each command. -/
theorem sequencesOpenAndClose : Obligations.SequencesOpenAndClose := by
  refine ⟨fun s k x p h => ?_, fun s k r h => exec_seqClose h, fun s h r hr hc hx => ?_, fun s h r hr => ⟨fun hs => ?_, fun hs => ?_⟩⟩
  · intro t hx hd hp
    have hbody := exec_seqOpen h
    simp only [seqOpenBody, startedCmd_ctx, startedCmd_desc, startedCmd_id, show (s.started k).ctx? k.ctx = some x from hx,
      show (s.started k).prof? (dF k.desc 8 2) = some p from hp] at hbody
    refine ⟨fun hroom => ?_, fun hroom => ?_⟩
    · rw [hbody, if_pos (by simp [show (s.started k).seqRoom x = false from hroom])]
    · rw [if_neg (by simp [show (s.started k).seqRoom x = true from hroom])] at hbody
      exact ⟨_, rfl, rfl, rfl, rfl, rfl, rfl, rfl, rfl, rfl, rfl, hbody⟩
  · exact ⟨_, exec_refsRemoved hr hc hx, fun q => freed_recs, fun p hp => ⟨_, freed_part hp, rfl⟩⟩
  · rw [exec_restore hr, if_neg (by simp [hs])]
  · rw [exec_restore hr, if_pos hs]

/-- Settles O18. -/
theorem forkSharesPages : Obligations.ForkSharesPages := by
  intro s k x q p h hh t len hx hq hp
  have hexec := exec_seqFork h hh hx hq
  refine ⟨fun hlen => ?_, fun hc h0 => ?_, fun hc h0 => ?_⟩
  · exact hexec.trans (next_traced (forkFromSeq_failed (k := s.startedCmd k) (len := len) rfl (forkCheck_of_long hlen)))
  · exact hexec.trans (next_traced (forkFromSeq_empty (k := s.startedCmd k) rfl hc h0))
  · have hchild := hexec.trans (next_traced (forkFromSeq_shares (k := s.startedCmd k) (len := len) rfl hc h0 hp))
    let u := t.shareRows q (p.blocks len)
    let r := u.takeRecord x.r.part
    let rows := sharePtes q.ptes (p.blocks len) x.r.retrieval
    exact ⟨u, rows, newSeq x r.2.1 r.2.2 p.mprof q.sdom (radixFor (p.blocks len)) len q.defaults rows u.cycles, rfl, sharePtes_places ..,
      fun e he => sharePtes_s he, rfl, rfl, rfl, rfl, hchild⟩

end Sys2Proof.Proofs.Sequences
end

section
/-! PROOFS. Chapters 2, 4, 5, 7, 11 and 13: appends and refills, hints, the statistics record, plans and leases (R42, R58, R65, R71, R161, R164, R190,
R194 to R196, R258, R296, R416, R472). -/

namespace Sys2Proof.Machine

section
variable {s : State} {k : Cmd}

/-! ### What freeing a frame, and the raised rails, leave alone -/

@[simp] theorem post_cmds (s : State) (m : TxMsg) : (s.post m).cmds = s.cmds := rfl

@[simp] theorem svcFor_cmds (s : State) (ctx dst : Nat) (m : SvcMsg) : (s.svcFor ctx dst m).cmds = s.cmds := rfl

@[simp] theorem svc_cmds (s : State) (dst : Nat) (m : SvcMsg) : (s.svc dst m).cmds = s.cmds := rfl

@[simp] theorem removeFrames_cmds (s : State) (gone : Frame → Bool) : (s.removeFrames gone).cmds = s.cmds := rfl

@[simp] theorem freeIfIdle_cmds (s : State) (p : Nat) : (s.freeIfIdle p).cmds = s.cmds := by
  unfold State.freeIfIdle
  (repeat' split) <;> simp

@[simp] theorem unpinRes_cmds (s : State) (p : Nat) : (s.unpinRes p).cmds = s.cmds := by
  simp [State.unpinRes]

@[simp] theorem unpinList_cmds (s : State) (l : List PlanPage) : (s.unpinList l).cmds = s.cmds := by
  induction l generalizing s with
  | nil => rfl
  | cons x t ih => simp [State.unpinList, ih]

@[simp] theorem putRaise_cmds (s : State) (mv : Nat) (l : List Nat) : (s.putRaise mv l).cmds = s.cmds := by
  induction l generalizing s mv with
  | nil => rfl
  | cons x t ih => simp [State.putRaise, ih]

@[simp] theorem post_att (s : State) (m : TxMsg) : (s.post m).att = s.att := rfl

@[simp] theorem svcFor_att (s : State) (ctx dst : Nat) (m : SvcMsg) : (s.svcFor ctx dst m).att = s.att := rfl

@[simp] theorem svc_att (s : State) (dst : Nat) (m : SvcMsg) : (s.svc dst m).att = s.att := rfl

@[simp] theorem removeFrames_att (s : State) (gone : Frame → Bool) : (s.removeFrames gone).att = s.att := rfl

@[simp] theorem freeIfIdle_att (s : State) (p : Nat) : (s.freeIfIdle p).att = s.att := by
  unfold State.freeIfIdle
  (repeat' split) <;> simp

@[simp] theorem unpinRes_att (s : State) (p : Nat) : (s.unpinRes p).att = s.att := by
  simp [State.unpinRes]

@[simp] theorem unpinList_att (s : State) (l : List PlanPage) : (s.unpinList l).att = s.att := by
  induction l generalizing s with
  | nil => rfl
  | cons x t ih => simp [State.unpinList, ih]

@[simp] theorem putRaise_ctxs (s : State) (mv : Nat) (l : List Nat) : (s.putRaise mv l).ctxs = s.ctxs := by
  induction l generalizing s mv with
  | nil => rfl
  | cons x t ih => simp [State.putRaise, ih]

@[simp] theorem dropRaises_ctxs (s : State) : s.dropRaises.ctxs = s.ctxs := by
  simp [State.dropRaises]

@[simp] theorem post_cycles (s : State) (m : TxMsg) : (s.post m).cycles = s.cycles := rfl

@[simp] theorem svcFor_cycles (s : State) (ctx dst : Nat) (m : SvcMsg) : (s.svcFor ctx dst m).cycles = s.cycles := rfl

@[simp] theorem svc_cycles (s : State) (dst : Nat) (m : SvcMsg) : (s.svc dst m).cycles = s.cycles := rfl

@[simp] theorem removeFrames_cycles (s : State) (gone : Frame → Bool) : (s.removeFrames gone).cycles = s.cycles := rfl

@[simp] theorem freeIfIdle_cycles (s : State) (p : Nat) : (s.freeIfIdle p).cycles = s.cycles := by
  unfold State.freeIfIdle
  (repeat' split) <;> simp

@[simp] theorem unpinRes_cycles (s : State) (p : Nat) : (s.unpinRes p).cycles = s.cycles := by
  simp [State.unpinRes]

@[simp] theorem unpinList_cycles (s : State) (l : List PlanPage) : (s.unpinList l).cycles = s.cycles := by
  induction l generalizing s with
  | nil => rfl
  | cons x t ih => simp [State.unpinList, ih]

@[simp] theorem putRaise_cycles (s : State) (mv : Nat) (l : List Nat) : (s.putRaise mv l).cycles = s.cycles := by
  induction l generalizing s mv with
  | nil => rfl
  | cons x t ih => simp [State.putRaise, ih]

@[simp] theorem dropRaises_cycles (s : State) : s.dropRaises.cycles = s.cycles := by
  simp [State.dropRaises]

/-! ### A command that has started -/

theorem cmd?_setCmd_same {f : Cmd → Cmd} (hk : s.cmd? k.id = some k) (hf : (f k).id = k.id) :
    (s.setCmd k.id f).cmd? k.id = some (f k) := find?_updIf_same hk (by simpa using hf)

@[simp] theorem addEnergy_cmds (s : State) (c fj : Nat) : (s.addEnergy c fj).cmds = s.cmds := by
  unfold State.addEnergy
  split <;> simp

theorem started_cmds (s : State) (k : Cmd) : (s.started k).cmds =
    (s.setCmd k.id fun x => { x with st := .running, tlvl := max x.tlvl s.level }).cmds := addEnergy_cmds (State.setStats _ _ _) _ _

/-- The started command stands in the table as it runs. -/
theorem started_cmd? (hk : s.cmd? k.id = some k) : (s.started k).cmd? k.id = some (s.startedCmd k) := by
  rw [State.cmd?, started_cmds]
  exact cmd?_setCmd_same hk rfl

theorem started_writesOf (hk : s.cmd? k.id = some k) (hw : k.writes = []) : (s.started k).writesOf k.id = [] := by
  simp [State.writesOf, started_cmd? hk, State.startedCmd, hw]

/-! ### Pages that a command needs -/

/-- Where a page is at hand, or gone for good, nothing is asked for. -/
theorem needPage_settled {p ctx seq : Nat} {c : CmdId} {own : Bool} (hw : (s.needPage p c ctx seq own).2 ≠ .wait)
    (hn : (s.needPage p c ctx seq own).2 ≠ .noSpace) : (s.needPage p c ctx seq own).1 = s := by
  unfold State.needPage at *
  split
  · rfl
  · next hg =>
    rw [if_neg hg] at hw hn
    split
    · rfl
    · next f hf =>
      simp only [hf] at hw hn
      split
      · next hh => simp [hh] at hw
      · next g hh =>
        simp only [hh] at hw hn
        split
        · next hst =>
          simp only [hst] at hw hn
          split at hw <;> simp_all
        all_goals rfl

theorem needAll_settled {seq : Nat} {l : List Frame} (h : (s.needAll k seq l).2.1 = false) : (s.needAll k seq l).1 = s := by
  induction l generalizing s with
  | nil => rfl
  | cons f t ih =>
    simp only [State.needAll, Bool.or_eq_false_iff, beq_eq_false_iff_ne] at h ⊢
    obtain ⟨⟨hrest, hw⟩, hn⟩ := h
    rw [ih hrest, needPage_settled hw hn]

/-! ### Appends -/

theorem runCmd_begins_if {p : Word512 → Bool} {op : Nat} (h : s.begins k op) (hp : p k.desc = true) {check : State → Cmd → Option Nat}
    (hc : check (s.started k) k = none) (body : Cmd → State → State) :
    s.runCmd k.id (fun d => dOp d == op && p d) check body = body (s.startedCmd k) (s.started k) := by
  obtain ⟨hs, hop⟩ := h
  rw [runCmd_of_startable hs (by simp [hop, hp]) hc, started_startedCmd]

theorem exec_kvAppend (h : s.begins k Op.kvAppend) (hf : dFlag k.desc 0 = false) (hc : (s.started k).startCheck k = none) :
    exec (.kvAppend k.id) s = .next (s.traced ((appendBody (s.startedCmd k) (s.started k)).clearRetired [])) :=
  next_traced (runCmd_begins_if (p := fun d => !dFlag d 0) h (by simp [hf]) hc _)

theorem exec_kvRefill (h : s.begins k Op.kvAppend) (hf : dFlag k.desc 0 = true) (hc : (s.started k).startCheck k = none) :
    exec (.kvAppendRefill k.id) s = .next (s.traced ((refillBody (s.startedCmd k) (s.started k)).clearRetired [])) :=
  next_traced (runCmd_begins_if (p := fun d => dFlag d 0) h hf hc _)

/-! The body of an append, branch by branch: `c` is the started command. -/

section
variable {c : Cmd} {x : Ctx} {q : SeqRec} {p : Profile} (hx : s.ctx? c.ctx = some x)
  (hq : s.openSeq? c.ctx (dHandle c.desc) = some q) (hp : s.prof? q.mprof = some p)
include hx hq hp

theorem appendBody_fails {st : Nat} (hc : s.appendCheck c x q p = some st) : appendBody c s = s.finish c.id st := by
  simp [appendBody, hx, hq, hp, hc]

theorem appendBody_empty (hc : s.appendCheck c x q p = none) (h : dF c.desc 12 4 = 0 ∨ dF c.desc 18 2 = 0) :
    appendBody c s = s.complete c.id St.okEmpty := by
  simp [appendBody, hx, hq, hp, hc, h]

theorem appendBody_begins (hc : s.appendCheck c x q p = none) (hn : dF c.desc 12 4 ≠ 0) (hl : dF c.desc 18 2 ≠ 0) {src : List Byte}
    {rest : List (List Byte)} (hr : c.reads = src :: rest) {pl : List (Nat × Nat × Nat)}
    (hpl : touchedPlaces p (dPos c.desc) (dF c.desc 12 4) (dF c.desc 16 2) (dF c.desc 18 2) = pl)
    (hmet : s.unavailableAt q pl = []) (hneed : (s.needAll c q.idx (s.framesAt q pl)).2.1 = false) :
    appendBody c s = s.appendBegin c q p src pl := by
  simp [appendBody, hx, hq, hp, hc, hn, hl, hr, hpl, hmet, hneed, needAll_settled hneed]

theorem refillBody_begins (hc : s.appendCheck c x q p = none) (hn : dF c.desc 12 4 ≠ 0) (hl : dF c.desc 18 2 ≠ 0) {src : List Byte}
    {rest : List (List Byte)} (hr : c.reads = src :: rest)
    (hfin : srcFinite p src (dPos c.desc) (dF c.desc 12 4) (dF c.desc 18 2) (fun _ _ _ _ => []) = true) :
    refillBody c s = s.refillBegin c q p src
      (touchedPlaces p (dPos c.desc) (dF c.desc 12 4) (dF c.desc 16 2) (dF c.desc 18 2)) := by
  simp [refillBody, hx, hq, hp, hc, hn, hl, hr, hfin]

end

section
variable {c : Cmd} {q : SeqRec} {p : Profile} {src : List Byte} {pl : List (Nat × Nat × Nat)} (hw : s.writesOf c.id = [])
  (hfree : ((s.framesAt q pl).any fun f => !f.copiedFirst && f.writeBlocked) = false)
include hw hfree

theorem appendBegin_nonfinite (h : srcFinite p src (dPos c.desc) (dF c.desc 12 4) (dF c.desc 18 2)
      (fun l y => s.pageScale p q (dF c.desc 16 2 + l) y) = false) :
    s.appendBegin c q p src pl = s.finish c.id St.nonfinite := by
  simp [State.appendBegin, State.writesFit, hw, hfree, h]

theorem appendBegin_full (h : srcFinite p src (dPos c.desc) (dF c.desc 12 4) (dF c.desc 18 2)
      (fun l y => s.pageScale p q (dF c.desc 16 2 + l) y) = true) (hf : s.framesFit (s.newPages q pl) = false) :
    s.appendBegin c q p src pl = s.finish c.id St.noSpace := by
  simp [State.appendBegin, State.writesFit, hw, hfree, h, hf]

theorem appendBegin_goes (h : srcFinite p src (dPos c.desc) (dF c.desc 12 4) (dF c.desc 18 2)
      (fun l y => s.pageScale p q (dF c.desc 16 2 + l) y) = true) (hf : s.framesFit (s.newPages q pl) = true) :
    s.appendBegin c q p src pl = ((s.beginPages q p pl).1.setCmd c.id fun x =>
      { x with writes := (s.beginPages q p pl).2 }).appendGo c q p src pl := by
  simp [State.appendBegin, State.writesFit, hw, hfree, h, hf]

end

theorem appendGo_writes {c : Cmd} {q : SeqRec} {p : Profile} {src : List Byte} {pl : List (Nat × Nat × Nat)}
    (h : s.commitWaits (s.writesOf c.id) = false) {y : State × List Nat × Bool}
    (hy : s.verifyCopies c.id c.todo (s.framesAt q pl) = y) (hl : y.1.unavailableAt q pl = []) (hv : y.2.2 = false) :
    s.appendGo c q p src pl = (y.1.sawCopies c.id y.2.1).appendWrite c q p src := by
  simp [State.appendGo, h, hy, hl, hv]

theorem appendWrite_fills {c : Cmd} {q : SeqRec} {p : Profile} {src : List Byte} {z : State} {e : State × List PgForm}
    (he : s.encodeAll p q src (dPos c.desc) (dF c.desc 12 4) (dF c.desc 16 2) (s.writesOf c.id) = e)
    (hz : e.1.fillAll e.2 = (z, true)) : s.appendWrite c q p src =
      (((z.commitPages c.ctx p q (dPos c.desc + dF c.desc 12 4) e.2).setCmd c.id fun y => { y with writes := [] }).setSeq q.idx
        fun r => roundAfter r p (dF c.desc 12 4) (dF c.desc 16 2) (dF c.desc 18 2)).finish c.id St.ok := by
  simp [State.appendWrite, he, hz]

end

/-- Settles O19: the branches of the append, in the order in which it tries them. -/
theorem appendCommitsItsPages : Obligations.AppendCommitsItsPages := by
  intro s k x q p hb hflag t c d n lf lc ends hstart hx hq hp
  have hrun := exec_kvAppend hb hflag hstart
  have ends_of {u : State} (h : appendBody c t = u) : ends u := hrun.trans (by rw [← h])
  refine ⟨fun st hc => ends_of (appendBody_fails (c := c) hx hq hp hc), fun hc hn => ends_of (appendBody_empty (c := c) hx hq hp hc hn), ?_⟩
  intro src rest hc hn hl hr hw pl u finite hmet hneed hfree
  have hu : u = t := needAll_settled hneed
  have hwt : t.writesOf k.id = [] := started_writesOf hb.1.1 hw
  have hbody := appendBody_begins (c := c) hx hq hp hc hn hl hr rfl hmet hneed
  rw [hu] at hfree
  refine ⟨fun hfin => ?_, fun hfin hfit => ?_, fun hfin hfit => ?_⟩
  · rw [hu]
    exact ends_of (hbody.trans (appendBegin_nonfinite (c := c) hwt hfree (by rw [← hfin]; simp only [finite, hu]; rfl)))
  · rw [hu] at hfit ⊢
    exact ends_of (hbody.trans (appendBegin_full (c := c) hwt hfree (by rw [← hfin]; simp only [finite, hu]; rfl) hfit))
  · intro b v y w e hwait hlost hseen z hz
    rw [hu] at hfit
    have hv : v = (t.beginPages q p pl).1.setCmd k.id fun y => { y with writes := (t.beginPages q p pl).2 } := by
      simp only [v, b, hu]
    refine ends_of (hbody.trans ((appendBegin_goes (c := c) hwt hfree (by rw [← hfin]; simp only [finite, hu]; rfl) hfit).trans ?_))
    refine (congrArg (State.appendGo · c q p src pl) hv.symm).trans ?_
    exact (appendGo_writes (c := c) hwait rfl hlost hseen).trans (appendWrite_fills (c := c) rfl hz)

/-! ### Refills -/

@[simp] theorem addFrame_cmds (s : State) (f : Frame) : (s.addFrame f).cmds = s.cmds := rfl

theorem newWriting_cmds (s : State) (q : SeqRec) (p : Profile) (set : Placement) (ver : Nat) :
    (s.newWriting q p set ver).1.cmds = s.cmds := rfl

theorem beginRefill_cmds (s : State) (q : SeqRec) (p : Profile) (m : MetPage) : (s.beginRefill q p m).1.cmds = s.cmds := by
  unfold State.beginRefill
  (repeat' split) <;> simp [newWriting_cmds]

theorem beginRefills_cmds (s : State) (q : SeqRec) (p : Profile) (l : List MetPage) : (s.beginRefills q p l).1.cmds = s.cmds := by
  induction l generalizing s with
  | nil => rfl
  | cons m t ih => simp [State.beginRefills, ih, beginRefill_cmds]

section
variable {s : State} {c : Cmd} {q : SeqRec} {p : Profile} {src : List Byte}

theorem refillBegin_goes {pl : List (Nat × Nat × Nat)} {go : List MetPage} (hw : s.writesOf c.id = [])
    (hr : s.refilling (s.framesAt q pl) = false) (hgo : (s.unavailableAt q pl).filter (s.refillable (dF c.desc 40 4)) = go)
    (hf : s.framesFit (s.newRefills go) = true) :
    s.refillBegin c q p src pl = ((s.beginRefills q p go).1.setCmd c.id fun x =>
      { x with writes := (s.beginRefills q p go).2, count := (s.unavailableAt q pl).length - go.length }).refillWrite c q p src := by
  simp [State.refillBegin, hw, hr, hgo, hf]

theorem refillWrite_fills {c' : Cmd} (hc : s.cmd? c.id = some c') (h : s.commitWaits (s.writesOf c.id) = false) {z : State}
    {e : State × List PgForm}
    (he : s.refillForms p src (dPos c.desc) (dF c.desc 12 4) (dF c.desc 16 2) (s.writesOf c.id) = e)
    (hz : e.1.fillAll e.2 = (z, true)) : s.refillWrite c q p src =
      ((z.refillPages c.ctx p q e.2).setCmd c.id fun x => { x with writes := [] }).finish c.id
        (if c'.count = 0 then St.ok else St.okPartial) { result := c'.count } := by
  simp [State.refillWrite, hc, h, he, hz]

end

/-- Settles O20: what the refill began with is read back from the command, whose count the begun writes leave alone. -/
theorem refillWritesLostPages : Obligations.RefillWritesLostPages := by
  intro s k x q p src rest z hb hflag t c d n lf lc pl hstart hx hq hp hc hn hl hr hw hfin hre met go b v e hfit hwait hz
  have hwt : t.writesOf k.id = [] := started_writesOf hb.1.1 hw
  have hct : b.1.cmd? c.id = some c := by
    rw [State.cmd?, beginRefills_cmds]
    exact started_cmd? hb.1.1
  have hbody : refillBody c t = v.refillWrite c q p src :=
    (refillBody_begins (c := c) hx hq hp hc hn hl hr hfin).trans (refillBegin_goes (c := c) hwt hre rfl hfit)
  have hcv : v.cmd? c.id = some { c with writes := b.2, count := met.length - go.length } := cmd?_setCmd_same hct rfl
  exact (exec_kvRefill hb hflag hstart).trans (by rw [hbody, refillWrite_fills hcv hwait rfl hz]; rfl)

/-! ### Hints -/

section
variable {s : State} {k : Cmd}

/-- What a state shows under a frame handle depends on its frame table alone. -/
theorem frame?_of_tier {t : State} (h : t.tier = s.tier) (p : Nat) : t.frame? p = s.frame? p :=
  congrArg (fun y => y.frames.find? fun x => x.pfh == p) h

theorem cmd?_complete_same (hk : s.cmd? k.id = some k) (st : Nat) (r : Fin) : (s.complete k.id st r).cmd? k.id = none := by
  rw [State.cmd?, complete_cmds hk]
  exact find?_filter_ne_same ..

theorem complete_seq (hk : s.cmd? k.id = some k) (st : Nat) (r : Fin) : (s.complete k.id st r).seq = s.seq :=
  (congrArg State.seq (complete_kept hk st r) :)

theorem complete_tier (hk : s.cmd? k.id = some k) (st : Nat) (r : Fin) : (s.complete k.id st r).tier = s.tier :=
  (congrArg State.tier (complete_kept hk st r) :)

theorem frame?_setFrame_same {p : Nat} {f : Frame} {g : Frame → Frame} (h : s.frame? p = some f) (hg : (g f).pfh = f.pfh) :
    (s.setFrame p g).frame? p = some (g f) :=
  find?_updIf_same h (by simpa [hg] using List.find?_some h)

theorem frame?_setFrame_ne {p p' : Nat} {g : Frame → Frame} (hg : ∀ f, (g f).pfh = f.pfh) (h : p' ≠ p) :
    (s.setFrame p' g).frame? p = s.frame? p :=
  find?_updIf_other s.tier.frames fun x hx => by
    obtain rfl : x.pfh = p' := by simpa using hx
    simp [hg, h]

theorem coldAll_frame? {p : Nat} (l : List Nat) {f : Frame} (h : s.frame? p = some f) :
    (s.coldAll l).frame? p = some (if l.contains p then { f with lastUse := 0 } else f) := by
  induction l generalizing s f with
  | nil => simpa [State.coldAll] using h
  | cons a l ih =>
    by_cases ha : a = p
    · subst ha
      simpa [State.coldAll] using ih (frame?_setFrame_same (g := fun f => { f with lastUse := 0 }) h rfl)
    · simpa [State.coldAll, Ne.symm ha] using ih ((frame?_setFrame_ne (g := fun f => { f with lastUse := 0 }) (fun _ => rfl) ha).trans h)

@[simp] theorem coldAll_cmds (s : State) (l : List Nat) : (s.coldAll l).cmds = s.cmds := by
  induction l generalizing s with
  | nil => rfl
  | cons a l ih => simp [State.coldAll, ih, State.setFrame]

@[simp] theorem coldAll_seq (s : State) (l : List Nat) : (s.coldAll l).seq = s.seq := by
  induction l generalizing s with
  | nil => rfl
  | cons a l ih => simp [State.coldAll, ih, State.setFrame]

/-- A hint names the sequence of its handle and no region. -/
theorem startCheck_of_hint {q : SeqRec} (hop : dOp k.desc = Op.hint) (hq : s.openSeq? k.ctx (dHandle k.desc) = some q) :
    s.startCheck k = none := by
  have hl : hasList k.desc = false := hasList_of_op (by rw [hop]; decide) (by rw [hop]; decide)
  have hp : cmdSpaces k.desc = [] := by
    simp only [cmdSpaces, hop]
    rfl
  exact startCheck_of_open (cmdSeqs_handle hl) hq hp

theorem exec_hintCold {q : SeqRec} (h : s.begins k Op.hint) (hd : dF k.desc 8 1 = 1)
    (hq : (s.started k).openSeq? k.ctx (dHandle k.desc) = some q) :
    exec (.hintCold k.id) s = .next (s.traced (((s.started k).coldAll q.frames).complete k.id St.ok)) := by
  refine next_traced ((runCmd_begins_if (p := fun d => dF d 8 1 == 1) h (by simp [hd]) (startCheck_of_hint h.2 hq) hintColdBody).trans ?_)
  simp [hintColdBody, hq]

theorem exec_hintWarm {q : SeqRec} (h : s.begins k Op.hint) (hd : dF k.desc 8 1 = 2)
    (hq : (s.started k).openSeq? k.ctx (dHandle k.desc) = some q) :
    exec (.hintWarm k.id) s = .next (s.traced (((s.started k).warm (s.startedCmd k) q.idx q.frames).complete k.id St.ok)) := by
  refine next_traced ((runCmd_begins_if (p := fun d => dF d 8 1 == 2) h (by simp [hd]) (startCheck_of_hint h.2 hq) hintWarmBody).trans ?_)
  simp [hintWarmBody, hq]

theorem exec_hintHeavy (h : s.begins k Op.hint) (hd : dF k.desc 8 1 = 3) :
    exec (.hintHeavy k.id) s = .next (hintHeavyBody (s.startedCmd k) (s.started k)) :=
  congrArg Host.Outcome.next (runCmd_begins_if (p := fun d => dF d 8 1 == 3) h (by simp [hd]) (by simp [State.checkHint, hd])
    hintHeavyBody)

theorem ctx?_setCtx_same {c : Nat} {x : Ctx} {f : Ctx → Ctx} (h : s.ctx? c = some x) (hf : (f x).r = x.r) :
    (s.setCtx c f).ctx? c = some (f x) :=
  find?_updIf_same h (by simpa [hf] using List.find?_some h)

theorem addEnergy_ctx? {c : Nat} {x : Ctx} (fj : Nat) (h : s.ctx? c = some x) :
    (s.addEnergy c fj).ctx? c = some { x with stats := { x.stats with energy := x.stats.energy + fj } } := by
  unfold State.addEnergy
  simp only [h]
  exact ctx?_setCtx_same h rfl

@[simp] theorem addEnergy_cycles (s : State) (c fj : Nat) : (s.addEnergy c fj).cycles = s.cycles :=
  (congrArg State.cycles (addEnergy_kept s c fj) :)

theorem heavyOver_ctx? {c e : Nat} {x : Ctx} (h : s.ctx? c = some x) (he : x.heavyEnd = some e) :
    (s.heavyOver c).ctx? c = some { x with heavyEnd := none } := by
  have hset := ctx?_setCtx_same (f := fun x => { x with heavyEnd := none }) h rfl
  simpa [State.heavyOver, h, he] using (ctx?_of_ctxs (dropRaises_ctxs _) c).trans hset

@[simp] theorem heavyOver_cycles (s : State) (c : Nat) : (s.heavyOver c).cycles = s.cycles := by
  unfold State.heavyOver
  split
  · exact dropRaises_cycles _
  · rfl

theorem hintHeavyBody_go (h : dF k.desc 12 4 ≠ 0) :
    hintHeavyBody k s = (s.complete k.id St.ok).heavyHint k.ctx (dF k.desc 12 4) := by
  simp [hintHeavyBody, h]

/-- Without the right, or under a demand of the cap or thermal loop, no window opens. -/
theorem heavyHint_refused {c dur : Nat} {x : Ctx} (hx : s.ctx? c = some x)
    (h : x.r.heavy = false ∨ s.fld F.PWR_STATUS_L_CAP ≠ 0 ∨ s.fld F.PWR_STATUS_L_THERM ≠ 0) : s.heavyHint c dur = s := by
  simp [State.heavyHint, hx, h]

theorem heavyHint_opens {c dur : Nat} {x : Ctx} (hx : s.ctx? c = some x) (hh : x.r.heavy = true)
    (hcap : s.fld F.PWR_STATUS_L_CAP = 0) (hth : s.fld F.PWR_STATUS_L_THERM = 0) : (s.heavyHint c dur).ctx? c =
      some { x with heavyEnd := some (max (s.cycles + min dur (s.fld F.PWR_HINT_CFG_HINT_MAX) * cyclesPerUs) (x.heavyEnd.getD 0)) } := by
  simp only [State.heavyHint, hx, hh, hcap, hth, Bool.not_true, Bool.false_eq_true, ne_eq, not_true_eq_false, or_self, if_false]
  exact (ctx?_of_ctxs (putRaise_ctxs ..) c).trans (ctx?_setCtx_same hx rfl)

theorem execHeavyEnd_ends {c e : Nat} {x : Ctx} (hx : s.ctx? c = some x) (he : x.heavyEnd = some e) :
    execHeavyEnd c s = (((s.reach e).heavyOver c).addEnergy c (Config.hintEnergy s.free)).nextFree := by
  simp [execHeavyEnd, hx, he]

end

theorem hintCold_ages {s : State} {k : Cmd} {q : SeqRec} (h : s.begins k Op.hint) (hd : dF k.desc 8 1 = 1)
    (hq : (s.started k).openSeq? k.ctx (dHandle k.desc) = some q) :
    ∃ u, exec (.hintCold k.id) s = .next (s.traced u) ∧ u.cmd? k.id = none ∧ u.seq = (s.started k).seq ∧
      ∀ p f, (s.started k).frame? p = some f → u.frame? p = some (if q.frames.contains p then { f with lastUse := 0 } else f) := by
  have hk : ((s.started k).coldAll q.frames).cmd? (s.startedCmd k).id = some (s.startedCmd k) :=
    (congrArg (fun l => l.find? fun x => x.id == k.id) (coldAll_cmds _ q.frames)).trans (started_cmd? h.1.1)
  exact ⟨_, exec_hintCold h hd hq, cmd?_complete_same hk _ _, (complete_seq hk _ _).trans (coldAll_seq ..),
    fun p f hf => (frame?_of_tier (complete_tier hk _ _) p).trans (coldAll_frame? q.frames hf)⟩

/-- A window that ends is closed before its energy is charged. -/
theorem heavyWindow_ends {s : State} {c e : Nat} {x : Ctx} (hx : s.ctx? c = some x) (he : x.heavyEnd = some e) :
    ∃ t y, exec (.heavyWindowEnd c) s = .next t ∧ t.ctx? c = some y ∧ y.heavyEnd = none ∧ e ≤ t.cycles ∧
      y.stats.energy = x.stats.energy + Config.hintEnergy s.free := by
  have hr : (s.reach e).ctx? c = some x := hx
  have hcycles : (((s.reach e).heavyOver c).addEnergy c (Config.hintEnergy s.free)).cycles = max s.cycles e :=
    (addEnergy_cycles ..).trans (heavyOver_cycles ..)
  exact ⟨_, _, congrArg Host.Outcome.next (execHeavyEnd_ends hx he), addEnergy_ctx? _ (heavyOver_ctx? hr he), rfl,
    (Nat.le_max_right _ _).trans_eq hcycles.symm, rfl⟩

/-- Settles O21: each hint by the lemma on its body. -/
theorem hintsAct : Obligations.HintsAct := by
  refine ⟨?cold, ?heavy, fun s c e x hx he => heavyWindow_ends hx he⟩
  case cold =>
    intro s k q hb t hq
    exact ⟨fun hd => hintCold_ages hb hd hq, fun hd => exec_hintWarm hb hd hq⟩
  case heavy =>
    intro s k x hb hd t
    have hrun := exec_hintHeavy hb hd
    refine ⟨fun h0 => hrun.trans (congrArg Host.Outcome.next (if_pos h0)), fun h0 => ?_⟩
    intro u hx
    have hgo : exec (.hintHeavy k.id) s = .next (u.heavyHint k.ctx (dF k.desc 12 4)) :=
      hrun.trans (congrArg Host.Outcome.next (hintHeavyBody_go (k := s.startedCmd k) h0))
    exact ⟨fun hno => hgo.trans (congrArg Host.Outcome.next (heavyHint_refused hx hno)),
      fun hh hcap hth => ⟨_, _, hgo, heavyHint_opens hx hh hcap hth, rfl⟩⟩

/-! ### The statistics record -/

@[simp] theorem leBytes_length (n v : Nat) : (leBytes n v).length = n := by
  induction n generalizing v with
  | zero => rfl
  | succ n ih => simp [leBytes, ih]

theorem exec_statsRead {s : State} {k : Cmd} (h : s.begins k Op.statsRead) (hc : (s.started k).startCheck k = none) :
    exec (.statsRead k.id) s = .next (statsBody (s.startedCmd k) (s.started k)) :=
  congrArg Host.Outcome.next (runCmd_begins h hc statsBody)

theorem statsBody_writes {s v : State} {k : Cmd} {b : List Byte} (hlen : 128 ≤ dF k.desc 24 4)
    (hlong : s.spaceLong k.ctx (dStatsDst k.desc) 128 = true) (hrec : s.statsFor k = some b)
    (hw : (if dFlag k.desc 0 && dHandle k.desc == 0 && dF k.desc 8 1 == 0 then s.resetStats k.ctx else s).spaceWrite k.id k.ctx
      (dStatsDst k.desc) b = .ok v) : statsBody k s = v.complete k.id St.ok { rlen := 128 } := by
  have hfit : ¬ dF k.desc 24 4 < 128 := by omega
  simp only [statsBody, hfit, hlong, hrec, hw, Bool.not_true, Bool.false_eq_true, or_self, if_false]

theorem statsRecord_length (s : State) (x : Stats) (e : Nat × Nat × Nat) (n : Nat) : (s.statsRecord x e n).length = 128 := by
  unfold State.statsRecord
  repeat rw [List.length_append]
  repeat rw [leBytes_length]

theorem seqRecord_length (x : Stats) (n : Nat) : (seqRecord x n).length = 128 := by
  simp only [seqRecord, List.length_append, leBytes_length]

/-- Settles O22: the record's length is the sum of its fields' lengths; the rest is the body of the command. -/
theorem statsRecord : Obligations.StatsRecord := by
  refine And.intro (fun s x e n => And.intro (statsRecord_length s x e n) (seqRecord_length x n)) ?_
  intro s k b v hb t d hc
  have hrun := exec_statsRead hb hc
  exact ⟨fun hlen => hrun.trans (congrArg Host.Outcome.next (if_pos (.inl hlen))), fun hlen hlong hrec hw =>
    hrun.trans (congrArg Host.Outcome.next (statsBody_writes (k := s.startedCmd k) hlen hlong hrec hw))⟩

/-! ### Plans and leases -/

section
variable {s : State} {k : Cmd}

theorem exec_stepPlan (h : s.begins k Op.stepPlan) (hc : (s.started k).startCheck k = none) :
    exec (.stepPlan k.id) s = .next (s.traced (stepPlanBody (s.startedCmd k) (s.started k))) :=
  next_traced (runCmd_begins h hc stepPlanBody)

/-- A first run that passes its checks, of a plan without WAIT. -/
theorem stepPlanBody_takes (hm : k.mark = 0) (hf : dFlag k.desc 0 = false)
    (hl : s.spaceLong k.ctx (dPlanList k.desc) (dF k.desc 12 4 * 16) = true) (hn : dF k.desc 10 2 ≠ 0) (hc : dF k.desc 12 4 ≠ 0)
    {list : List (List Byte)} (hlist : listEntries (dF k.desc 12 4) (k.reads.headD []) = list) {es : List (Option PlanEnt)}
    (hes : (((List.range list.length).zip list).map fun x => s.planEntry k x.1 x.2) = es) {ok : List PlanEnt}
    (hok : es.filterMap id = ok) {old : PlanEnt → Bool} (hold : (fun e => ok.any fun x => x.seq == e.seq) = old)
    (hroom : (s.att.ents.filter fun e => !old e).length + ok.length ≤ 262144) :
    stepPlanBody k s = (({ s.dropEnts old with att := { (s.dropEnts old).att with
      ents := (s.dropEnts old).att.ents ++ ok
      plans := if ok.isEmpty then (s.dropEnts old).att.plans
        else (s.dropEnts old).att.plans ++ [(s.dropEnts old).newPlan k ok.length] } } : State).stageAll ok).planFinish k
      (es.length - ok.length) false := by
  subst hlist hes hok hold
  simp only [stepPlanBody, hm, hf, hl, hn, hc, Nat.not_lt.mpr hroom, Bool.not_true, Bool.false_eq_true, if_false, or_self,
    Nat.zero_ne_one]

theorem dropEnts_keeps (s : State) (bad : PlanEnt → Bool) :
    (s.dropEnts bad).att.ents = s.att.ents.filter (fun e => !bad e) ∧ (s.dropEnts bad).cycles = s.cycles ∧
      (s.dropEnts bad).cmds = s.cmds ∧ ∀ x ∈ (s.dropEnts bad).att.plans, ∃ e ∈ (s.dropEnts bad).att.ents, e.plan = x.id := by
  unfold State.dropEnts
  extract_lets gone _ u w
  have ha : w.att = u.att := unpinList_att ..
  refine ⟨congrArg Attn.ents ha, unpinList_cycles .., unpinList_cmds .., fun x hx => ?_⟩
  simpa using (List.mem_filter.mp hx).2

/-- The descriptors of a plan whose time is over go, and the plan with them. -/
theorem planPin_expires {c : CmdId} {p : Plan} {at_ : Nat} (hp : s.att.plans.find? (fun x => x.id == c) = some p)
    (hat : p.doneAt = some at_) : ∃ t, exec (.planPinExpire c) s = .next (s.traced t) ∧ at_ + p.ttl * cyclesPerUs ≤ t.cycles ∧
      (∀ e ∈ t.att.ents, e.plan ≠ c) ∧ (∀ x ∈ t.att.plans, x.id ≠ c) ∧ t.cmds = s.cmds := by
  have hrun : execPinExpire c s = (s.reach (at_ + p.ttl * cyclesPerUs)).dropEnts fun e => e.plan == c := by
    simp [execPinExpire, hp, hat]
  obtain ⟨hents, hcycles, hcmds, hplans⟩ := dropEnts_keeps (s.reach (at_ + p.ttl * cyclesPerUs)) fun e => e.plan == c
  have hgone : ∀ e ∈ ((s.reach (at_ + p.ttl * cyclesPerUs)).dropEnts fun e => e.plan == c).att.ents, e.plan ≠ c := by
    rw [hents]
    simp
  refine ⟨_, next_traced hrun, (Nat.le_max_right _ _).trans_eq hcycles.symm, hgone, fun x hx => ?_, hcmds⟩
  obtain ⟨e, he, hx⟩ := hplans x hx
  exact hx ▸ hgone e he

/-- The state in which the slot of a lease is free under the next generation. -/
def State.leaseGone (s : State) (l : Lease) : State :=
  { s with att := { s.att with
    leases := s.att.leases.filter fun x => !(x.slot == l.slot && x.gen == l.gen)
    leaseGen := spSet 1 s.att.leaseGen l.slot (l.gen % 65535 + 1) } }

/-- Besides, the end of a lease tells those who wait for it, and counts. -/
theorem endLease_kept (s : State) (l : Lease) (o : Option Nat) : (s.endLease l o).kept = (s.leaseGone l).kept := by
  unfold State.endLease
  extract_lets t _ u
  split
  · rfl
  · next n =>
    have hn : (u.notifyWaiters n l.id l.waiters).kept = (s.leaseGone l).kept := notifyWaiters_kept ..
    extract_lets v
    split
    · exact Eq.trans rfl hn
    · exact hn

theorem mem_leaseGone {l x : Lease} : x ∈ (s.leaseGone l).att.leases ↔ x ∈ s.att.leases ∧ ¬ (x.slot = l.slot ∧ x.gen = l.gen) := by
  simp only [State.leaseGone, List.mem_filter, Bool.not_eq_true', Bool.and_eq_false_iff, beq_eq_false_iff_ne, ne_eq, not_and_or]

theorem lease_expires {slot : Nat} {l : Lease} (hl : s.att.leases.find? (fun x => x.slot == slot) = some l) :
    ∃ t, exec (.leaseExpire slot) s = .next (s.traced t) ∧ (∀ x ∈ t.att.leases, ¬ (x.slot = l.slot ∧ x.gen = l.gen)) ∧
      (∀ x ∈ s.att.leases, ¬ (x.slot = l.slot ∧ x.gen = l.gen) → x ∈ t.att.leases) ∧
      spGet 1 t.att.leaseGen slot = l.gen % 65535 + 1 ∧ l.expires ≤ t.cycles ∧ t.cmds = s.cmds ∧ t.tier = s.tier ∧ t.seq = s.seq := by
  have hrun : execLeaseEnd slot s = (s.reach l.expires).endLease l (some 1) := by
    simp [execLeaseEnd, hl]
  have hkept := endLease_kept (s.reach l.expires) l (some 1)
  have hatt : ((s.reach l.expires).endLease l (some 1)).att = ((s.reach l.expires).leaseGone l).att := (congrArg State.att hkept :)
  obtain rfl : l.slot = slot := by simpa using List.find?_some hl
  refine ⟨_, next_traced hrun, ?_, ?_, ?_, ?_, (congrArg State.cmds hkept :), (congrArg State.tier hkept :),
    (congrArg State.seq hkept :)⟩
  · rw [hatt]
    exact fun x hx => (mem_leaseGone.mp hx).2
  · rw [hatt]
    exact fun x hx hne => mem_leaseGone.mpr ⟨hx, hne⟩
  · simp [hatt, State.leaseGone]
  · exact (Nat.le_max_right _ _).trans_eq (congrArg State.cycles hkept : _ = max s.cycles l.expires).symm

end

/-- Settles O23: the body of the plan's first run, and the ends of plans and leases by the lemmas on them. -/
theorem plansAndLeases : Obligations.PlansAndLeases := by
  refine ⟨⟨?_, fun s c p at_ hp hat => planPin_expires hp hat⟩, fun s slot l hl => lease_expires hl⟩
  intro s k hb hf hm t d list es ok old hc hl hn hcnt hroom v w
  exact (exec_stepPlan hb hc).trans (congrArg (fun u => Host.Outcome.next (s.traced u))
    (stepPlanBody_takes (k := s.startedCmd k) hm hf hl hn hcnt rfl rfl rfl rfl hroom))

end Sys2Proof.Machine
end

section
/-! PROOFS. Chapter 4: placement rounds and the end of a chunk (R146, R147, R310, R404, R470). -/

namespace Sys2Proof.Machine

section
variable {s : State}

/-! ### Placement -/

theorem trackActive_att (s : State) (set : Nat) (l : List Ctx) : (s.trackActive set l).att = s.att := by
  induction l generalizing s with
  | nil => rfl
  | cons x t ih =>
    rw [State.trackActive, ih]
    (repeat' split) <;> rfl

@[simp] theorem setTracked_att (s : State) (set : Nat) : (s.setTracked set).att = s.att := trackActive_att ..

theorem foldl_bump_att {α : Type} (f : Fld) (l : List α) (s : State) : (l.foldl (fun s _ => s.bump f) s).att = s.att := by
  induction l generalizing s with
  | nil => rfl
  | cons x l ih => exact ih _

theorem loadExpander_att (s : State) (ae : Nat) (k : Chunk) : (s.loadExpander ae k).att = s.att := foldl_bump_att ..

/-- A placed chunk stays in the table. -/
theorem place_chunks_length (s : State) (k : Chunk) (ae : Nat) : (s.place k ae).att.chunks.length = s.att.chunks.length := by
  have h : (if (s.chunkTids k).flatten.isEmpty then s else s.loadExpander ae k).att = s.att := by
    split
    · rfl
    · exact loadExpander_att ..
  simp only [State.place, State.setCtx, updIf, List.length_map, h]

theorem placeRound_chunks_length (s : State) (set n : Nat) : (s.placeRound set n).att.chunks.length = s.att.chunks.length := by
  induction n generalizing s with
  | zero => rfl
  | succ n ih =>
    unfold State.placeRound
    split
    · rfl
    · split
      · rfl
      · split
        · rfl
        · rw [ih, place_chunks_length]

theorem placeRound_starts {set n ae : Nat} {x : Ctx} {l : List Ctx} {k : Chunk}
    (hx : sortBy ctxLt ((s.setCtxs set).filter fun y => (s.nextChunk y.r.ctx).isSome) = x :: l) (hk : s.nextChunk x.r.ctx = some k)
    (ha : s.pickAe set k = some ae) : s.placeRound set (n + 1) = (s.place k ae).placeRound set n := by
  simp [State.placeRound, hx, hk, ha]

/-- The AE for a chunk is one of those that are free. -/
theorem pickAe_free {set ae : Nat} {k : Chunk} (h : s.pickAe set k = some ae) :
    ae ∈ s.setAes set ∧ ae ∉ s.busyAes ∧ s.rampOk ae = true := by
  have hmem : ae ∈ (s.setAes set).filter fun a => !s.busyAes.contains a && s.rampOk a := by
    simp only [State.pickAe] at h
    split at h
    · split at h
      · next a hf =>
        obtain rfl := Option.some.inj h
        exact List.mem_of_find?_eq_some hf
      · exact List.mem_of_mem_head? h
    · exact List.mem_of_mem_head? h
  simpa using hmem

theorem exec_round (hd : s.dead = false) (set : Nat) : exec (.chunkPlacementRound set) s = .next (s.traced
    (((s.setTracked set).placeRound set s.att.chunks.length).setTracked set).checkTables) := by
  refine next_traced (congrArg State.checkTables ?_)
  simp [execRound, hd]

theorem checkTables_of_sound (h : ∀ n, s.tableLoad n ≠ .bad) : s.checkTables = s := by
  have hnone : (s.att.chunks.find? fun k => k.st != .waiting && (s.chunkTids k).flatten.any fun t => s.tableLoad t == .bad) = none := by
    rw [List.find?_eq_none]
    simp [h]
  simp only [State.checkTables, hnone]

/-! ### The end of a chunk -/

/-- The table of chunks after the copies of `k` have passed their checks. -/
def State.chunkChecked (s : State) (k : Chunk) : State :=
  { s with att := { s.att with chunks := updIf s.att.chunks k.same fun x => { x with checked := true } } }

theorem chunkChecked_stalled (s : State) (k j : Chunk) : (s.chunkChecked k).stalled j = s.stalled j := rfl

theorem execChunk_ends {ae cycles : Nat} {k : Chunk} {p : Profile} (hk : s.att.chunks.find? (fun x => x.st == .running ae) = some k)
    (hc : k.checked = true) (hs : s.stalled k = false) (hp : s.prof? k.mprof = some p) :
    execChunk ae cycles [] s = (s.chunkChecked k).endChunk k ae cycles p := by
  have hs' : (s.chunkChecked k).stalled k = false := hs
  have hp' : (s.chunkChecked k).prof? k.mprof = some p := hp
  unfold State.chunkChecked at *
  simp only [execChunk, hk, hs, hc, hs', hp', Bool.false_eq_true, if_false, if_true, List.isEmpty_nil, Bool.not_true]

end

/-- Settles O25: the rounds keep the table's length, their first step is the definition's, and a chunk ends by `execChunk_ends`. -/
theorem chunksArePlacedAndEnd : Obligations.ChunksArePlacedAndEnd := by
  refine ⟨⟨fun s set k ae h => pickAe_free h, ?place⟩, ?ends⟩
  case place =>
    intro s set hd u
    have hrun := exec_round hd set
    refine ⟨⟨_, hrun, ?_, checkTables_of_sound⟩, fun x l k ae n hx hk ha hn => ?_⟩
    · rw [setTracked_att, placeRound_chunks_length, setTracked_att]
    · have hstep : u.placeRound set (n + 1) = (u.place k ae).placeRound set n := placeRound_starts hx hk ha
      rw [hrun, hn, hstep]
  case ends =>
    intro s ae cycles k p hk hc hs hp u
    exact next_traced (congrArg (fun v : State => v.pollGroups v.sch.groups) (execChunk_ends hk hc hs hp))

/-! ### Bytes of HBM regions (R350) -/

/-- Settles O32: each region's bytes have keys of their own, and a store changes those of its range. -/
theorem regionBytesReadBack : Obligations.RegionBytesReadBack := by
  intro s r off b hb
  refine ⟨memRead_memWrite _ _ _, fun a ha => memWrite_other _ _ _ _ ha, fun r' o n hne hn => ?_, memWrite_wf _ _ _⟩
  refine List.map_congr_left fun j hj => memWrite_other _ _ _ _ ?_
  have hj : j < n := List.mem_range.mp hj
  simp only [regionKey]
  omega

/-! ### Egress settings and samples (R422, R424, R427) -/

section
variable {s : State}

theorem pfWrite_ready (h : s.pfReady) (op : State → State) : s.pfWrite 0 false op = op s := by
  have h : s.sec.booted = true := h
  simp [State.pfWrite, h]

/-- Setting a global field leaves a global field at another place alone. -/
theorem fld_setFld_global {f g : Fld} (hf : f.win = false ∧ f.stride = 0) (hg : g.win = false ∧ g.stride = 0)
    (hne : f.addr * 64 + f.lo ≠ g.addr * 64 + g.lo) (v : Nat) : (s.setFld f v).fld g = s.fld g := by
  refine fld_setFld_ne s f g v 0 0 0 0 ?_
  simp only [Fld.key, Fld.at, hf, hg]
  omega

theorem setSub_entry (s : State) (n : Nat) (e : EgsEntry) : (s.setSub n e).egsSub n = e := spGet_spSet_same ..

theorem setSub_other {m n : Nat} (h : m ≠ n) (e : EgsEntry) : (s.setSub n e).egsSub m = s.egsSub m := spGet_spSet_ne _ _ _ h _

theorem setSvc_entry (s : State) (n : Nat) (e : EgsEntry) : (s.setSvc n e).egsSvc n = e := spGet_spSet_same ..

theorem setSvc_other {m n : Nat} (h : m ≠ n) (e : EgsEntry) : (s.setSvc n e).egsSvc m = s.egsSvc m := spGet_spSet_ne _ _ _ h _

theorem clipSub_fits {n : Nat} {old : Nat → Bucket} {l : List ((Nat × Nat) × Bucket)} {x : (Nat × Nat) × Bucket}
    (hx : x ∈ s.clipSub n old l) (hn : x.1.2 = n) :
    x.2.c ≤ bucketSize (s.egsSub n).cbs ∧ x.2.p ≤ bucketSize (s.egsSub n).pbs := by
  obtain ⟨y, -, rfl⟩ := List.mem_map.mp hx
  by_cases hy : y.1.2 = n
  · rw [if_pos hy]
    exact ⟨Nat.min_le_right _ _, Nat.min_le_right _ _⟩
  · rw [if_neg hy] at hn
    exact absurd hn hy

/-- The buckets of a rewritten subscriber fit its new sizes. -/
theorem setSub_buckets {n : Nat} {e : EgsEntry} {x : (Nat × Nat) × Bucket} (hx : x ∈ (s.setSub n e).egs.subBk) (hn : x.1.2 = n) :
    x.2.c ≤ bucketSize ((s.setSub n e).egsSub n).cbs ∧ x.2.p ≤ bucketSize ((s.setSub n e).egsSub n).pbs := by
  have hmem : x ∈ (s.setEgs fun g => { g with subs := spSet EgsEntry.zero g.subs n e }).clipSub n (fun i => s.subBucket i n)
    s.egs.subBk := hx
  have hfits := clipSub_fits hmem hn
  exact hfits

theorem setSvc_buckets {n : Nat} {e : EgsEntry} {x : (Nat × Nat) × Bucket} (hx : x ∈ (s.setSvc n e).egs.svcBk)
    (hn : x.1 = (n / 8, n % 8)) :
    x.2.c ≤ bucketSize ((s.setSvc n e).egsSvc n).cbs ∧ x.2.p ≤ bucketSize ((s.setSvc n e).egsSvc n).pbs := by
  rw [setSvc_entry]
  obtain ⟨y, -, rfl⟩ := List.mem_map.mp hx
  by_cases hy : y.1 = (n / 8, n % 8)
  · rw [if_pos hy]
    exact ⟨Nat.min_le_right _ _, Nat.min_le_right _ _⟩
  · rw [if_neg hy] at hn
    exact absurd hn hy

theorem execSubLoad_loads {e : EgsEntry} (he : s.egsSub (s.fld F.EGS_SUB_SEL_SUB) = e) :
    (execSubLoad 0 s).egs = s.egs ∧ (execSubLoad 0 s).fld F.EGS_SUB_DATA0_CIR = e.cir % 2 ^ 20 ∧
      (execSubLoad 0 s).fld F.EGS_SUB_DATA0_PIR = e.pir % 2 ^ 20 ∧ (execSubLoad 0 s).fld F.EGS_SUB_DATA0_WEIGHT = e.weight % 2 ^ 16 ∧
      (execSubLoad 0 s).fld F.EGS_SUB_DATA0_SERVICE = e.service % 8 ∧ (execSubLoad 0 s).fld F.EGS_SUB_DATA1_CBS = e.cbs % 2 ^ 16 ∧
      (execSubLoad 0 s).fld F.EGS_SUB_DATA1_PBS = e.pbs % 2 ^ 16 := by
  subst he
  simp (disch := decide) only [execSubLoad, fld_setFld_global, fld_setFld_same, setFld_egs, ne_eq, not_true_eq_false, if_false, true_and]
  exact ⟨rfl, rfl, rfl, rfl, rfl, rfl⟩

theorem execSvcLoad_loads {e : EgsEntry} (he : s.egsSvc (s.fld F.EGS_SVC_SEL_SVC) = e) :
    (execSvcLoad 0 s).egs = s.egs ∧ (execSvcLoad 0 s).fld F.EGS_SVC_DATA0_CIR = e.cir % 2 ^ 20 ∧
      (execSvcLoad 0 s).fld F.EGS_SVC_DATA0_PIR = e.pir % 2 ^ 20 ∧ (execSvcLoad 0 s).fld F.EGS_SVC_DATA0_WEIGHT = e.weight % 2 ^ 16 ∧
      (execSvcLoad 0 s).fld F.EGS_SVC_DATA1_CBS = e.cbs % 2 ^ 16 ∧ (execSvcLoad 0 s).fld F.EGS_SVC_DATA1_PBS = e.pbs % 2 ^ 16 := by
  subst he
  simp (disch := decide) only [execSvcLoad, fld_setFld_global, fld_setFld_same, setFld_egs, ne_eq, not_true_eq_false, if_false, true_and]
  exact ⟨rfl, rfl, rfl, rfl, rfl⟩

/-! A sample of every context. -/

theorem foldl_addSample_absent {u : State} {c : Nat} {l : List Nat} (h : c ∉ l) (m : List (Nat × Sample)) :
    spGet Sample.zero (l.foldl (fun m d => u.addSample m d fun x => x.sub == d) m) c = spGet Sample.zero m c := by
  induction l generalizing m with
  | nil => rfl
  | cons a l ih =>
    simp only [List.mem_cons, not_or] at h
    rw [List.foldl_cons, ih h.2, State.addSample, spGet_spSet_ne _ _ _ h.1]

theorem foldl_addSample_present {u : State} {c : Nat} {l : List Nat} (h : c ∈ l) (hl : l.Nodup) (m : List (Nat × Sample)) :
    spGet Sample.zero (l.foldl (fun m d => u.addSample m d fun x => x.sub == d) m) c =
      (spGet Sample.zero m c).add (u.sampleOf fun x => x.sub == c).1 (u.sampleOf fun x => x.sub == c).2 := by
  induction l generalizing m with
  | nil => cases h
  | cons a l ih =>
    obtain ⟨ha, hl⟩ := List.nodup_cons.mp hl
    rw [List.foldl_cons]
    by_cases hc : c = a
    · subst hc
      rw [foldl_addSample_absent ha, State.addSample, spGet_spSet_same]
    · rw [ih ((List.mem_cons.mp h).resolve_left hc) hl, State.addSample, spGet_spSet_ne _ _ _ hc]

/-- The registers with a sample loaded. -/
def State.sampleLoaded (s : State) (i kind : Nat) (x : Sample) : State :=
  (((((s.setFld F.EGS_SAMPLE_SEL_INDEX i).setFld F.EGS_SAMPLE_SEL_KIND kind).setFld F.EGS_SAMPLE_DATA0_DEPTH_MAX x.depth).setFld
    F.EGS_SAMPLE_DATA0_DELAY_MAX x.delay).setFld F.EGS_SAMPLE_DATA1_DELAY_SUM x.sum).setFld F.EGS_SAMPLE_DATA1_SAMPLES x.count

theorem sampleLoaded_data (s : State) (i kind : Nat) (x : Sample) :
    (s.sampleLoaded i kind x).fld F.EGS_SAMPLE_DATA0_DEPTH_MAX = x.depth % 2 ^ 32 ∧
      (s.sampleLoaded i kind x).fld F.EGS_SAMPLE_DATA0_DELAY_MAX = x.delay % 2 ^ 32 ∧
      (s.sampleLoaded i kind x).fld F.EGS_SAMPLE_DATA1_DELAY_SUM = x.sum % 2 ^ 40 ∧
      (s.sampleLoaded i kind x).fld F.EGS_SAMPLE_DATA1_SAMPLES = x.count % 2 ^ 24 := by
  simp (disch := decide) only [State.sampleLoaded, fld_setFld_global, fld_setFld_same]
  exact ⟨rfl, rfl, rfl, rfl⟩

theorem execSampleSel_loads (s : State) (v : Word32) {x : Sample}
    (hx : (if v.toNat / 4096 % 2 = 0 then spGet Sample.zero s.egs.subSmp (v.toNat % 4096)
      else spGet Sample.zero s.egs.svcSmp (v.toNat % 4096)) = x) :
    ∃ e, execSampleSel 0 v s = (s.sampleLoaded (v.toNat % 4096) (v.toNat / 4096 % 2) x).setEgs (fun _ => e) ∧
      e.queue = s.egs.queue ∧ (v.toNat / 8192 % 2 = 0 → e = s.egs) ∧
      (v.toNat / 8192 % 2 = 1 → v.toNat / 4096 % 2 = 0 →
        spGet Sample.zero e.subSmp (v.toNat % 4096) = Sample.zero ∧ e.svcSmp = s.egs.svcSmp) ∧
      (v.toNat / 8192 % 2 = 1 → v.toNat / 4096 % 2 = 1 →
        spGet Sample.zero e.svcSmp (v.toNat % 4096) = Sample.zero ∧ e.subSmp = s.egs.subSmp) := by
  subst hx
  simp only [execSampleSel, ne_eq, not_true_eq_false, if_false]
  by_cases hclear : v.toNat / 8192 % 2 = 0
  · rw [if_pos hclear]
    exact ⟨s.egs, rfl, rfl, fun _ => rfl, fun h => by omega, fun h => by omega⟩
  · rw [if_neg hclear]
    by_cases hkind : v.toNat / 4096 % 2 = 0
    · rw [if_pos hkind]
      exact ⟨{ s.egs with subSmp := spSet Sample.zero s.egs.subSmp (v.toNat % 4096) Sample.zero }, rfl, rfl, fun h => by omega,
        fun _ _ => ⟨spGet_spSet_same Sample.zero Sample.zero s.egs.subSmp _, rfl⟩, fun _ h => by omega⟩
    · rw [if_neg hkind]
      exact ⟨{ s.egs with svcSmp := spSet Sample.zero s.egs.svcSmp (v.toNat % 4096) Sample.zero }, rfl, rfl, fun h => by omega,
        fun _ h => by omega, fun _ _ => ⟨spGet_spSet_same Sample.zero Sample.zero s.egs.svcSmp _, rfl⟩⟩

end

/-- Settles O37: each row by the lemmas on its operation. -/
theorem egressSettingsAndSamples : Obligations.EgressSettingsAndSamples := by
  intro s hs
  refine ⟨?subWrite, ?subLoad, ?svcWrite, ?svcLoad, ?sample, ?select⟩
  case subWrite =>
    intro n
    exact ⟨_, congrArg Host.Outcome.next (pfWrite_ready hs (execSubWrite 0)), setSub_entry .., fun m h => setSub_other h _,
      fun _ => rfl, fun x hx hn => setSub_buckets hx hn, rfl, rfl⟩
  case subLoad =>
    intro e
    exact ⟨_, congrArg Host.Outcome.next (pfWrite_ready hs (execSubLoad 0)), execSubLoad_loads rfl⟩
  case svcWrite =>
    intro n
    exact ⟨_, congrArg Host.Outcome.next (pfWrite_ready hs (execSvcWrite 0)), setSvc_entry .., fun m h => setSvc_other h _,
      fun _ => rfl, fun x hx hn => setSvc_buckets hx hn, rfl, rfl⟩
  case svcLoad =>
    intro e
    exact ⟨_, congrArg Host.Outcome.next (pfWrite_ready hs (execSvcLoad 0)), execSvcLoad_loads rfl⟩
  case sample =>
    intro u
    exact ⟨_, rfl, rfl, rfl, rfl, rfl, fun hnd c hc => foldl_addSample_present hc hnd _⟩
  case select =>
    intro v i x
    obtain ⟨e, hrun, hclauses⟩ := execSampleSel_loads s v (x := x) rfl
    refine ⟨_, congrArg Host.Outcome.next ((pfWrite_ready hs (execSampleSel 0 v)).trans hrun), hclauses.1, ?_⟩
    obtain ⟨h1, h2, h3, h4⟩ := sampleLoaded_data s (v.toNat % 4096) (v.toNat / 4096 % 2) x
    exact ⟨h1, h2, h3, h4, hclauses.2⟩

end Sys2Proof.Machine
end

section
/-! PROOFS. Chapters 4 and 7: ATTEND, placement and delivery of pages (R101, R136, R148, R149, R154, R158, R259, R267, R291, R292, R407). -/

namespace Sys2Proof.Machine

section
variable {s : State} {k : Cmd}

/-! ### ATTEND -/

theorem exec_attend (h : s.begins k Op.attend) (hc : (s.started k).startCheck k = none) :
    exec (.attend k.id) s = .next (s.traced (attendBody (s.startedCmd k) (s.started k))) :=
  next_traced (runCmd_begins h hc attendBody)

theorem exec_attend_resumes (h : s.resumes k Op.attend) : exec (.attend k.id) s = .next (s.traced (attendBody k s)) :=
  next_traced (runCmd_resumes h State.startCheck attendBody)

theorem attendBody_badBatch {st : Nat} (hm : k.mark = 0) (h : s.checkBatch k = some st) :
    attendBody k s = s.complete k.id st := by
  simp [attendBody, hm, h]

theorem attendBody_starts {q : SeqRec} {qs : List SeqRec} {p : Profile} (hm : k.mark = 0) (hb : s.checkBatch k = none)
    (hq : s.attendSeqs k = some (q :: qs)) (hp : s.prof? q.mprof = some p) : attendBody k s = s.attendStart k p (q :: qs) := by
  simp [attendBody, hm, hb, hq, hp]

/-- Once its operands have been read an ATTEND waits for a walk. -/
theorem attendGo_waits (hk : s.cmd? k.id = some k) (hf : k.fail = none) (ho : k.owed = 0) :
    s.attendGo k.id = (s.walkReady k).serveWalk := by
  simp [State.attendGo, hk, hf, ho]

theorem attendBody_resumes (h : s.resumes k Op.attend) :
    (k.mark = 2 → attendBody k s = (s.walkReady k).serveWalk) ∧ (k.mark = 4 → attendBody k s = s.serveWalk) ∧
      (k.mark = 3 → attendBody k s = s) := by
  obtain ⟨hk, -, howed, hfail, -⟩ := h
  refine ⟨fun hm => ?_, fun hm => ?_, fun hm => ?_⟩
  · simp [attendBody, hm, attendGo_waits hk hfail howed]
  · simp [attendBody, hm]
  · simp [attendBody, hm]

section
variable {p : Profile} {qs : List SeqRec} (hm : k.mark = 0)
include hm

theorem attendStart_fails {st : Nat} (h : s.attendChecks k p qs = some st) : s.attendStart k p qs = s.complete k.id st := by
  simp [State.attendStart, hm, h]

variable (h : s.attendChecks k p qs = none)
include h

theorem attendStart_empty (he : ¬ (aNq k.desc ≠ 0 ∧ aHeads k.desc ≠ 0)) :
    s.attendStart k p qs = (s.advanceTrig (aTrig k.desc)).complete k.id St.okEmpty := by
  have he : aNq k.desc = 0 ∨ aHeads k.desc = 0 := by tauto
  simp [State.attendStart, hm, h, he, State.attendEmpty]

variable (hs : aNq k.desc ≠ 0 ∧ aHeads k.desc ≠ 0)
include hs

theorem attendStart_unsigned (hv : s.variantOk p.kvar = false) :
    s.attendStart k p qs = (s.bump F.SEC_AUTH_STAT_SIG_FAIL).complete k.id St.signatureInvalid := by
  simp [State.attendStart, hm, h, hs, hv]

theorem attendStart_loads (hv : s.variantOk p.kvar = true) (hh : s.hotHas p.mprof = false) :
    s.attendStart k p qs = (((s.loadProfile p.mprof).setStats k.ctx fun x => { x with profMiss := sat32 (x.profMiss + 1) }).setCmd k.id
      fun x => { x with mark := 1 }) := by
  simp [State.attendStart, hm, h, hs, hv, hh]

theorem attendStart_reads (hv : s.variantOk p.kvar = true) (hh : s.hotHas p.mprof = true) :
    s.attendStart k p qs = (s.attendReads k p qs).attendGo k.id := by
  simp [State.attendStart, hm, h, hs, hv, hh]

end

theorem serveWalk_serves {q : SeqRec} {qs : List SeqRec} {p : Profile} (hn : s.nextWalk = some k)
    (hq : s.attendSeqs k = some (q :: qs)) (hp : s.prof? q.mprof = some p) : s.serveWalk =
      ((s.setCmd k.id fun x => { x with mark := 3 }).chargeWalk k.ctx).beginWalk k p (q :: qs) := by
  simp [State.serveWalk, hn, hq, hp]

/-! ### Profiles and pins -/

/-- The check of a variant's signature is remembered in SEC alone. -/
theorem verifyVariant_else (s : State) (v : Nat) : (s.verifyVariant v).att = s.att ∧ (s.verifyVariant v).cmds = s.cmds ∧
    (s.verifyVariant v).tier = s.tier := by
  unfold State.verifyVariant
  split
  · exact ⟨rfl, rfl, rfl⟩
  · exact ⟨rfl, rfl, rfl⟩

theorem profile_loads {m i : Nat} {p : Profile} (hl : s.att.loading.contains m = true) (hp : s.prof? m = some p)
    (hi : ((List.range 256).find? fun i => s.att.hot.all fun h => h.slot != i) = some i) :
    ∃ t, exec (.profileLoadDone m) s = .next (s.traced t) ∧ t.hotHas m = true ∧ t.att.loading.contains m = false ∧
      (∀ h ∈ s.att.hot, h ∈ t.att.hot) ∧ t.cmds = s.cmds ∧ t.tier = s.tier := by
  obtain ⟨hatt, hcmds, htier⟩ := verifyVariant_else s p.kvar
  have hfree : ∀ h ∈ s.att.hot, h.slot ≠ i := by
    simpa using List.find?_some hi
  refine ⟨{ s.verifyVariant p.kvar with att := { (s.verifyVariant p.kvar).att with
      hot := (s.att.hot.filter fun h => h.slot ≠ i) ++ [⟨i, m, (s.verifyVariant p.kvar).cycles⟩]
      loading := s.att.loading.filter (· ≠ m) } }, next_traced ?_, ?_, ?_, fun h hh => ?_, hcmds, htier⟩
  · simp [execProfLoad, hp, List.contains_iff_mem.mp hl, hatt, hi]
  · simp [State.hotHas]
  · simp
  · simp [hh, hfree h hh]

theorem exec_pinWaitResume {pfh : Nat} {f : Frame} (hf : s.frame? pfh = some f) :
    (f.pinFull = true → exec (.pinWaitResume pfh) s = .next (s.traced s)) ∧
      (f.pinFull = false → exec (.pinWaitResume pfh) s = .next (s.traced (s.resumeWalks pfh s.att.atts))) :=
  ⟨fun h => next_traced (by simp [execPinResume, hf, h]), fun h => next_traced (by simp [execPinResume, hf, h])⟩

end

/-- Settles O24: the branches of the command's body in the order in which it tries them, and the rows that let it go on. -/
theorem attendRunsAndResumes : Obligations.AttendRunsAndResumes := by
  refine ⟨?starts, ?resumes, fun s k q0 rest p hn hq hp => serveWalk_serves hn hq hp,
    fun s m i p hl hp hi => profile_loads hl hp hi, fun s pfh f hf => exec_pinWaitResume hf⟩
  case starts =>
    intro s k q0 rest p hb hm t c qs some_ hc hq hp
    have hrun {u : State} (h : attendBody c t = u) : exec (.attend k.id) s = .next (s.traced u) := h ▸ exec_attend hb hc
    refine ⟨fun st h => hrun (attendBody_badBatch (k := c) hm h), fun st hbatch h => ?_, fun hbatch h => ?_⟩
    · exact hrun ((attendBody_starts (k := c) hm hbatch hq hp).trans (attendStart_fails (k := c) hm h))
    · have hgo {u : State} (h : t.attendStart c p qs = u) := hrun ((attendBody_starts (k := c) hm hbatch hq hp).trans h)
      exact ⟨fun he => hgo (attendStart_empty (k := c) hm h he), fun hs hv => hgo (attendStart_unsigned (k := c) hm h hs hv),
        fun hs hv hh => hgo (attendStart_loads (k := c) hm h hs hv hh), fun hs hv hh => hgo (attendStart_reads (k := c) hm h hs hv hh)⟩
  case resumes =>
    intro s k h
    obtain ⟨h2, h4, h3⟩ := attendBody_resumes h
    rw [exec_attend_resumes h]
    exact ⟨fun hm => by rw [h2 hm], fun hm => by rw [h4 hm], fun hm => by rw [h3 hm]⟩

section
variable {s : State} {k : Cmd} {q : SeqRec} {p : Profile}

/-! ### PAGES_PLACE and PAGES_DROP -/

theorem seqOf?_of_open {c h : Nat} (hq : s.openSeq? c h = some q) : s.seqOf? h = some q := by
  unfold State.openSeq? at hq
  split at hq
  · next r hr =>
    split at hq
    · rw [hr, hq]
    · cases hq
  · cases hq

/-- A command that names the sequence of its handle alone passes the checks of its start. -/
theorem startCheck_of_op (ha : dOp k.desc ≠ Op.attend) (hp : dOp k.desc ≠ Op.stepPlan) (hs : cmdSpaces k.desc = [])
    (hq : s.openSeq? k.ctx (dHandle k.desc) = some q) : s.startCheck k = none :=
  startCheck_of_open (cmdSeqs_handle (hasList_of_op ha hp)) hq hs

theorem exec_pagesPlace (h : s.begins k Op.pagesPlace) (hq : (s.started k).openSeq? k.ctx (dHandle k.desc) = some q) :
    exec (.pagesPlace k.id) s = .next (s.traced (placeBody (s.startedCmd k) (s.started k))) := by
  have hop := h.2
  have hsp : cmdSpaces k.desc = [] := by
    simp only [cmdSpaces, hop]
    rfl
  exact next_traced (runCmd_begins h (startCheck_of_op (by rw [hop]; decide) (by rw [hop]; decide) hsp hq) placeBody)

theorem exec_pagesDrop (h : s.begins k Op.pagesDrop) (hq : (s.started k).openSeq? k.ctx (dHandle k.desc) = some q) :
    exec (.pagesDrop k.id) s = .next (s.traced (pagesDropBody (s.startedCmd k) (s.started k))) := by
  have hop := h.2
  have hsp : cmdSpaces k.desc = [] := by
    simp only [cmdSpaces, hop]
    rfl
  exact next_traced (runCmd_begins h (startCheck_of_op (by rw [hop]; decide) (by rw [hop]; decide) hsp hq) pagesDropBody)

/-- The frames of the pages that a PAGES_PLACE names. -/
def placeFrames (d : Word512) (p : Profile) (q : SeqRec) : List Nat :=
  (placePlaces d p q).map fun x => ((q.pte? x.1 x.2.1 x.2.2).map (·.pfh)).getD 0

theorem placeBody_begins (hm : k.mark = 0) (hq : s.openSeq? k.ctx (dHandle k.desc) = some q) (hp : s.prof? q.mprof = some p)
    (hr : dFlag k.desc 0 = true ∨ (rangeOk p q (dF k.desc 8 4) (dF k.desc 12 4) (dF k.desc 16 2) (dF k.desc 18 2) = true ∧
      dF k.desc 12 4 ≠ 0 ∧ dF k.desc 18 2 ≠ 0)) :
    placeBody k s = if !dFlag k.desc 1 then (s.placeSettings k q (placeFrames k.desc p q)).complete k.id St.ok else
      (((s.placeSettings k q (placeFrames k.desc p q)).setCmd k.id fun c => { c with mark := 1, todo := placeFrames k.desc p q }).moveAll
        k.id q.handle (placeFrames k.desc p q).length).placeEnd k.id := by
  obtain hall | ⟨hrange, hn, hl⟩ := hr
  · simp only [placeBody, seqOf?_of_open hq, hp, hm, hall, Bool.not_true, Bool.false_eq_true, false_and, if_false, if_true]
    rfl
  · simp only [placeBody, seqOf?_of_open hq, hp, hm, hrange, hn, hl, Bool.not_true, Bool.false_eq_true, and_false, or_self, if_false,
      if_true]
    rfl

theorem pagesDropBody_badRange (hq : s.openSeq? k.ctx (dHandle k.desc) = some q) (hp : s.prof? q.mprof = some p)
    (hr : rangeOk p q (dF k.desc 8 4) (dF k.desc 12 4) (dF k.desc 16 2) (dF k.desc 18 2) = false) :
    pagesDropBody k s = s.complete k.id St.badField := by
  simp [pagesDropBody, hq, hp, hr]

theorem pagesDropBody_empty (hq : s.openSeq? k.ctx (dHandle k.desc) = some q) (hp : s.prof? q.mprof = some p)
    (hr : rangeOk p q (dF k.desc 8 4) (dF k.desc 12 4) (dF k.desc 16 2) (dF k.desc 18 2) = true)
    (he : dF k.desc 12 4 = 0 ∨ dF k.desc 18 2 = 0) : pagesDropBody k s = s.complete k.id St.okEmpty := by
  simp [pagesDropBody, hq, hp, hr, he]

/-- What PAGES_DROP makes of the sequence: the rows of the range hold nothing, and an append round into it is over. -/
def dropRange (p : Profile) (lpi n lf lc : Nat) (r : SeqRec) : SeqRec :=
  { r with
    ptes := updIf r.ptes (fun e => inRange lpi n lf lc e && e.pfh != 0) Pte.dropped
    round := if decide (lpi ≤ r.len / p.B) && decide (r.len / p.B < lpi + n) then none else r.round }

theorem pagesDropBody_drops (hq : s.openSeq? k.ctx (dHandle k.desc) = some q) (hp : s.prof? q.mprof = some p)
    (hr : rangeOk p q (dF k.desc 8 4) (dF k.desc 12 4) (dF k.desc 16 2) (dF k.desc 18 2) = true)
    (hn : dF k.desc 12 4 ≠ 0) (hl : dF k.desc 18 2 ≠ 0) : pagesDropBody k s =
      ((s.setSeq q.idx (dropRange p (dF k.desc 8 4) (dF k.desc 12 4) (dF k.desc 16 2) (dF k.desc 18 2))).dropRefs
        ((q.ptes.filter fun e => inRange (dF k.desc 8 4) (dF k.desc 12 4) (dF k.desc 16 2) (dF k.desc 18 2) e && e.pfh != 0).map
          (·.pfh))).complete k.id St.ok := by
  simp only [pagesDropBody, hq, hp, hr, hn, hl, Bool.not_true, Bool.false_eq_true, or_self, if_false]
  rfl

/-! ### PAGES_DELIVER -/

theorem exec_pagesDeliver (h : s.begins k Op.pagesDeliver) (hc : (s.started k).startCheck k = none) :
    exec (.pagesDeliver k.id) s = .next (s.traced (deliverBody (s.startedCmd k) (s.started k))) :=
  next_traced (runCmd_begins h hc deliverBody)

section
variable (hm : k.mark = 0) (hq : s.openSeq? k.ctx (dHandle k.desc) = some q) (hp : s.prof? q.mprof = some p)
include hm hq hp

theorem deliverBody_fails {st : Nat} (hc : s.deliverCheck k q p = some st) : deliverBody k s = s.complete k.id st := by
  simp [deliverBody, seqOf?_of_open hq, hp, hm, hc]

theorem deliverBody_empty (hc : s.deliverCheck k q p = none) (hn : dF k.desc 12 4 * dF k.desc 18 2 * dF k.desc 22 2 = 0) :
    deliverBody k s = (s.advanceTrig (dF k.desc 26 2)).complete k.id St.okEmpty := by
  simp only [deliverBody, seqOf?_of_open hq, hp, hm, hc, hn, ne_eq, not_true_eq_false, if_false, if_true]

theorem deliverBody_runs (hc : s.deliverCheck k q p = none) (hn : dF k.desc 12 4 * dF k.desc 18 2 * dF k.desc 22 2 ≠ 0)
    {caps : List Nat} (hcaps : ((List.range (dF k.desc 18 2)).map fun i => q.visible (dF k.desc 16 2 + i)) = caps) :
    deliverBody k s = (s.setCmd k.id fun c => { c with mark := 1, todo := caps }).deliverRun { k with mark := 1, todo := caps } q p := by
  subst hcaps
  simp only [deliverBody, seqOf?_of_open hq, hp, hm, hc, hn, ne_eq, not_true_eq_false, if_false]

end

theorem deliverRun_dark (h : s.setDark k.ctx = true) : s.deliverRun k q p = s.finish k.id St.deviceError := by
  simp [State.deliverRun, h]

theorem deliverRun_writes {u : State} (hd : s.setDark k.ctx = false) (hc : k.count = 0)
    (hw : s.deliverFrom k q p k.todo (deliverPlaces k.desc) 0 = .ok (u, true)) (hmet : ((u.cmd? k.id).map (·.met)).getD [] = []) :
    s.deliverRun k q p = (u.advanceTrig (dF k.desc 26 2)).finish k.id St.ok
      { rlen := dF k.desc 12 4 * dF k.desc 18 2 * dF k.desc 22 2 * p.ldec } := by
  simp [State.deliverRun, hd, hc, hw, State.deliverEnd, hmet]

end

/-- Settles O26: both commands by the branches of their bodies. -/
theorem placeAndDropPages : Obligations.PlaceAndDropPages := by
  refine ⟨?place, ?drop⟩
  case place =>
    intro s k q p hb hm t d ps hq hp hr
    have hbody := placeBody_begins (k := s.startedCmd k) hm hq hp hr
    have hrun {u : State} (h : placeBody (s.startedCmd k) t = u) : exec (.pagesPlace k.id) s = .next (s.traced u) :=
      h ▸ exec_pagesPlace hb hq
    refine ⟨fun hf => hrun (hbody.trans (if_pos ?_)), fun hf => hrun (hbody.trans (if_neg ?_))⟩
    · simpa using hf
    · simpa using hf
  case drop =>
    intro s k q p hb t d inr hq hp
    have hrun {u : State} (h : pagesDropBody (s.startedCmd k) t = u) : exec (.pagesDrop k.id) s = .next (s.traced u) :=
      h ▸ exec_pagesDrop hb hq
    exact ⟨fun hr => hrun (pagesDropBody_badRange (k := s.startedCmd k) hq hp hr),
      fun hr he => hrun (pagesDropBody_empty (k := s.startedCmd k) hq hp hr he),
      fun hr hn hl => ⟨dropRange p (dF d 8 4) (dF d 12 4) (dF d 16 2) (dF d 18 2), fun _ => rfl, fun _ => rfl,
        hrun (pagesDropBody_drops (k := s.startedCmd k) hq hp hr hn hl)⟩⟩

/-- Settles O27: the branches of the command's body. -/
theorem deliverWritesPages : Obligations.DeliverWritesPages := by
  intro s k q p hb hm h0 t c d n caps v hc hq hp
  have hrun {u : State} (h : deliverBody c t = u) : exec (.pagesDeliver k.id) s = .next (s.traced u) := h ▸ exec_pagesDeliver hb hc
  refine ⟨fun st h => hrun (deliverBody_fails (k := c) hm hq hp h), fun h => ⟨fun hn => ?_, fun hn hd => ?_, fun u hn hd hw hmet => ?_⟩⟩
  · exact hrun (deliverBody_empty (k := c) hm hq hp h hn)
  · exact hrun ((deliverBody_runs (k := c) hm hq hp h hn rfl).trans (deliverRun_dark (k := { c with mark := 1, todo := caps }) hd))
  · exact hrun ((deliverBody_runs (k := c) hm hq hp h hn rfl).trans
      (deliverRun_writes (k := { c with mark := 1, todo := caps }) hd h0 hw hmet))

end Sys2Proof.Machine
end

section
/-! PROOFS. Chapter 6: lookups, cursors, publication and retirement (R221, R224, R226, R231 to R238). -/

namespace Sys2Proof.Machine

section
variable {s : State} {k : Cmd}

/-! ### PREFIX_LOOKUP -/

theorem exec_prefixLookup (h : s.begins k Op.prefixLookup) (hc : (s.started k).startCheck k = none) :
    exec (.prefixLookup k.id) s = .next (s.traced (lookupBody (s.startedCmd k) (s.started k))) :=
  next_traced (runCmd_begins h hc lookupBody)

section
variable {x : Ctx} (hl : s.lookup? k.id = none) (hx : s.ctx? k.ctx = some x)
include hl hx

theorem lookupBody_asks (ha : s.mustAsk k (lkRef k.desc) = true) : lookupBody k s = s.askRef k (lkRef k.desc) := by
  simp [lookupBody, hl, hx, ha]

variable (ha : s.mustAsk k (lkRef k.desc) = false)
include ha

theorem lookupBody_fails {st : Nat} (hc : s.lookupCheck k x = .error st) : lookupBody k s = s.complete k.id st := by
  simp [lookupBody, hl, hx, ha, hc]

theorem lookupBody_empty {pb : Profile × Base} (hc : s.lookupCheck k x = .ok pb) (hn : lkNblk k.desc = 0) :
    lookupBody k s = s.complete k.id St.okEmpty := by
  simp [lookupBody, hl, hx, ha, hc, hn]

theorem lookupBody_runs {p : Profile} {b : Base} {toks : List Byte} {rest : List (List Byte)} (hc : s.lookupCheck k x = .ok (p, b))
    (hn : lkNblk k.desc ≠ 0) (hr : k.reads = toks :: rest) : lookupBody k s = s.lookupRun k p b toks := by
  simp [lookupBody, hl, hx, ha, hc, hn, hr]

end

/-! ### Cursors -/

theorem exec_pxiNext (h : s.begins k Op.pxiNext) :
    exec (.pxiNext k.id) s = .next (s.traced (nextBody (s.startedCmd k) (s.started k))) :=
  next_traced (runCmd_begins h (check := fun _ _ => none) rfl nextBody)

theorem sendQuery_else (s : State) (ctx : Nat) (m : SvcMsg) (l : List Nat) :
    (s.sendQuery ctx m l).pxi = s.pxi ∧ (s.sendQuery ctx m l).cmds = s.cmds := by
  induction l generalizing s with
  | nil => exact ⟨rfl, rfl⟩
  | cons p t ih => exact ih (s.svcFor ctx p m)

/-- A cursor that ends stands no longer, and commands stay. -/
theorem endCursor_else (s : State) (c : Cursor) :
    (s.endCursor c).pxi = (s.freeCursor c.slot).pxi ∧ (s.endCursor c).cmds = s.cmds := by
  unfold State.endCursor
  extract_lets t
  split
  · exact sendQuery_else ..
  · exact ⟨rfl, rfl⟩

theorem mem_freeCursor {slot : Nat} {y : Cursor} : y ∈ (s.freeCursor slot).pxi.cursors ↔ y ∈ s.pxi.cursors ∧ y.slot ≠ slot := by
  simp [State.freeCursor, State.setPxi]

/-- With FREE, or without a match left, the cursor ends. -/
theorem nextBody_frees {c : Cursor} (hc : s.cursorOf? k = some c) (h : dFlag k.desc 0 = true ∨ (c.casc = none ∧ c.list = [])) :
    nextBody k s = (s.endCursor c).complete k.id St.ok := by
  obtain hf | ⟨hcasc, hl⟩ := h
  · simp [nextBody, hc, hf]
  · simp [nextBody, hc, hcasc, hl]

theorem nextBody_returns {c : Cursor} {m : Match} {l : List Match} (hc : s.cursorOf? k = some c) (hf : dFlag k.desc 0 = false)
    (hcasc : c.casc = none) (hl : c.list = m :: l) : nextBody k s = (s.setPxi fun x => { x with
      cursors := updIf x.cursors (fun y => y.slot == c.slot) fun y => { y with list := l } }).complete k.id St.ok
        { result := m.ref.toNat } := by
  simp [nextBody, hc, hf, hcasc, hl]

theorem complete_pxi (hk : s.cmd? k.id = some k) (st : Nat) (r : Fin) : (s.complete k.id st r).pxi = s.pxi :=
  (congrArg State.pxi (complete_kept hk st r) :)

theorem pxiNext_frees {c : Cursor} (h : s.begins k Op.pxiNext) (hc : (s.started k).cursorOf? k = some c)
    (hf : dFlag k.desc 0 = true ∨ (c.casc = none ∧ c.list = [])) : ∃ u, exec (.pxiNext k.id) s = .next (s.traced u) ∧
      (∀ y ∈ u.pxi.cursors, y.slot ≠ c.slot) ∧ u.cmd? k.id = none := by
  obtain ⟨hpxi, hcmds⟩ := endCursor_else (s.started k) c
  have hk : ((s.started k).endCursor c).cmd? (s.startedCmd k).id = some (s.startedCmd k) :=
    (congrArg (fun l => l.find? fun x => x.id == k.id) hcmds).trans (started_cmd? h.1.1)
  refine ⟨_, (exec_pxiNext h).trans (congrArg (fun u => Host.Outcome.next (s.traced u)) (nextBody_frees (k := s.startedCmd k) hc hf)),
    fun y hy => ?_, cmd?_complete_same hk _ _⟩
  rw [complete_pxi hk, hpxi] at hy
  exact (mem_freeCursor.mp hy).2

theorem cursor_expires {slot : Nat} {c : Cursor} (hc : s.pxi.cursors.find? (fun y => y.slot == slot) = some c) :
    ∃ t, exec (.cursorExpire slot) s = .next (s.traced t) ∧ (∀ y ∈ t.pxi.cursors, y.slot ≠ slot) ∧ c.until_ ≤ t.cycles ∧
      (∀ y ∈ s.pxi.cursors, y.slot ≠ slot → y ∈ t.pxi.cursors) ∧ t.cmds = s.cmds := by
  refine ⟨(s.reach c.until_).freeCursor slot, next_traced ?_, fun y hy => (mem_freeCursor.mp hy).2, Nat.le_max_right _ _,
    fun y hy hne => mem_freeCursor.mpr ⟨hy, hne⟩, rfl⟩
  simp [execCursorEnd, hc]

end

/-- Settles O28: the branches of the two commands' bodies, and the end of a cursor. -/
theorem lookupsAndCursors : Obligations.LookupsAndCursors := by
  refine ⟨?lookup, ?next, fun s slot c hc => cursor_expires hc⟩
  case lookup =>
    intro s k x hb t c hc hl hx
    have hrun {u : State} (h : lookupBody c t = u) : exec (.prefixLookup k.id) s = .next (s.traced u) := h ▸ exec_prefixLookup hb hc
    exact ⟨fun ha => hrun (lookupBody_asks (k := c) hl hx ha), fun ha => ⟨fun st h => hrun (lookupBody_fails (k := c) hl hx ha h),
      fun pb h hn => hrun (lookupBody_empty (k := c) hl hx ha h hn),
      fun p b toks rest h hn hr => hrun (lookupBody_runs (k := c) hl hx ha h hn hr)⟩⟩
  case next =>
    intro s k c hb t hc
    exact ⟨fun hf => pxiNext_frees hb hc hf, fun m l hf hcasc hl => (exec_pxiNext hb).trans
      (congrArg (fun u => Host.Outcome.next (s.traced u)) (nextBody_returns (k := s.startedCmd k) hc hf hcasc hl))⟩

/-! ### Frames, references and leases are no matter of the prefix index -/

@[simp] theorem bump_pxi (s : State) (f : Fld) (n i c : Nat) : (s.bump f n i c).pxi = s.pxi := rfl

@[simp] theorem svcFor_pxi (s : State) (ctx dst : Nat) (m : SvcMsg) : (s.svcFor ctx dst m).pxi = s.pxi := rfl

@[simp] theorem svc_pxi (s : State) (dst : Nat) (m : SvcMsg) : (s.svc dst m).pxi = s.pxi := rfl

@[simp] theorem post_pxi (s : State) (m : TxMsg) : (s.post m).pxi = s.pxi := rfl

theorem putFlash_pxi (s : State) (g num : Nat) (h : Hdr) (bytes : List Byte) :
    (s.putFlash g num h bytes).1.pxi = s.pxi := rfl

@[simp] theorem chargeProgram_pxi (s : State) (chunks : Nat) : (s.chargeProgram chunks).pxi = s.pxi := rfl

@[simp] theorem notePrio_pxi (s : State) (p part : Nat) (disc : Bool) : (s.notePrio p part disc).pxi = s.pxi := by
  unfold State.notePrio
  split <;> simp

@[simp] theorem startProgram_pxi (s : State) (p : Nat) (k : PgmKind) (disc : Bool) : (s.startProgram p k disc).pxi = s.pxi := by
  unfold State.startProgram
  (repeat' split) <;> simp [putFlash_pxi]

@[simp] theorem startWanted_pxi (s : State) (p : Nat) : (s.startWanted p).pxi = s.pxi := by
  unfold State.startWanted
  (repeat' split) <;> simp

@[simp] theorem burlUpdate_pxi (s : State) (p : Nat) : (s.burlUpdate p).pxi = s.pxi := by
  unfold State.burlUpdate
  split <;> simp

@[simp] theorem removeFrames_pxi (s : State) (gone : Frame → Bool) : (s.removeFrames gone).pxi = s.pxi := rfl

@[simp] theorem freeIfIdle_pxi (s : State) (p : Nat) : (s.freeIfIdle p).pxi = s.pxi := by
  unfold State.freeIfIdle
  (repeat' split) <;> simp

@[simp] theorem addRef_pxi (s : State) (p : Nat) : (s.addRef p).pxi = s.pxi := by
  simp [State.addRef]

@[simp] theorem subRef_pxi (s : State) (p : Nat) : (s.subRef p).pxi = s.pxi := by
  simp [State.subRef]

@[simp] theorem setLeases_pxi (s : State) (f : List Lease → List Lease) : (s.setLeases f).pxi = s.pxi := rfl

@[simp] theorem notifyWaiters_pxi (s : State) (o l : Nat) (ws : List Waiter) : (s.notifyWaiters o l ws).pxi = s.pxi :=
  (congrArg State.pxi (notifyWaiters_kept s o l ws) :)

@[simp] theorem endLease_pxi (s : State) (l : Lease) (o : Option Nat) : (s.endLease l o).pxi = s.pxi :=
  (congrArg State.pxi (endLease_kept s l o) :)

@[simp] theorem settleLeases_pxi (s : State) (l : List Lease) : (s.settleLeases l).pxi = s.pxi := by
  induction l generalizing s with
  | nil => rfl
  | cons x t ih =>
    unfold State.settleLeases
    split <;> simp [ih]

@[simp] theorem mapLeasePages_pxi (s : State) (p : LeasePage → Bool) (f : LeasePage → LeasePage) :
    (s.mapLeasePages p f).pxi = s.pxi := rfl

@[simp] theorem leaseLost_pxi (s : State) (m : MetPage) : (s.leaseLost m).pxi = s.pxi := by
  simp [State.leaseLost]

@[simp] theorem dropRef_pxi (s : State) (p : Nat) : (s.dropRef p).pxi = s.pxi := by
  simp only [State.dropRef]
  (repeat' split) <;> simp

@[simp] theorem addRefs_pxi (s : State) (l : List Pte) : (s.addRefs l).pxi = s.pxi := by
  induction l generalizing s with
  | nil => rfl
  | cons x t ih =>
    unfold State.addRefs
    split <;> simp [ih]

@[simp] theorem persistUpdate_pxi (s : State) (p : Nat) : (s.persistUpdate p).pxi = s.pxi := rfl

@[simp] theorem persistAll_pxi (s : State) (l : List Pte) : (s.persistAll l).pxi = s.pxi := by
  induction l generalizing s with
  | nil => rfl
  | cons x t ih => simp [State.persistAll, ih]

@[simp] theorem dropRows_pxi (s : State) (l : List Pte) : (s.dropRows l).pxi = s.pxi := by
  induction l generalizing s with
  | nil => rfl
  | cons x t ih =>
    unfold State.dropRows
    split <;> simp [ih]

section
variable {s : State} {k : Cmd}

/-! ### PREFIX_PUBLISH -/

theorem exec_prefixPublish (h : s.begins k Op.prefixPublish) (hc : (s.started k).startCheck k = none) :
    exec (.prefixPublish k.id) s = .next (s.traced (publishBody (s.startedCmd k) (s.started k))) :=
  next_traced (runCmd_begins h hc publishBody)

section
variable {q : SeqRec} {p : Profile} (hl : s.pub? k.id = none) (ha : s.fld F.FXT_DOM_STAT_ADMITTING ≠ 1)
include hl ha

theorem publishBody_asks (hr : s.readOnly = false) (hm : s.mustAsk k (dF k.desc 8 8) = true) :
    publishBody k s = s.askRef k (dF k.desc 8 8) := by
  simp [publishBody, hl, ha, hr, hm]

variable (hq : s.openSeq? k.ctx (dHandle k.desc) = some q) (hp : s.prof? q.mprof = some p)
include hq hp

theorem publishBody_readOnly (hr : s.readOnly = true) : publishBody k s = s.complete k.id St.domainReadOnly := by
  simp [publishBody, hl, ha, hq, hp, hr, State.publishCheck]

variable (hm : s.mustAsk k (dF k.desc 8 8) = false)
include hm

theorem publishBody_fails {st : Nat} (hc : s.publishCheck k q p = .error st) : publishBody k s = s.complete k.id st := by
  simp [publishBody, hl, ha, hq, hp, hm, hc]

theorem publishBody_empty {b : Base} (hc : s.publishCheck k q p = .ok b) (hd : dF k.desc 16 4 = 0) :
    publishBody k s = s.complete k.id St.okEmpty := by
  simp [publishBody, hl, ha, hq, hp, hm, hc, hd]

theorem publishBody_runs {b : Base} {toks : List Byte} {rest : List (List Byte)} (hc : s.publishCheck k q p = .ok b)
    (hd : dF k.desc 16 4 ≠ 0) (hr : k.reads = toks :: rest) : publishBody k s = s.pubRun k q p b toks := by
  simp [publishBody, hl, ha, hq, hp, hm, hc, hd, hr]

end

/-! The digests are hashed; then the first block decides, or the anchor is made. -/

section
variable {q : SeqRec} {p : Profile} {b : Base} {toks : List Byte} {ds : List Nat} {h : State}
  (hds : chain (s.salt q.sdom) q.mprof p.B (dF k.desc 16 4 - b.depth) b.last toks = ds)
  (hh : (s.hashChain (ds.length * blockCompressions p.B)).1 = h)
include hds hh

theorem pubRun_poisoned (hlim : h.publishable q (dF k.desc 16 4) ≤ b.depth) : s.pubRun k q p b toks =
    h.completeMet k ((q.ptes.filter fun e => e.lpi == b.depth && h.poisonedPage e).map fun e =>
      ⟨q.handle, e.lpi, e.layer, e.head, e.pfh, false⟩) := by
  simp only [State.pubRun, hds, hh, hlim, if_true]

theorem pubRun_full (hlim : b.depth < h.publishable q (dF k.desc 16 4)) (ht : h.takeAnchor = none) :
    s.pubRun k q p b toks = h.complete k.id St.noSpace := by
  simp only [State.pubRun, hds, hh, Nat.not_le.mpr hlim, ht, if_false]

end

/-- The anchor of a publication. -/
def State.pubAnchor (s : State) (k : Cmd) (q : SeqRec) (ds : List Nat) (i g : Nat) : Anchor :=
  ⟨i, g, q.sdom, q.mprof, q.part,
    (q.ptes.filter fun e => decide (e.lpi < dF k.desc 16 4)).map fun e => { e with s := true, g := false, grain := none },
    ((s.refInfo? k (dF k.desc 8 8)).map (·.digests)).getD [] ++ ds, 0, 0, none, [], s.epoch⟩

/-- The state with the anchor made and its rows shared. -/
def State.anchored (s : State) (q : SeqRec) (depth : Nat) (a : Anchor) : State :=
  (((s.setPxi fun x => { x with anchors := x.anchors ++ [a] }).addRefs a.ptes).setSeq q.idx fun r => { r with
    ptes := updIf r.ptes (fun e => decide (e.lpi < depth) && e.pfh != 0) fun e => { e with s := true } }).persistAll a.ptes

theorem anchored_pxi (s : State) (q : SeqRec) (depth : Nat) (a : Anchor) :
    (s.anchored q depth a).pxi = { s.pxi with anchors := s.pxi.anchors ++ [a] } := by
  have hset (t : State) (f : SeqRec → SeqRec) : (t.setSeq q.idx f).pxi = t.pxi := rfl
  rw [State.anchored, persistAll_pxi, hset, addRefs_pxi]
  rfl

/-- The inserts that a publication has to do. -/
def pubTodo (base lim : Nat) (ds : List Nat) : List (Nat × Nat) :=
  (((List.range ds.length).zip ds).map fun x => (base + x.1 + 1, x.2)).filter fun x => decide (x.1 ≤ lim)

theorem pubRun_anchors {q : SeqRec} {p : Profile} {b : Base} {toks : List Byte} {ds : List Nat} {h u : State} {i g : Nat}
    (hds : chain (s.salt q.sdom) q.mprof p.B (dF k.desc 16 4 - b.depth) b.last toks = ds)
    (hh : (s.hashChain (ds.length * blockCompressions p.B)).1 = h) (hlim : b.depth < h.publishable q (dF k.desc 16 4))
    (ht : h.takeAnchor = some (u, i, g)) {a : Anchor} (ha : u.pubAnchor k q ds i g = a) {w : Publish}
    (hw : (⟨k.id, a.handle, dF k.desc 16 4, pubTodo b.depth (h.publishable q (dF k.desc 16 4)) ds, none, 0, none⟩ : Publish) = w) :
    s.pubRun k q p b toks = ((u.anchored q (dF k.desc 16 4) a).setPxi fun x => { x with pubs := x.pubs ++ [w] }).pubStep w q.sdom
      q.mprof k.ctx (ds.length + 1) := by
  subst ha hw
  simp only [State.pubRun, hds, hh, Nat.not_le.mpr hlim, ht, if_false, List.length_map, List.length_zip, List.length_range, Nat.min_self]
  rfl

/-- The hash cores and their counts are no matter of the anchors, nor of the part's identity. -/
theorem hashChain_else (s : State) (n : Nat) :
    (s.hashChain n).1.pxi.anchors = s.pxi.anchors ∧ (s.hashChain n).1.ownPart = s.ownPart := by
  unfold State.hashChain
  extract_lets busy full done u
  have hu : u.pxi = s.pxi ∧ u.fld F.PXI_PART_ID_PART_ID = s.fld F.PXI_PART_ID_PART_ID := by
    have hbump (t : State) (m : Nat) : (t.bumpUnits F.PXI_DIGEST_STAT_COMPRESSIONS 1024 m).fld F.PXI_PART_ID_PART_ID =
        t.fld F.PXI_PART_ID_PART_ID := fld_setFld_global (by decide) (by decide) (by decide) _
    refine ⟨?_, (hbump _ _).trans ?_⟩
    · change (if full then s.bump F.PXI_DIGEST_STAT_CORE_WAITS else s).pxi = s.pxi
      split <;> rfl
    · split
      · exact fld_setFld_global (by decide) (by decide) (by decide) _
      · rfl
  have hanchors : u.pxi.anchors = s.pxi.anchors := congrArg Pxi.anchors hu.1
  exact ⟨hanchors, hu.2⟩

theorem takeAnchor_else {u : State} {i g : Nat} (h : s.takeAnchor = some (u, i, g)) :
    u.pxi.anchors = s.pxi.anchors ∧ u.ownPart = s.ownPart := by
  unfold State.takeAnchor at h
  split at h
  · obtain ⟨rfl, -, -⟩ := by simpa using h
    exact ⟨rfl, rfl⟩
  · split at h
    · cases h
    · obtain ⟨rfl, -, -⟩ := by simpa using h
      exact ⟨rfl, rfl⟩

theorem refInfo?_congr {u : State} (ha : u.pxi.anchors = s.pxi.anchors) (ho : u.ownPart = s.ownPart) (k : Cmd) (r : Nat) :
    u.refInfo? k r = s.refInfo? k r := by
  simp only [State.refInfo?, State.refAnchor?, State.anchor?, ha, ho]

/-! The inserts. -/

theorem pubStep_done {w : Publish} (sdom mprof ctx n : Nat) (h : w.todo = []) : s.pubStep w sdom mprof ctx n = s.pubDone w none := by
  cases n with
  | zero => rfl
  | succ n => simp [State.pubStep, h]

section
variable {w : Publish} {sdom mprof ctx n depth d : Nat} {rest : List (Nat × Nat)} {u : State} (ht : w.todo = (depth, d) :: rest)
  (hh : s.homeOf d = s.ownPart)
include ht hh

theorem pubStep_created (hi : s.insertEntry d sdom mprof depth w.anchor s.ownPart s.epoch true = (u, .created)) :
    s.pubStep w sdom mprof ctx (n + 1) = u.pubStep { w.note u.ownPart depth none with todo := rest } sdom mprof ctx n := by
  simp [State.pubStep, ht, hh, hi]

theorem pubStep_existing {m : Match} (hi : s.insertEntry d sdom mprof depth w.anchor s.ownPart s.epoch true = (u, .existing m)) :
    s.pubStep w sdom mprof ctx (n + 1) = u.pubStep { w.note u.ownPart depth (some m.ref) with todo := rest } sdom mprof ctx n := by
  simp [State.pubStep, ht, hh, hi]

theorem pubStep_full (hi : s.insertEntry d sdom mprof depth w.anchor s.ownPart s.epoch true = (u, .full)) :
    s.pubStep w sdom mprof ctx (n + 1) = u.pubDone w (some St.noSpace) := by
  simp [State.pubStep, ht, hh, hi]

end

theorem exists_mem_updIf {α : Type} {P : α → Prop} {l : List α} {p : α → Bool} {f : α → α} (hf : ∀ x, P x → P (f x))
    (h : ∃ x ∈ l, P x) : ∃ x ∈ updIf l p f, P x := by
  obtain ⟨x, hx, hP⟩ := h
  refine ⟨if p x then f x else x, List.mem_map_of_mem hx, ?_⟩
  split
  · exact hf x hP
  · exact hP

/-- The entry stands in the directory, whatever row of the CAM it has. -/
def DirEnt.names (e : DirEnt) (d sdom mprof depth anchor : Nat) : Prop :=
  e.digest = d ∧ e.sdom = sdom ∧ e.mprof = mprof ∧ e.depth = depth ∧ e.anchor = anchor

theorem camInstall_keeps {e : DirEnt} {d sdom mprof depth anchor : Nat} (h : ∃ x ∈ s.pxi.dir, x.names d sdom mprof depth anchor) :
    ∃ x ∈ (s.camInstall e).pxi.dir, x.names d sdom mprof depth anchor :=
  exists_mem_updIf (fun _ hx => hx) (exists_mem_updIf (fun _ hx => hx) h)

/-- A created entry stands in the directory. -/
theorem insertEntry_created {d sdom mprof depth anchor apart epoch : Nat} {u : State}
    (h : s.insertEntry d sdom mprof depth anchor apart epoch true = (u, .created)) :
    ∃ e ∈ u.pxi.dir, e.names d sdom mprof depth anchor := by
  unfold State.insertEntry at h
  split at h
  · simp at h
  · extract_lets hb n1 n2 bk slot e v at h
    split at h
    · simp at h
    · obtain ⟨rfl, -⟩ := Prod.mk.inj h
      exact camInstall_keeps ⟨e, by simp [v, State.setPxi], rfl, rfl, rfl, rfl, rfl⟩

/-! ### PREFIX_RETIRE -/

theorem exec_prefixRetire (h : s.begins k Op.prefixRetire) (hc : (s.started k).startCheck k = none) :
    exec (.prefixRetire k.id) s = .next (s.traced (retireBody (s.startedCmd k) (s.started k))) :=
  next_traced (runCmd_begins h hc retireBody)

section
variable {x : Ctx} (hl : s.pxi.retires.any (fun y => y.id == k.id) = false) (ha : s.fld F.FXT_DOM_STAT_ADMITTING ≠ 1)
include hl ha

theorem retireBody_readOnly (hr : s.readOnly = true) : retireBody k s = s.complete k.id St.domainReadOnly := by
  simp only [retireBody, hl, ha, hr, Bool.false_or, beq_iff_eq, if_false, if_true]

variable (hr : s.readOnly = false) (hx : s.ctx? k.ctx = some x)
include hr hx

theorem retireBody_domain (hm : rtMode k.desc = 1) : retireBody k s = s.retireDomain k x := by
  simp only [retireBody, hl, ha, hr, hx, hm, Bool.false_or, beq_iff_eq, Bool.false_eq_true, if_false, if_true]

variable (hm : rtMode k.desc ≠ 1)
include hm

theorem retireBody_asks (h : s.mustAsk k (dF k.desc 8 8) = true) : retireBody k s =
    if s.reachable (refApart (dF k.desc 8 8)) then s.askRef k (dF k.desc 8 8) else s.complete k.id St.peerUnreachable := by
  simp only [retireBody, hl, ha, hr, hx, hm, h, Bool.false_or, beq_iff_eq, Bool.false_eq_true, if_false, if_true]

variable (h : s.mustAsk k (dF k.desc 8 8) = false)
include h

theorem retireBody_badHandle (hb : s.base? k (dF k.desc 8 8) = none) : retireBody k s = s.complete k.id St.badHandle := by
  simp only [retireBody, hl, ha, hr, hx, hm, h, hb, Bool.false_or, beq_iff_eq, Bool.false_eq_true, if_false]

theorem retireBody_denied {b : Base} (hb : s.base? k (dF k.desc 8 8) = some b) (hp : x.publishes b.sdom = false) :
    retireBody k s = s.complete k.id St.accessDenied := by
  simp only [retireBody, hl, ha, hr, hx, hm, h, hb, hp, Bool.false_or, beq_iff_eq, Bool.false_eq_true, if_false]

theorem retireBody_retires {b : Base} (hb : s.base? k (dF k.desc 8 8) = some b) (hp : x.publishes b.sdom = true) :
    retireBody k s = s.retireRef k (dF k.desc 8 8) (max 1 (dF k.desc 16 4)) := by
  simp only [retireBody, hl, ha, hr, hx, hm, h, hb, hp, Bool.false_or, beq_iff_eq, Bool.false_eq_true, if_false, if_true]

end

theorem retireRef_own {r fr : Nat} {a : Anchor} (h : s.refAnchor? r = some a) : s.retireRef k r fr =
    ((s.retireKey (.anchor (refAnchor r) (refApart r) fr)).1.missHomes a.idx fr
      ((s.homesFrom a fr).filter fun h => !s.reachable h)).retireAt k (.anchor (refAnchor r) (refApart r) fr)
        ((s.homesFrom a fr).filter s.reachable) (s.retireKey (.anchor (refAnchor r) (refApart r) fr)).2 := by
  simp only [State.retireRef, h]

theorem lowerLive_dir (s : State) (l : List DirEnt) : (s.lowerLive l).pxi.dir = s.pxi.dir := by
  induction l generalizing s with
  | nil => rfl
  | cons e t ih =>
    rw [State.lowerLive, ih]
    (repeat' split) <;> rfl

theorem freeIdle_dir (s : State) (l : List Anchor) : (s.freeIdle l).pxi.dir = s.pxi.dir := by
  have hfree (t : State) (a : Anchor) : (t.freeAnchor a).pxi.dir = t.pxi.dir := by
    rw [State.freeAnchor, dropRows_pxi]
    rfl
  induction l generalizing s with
  | nil => rfl
  | cons a t ih =>
    unfold State.freeIdle
    split
    · exact ih s
    · rw [ih]
      split
      · exact hfree ..
      · rfl

/-- Retirement takes the entries it names out of the directory, and counts them. -/
theorem retireWhere_dir (s : State) (bad : DirEnt → Bool) : (s.retireWhere bad).1.pxi.dir = s.pxi.dir.filter (fun e => !bad e) ∧
    (s.retireWhere bad).2 = (s.pxi.dir.filter bad).length := by
  unfold State.retireWhere
  extract_lets gone t u
  exact ⟨(freeIdle_dir ..).trans (lowerLive_dir ..), rfl⟩

theorem retireKey_own (s : State) (h fr : Nat) :
    (s.retireKey (.anchor h s.ownPart fr)).1.pxi.dir =
        s.pxi.dir.filter (fun e => !(e.anchor == h && e.apart == s.ownPart && decide (fr ≤ e.depth))) ∧
      (s.retireKey (.anchor h s.ownPart fr)).2 =
        (s.pxi.dir.filter fun e => e.anchor == h && e.apart == s.ownPart && decide (fr ≤ e.depth)).length := by
  simp only [State.retireKey, if_true]
  split
  · exact retireWhere_dir ..
  · exact retireWhere_dir ..

/-- Every home is asked, and what was sent before stays. -/
theorem askRetire_asks (s : State) (ctx : Nat) (key : RetireKey) (homes : List Nat) (acc : List (Nat × Nat)) :
    (∀ m ∈ s.fxt.msgs, m ∈ (s.askRetire ctx key homes acc).1.fxt.msgs) ∧
      ∀ h ∈ homes, ∃ m ∈ (s.askRetire ctx key homes acc).1.fxt.msgs, m.dst = h ∧ ∃ req, m.carry = .svc (.retire req key) := by
  induction homes generalizing s acc with
  | nil => exact ⟨fun _ hm => hm, fun _ hh => nomatch hh⟩
  | cons h t ih =>
    obtain ⟨hold, hnew⟩ := ih (s.newReq.1.svcFor ctx h (.retire s.newReq.2 key)) (acc ++ [(s.newReq.2, h)])
    refine ⟨fun m hm => hold m (List.mem_append_left _ hm), fun x hx => ?_⟩
    obtain rfl | hx := List.mem_cons.mp hx
    · exact ⟨_, hold _ (List.mem_append_right _ (List.mem_singleton_self _)), rfl, _, rfl⟩
    · exact hnew x hx

theorem complete_fxt (s : State) (c : CmdId) (st : Nat) (r : Fin) : (s.complete c st r).fxt = s.fxt := by
  cases hk : s.cmd? c with
  | none => simp [State.complete, hk]
  | some k =>
    obtain rfl : k.id = c := by simpa using List.find?_some hk
    exact (congrArg State.fxt (complete_kept hk st r) :)

theorem settleRetire_fxt (s : State) (c : CmdId) : (s.settleRetire c).fxt = s.fxt := by
  unfold State.settleRetire
  split
  · rfl
  · split
    · exact complete_fxt ..
    · rfl

theorem retireAt_asks (s : State) (k : Cmd) (key : RetireKey) (homes : List Nat) (n : Nat) :
    ∀ h ∈ homes, ∃ m ∈ (s.retireAt k key homes n).fxt.msgs, m.dst = h ∧ ∃ req, m.carry = .svc (.retire req key) := by
  have hfxt : (s.retireAt k key homes n).fxt = (s.askRetire k.ctx key homes []).1.fxt := settleRetire_fxt ..
  rw [hfxt]
  exact (askRetire_asks s k.ctx key homes []).2

/-- The state in which a retirement waits. -/
def State.retiring (s : State) (r : Retiring) : State :=
  s.setPxi fun x => { x with retires := x.retires.filter (fun y => y.id ≠ r.id) ++ [r] }

theorem retiring_find? (s : State) (r : Retiring) : (s.retiring r).pxi.retires.find? (fun y => y.id == r.id) = some r := by
  have hold := find?_filter_ne_same s.pxi.retires (fun y => y.id) r.id
  simp only [State.retiring, State.setPxi, List.find?_append, hold, List.find?_singleton, beq_self_eq_true, if_true, Option.none_or]

/-- With no home to wait for the retirement completes at once. -/
theorem retireAt_alone (s : State) (k : Cmd) (key : RetireKey) (n : Nat) : ∃ u : State, s.retireAt k key [] n =
    u.complete k.id St.ok { result := n % two32 } ∧ u.pxi.dir = s.pxi.dir ∧ u.cmds = s.cmds ∧ u.fxt = s.fxt := by
  refine ⟨(s.retiring ⟨k.id, key, [], n⟩).setPxi fun x => { x with retires := x.retires.filter fun y => y.id ≠ k.id }, ?_, rfl, rfl, rfl⟩
  change (s.retiring ⟨k.id, key, [], n⟩).settleRetire k.id = _
  simp only [State.settleRetire, retiring_find? s ⟨k.id, key, [], n⟩, List.isEmpty_nil, if_true]

end

/-- Settles O29: both commands by the branches of their bodies, the anchor's rows and digests by `anchored_pxi`. -/
theorem publishAndRetire : Obligations.PublishAndRetire := by
  refine ⟨?publish, ?inserts, ?retire, fun s h fr => retireKey_own s h fr, ?homes⟩
  case publish =>
    intro s k q p hb t c ref depth ends hc hl ha hq hp
    have hends {u : State} (h : publishBody c t = u) : ends u := h ▸ exec_prefixPublish hb hc
    refine ⟨fun hr => hends (publishBody_readOnly (k := c) hl ha hq hp hr),
      fun hr hm => hends (publishBody_asks (k := c) hl ha hr hm), fun hm => ⟨fun st hst => ?_, fun b hok hd => ?_, ?_⟩⟩
    · exact hends (publishBody_fails (k := c) hl ha hq hp hm hst)
    · exact hends (publishBody_empty (k := c) hl ha hq hp hm hok hd)
    · intro b toks rest hok hd hr ds h lim
      have hrun := publishBody_runs (k := c) hl ha hq hp hm hok hd hr
      refine ⟨fun hlim => hends (hrun.trans (pubRun_poisoned (k := c) rfl rfl hlim)),
        fun hlim ht => hends (hrun.trans (pubRun_full (k := c) rfl rfl hlim ht)), fun u i g hlim ht => ?_⟩
      have hinfo : u.refInfo? c ref = t.refInfo? c ref := by
        obtain ⟨ha1, ho1⟩ := takeAnchor_else ht
        obtain ⟨ha2, ho2⟩ := hashChain_else t (ds.length * blockCompressions p.B)
        exact refInfo?_congr (ha1.trans ha2) (ho1.trans ho2) c ref
      have hpxi := anchored_pxi u q depth (u.pubAnchor c q ds i g)
      have hdir : (u.anchored q depth (u.pubAnchor c q ds i g)).pxi.dir = u.pxi.dir := by rw [hpxi]
      have hpubs : (u.anchored q depth (u.pubAnchor c q ds i g)).pxi.pubs = u.pxi.pubs := by rw [hpxi]
      refine ⟨_, u.pubAnchor c q ds i g, _, rfl, rfl, rfl, rfl, rfl, rfl, ?_, ?_, ?_, ?_, rfl, rfl, rfl, rfl, rfl, rfl,
        hends (hrun.trans (pubRun_anchors (k := c) rfl rfl hlim ht rfl rfl))⟩
      · exact congrArg (fun z => (Option.map RefInfo.digests z).getD [] ++ ds) hinfo
      · exact congrArg Pxi.anchors hpxi
      · exact hdir
      · exact congrArg (· ++ _) hpubs
  case inserts =>
    intro s w sdom mprof ctx n
    refine ⟨fun h => pubStep_done sdom mprof ctx n h, ?_⟩
    intro depth d rest u ht hh ins
    exact ⟨fun hi => ⟨insertEntry_created hi, pubStep_created ht hh hi⟩, fun m hi => pubStep_existing ht hh hi,
      fun hi => pubStep_full ht hh hi⟩
  case retire =>
    intro s k x hb t c ref fr ends hc hl ha hx
    have hends {u : State} (h : retireBody c t = u) : ends u := h ▸ exec_prefixRetire hb hc
    refine ⟨fun hr => hends (retireBody_readOnly (k := c) hl ha hr), fun hr => ⟨fun hm => ?_, fun hm h => ?_, fun hm h => ?_⟩⟩
    · exact hends (retireBody_domain (k := c) hl ha hr hx hm)
    · exact hends (retireBody_asks (k := c) hl ha hr hx hm h)
    · exact ⟨fun hbase => hends (retireBody_badHandle (k := c) hl ha hr hx hm h hbase),
        fun b hbase hp => hends (retireBody_denied (k := c) hl ha hr hx hm h hbase hp),
        fun b a hbase hp han => hends ((retireBody_retires (k := c) hl ha hr hx hm h hbase hp).trans (retireRef_own han))⟩
  case homes =>
    intro s k key homes n
    exact ⟨retireAt_asks s k key homes n, fun hh => hh ▸ retireAt_alone s k key n⟩

end Sys2Proof.Machine
end

section
/-! PROOFS. Chapters 8 and 9: tables, regions, RMA commands and armed pairs (R311, R313, R340, R350 to R361). -/

namespace Sys2Proof.Machine

section
variable {s : State} {k : Cmd} {bad : List (Nat × Bool)}

/-! ### TABLE_LOAD -/

theorem exec_tableLoad (h : s.begins k Op.tableLoad) (hc : (s.started k).startCheck k = none) :
    exec (.tableLoad k.id bad) s = .next (tableBody bad (s.startedCmd k) (s.started k)) :=
  congrArg Host.Outcome.next (runCmd_begins h hc (tableBody bad))

theorem tableBody_empty (hm : k.mark = 0) (hl : dF k.desc 24 4 = 0) : tableBody bad k s = s.complete k.id St.okEmpty := by
  simp only [tableBody, hm, hl, ne_eq, not_true_eq_false, if_false, if_true]

theorem tableBody_long (hm : k.mark = 0) (hl : dF k.desc 24 4 ≠ 0)
    (h : 4 * 2 ^ 20 < dF k.desc 24 4 ∨ s.spaceLong k.ctx (dImage k.desc) (dF k.desc 24 4) = false) :
    tableBody bad k s = s.complete k.id St.lengthLimit := by
  have h' : dF k.desc 24 4 > 4 * 2 ^ 20 ∨ (!s.spaceLong k.ctx (dImage k.desc) (dF k.desc 24 4)) = true :=
    h.imp_right fun h => by simp [h]
  simp only [tableBody, hm, ne_eq, not_true_eq_false, if_false]
  rw [if_neg hl, if_pos h']

theorem tableBody_reads (hm : k.mark = 0) (hl : dF k.desc 24 4 ≠ 0) (h : dF k.desc 24 4 ≤ 4 * 2 ^ 20)
    (hs : s.spaceLong k.ctx (dImage k.desc) (dF k.desc 24 4) = true) : tableBody bad k s =
      ((s.spaceRead k.id k.ctx (dImage k.desc) (dF k.desc 24 4)).setCmd k.id fun c => { c with mark := 1 }).tableGo bad k.id := by
  have h' : ¬ (dF k.desc 24 4 > 4 * 2 ^ 20 ∨ (!s.spaceLong k.ctx (dImage k.desc) (dF k.desc 24 4)) = true) :=
    not_or.mpr ⟨Nat.not_lt.mpr h, by simp [hs]⟩
  simp only [tableBody, hm, ne_eq, not_true_eq_false, if_false]
  rw [if_neg hl, if_neg h']

/-- Once its image has been read a TABLE_LOAD is judged. -/
theorem exec_tableLoad_resumes (h : s.resumes k Op.tableLoad) (hm : k.mark ≠ 0) :
    exec (.tableLoad k.id bad) s = .next (s.tableRun k bad k.reads.flatten) := by
  refine congrArg Host.Outcome.next ((runCmd_resumes h State.startCheck (tableBody bad)).trans ?_)
  obtain ⟨hk, -, howed, hfail, -⟩ := h
  simp only [tableBody, hm, ne_eq, not_false_eq_true, if_true, State.tableGo, hk, hfail, howed]

section
variable {u : State} {b : List Byte}

theorem tableRun_unsigned (h : s.checkSig 1 (signedOf b) = (u, false)) : s.tableRun k bad b = u.complete k.id St.signatureInvalid := by
  simp only [State.tableRun, h]

variable (h : s.checkSig 1 (signedOf b) = (u, true))
include h

theorem tableRun_other (ha : ¬ ((imageOf b).tset = dF k.desc 8 2 ∧ (imageOf b).len = dF k.desc 24 4 ∧ (imageOf b).mprof = dF k.desc 28 2) ∨
    u.prof? (imageOf b).mprof = none) : s.tableRun k bad b = u.complete k.id St.badField := by
  simp only [State.tableRun, h]
  split
  · rfl
  · next ha' =>
    simp only [not_or, not_not] at ha'
    simp only [ha.resolve_left (not_not.mpr ha')]

variable {p : Profile} (ha : (imageOf b).tset = dF k.desc 8 2 ∧ (imageOf b).len = dF k.desc 24 4 ∧ (imageOf b).mprof = dF k.desc 28 2)
  (hp : u.prof? (imageOf b).mprof = some p)
include ha hp

theorem tableRun_judges : s.tableRun k bad b = if u.imageOk p (imageOf b) then
    ((u.loadTables (imageOf b) (signedOf b)).damageTables bad).complete k.id St.ok else u.complete k.id St.badField := by
  have ha' : ¬ ((imageOf b).tset ≠ dF k.desc 8 2 ∨ (imageOf b).len ≠ dF k.desc 24 4 ∨ (imageOf b).mprof ≠ dF k.desc 28 2) := by
    tauto
  simp only [State.tableRun, h, hp]
  rw [if_neg ha']
  cases u.imageOk p (imageOf b) <;> rfl

end

/-! ### Regions -/

theorem exec_regionRegister (h : s.begins k Op.regionRegister) (hc : (s.started k).checkRegister k = none) :
    exec (.regionRegister k.id) s = .next (registerBody (s.startedCmd k) (s.started k)) :=
  congrArg Host.Outcome.next (runCmd_begins h hc registerBody)

/-- The state with a region more. -/
def State.withRegion (s : State) (r : Region) : State := { s with fxt := { s.fxt with regions := s.fxt.regions ++ [r] } }

theorem registerBody_host {x : Ctx} {u : State} {i g : Nat} (hx : s.ctx? k.ctx = some x) (hl : dF k.desc 12 4 ≠ 0)
    (hm : dF k.desc 8 1 = 1) (ht : s.takeRegion = some (u, i, g)) : registerBody k s =
      (u.withRegion (newRegion k.desc k.ctx x.r.part i g [])).complete k.id St.ok
        { result := (newRegion k.desc k.ctx x.r.part i g []).rkey } := by
  simp only [registerBody, hx, hl, hm, ht, Option.isNone_some, Bool.false_eq_true, if_false, if_true, State.register]
  rfl

/-- Taking an index leaves the bytes of the regions alone. -/
theorem takeRegion_mem {u : State} {i g : Nat} (h : s.takeRegion = some (u, i, g)) : u.fxt.mem = s.fxt.mem := by
  unfold State.takeRegion at h
  split at h
  · obtain ⟨rfl, -, -⟩ := by simpa using h
    rfl
  · split at h
    · cases h
    · obtain ⟨rfl, -, -⟩ := by simpa using h
      rfl

@[simp] theorem started_fxt (s : State) (k : Cmd) : (s.started k).fxt = s.fxt :=
  (congrArg State.fxt (addEnergy_kept (State.setStats _ _ _) _ _) :)

theorem exec_regionRevoke {r : Region} (h : s.begins k Op.regionRevoke)
    (hr : (s.started k).region? k.ctx (dF k.desc 8 4) = some r) :
    exec (.regionRevoke k.id) s = .next (revokeBody (s.startedCmd k) (s.started k)) :=
  congrArg Host.Outcome.next (runCmd_begins h (by simp [State.checkRevoke, hr]) revokeBody)

theorem revokeBody_cases {r : Region} (hr : s.region? k.ctx (dF k.desc 8 4) = some r)
    (hd : ∀ y ∈ s.fxt.regions, y.draining ≠ some k.id) : revokeBody k s = if s.ringIn r then s.complete k.id St.busyRetry else
      s.setRegion r.index fun y => { y with gen := (y.gen + 1) % 4096, draining := some k.id, freeing := dFlag k.desc 0 } := by
  have hnone : (s.fxt.regions.any fun r => r.draining == some k.id) = false := by
    simpa using hd
  simp only [revokeBody, hnone, hr, Bool.false_eq_true, if_false]

theorem cmd?_complete_none (s : State) (c : CmdId) (st : Nat) (r : Fin) : (s.complete c st r).cmd? c = none := by
  cases hk : s.cmd? c with
  | none => simp [State.complete, hk]
  | some k =>
    obtain rfl : k.id = c := by simpa using List.find?_some hk
    exact cmd?_complete_same hk st r

/-- The bytes of a freed region are gone, and those of every other region stay. -/
theorem freeRegion_mem (s : State) (r : Region) (a : Nat) :
    spGet 0 (s.freeRegion r).fxt.mem a = if a / 2 ^ 32 = r.index then 0 else spGet 0 s.fxt.mem a := by
  have h : spGet 0 (s.freeRegion r).fxt.mem a = if !(a / 2 ^ 32 == r.index) then spGet 0 s.fxt.mem a else 0 :=
    spGet_filter_key 0 s.fxt.mem (fun a => !(a / 2 ^ 32 == r.index)) a
  rw [h]
  simp

theorem drain_frees {i : Nat} {r : Region} {c : CmdId} (hr : s.fxt.regions.find? (fun y => y.index == i) = some r)
    (hd : r.draining = some c) (hf : r.freeing = true) : ∃ t, exec (.revokeDrainComplete i) s = .next t ∧
      (∀ y ∈ t.fxt.regions, y.index ≠ i) ∧ (∀ off, off < 2 ^ 32 → spGet 0 t.fxt.mem (regionKey i off) = 0) ∧
      (∀ a, a / 2 ^ 32 ≠ i → spGet 0 t.fxt.mem a = spGet 0 s.fxt.mem a) ∧ t.cmd? c = none := by
  obtain rfl : r.index = i := by simpa using List.find?_some hr
  have hrun : execDrain r.index s = (s.freeRegion r).complete c St.ok := by
    simp only [execDrain, hr, hd, hf, if_true]
  refine ⟨_, congrArg Host.Outcome.next hrun, ?_, fun off hoff => ?_, fun a ha => ?_, cmd?_complete_none ..⟩
  · rw [complete_fxt]
    intro y hy
    simpa using (List.mem_filter.mp hy).2
  · rw [complete_fxt, freeRegion_mem, if_pos]
    rw [regionKey, Nat.mul_comm, Nat.mul_add_div (by positivity), Nat.div_eq_of_lt hoff, Nat.add_zero]
  · rw [complete_fxt, freeRegion_mem, if_neg ha]

theorem drain_ends {i : Nat} {r : Region} {c : CmdId} (hr : s.fxt.regions.find? (fun y => y.index == i) = some r)
    (hd : r.draining = some c) (hf : r.freeing = false) : exec (.revokeDrainComplete i) s =
      .next ((s.setRegion i fun y => { y with draining := none }).complete c St.ok { result := r.rkey }) := by
  refine congrArg Host.Outcome.next ?_
  simp only [execDrain, hr, hd, hf, Bool.false_eq_true, if_false]

end

/-- Settles O30: the command's first run by the branches of its body, its second by those of its judgement. -/
theorem tableLoadStoresTheSet : Obligations.TableLoadStoresTheSet := by
  refine ⟨?begins, ?resumes⟩
  case begins =>
    intro s k bad hb hm t len hc
    have hrun {u : State} (h : tableBody bad (s.startedCmd k) t = u) : exec (.tableLoad k.id bad) s = .next u := h ▸ exec_tableLoad hb hc
    exact ⟨fun hl => hrun (tableBody_empty (k := s.startedCmd k) hm hl), fun hl h => hrun (tableBody_long (k := s.startedCmd k) hm hl h),
      fun hl h hs => hrun (tableBody_reads (k := s.startedCmd k) hm hl h hs)⟩
  case resumes =>
    intro s k bad u hr hm d obj img agrees ends
    have hends {v : State} (h : s.tableRun k bad k.reads.flatten = v) : ends v := h ▸ exec_tableLoad_resumes hr hm
    refine ⟨fun h => hends (tableRun_unsigned h), fun h => ⟨fun ha => hends (tableRun_other h ha), fun p ha hp hok => ?_,
      fun p ha hp hok => ?_⟩⟩
    · exact hends ((tableRun_judges h ha hp).trans (if_neg (by simpa using hok)))
    · exact hends ((tableRun_judges h ha hp).trans (if_pos hok))

/-- Settles O31: each row by the lemma on its body. -/
theorem regionsComeAndGo : Obligations.RegionsComeAndGo := by
  refine ⟨?register, ?revoke, fun s i r c hr hd => ⟨fun hf => drain_frees hr hd hf, fun hf => drain_ends hr hd hf⟩⟩
  case register =>
    intro s k x u i g hb t d hc hx hl hm ht
    have hrun := (exec_regionRegister hb hc).trans
      (congrArg Host.Outcome.next (registerBody_host (k := s.startedCmd k) hx hl hm ht))
    refine ⟨newRegion d k.ctx x.r.part i g [], _, hrun, rfl, rfl, rfl, rfl, if_pos hm, rfl, decide_eq_true hm, rfl, ?_⟩
    exact (takeRegion_mem ht).trans (congrArg Fabric.mem (started_fxt s k))
  case revoke =>
    intro s k r hb t hr hd
    have hrun := (exec_regionRevoke hb hr).trans (congrArg Host.Outcome.next (revokeBody_cases (k := s.startedCmd k) hr hd))
    refine ⟨fun hring => hrun.trans (congrArg Host.Outcome.next (if_pos hring)),
      fun hring => hrun.trans (congrArg Host.Outcome.next (if_neg (by simpa using hring)))⟩

section
variable {s : State} {k : Cmd}

/-! ### RMA commands -/

theorem exec_rmaWrite (h : s.begins k Op.rmaWrite) (hc : (s.started k).checkRmaRun k = none) :
    exec (.rmaWrite k.id) s = .next ((s.started k).rmaRun (s.startedCmd k)).prune :=
  congrArg (fun u : State => Host.Outcome.next u.prune) (runCmd_begins h hc rmaBody)

theorem exec_rmaWriteImm (h : s.begins k Op.rmaWriteImm) (hc : (s.started k).checkRmaRun k = none) :
    exec (.rmaWriteImm k.id) s = .next ((s.started k).rmaRun (s.startedCmd k)).prune :=
  congrArg (fun u : State => Host.Outcome.next u.prune) (runCmd_begins h hc rmaBody)

theorem exec_rmaRead (h : s.begins k Op.rmaRead) (hc : (s.started k).checkRmaRun k = none) :
    exec (.rmaRead k.id) s = .next ((s.started k).rmaRun (s.startedCmd k)) :=
  congrArg Host.Outcome.next (runCmd_begins h hc rmaBody)

theorem exec_rmaFlush (h : s.begins k Op.rmaFlush) (hc : (s.started k).checkRmaRun k = none) :
    exec (.rmaFlush k.id) s = .next ((s.started k).rmaRun (s.startedCmd k)) :=
  congrArg Host.Outcome.next (runCmd_begins h hc rmaBody)

/-- The operation of a command that is no firing has the opcode of its descriptor. -/
theorem rma_op (ha : k.armed = none) : k.rma.op = dOp k.desc := by
  simp only [Cmd.rma, ha, Option.getD_none]

section
variable {o : RmaOp} (ho : k.rma = o) (hm : k.mark = 0) (hk : s.epKind o.node ≠ 0)
include ho hm hk

theorem rmaRun_flush (hop : o.op = Op.rmaFlush) (hp : s.epKind o.node ≠ 3) : s.rmaRun k = s.flushStart k o := by
  simp only [State.rmaRun, ho, hm, hk, hop, hp, OfNat.zero_ne_ofNat, if_false, if_true]

variable (hl : s.localBad k o = none) (hf : o.op ≠ Op.rmaFlush)
include hl hf

theorem rmaRun_empty (ha : k.armed = none) (hi : o.op ≠ Op.rmaWriteImm) (hlen : o.len = 0) :
    s.rmaRun k = s.complete k.id St.okEmpty := by
  simp [State.rmaRun, ho, hm, hk, hf, hl, hi, hlen, State.rmaEnd, ha]

variable (hn : o.len ≠ 0) (hlen : o.len ≤ 268435456) (hp : s.epKind o.node ≠ 3)
include hn hlen hp

theorem rmaRun_read (hop : o.op = Op.rmaRead) : s.rmaRun k = ((s.postAll (s.readMsgs k o)).posted k.id).settleRma k.id := by
  rw [hop] at hf
  simp only [State.rmaRun, ho, hm, hk, hf, hl, hop, hn, hp, Nat.not_lt.mpr hlen, OfNat.zero_ne_ofNat, false_and, if_false, if_true]

theorem rmaRun_write {b : List Byte} (hop : o.op ≠ Op.rmaRead) (hr : k.reads = [b]) :
    s.rmaRun k = ((s.postAll (s.writeMsgs k o (b.take o.len))).posted k.id).settleRma k.id := by
  simp only [State.rmaRun, ho, hm, hk, hf, hl, hop, hn, hp, hr, Nat.not_lt.mpr hlen, OfNat.zero_ne_ofNat, false_and, if_false,
    List.isEmpty_cons, Bool.false_eq_true, and_false, List.headD_cons]

end

/-! ### Armed pairs -/

theorem armStep_goes (hk : s.cmd? k.id = some k) (hf : k.fail = none) (go : State → State) : s.armStep k.id go = go s := by
  simp [State.armStep, hk, hf]

theorem exec_wrArm (h : s.begins k Op.wrArm) (hc : (s.started k).checkArm k = none) :
    exec (.wrArm k.id) s = .next (armBody (s.startedCmd k) (s.started k)).prune := by
  obtain ⟨hk, -, -, hf, -, -⟩ := h.1
  exact congrArg Host.Outcome.next ((armStep_goes hk hf _).trans (congrArg State.prune (runCmd_begins h hc armBody)))

/-- The pair armed first among those whose threshold is reached fires. -/
theorem exec_triggerFire (hk : s.cmd? k.id = some k) (hf : k.fail = none) (hw : k.waitsFiring = true) (hr : s.reached k = true)
    (hfirst : ∀ x ∈ s.cmds, x.waitsFiring = true → s.reached x = true → dF x.desc 8 2 = dF k.desc 8 2 → k.armNo ≤ x.armNo) :
    exec (.triggerFire k.id) s = .next ((s.setCmd k.id fun x => { x with mark := 1 }).rmaRun { k with mark := 1 }).prune := by
  have hnone : (s.cmds.any fun x => x.waitsFiring && s.reached x && decide (x.armNo < k.armNo) && dF x.desc 8 2 == dF k.desc 8 2) =
      false := by
    rw [List.any_eq_false]
    intro x hx
    simp only [Bool.and_eq_true, decide_eq_true_eq, beq_iff_eq, not_and]
    rintro ⟨⟨hxw, hxr⟩, hlt⟩ hd
    exact absurd (hfirst x hx hxw hxr hd) (Nat.not_le.mpr hlt)
  refine congrArg Host.Outcome.next ((armStep_goes hk hf _).trans ?_)
  simp only [hk, hw, hr, hnone, Bool.not_false, Bool.and_self, if_true]

theorem exec_wrArmTimeout (hk : s.cmd? k.id = some k) (hw : k.waitsFiring = true) (hl : dF k.desc 40 4 ≠ 0) :
    exec (.wrArmTimeout k.id) s = .next ((s.reach (k.since + dF k.desc 40 4 * cyclesPerUs)).rmaEnd k St.timeout 0) := by
  refine congrArg Host.Outcome.next ?_
  simp [execArmEnd, hk, hw, hl]

end

/-- Settles O33: the command runs its operation, by the branches of `State.rmaRun`. -/
theorem rmaPostsMessages : Obligations.RmaPostsMessages := by
  intro s k o b hs ha hm ho t c hc hk hp
  have hop : o.op = dOp k.desc := ho ▸ rma_op ha
  have hne {n m : Nat} (h : dOp k.desc = n) (hnm : n ≠ m) : o.op ≠ m := by rwa [hop, h]
  refine ⟨fun hd hn hl => ?_, fun hd hn hlen hl hr => ?_, fun hd hn hlen hl hr => ?_, fun hd hn hlen hl => ?_, fun hd => ?_⟩
  · rw [exec_rmaWrite ⟨hs, hd⟩ hc, rmaRun_empty (k := s.startedCmd k) ho hm hk hl (hne hd (by decide)) ha (hne hd (by decide)) hn]
    rfl
  · rw [exec_rmaWrite ⟨hs, hd⟩ hc,
      rmaRun_write (k := s.startedCmd k) ho hm hk hl (hne hd (by decide)) hn hlen hp (hne hd (by decide)) hr]
    rfl
  · rw [exec_rmaWriteImm ⟨hs, hd⟩ hc,
      rmaRun_write (k := s.startedCmd k) ho hm hk hl (hne hd (by decide)) hn hlen hp (hne hd (by decide)) hr]
    rfl
  · rw [exec_rmaRead ⟨hs, hd⟩ hc, rmaRun_read (k := s.startedCmd k) ho hm hk hl (hne hd (by decide)) hn hlen hp (hop.trans hd)]
    rfl
  · rw [exec_rmaFlush ⟨hs, hd⟩ hc, rmaRun_flush (k := s.startedCmd k) ho hm hk (hop.trans hd) hp]

/-- Settles O34: each row by the lemma on it. -/
theorem armedPairsFire : Obligations.ArmedPairsFire := by
  refine ⟨?arm, fun s k hk hf hw hr hfirst => exec_triggerFire hk hf hw hr hfirst,
    fun s k hk hw hl => exec_wrArmTimeout hk hw hl⟩
  intro s k hb hn t hc
  exact (exec_wrArm hb hc).trans (congrArg (fun u : State => Host.Outcome.next u.prune) (if_pos hn))

end Sys2Proof.Machine
end

section
/-! PROOFS. Chapters 9, 10 and 14: mounting a blank, the registries and the shard map (R335, R379, R386, R487 to R490). -/

namespace Sys2Proof.Machine

section
variable {s : State} {k : Cmd}

/-! ### BLANK_MOUNT -/

/-- A mount whose blank was read is judged. -/
theorem exec_blankMount_resumes {img : Blank} (h : s.resumes k Op.blankMount) (hm : k.mark ≠ 0) (hmount : s.boot.mount = none)
    (hw : s.mountWaits (decide (dMode k.desc = 0)) (dMask k.desc) = false) (hb : s.blank.isNone = decide (dMode k.desc = 0))
    (hmode : dF k.desc 9 1 ≠ 2) : exec (.blankMount k.id img) s = .next (s.traced
      (s.mountRun k { img with obj := signedOf k.reads.flatten } (some (dBlankLen k.desc)))) := by
  refine next_traced ((runCmd_resumes h State.startCheck (mountBody img)).trans ?_)
  obtain ⟨hk, -, howed, hfail, -⟩ := h
  simp only [mountBody, hmount, hw, hb, hmode, hm, Option.any_none, Bool.or_self, Bool.false_eq_true, ne_eq, not_true_eq_false,
    not_false_eq_true, if_false, if_true, State.mountGo, hk, hfail, howed]

section
variable {b : Blank}

theorem mountRun_length (h : b.length ≠ dBlankLen k.desc) : s.mountRun k b (some (dBlankLen k.desc)) = s.mountFails k St.lengthLimit := by
  have h' : (some (dBlankLen k.desc)).any (fun n => n != b.length) = true := by simpa using Ne.symm h
  simp only [State.mountRun, h', if_true]

section
variable {u : State} {full : Bool} (hfull : decide (dMode k.desc = 0) = full) (h : b.length = dBlankLen k.desc)
include hfull h

theorem mountRun_fails {st : Nat} (hc : s.mountChecks b full (dMask k.desc) (if full then none else some k.ctx) = (u, some st)) :
    s.mountRun k b (some (dBlankLen k.desc)) = u.mountFails k st := by
  have h' : (some (dBlankLen k.desc)).any (fun n => n != b.length) = false := by simp [h]
  subst hfull
  simp only [decide_eq_true_eq] at hc
  simp only [State.mountRun, h', hc, Bool.false_eq_true, if_false]

theorem mountRun_passes (hc : s.mountChecks b full (dMask k.desc) (if full then none else some k.ctx) = (u, none)) :
    s.mountRun k b (some (dBlankLen k.desc)) = if dFlag k.desc 0 then u.complete k.id St.ok
      else if (!full) = true ∧ dMask k.desc = 0 then u.complete k.id St.okEmpty
      else u.beginMount (some k.id) none b full (dMask k.desc) := by
  have h' : (some (dBlankLen k.desc)).any (fun n => n != b.length) = false := by simp [h]
  subst hfull
  simp only [decide_eq_true_eq] at hc
  simp only [State.mountRun, h', hc, Bool.false_eq_true, if_false]

end

end

/-! ### The steps of a mount -/

/-- The mount goes on with step `n`. -/
def State.mountAt (s : State) (m : Mount) (n : Nat) : State := s.setBoot fun x => { x with mount := some { m with step := n } }

/-- One step of the mount under way. -/
theorem execMountStep_of {m : Mount} (h : s.boot.mount = some m) : execMountStep s =
    if m.step = 4 then
      if m.remount then
        if (s.changedCtxs m.img m.pmask).any (fun x => x.st != .down) then s
        else (s.remountParts m.img (s.seq.parts.filter fun p => inMask m.pmask p.r.part)).mountAt m 5
      else s.mountAt m 5
    else if m.step = 5 then (s.mountStores m.img (!m.remount)).mountAt m 6
    else if m.step = 6 then s.mountTables m
    else if m.step = 7 then s.restart.mountAt m 8
    else s.mountDone m := by
  simp only [execMountStep, h]
  rfl

end

/-- Settles O35: the command judges what was read, and each step is a branch of `execMountStep_of`. -/
theorem mountRunsItsSteps : Obligations.MountRunsItsSteps := by
  refine ⟨?mount, ?steps⟩
  case mount =>
    intro s k img u r hr hm d full b ends hmount hw hb hmode
    have hends {v : State} (h : s.mountRun k b (some (dBlankLen d)) = v) : ends v :=
      h ▸ exec_blankMount_resumes hr hm hmount hw hb hmode
    refine ⟨fun h => hends (mountRun_length h), fun h hc => ?_⟩
    refine ⟨fun st hst => ?_, fun hn hf => ?_, fun hn hf hfull hmask => ?_, fun hn hf hgo => ?_⟩
    · subst hst
      exact hends (mountRun_fails (full := full) rfl h hc)
    · subst hn
      exact hends ((mountRun_passes (full := full) rfl h hc).trans (if_pos hf))
    · subst hn
      exact hends ((mountRun_passes (full := full) rfl h hc).trans
        ((if_neg (Bool.eq_false_iff.mp hf)).trans (if_pos ⟨by simp [hfull], hmask⟩)))
    · subst hn
      refine hends ((mountRun_passes (full := full) rfl h hc).trans ((if_neg (Bool.eq_false_iff.mp hf)).trans (if_neg ?_)))
      rintro ⟨hfull, hmask⟩
      exact hgo.elim (fun h => by simp [h] at hfull) fun h => h hmask
  case steps =>
    intro s m hm at_
    have hrun {v : State} (h : execMountStep s = v) : exec .mountStepComplete s = .next (s.traced v) := next_traced h
    have hstep := execMountStep_of hm
    refine ⟨fun h4 hr => hrun ?_, fun h4 hr => ⟨fun hany => hrun ?_, fun hany => hrun ?_⟩, fun h5 => hrun ?_, fun h6 => hrun ?_,
      fun h7 => hrun ?_, fun h8 => hrun ?_⟩
    · rw [hstep, if_pos h4, if_neg (by simp [hr])]
      rfl
    · rw [hstep, if_pos h4, if_pos hr, if_pos hany]
    · rw [hstep, if_pos h4, if_pos hr, if_neg (by simpa using hany)]
      rfl
    · simp only [hstep, h5]
      rfl
    · simp only [hstep, h6]
      rfl
    · simp only [hstep, h7]
      rfl
    · simp only [hstep, h8]
      rfl

section
variable {s : State}

/-! ### Messages of the domain reach an open part -/

theorem idleWake_of_listening (h : s.listening) : s.idleWake = s := if_neg h.2

theorem memberMsg_of_listening (h : s.listening) (op : State → State) : s.memberMsg op = op s := by
  simp [State.memberMsg, h.1, idleWake_of_listening h]

theorem peerMsg_of_open (h : s.open_) (op : State → State) : s.peerMsg op = op s := by
  simp [State.peerMsg, h.1.1, h.2, idleWake_of_listening h.1]

/-! ### Registries -/

/-- Every element of a 64-bit array that is loaded takes its part of the value. -/
theorem loadFields_fld {f : Fld} (hf : f.win = false ∧ f.stride ≠ 0 ∧ f.width = 64) (v : Nat) {l : List Nat} {i : Nat}
    (hi : i ∈ l ∨ s.fld f i = v / 2 ^ (64 * i) % 2 ^ 64) : (s.loadFields f v l).fld f i = v / 2 ^ (64 * i) % 2 ^ 64 := by
  obtain ⟨hwin, hstride, hwidth⟩ := hf
  induction l generalizing s with
  | nil => exact hi.resolve_left (List.not_mem_nil)
  | cons j t ih =>
    refine ih ?_
    by_cases hj : i = j
    · subst hj
      exact .inr ((fld_setFld_same ..).trans (by rw [hwidth, Nat.mod_mod]))
    · refine hi.imp (fun h => (List.mem_cons.mp h).resolve_left hj) fun h => (fld_setFld_ne s f f _ j 0 i 0 ?_).trans h
      simp only [Fld.key, Fld.at, hwin, ne_eq, Nat.add_right_cancel_iff]
      intro he
      exact hj (Nat.eq_of_mul_eq_mul_right (Nat.pos_of_ne_zero hstride) (by omega))

theorem loadFields_else (s : State) (f : Fld) (v : Nat) (l : List Nat) :
    (s.loadFields f v l).fxt = s.fxt ∧ (s.loadFields f v l).dom = s.dom := by
  induction l generalizing s with
  | nil => exact ⟨rfl, rfl⟩
  | cons j t ih => exact ih (s.setFld f _ j)

theorem putEps_ep (s : State) (n : Nat) (e : Word512) : (s.putEps [(n, e)]).ep n = e := spGet_spSet_same ..

theorem putEps_ep_ne {m n : Nat} (h : m ≠ n) (e : Word512) : (s.putEps [(n, e)]).ep m = s.ep m := spGet_spSet_ne _ _ _ h _

theorem putEps_isManager (s : State) (n : Nat) (e : Word512) : (s.putEps [(n, e)]).isManager = s.isManager := rfl

theorem putEps_otherMembers (s : State) (n : Nat) (e : Word512) : (s.putEps [(n, e)]).otherMembers = s.otherMembers := rfl

theorem execEpStore_of {n : Nat} {e : Word512} (hn : s.fld F.FXT_EP_SEL_NODE = n) (he : s.epData = e) : execEpStore 0 s =
    if s.isManager then (s.putEps [(n, e)]).svcAll (.regUpdate [(n, e)] []) s.otherMembers else s.putEps [(n, e)] := by
  simp only [execEpStore, ne_eq, not_true_eq_false, if_false, hn, he, putEps_isManager, putEps_otherMembers]

theorem execEpFetch_of (s : State) : execEpFetch 0 s =
    s.loadFields F.FXT_EP_DATA_BYTES (s.ep (s.fld F.FXT_EP_SEL_NODE)).toNat (List.range 8) := if_neg (not_not.mpr rfl)

theorem execRegFetch_of (s : State) : execRegFetch 0 s =
    s.loadFields F.FXT_DOM_REG_DATA_BYTES (spGet 0 s.dom.registry (s.fld F.FXT_DOM_REG_SEL_ENTRY)) [0, 1] := if_neg (not_not.mpr rfl)

theorem epLoad_loads (h : s.pfReady) : ∃ t, exec (.epLoad 0) s = .next t ∧ t.fxt = s.fxt ∧
    ∀ i, i < 8 → t.fld F.FXT_EP_DATA_BYTES i = (s.ep (s.fld F.FXT_EP_SEL_NODE)).toNat / 2 ^ (64 * i) % 2 ^ 64 :=
  ⟨_, congrArg Host.Outcome.next ((pfWrite_ready h (execEpFetch 0)).trans (execEpFetch_of s)), (loadFields_else ..).1,
    fun _ hi => loadFields_fld (by decide) _ (.inl (List.mem_range.mpr hi))⟩

theorem domRegLoad_loads (h : s.pfReady) : ∃ t, exec (.domRegLoad 0) s = .next t ∧ t.dom = s.dom ∧
    ∀ i, i < 2 → t.fld F.FXT_DOM_REG_DATA_BYTES i = spGet 0 s.dom.registry (s.fld F.FXT_DOM_REG_SEL_ENTRY) / 2 ^ (64 * i) % 2 ^ 64 :=
  ⟨_, congrArg Host.Outcome.next ((pfWrite_ready h (execRegFetch 0)).trans (execRegFetch_of s)), (loadFields_else ..).2,
    fun _ hi => loadFields_fld (by decide) _ (.inl (List.mem_range.mpr hi))⟩

theorem execRegStore_elsewhere (h : s.isManager = false) : execRegStore 0 s = s := by
  simp [execRegStore, h]

theorem execRegStore_manager (h : s.isManager = true) {n : Nat} (hn : s.fld F.FXT_DOM_REG_SEL_ENTRY = n) {e : Word128}
    (he : BitVec.ofNat 128 (s.fld F.FXT_DOM_REG_DATA_BYTES 0 + s.fld F.FXT_DOM_REG_DATA_BYTES 1 * 2 ^ 64) = e) :
    execRegStore 0 s = (s.putRegs [(n, e)]).svcAll (.regUpdate [] [(n, e)]) s.otherMembers := by
  subst hn he
  exact if_neg (by simp [h])

/-! ### The shard map -/

section
variable {n : Nat} {v : Word32} {r : State × List Nat} (hn : n < 1024)
  (hr : s.putMap ((List.range 4).map fun k => (4 * n + k, v.toNat / 256 ^ k % 256)) = r)
include hn hr

theorem execMapWrite_still (h : s.isManager = false ∨ r.2 = []) : execMapWrite 0 n v s = s := by
  subst hr
  by_cases hm : s.isManager = false
  · exact if_pos (.inr (.inr (by simp [hm])))
  · have hgo : ¬ (0 ≠ 0 ∨ n ≥ 1024 ∨ (!s.isManager) = true) := by
      simp [hm, hn]
    rw [execMapWrite, if_neg hgo]
    exact if_pos (by simp [h.resolve_left hm])

theorem execMapWrite_moves (hm : s.isManager = true) (hne : r.2 ≠ []) {u : State}
    (hu : (r.1.setDom fun d => { d with mapVer := d.mapVer + 1 }) = u) :
    execMapWrite 0 n v s = (u.svcAll (.mapUpdate u.dom.mapVer u.shardMap) u.otherMembers).homesMoved r.2 := by
  subst hr hu
  have hgo : ¬ (0 ≠ 0 ∨ n ≥ 1024 ∨ (!s.isManager) = true) := by
    simp [hm, hn]
  rw [execMapWrite, if_neg hgo]
  exact if_neg (by simpa using hne)

end

section
variable {src ver : Nat} {map : List Nat} (hd : s.inDomain = true) (hm : s.isManager = false) (hs : src ≠ s.ownPart)
include hd hm hs

omit hd hm hs in
theorem execMapUpdate_older (hv : ver ≤ s.dom.mapVer) : execMapUpdate src ver map s = s := by
  simp [execMapUpdate, hv]

theorem execMapUpdate_newer (hv : s.dom.mapVer < ver) : execMapUpdate src ver map s =
    ((s.putMap ((List.range map.length).zip map)).1.setDom fun d => { d with mapVer := ver }).homesMoved
      (s.putMap ((List.range map.length).zip map)).2 := by
  simp [execMapUpdate, hd, hm, hs, Nat.not_le.mpr hv]

theorem execRegUpdate_takes (eps : List (Nat × Word512)) (regs : List (Nat × Word128)) :
    execRegUpdate src eps regs s = (s.putEps eps).putRegs regs := by
  simp [execRegUpdate, hd, hm, hs]

end

theorem execRefillReq_answers {src part : Nat} (hd : s.inDomain = true) : execRefillReq src part s =
    ((s.setFld F.FXT_DOM_STAT_REFILL 1).refillAll (fun _ => true) [part] s.pxi.anchors).svc src (.refillReply part) := by
  simp [execRefillReq, hd]

end

/-- Settles O36: the rows of the PF and of the domain's messages by the lemmas on their operations. -/
theorem registriesAreWrittenAndSpread : Obligations.RegistriesAreWrittenAndSpread := by
  refine ⟨?own, ?map, ?reg, ?refill, fun s => ⟨_, rfl, fld_setFld_same .., rfl, rfl, rfl⟩⟩
  case own =>
    intro s hs
    refine ⟨?ep, epLoad_loads hs, ?domReg, ?shard⟩
    case ep =>
      intro n u
      have hrun : exec (.epWrite 0) s = .next _ :=
        congrArg Host.Outcome.next ((pfWrite_ready hs (execEpStore 0)).trans (execEpStore_of rfl rfl))
      exact ⟨putEps_ep .., fun m h => putEps_ep_ne h _, fun hm => hrun.trans (congrArg Host.Outcome.next (if_neg (by simpa using hm))),
        fun hm => hrun.trans (congrArg Host.Outcome.next (if_pos hm))⟩
    case domReg =>
      intro n e
      have hrun : exec (.domRegWrite 0) s = .next (execRegStore 0 s) := congrArg Host.Outcome.next (pfWrite_ready hs (execRegStore 0))
      exact ⟨fun hm => hrun.trans (congrArg Host.Outcome.next (execRegStore_elsewhere hm)),
        fun hm => hrun.trans (congrArg Host.Outcome.next (execRegStore_manager hm rfl rfl)), domRegLoad_loads hs⟩
    case shard =>
      intro n v hn r u
      have hrun : exec (.shardMapWrite 0 n v) s = .next (execMapWrite 0 n v s) :=
        congrArg Host.Outcome.next (pfWrite_ready hs (execMapWrite 0 n v))
      exact ⟨fun h => hrun.trans (congrArg Host.Outcome.next (execMapWrite_still hn rfl h)),
        fun hm hne => hrun.trans (congrArg Host.Outcome.next (execMapWrite_moves hn rfl hm hne rfl))⟩
  case map =>
    intro s src ver map hl hd hm hs
    have hrun : exec (.mapUpdate src ver map) s = .next (execMapUpdate src ver map s) :=
      congrArg Host.Outcome.next (memberMsg_of_listening hl (execMapUpdate src ver map))
    exact ⟨fun hv => hrun.trans (congrArg Host.Outcome.next (execMapUpdate_older hv)),
      fun hv => hrun.trans (congrArg Host.Outcome.next (execMapUpdate_newer hd hm hs hv))⟩
  case reg =>
    intro s src n e m g hl hd hm hs
    have hrun : exec (.regUpdate src [(n, e)] [(m, g)]) s = .next ((s.putEps [(n, e)]).putRegs [(m, g)]) :=
      congrArg Host.Outcome.next ((memberMsg_of_listening hl (execRegUpdate src [(n, e)] [(m, g)])).trans
        (execRegUpdate_takes hd hm hs [(n, e)] [(m, g)]))
    exact ⟨_, hrun, putEps_ep .., fun k h => putEps_ep_ne h _, spGet_spSet_same .., fun k h => spGet_spSet_ne _ _ _ h _, rfl⟩
  case refill =>
    intro s src part ho hd u
    exact congrArg Host.Outcome.next ((peerMsg_of_open ho (execRefillReq src part)).trans (execRefillReq_answers hd))

end Sys2Proof.Machine
end

section
/-! PROOFS. Chapter 9: sending, receiving and the timers of the Lathe transport (R331, R333, R341, R343 to R346, R349, R362, R497). -/

namespace Sys2Proof.Machine

section
variable {s : State}

/-! ### Rates (R362) -/

theorem dest_setDest (s : State) (d : Dest) : (s.setDest d).dest d.node = d := by
  have hold := find?_filter_ne_same s.fxt.dests (fun x => x.node) d.node
  simp only [State.dest, State.setDest, List.find?_append, hold, List.find?_singleton, beq_self_eq_true, if_true, Option.none_or,
    Option.getD_some]

theorem dest_node (s : State) (node : Nat) : (s.dest node).node = node := by
  unfold State.dest
  cases h : s.fxt.dests.find? fun d => d.node == node with
  | none => rfl
  | some d => simpa using List.find?_some h

/-- With rate control off a rate does not grow. -/
theorem execRateUp_off {node r : Nat} (hoff : s.fld F.FXT_CC_CFG_CC_OFF = 1) (hr : (s.dest node).rate = some r) :
    ((execRateUp node s).dest node).rate = some r := by
  have hset (t : State) (n m : Nat) (h : t.fld F.FXT_CC_CFG_CC_OFF = 1) : t.setRate n m = t := if_pos h
  simp only [execRateUp, hr]
  generalize hu : s.reach _ = u
  have hoff' : u.fld F.FXT_CC_CFG_CC_OFF = 1 := hu ▸ hoff
  rw [hset _ _ _ hoff']
  have h := dest_setDest u { u.dest node with quiet := u.cycles }
  rw [dest_node] at h
  have hd : u.dest node = s.dest node := hu ▸ rfl
  rw [← hd] at hr
  exact (congrArg Dest.rate h).trans hr

end


section
variable {s u : State} {x : RxFrame}

/-! ### Frames (R331, R333, R341, R343 to R345, R349, R497) -/

/-- A row of an arriving frame runs the frame itself: the part neither idles nor is in a device-level error. -/
theorem arrival_of_listening (h : s.listening) (op : State → State) : s.arrival op = op s := by
  simp [State.arrival, h.1, idleWake_of_listening h]

theorem rxIn_of_linkCheck_some (h : s.linkCheck x = some u) : s.rxIn x = u := by
  simp only [State.rxIn, h]

/-- A frame that passes its link, its header and the incarnation check is past them, by its type. -/
theorem rxIn_of_hears (h : s.hears x u) : s.rxIn x = match x.p.typ with
    | .write => u.rxData x
    | .service => u.rxData x
    | .readReq => if u.asleep then { u with pm := { u.pm with reqs := u.pm.reqs ++ [x] } } else u.rxRead x
    | .readResp => u.rxResp x
    | .ack => (if x.p.ece then u.gotEce x.p.src else u).acked x.p.src x.p.msgid
    | .nak => (if x.p.ece then u.gotEce x.p.src else u).naked x.p.src x.p.msgid x.p.status := by
  obtain ⟨-, -, htst, hlink, hinc, hrun⟩ := h
  have hheard : (s.heardPn x).tstFab x.iface false = s.tstFab x.iface false := by
    simp only [State.heardPn]
    split <;> rfl
  simp only [State.rxIn, hlink, hheard, htst, State.rxPast, hinc, if_neg hrun, Bool.not_false, if_true] <;>
    cases x.p.typ <;> rfl

theorem hears_listening (h : s.hears x u) : s.listening := ⟨h.1, h.2.1⟩

theorem rxIn_data (h : s.hears x u) (ht : x.p.typ = .write ∨ x.p.typ = .service) : s.rxIn x = u.rxData x := by
  rw [rxIn_of_hears h]
  rcases ht with ht | ht <;> rw [ht]

theorem packetRx_data (h : s.hears x u) (ht : x.p.typ = .write ∨ x.p.typ = .service) :
    exec (.packetRx x) s = .next (u.rxData x) :=
  congrArg Host.Outcome.next ((arrival_of_listening (hears_listening h) _).trans ((if_pos ht).trans (rxIn_data h ht)))

/-! What `rxData` does with a packet of a message (R343 steps 3 and 4). -/

theorem rxData_asleep (h : u.asleep = true) : u.rxData x = (u.busyNak x).wakeFab := by
  simp only [State.rxData, h, if_true]

theorem rxData_known {e : DupEnt} (ha : u.asleep = false) (hd : u.dup? x.p.src x.p.msgid = some e) (he : e.st ≠ 0) :
    u.rxData x = (u.bump F.FXT_DUP_STAT_DUPLICATES).answer x e.status false := by
  simp only [State.rxData, ha, hd, if_neg he, Bool.false_eq_true, if_false]

section
variable (ha : u.asleep = false) (hd : u.dup? x.p.src x.p.msgid = none)
include ha hd

theorem rxData_service (ht : x.p.typ = .service) :
    u.rxData x = if x.p.svcUnknown then u.refuse x St.badField else u.rxPlace x none := by
  simp only [State.rxData, ha, hd, ht, Bool.false_eq_true, if_false, if_true]

theorem rxData_write_ok {r : Region} (ht : x.p.typ = .write) (hr : u.regionCheck x.p x.p.payload.length true = .ok r) :
    u.rxData x = u.rxPlace x (some r) := by
  have hne : ¬ x.p.typ = .service := by rw [ht]; decide
  simp only [State.rxData, ha, hd, hr, if_neg hne, Bool.false_eq_true, if_false]

theorem rxData_write_error {v : State} {st : Nat} (ht : x.p.typ = .write)
    (hr : u.regionCheck x.p x.p.payload.length true = .error st) (hv : u.filterRoom = some v) : u.rxData x = v.refuse x st := by
  have hne : ¬ x.p.typ = .service := by rw [ht]; decide
  simp only [State.rxData, ha, hd, hr, hv, if_neg hne, Option.isSome_none, Bool.false_eq_true, if_false]

end

/-! Placing the first packet of a new message (R343 steps 5 and 6). -/

/-- Making room for an entry adds none. -/
theorem filterRoom_dup {v : State} {a b : Nat} (hv : u.filterRoom = some v) (hd : u.dup? a b = none) : v.dup? a b = none := by
  unfold State.filterRoom at hv
  split at hv
  · obtain rfl := Option.some.inj hv
    exact hd
  · split at hv
    · exact absurd hv nofun
    · obtain rfl := Option.some.inj hv
      rw [State.dup?, List.find?_eq_none] at hd ⊢
      exact fun e he => hd e (List.mem_of_mem_erase he)

section
variable {v : State} {r : Region} (hd : u.dup? x.p.src x.p.msgid = none) (hv : u.filterRoom = some v)
  (hroom : u.fxt.reasm.length < 8192)
include hd hv hroom

theorem rxPlace_refused (hr : (v.setDup x.p.src x.p.msgid 0 0).putBytes r x.p.roff x.p.payload = none) :
    u.rxPlace x (some r) = (v.setDup x.p.src x.p.msgid 0 0).refuse x St.accessDenied := by
  simp only [State.rxPlace, hd, hv, filterRoom_dup hv hd, hr, if_neg (not_and_of_not_right _ (Nat.not_le.mpr hroom)),
    Option.isSome_none, Bool.false_eq_true, if_false]

theorem rxPlace_stored {w : State} (hm : u.reasm? x.p.src x.p.msgid = none)
    (hr : (v.setDup x.p.src x.p.msgid 0 0).putBytes r x.p.roff x.p.payload = some w)
    (hfull : x.p.payload.length = x.p.mlen) (himm : x.p.hasImm = false) :
    u.rxPlace x (some r) =
      (w.setReasm ((⟨x.p.src, x.p.msgid, [], false, 0, x.p.roff⟩ : Reasm).add x w.cycles)).rxDone x x.ce := by
  have hall : ((⟨x.p.src, x.p.msgid, [], false, 0, x.p.roff⟩ : Reasm).add x w.cycles).full x.p.mlen = true := by
    simp [Reasm.full, Reasm.add, hfull]
  simp only [State.rxPlace, hd, hv, hm, filterRoom_dup hv hd, hr, if_neg (not_and_of_not_right _ (Nat.not_le.mpr hroom)),
    Option.isSome_none, Bool.false_eq_true, if_false, Option.getD_none, hall, if_true, State.rxComplete, himm, Bool.not_false]
  rfl

end

theorem putBytes_denied {r : Region} {off : Nat} {b : List Byte} (hh : r.hostMem = true) (hb : b ≠ [])
    (hx : s.xlatOk (s.funcOf r.ctx) (r.addr + off) b.length = false) : s.putBytes r off b = none := by
  simp [State.putBytes, hh, hb, hx]

theorem putBytes_region {r : Region} {off : Nat} {b : List Byte} (hh : r.hostMem = false) (hb : b ≠ []) :
    s.putBytes r off b = some ((s.chargeFab r.ctx b.length false).regionStore r off b) := by
  simp [State.putBytes, hh, hb]

/-! ### The timers (R341, R346, R349) -/

theorem setRate_regs (node r : Nat) : (s.setRate node r).regs = s.regs := by
  unfold State.setRate
  split <;> rfl

/-- RTO µs without a reply: the rate is halved, and the message is sent again while it has tries. -/
theorem timeoutMsg_eq (m : TxMsg) :
    let v := s.reach (m.sentAt + max 1 (s.fld F.FXT_RETX_CFG_RTO) * cyclesPerUs)
    let u := v.setRate m.dst (v.rateOf m.dst / 2)
    s.timeoutMsg m = if m.tries < s.fld F.FXT_RETX_CFG_RETRY_MAX then (u.setMsg m fun x => { x with tries := x.tries + 1 }).resend m
      else (u.bump F.FXT_TX_STAT_UNREACHABLE).msgFails m St.peerUnreachable := by
  intro v u
  have hmax : u.fld F.FXT_RETX_CFG_RETRY_MAX = s.fld F.FXT_RETX_CFG_RETRY_MAX := by
    simp only [u, v, State.fld, setRate_regs, reach_regs]
  rw [← hmax]
  rfl

theorem dropReasm_reasm? (a b : Nat) : (s.dropReasm a b).reasm? a b = none := by
  rw [State.reasm?, List.find?_eq_none]
  intro r hr hmatch
  have hkept := (List.mem_filter.mp hr).2
  rw [hmatch] at hkept
  exact absurd hkept (by decide)

end

/-- A part whose rate control is off (FXT_CC_CFG.CC_OFF) and that has a rate of 5 kb/s to node 0. -/
def rateControlOff : State :=
  { State.reset.setFld F.FXT_CC_CFG_CC_OFF 1 with fxt := { Fabric.reset with dests := [⟨0, 0, some 5, 0, 0, 0, 0⟩] } }

/-- Refutes O38: the clause on CC_RATE_INCREASE holds no premise on FXT_CC_CFG.CC_OFF. With rate control off `State.setRate` leaves a rate
as it is, so that in `rateControlOff` the rate stays 5 kb/s, where the statement has it at least 1,000,000. -/
theorem not_messagesLeave : ¬ Obligations.MessagesLeave := by
  intro h
  obtain ⟨-, -, -, hrate, -⟩ := h
  have hr : (rateControlOff.dest 0).rate = some 5 := by decide
  obtain ⟨t, hrun, hgrown, -⟩ := hrate rateControlOff 0 5 hr
  obtain rfl : execRateUp 0 rateControlOff = t := Host.Outcome.next.inj hrun
  rw [execRateUp_off (by decide) hr] at hgrown
  exact absurd ((Nat.le_max_left 1000000 _).trans_eq (Option.some.inj hgrown).symm) (by decide)

/-- Settles O39, from what `rxIn` does past the link, and from `rxData` and `rxPlace` for a packet of a new message. -/
theorem packetsAreTaken : Obligations.PacketsAreTaken := by
  refine ⟨fun s u x hl hlink => ?_, fun s u x h => ?_⟩
  · have harr (op : State → State) : s.arrival op = op s := arrival_of_listening hl op
    have hin := rxIn_of_linkCheck_some hlink
    exact ⟨fun ht => congrArg Host.Outcome.next ((harr _).trans ((if_pos ht).trans hin)),
      fun ht => congrArg Host.Outcome.next ((harr _).trans ((if_pos ht).trans hin)),
      fun ht => congrArg Host.Outcome.next ((harr _).trans ((if_pos ht).trans hin)),
      fun ht => next_traced ((harr _).trans ((if_pos ht).trans hin)),
      fun ht => next_traced ((harr _).trans ((if_pos ht).trans hin))⟩
  · have harr (op : State → State) : s.arrival op = op s := arrival_of_listening (hears_listening h) op
    have hin := rxIn_of_hears h
    refine ⟨fun ht ha => ?_, fun e ht ha hd he => ?_, fun ha hd => ⟨fun ht hsvc => ?_, fun ht hsvc => ?_, fun r ht hr => ?_,
      fun st v ht hr hv => ?_, ?_, ?_⟩, fun ht => ?_, fun ht => ?_, ?_⟩
    · rw [packetRx_data h ht, rxData_asleep ha]
    · rw [packetRx_data h ht, rxData_known ha hd he]
    · rw [packetRx_data h (.inr ht), rxData_service ha hd ht, hsvc]
      rfl
    · rw [packetRx_data h (.inr ht), rxData_service ha hd ht, if_pos hsvc]
    · rw [packetRx_data h (.inl ht), rxData_write_ok ha hd ht hr]
    · rw [packetRx_data h (.inl ht), rxData_write_error ha hd ht hr hv]
    · intro r v hv hm hroom hh hb w hx
      exact rxPlace_refused hd hv hroom (putBytes_denied hh hb hx)
    · intro r v hv hm hroom hh hb hfull himm w
      have hput := putBytes_region (s := v.setDup x.p.src x.p.msgid 0 0) (off := x.p.roff) hh hb
      rw [hfull] at hput
      exact rxPlace_stored hd hv hroom hm hput hfull himm
    · rw [ht] at hin
      have hrun : exec (.readReq x) s = .next (s.rxIn x) := congrArg Host.Outcome.next ((harr _).trans (if_pos ht))
      refine ⟨fun ha => ?_, fun ha => ?_, fun st hr => by simp only [State.rxRead, hr]⟩
      · rw [hrun, hin, if_pos ha]
      · rw [hrun, hin, if_neg (Bool.eq_false_iff.mp ha)]
    · rw [ht] at hin
      exact congrArg Host.Outcome.next ((harr _).trans ((if_pos ht).trans hin))
    · refine ⟨fun ht => ?_, fun ht => ?_⟩
      · rw [ht] at hin
        exact next_traced ((harr _).trans ((if_pos ht).trans hin))
      · rw [ht] at hin
        exact next_traced ((harr _).trans ((if_pos ht).trans hin))

/-- Settles O40: each timer acts on the message or the record it finds. -/
theorem transportTimers : Obligations.TransportTimers := by
  refine ⟨?_, fun s dst msgid a b m hm hb => ⟨fun hb0 => ?_, ?_⟩, fun s src msgid r hr => ?_⟩
  · intro s dst msgid m hm ht v u t
    have hdue : s.timeoutMsg m = t := timeoutMsg_eq m
    refine ⟨fun hread => ⟨?_, ?_⟩, fun hread => ?_⟩
    · have hrun : execRetx dst msgid s = t := by
        simp only [execRetx, hm, ht, hread, hdue, Bool.not_false, and_self, if_true]
      exact next_traced hrun
    · have hrun : execReadAgain dst msgid s = s := by
        simp only [execReadAgain, hm, hread, Bool.false_eq_true, and_false, if_false]
      exact congrArg Host.Outcome.next hrun
    · have hrun : execReadAgain dst msgid s = t := by
        simp only [execReadAgain, hm, ht, hread, hdue, and_self, if_true]
      exact congrArg Host.Outcome.next hrun
  · have hrun : execBusyAgain dst msgid s = ((s.reach (b + max 1 (s.fld F.FXT_RETX_CFG_BUSY_DELAY) * cyclesPerUs)).resend m).setMsg m
        fun x => { x with busy := some (a, 0) } := by
      simp only [execBusyAgain, hm, hb, if_neg hb0]
    exact congrArg Host.Outcome.next hrun
  · have hrun : execBusyEnd dst msgid s = ((s.reach (a + max 1 (s.fld F.FXT_RETX_CFG_BUSY_TIME) * 1000 * cyclesPerUs)).bump
        F.FXT_TX_STAT_TIMEOUTS).msgFails m St.timeout := by
      simp only [execBusyEnd, hm, hb]
    exact next_traced hrun
  · have hrun : execReasmEnd src msgid s =
        (s.reach (r.last + max 1 (s.fld F.FXT_RX_CFG_REASM_TIMEOUT) * cyclesPerUs)).dropReasm src msgid := by
      simp only [execReasmEnd, hr]
    exact ⟨_, congrArg Host.Outcome.next hrun, dropReasm_reasm? _ _, rfl, rfl, Nat.le_max_right _ _⟩

/-- A part that holds a packet of interface 0x98041 for an RMA command of no further message, whose completion queue cannot be written
and whose event queue is full. The register ETH_LINK_STAT of such an interface would lie at 0x1000308, which is CTXW_EQ_STAT of context 0. -/
def lossOfFarInterface : State :=
  let k : Cmd := { newCmd 0 0 0 1 0 with st := .running, mark := 2 }
  let m : TxMsg := ⟨0, 0, 0, some k.id, 1, 0, false, false, .svc (.admitReply 0), true, 1, 0, 0, none, none, []⟩
  { State.reset with
    cmds := [k]
    qdb := { State.reset.qdb with
      wqs := [⟨0, 0, .enabled, false, 0, 16, 0, 0, false, 0, 0⟩]
      cqs := [⟨0, 0, 16, 0, 0, 0, 0, 0, false, 0, 0⟩]
      eqs := [⟨0, 0, 0, 0, 0, 0, 0, 0, false, 0, 0, false⟩] }
    fxt := { Fabric.reset with msgs := [m] }
    egs := { State.reset.egs with queue := [⟨0x98041, 0, 0, 0, 0, 0, .svc (.admitReply 0)⟩] }
    host := { State.reset.host with xlatFail := [(0, 0, 2 ^ 64)] } }

/-- Refutes O41: its clause on an interface that goes down bounds no interface number. In `lossOfFarInterface` the packet that is lost with
interface 0x98041 ends its command, whose record cannot be written; the event of that is dropped and counted in CTXW_EQ_STAT of context 0,
where ETH_LINK_STAT of that interface would lie, so that it reads as up. -/
theorem not_interfacesChange : ¬ Obligations.InterfacesChange := by
  intro h
  obtain ⟨-, -, hdown, -⟩ := h.1 lossOfFarInterface 0x98041
  have hup : (lossOfFarInterface.ifaceDown 0x98041).fld F.ETH_LINK_STAT_UP 0x98041 = 1 := by decide +kernel
  exact absurd (hdown.symm.trans hup) (by decide)

end Sys2Proof.Machine
end

section
/-! PROOFS. Chapter 10: votes, heartbeats and admission rounds (R370, R371, R373 to R378). -/

namespace Sys2Proof.Machine

section
variable {s u : State}

/-! ### Messages to other parts -/

theorem svc_msgs (dst : Nat) (v : SvcMsg) :
    ∃ m, (s.svc dst v).fxt.msgs = s.fxt.msgs ++ [m] ∧ m.dst = dst ∧ m.carry = .svc v :=
  ⟨_, rfl, rfl, rfl⟩

theorem traceRec_dom (kind c : Nat) (bytes : List Byte) : (s.traceRec kind c bytes).dom = s.dom := by
  unfold State.traceRec
  split
  · rfl
  · dsimp only
    split <;> rfl

theorem traceChanged_dom (old l : List Frame) : (s.traceChanged old l).dom = s.dom := by
  induction l generalizing s old with
  | nil => rfl
  | cons f t ih =>
    unfold State.traceChanged
    split
    · exact ih _
    · exact (ih _).trans (traceRec_dom _ _ _)

theorem traced_dom : (s.traced u).dom = u.dom := by
  unfold State.traced
  split
  · exact traceChanged_dom _ _
  · rfl

theorem domClock_of_live (h : s.dead = false) (op : State → State) : s.domClock op = op s := by
  simp [State.domClock, h]

/-! ### Votes (R374) -/

section
variable {src e rank : Nat} (hv : s.isVoter = true)
include hv

theorem vote_bound (hb : s.boundTo src = true) : s.vote src e rank =
    s.setDom fun d => { d with held := d.held.filter (fun h => h.1 ≠ src) ++ [(src, e, rank)] } := by
  simp only [State.vote, hv, hb, Bool.not_true, Bool.false_eq_true, if_false, if_true]

theorem vote_low (hb : s.boundTo src = false) (he : e ≤ s.grantedOther src) : s.vote src e rank = s := by
  simp only [State.vote, hv, hb, he, Bool.not_true, Bool.false_eq_true, if_false, if_true]

theorem vote_granted (hb : s.boundTo src = false) (he : s.grantedOther src < e) (hsrc : src ≠ s.ownPart) :
    s.vote src e rank = (s.promise src e).svc src (.leaseGrant e (s.promise src e).highestGranted) := by
  simp only [State.vote, hv, hb, if_neg (Nat.not_le.mpr he), Bool.not_true, Bool.false_eq_true, if_false]
  exact if_neg hsrc

/-- A voter that is bound against every part of a list holds each of their requests. -/
theorem voteEach_bound {l : List (Nat × Nat × Nat)} (hb : ∀ x ∈ l, s.boundTo x.1 = true)
    (hdistinct : ((s.dom.held ++ l).map (·.1)).Nodup) : s.voteEach l = s.setDom fun d => { d with held := s.dom.held ++ l } := by
  induction l generalizing s with
  | nil =>
    rw [List.append_nil]
    rfl
  | cons x t ih =>
    have hkept : s.dom.held.filter (fun h => h.1 ≠ x.1) = s.dom.held := by
      rw [List.filter_eq_self]
      intro h hh
      rw [List.map_append, List.nodup_append] at hdistinct
      simpa using hdistinct.2.2 h.1 (List.mem_map_of_mem hh) x.1 (by simp)
    have hone : s.vote x.1 x.2.1 x.2.2 = s.setDom fun d => { d with held := s.dom.held ++ [x] } := by
      rw [vote_bound hv (hb x List.mem_cons_self)]
      simp only [State.setDom, hkept]
    have hrest := ih (s := s.setDom fun d => { d with held := s.dom.held ++ [x] }) hv
      (fun y hy => hb y (List.mem_cons_of_mem _ hy)) (by simpa [State.setDom] using hdistinct)
    rw [State.voteEach, hone, hrest]
    simp [State.setDom]

end

theorem le_foldl_max {l : List Nat} {a n : Nat} (h : n ≤ a ∨ n ∈ l) : n ≤ l.foldl max a := by
  induction l generalizing a with
  | nil => exact h.resolve_right List.not_mem_nil
  | cons x t ih =>
    refine ih ?_
    rcases h with h | h
    · exact .inl (h.trans (Nat.le_max_left _ _))
    · rcases List.mem_cons.mp h with rfl | h
      · exact .inl (Nat.le_max_right _ _)
      · exact .inr h

/-- A value that is read from a map and is not the default one stands in the map. -/
theorem mem_of_spGet {α : Type} {d : α} {l : List (Nat × α)} {k : Nat} (h : spGet d l k ≠ d) : (k, spGet d l k) ∈ l := by
  induction l with
  | nil => exact absurd rfl h
  | cons p t ih =>
    obtain ⟨a, v⟩ := p
    by_cases ha : a = k
    · subst ha
      simp [spGet]
    · simp only [spGet, if_neg ha] at h ⊢
      exact List.mem_cons_of_mem _ (ih h)

/-- The epoch just granted is at most the highest one granted. -/
theorem promise_highest {src e : Nat} (he : 0 < e) : e ≤ (s.promise src e).highestGranted := by
  have hval : spGet 0 (s.promise src e).dom.grants src = max e (spGet 0 s.dom.grants src) := spGet_spSet_same 0 _ _ _
  have hmem := mem_of_spGet (d := 0) (l := (s.promise src e).dom.grants) (k := src) (by omega)
  exact le_foldl_max (.inr (List.mem_map.mpr ⟨_, hmem, rfl⟩)) |>.trans' (by simp only; omega)

theorem leaseUp_pos : 0 < s.leaseUp := by
  have hms : 1 ≤ s.leaseMs := Nat.le_max_left _ _
  have hL : 0 < s.leaseL := Nat.mul_pos (Nat.mul_pos hms (by decide)) (by decide)
  have hgrow : s.leaseL * 1000000 ≤ s.leaseL * (1000000 + s.skewPpm) := Nat.mul_le_mul_left _ (Nat.le_add_right _ _)
  unfold State.leaseUp
  omega

/-! ### The requests that were held -/

theorem insertBy_first {α : Type} {lt : α → α → Bool} {x : α} {l : List α} (h : ∀ y ∈ l, lt x y = true) :
    insertBy lt x l = x :: l := by
  cases l with
  | nil => rfl
  | cons y t => exact if_pos (h y List.mem_cons_self)

theorem insertBy_perm {α : Type} (lt : α → α → Bool) (x : α) (l : List α) : (insertBy lt x l).Perm (x :: l) := by
  induction l with
  | nil => exact .refl _
  | cons y t ih =>
    unfold insertBy
    split
    · exact .refl _
    · exact (ih.cons y).trans (.swap x y t)

theorem sortBy_perm {α : Type} (lt : α → α → Bool) (l : List α) : (sortBy lt l).Perm l := by
  induction l with
  | nil => exact .refl _
  | cons x t ih => exact (insertBy_perm lt x _).trans (ih.cons x)

/-- What sorts before everything else comes first. -/
theorem sortBy_first {α : Type} {lt : α → α → Bool} {h : α} {l : List α} (hmem : h ∈ l) (hnodup : l.Nodup)
    (hfirst : ∀ x ∈ l, x ≠ h → lt h x = true ∧ lt x h = false) : ∃ r, sortBy lt l = h :: r := by
  induction l with
  | nil => exact absurd hmem List.not_mem_nil
  | cons x t ih =>
    have ht : ∀ y ∈ t, y ≠ h → lt h y = true ∧ lt y h = false := fun y hy => hfirst y (List.mem_cons_of_mem _ hy)
    by_cases hx : x = h
    · subst hx
      refine ⟨_, insertBy_first fun y hy => (ht y ((sortBy_perm lt t).mem_iff.mp hy) ?_).1⟩
      rintro rfl
      exact (List.nodup_cons.mp hnodup).1 ((sortBy_perm lt t).mem_iff.mp hy)
    · obtain ⟨r, hr⟩ := ih ((List.mem_cons.mp hmem).resolve_left (Ne.symm hx)) (List.nodup_cons.mp hnodup).2 ht
      refine ⟨insertBy lt x r, (congrArg (insertBy lt x) hr).trans (if_neg ?_)⟩
      rw [(hfirst x List.mem_cons_self hx).2]
      exact Bool.false_ne_true

/-- The request of lowest rank that a voter holds is granted, when the voter is free again and may grant it; the others are held on. -/
theorem grantHeld_of_lowest {h : Nat × Nat × Nat} (hmem : h ∈ s.dom.held) (hlow : ∀ x ∈ s.dom.held, x ≠ h → h.2.2 < x.2.2)
    (hparts : (s.dom.held.map (·.1)).Nodup) (hv : s.isVoter = true) (hp : s.dom.promise = none) (hh : s.dom.holdUntil ≤ s.cycles)
    (he : s.grantedOther h.1 < h.2.1) (hown : h.1 ≠ s.ownPart) :
    s.grantHeld.dom.promise = some ⟨h.1, s.cycles + s.leaseUp⟩ ∧ ∀ x, x ∈ s.grantHeld.dom.held ↔ x ∈ s.dom.held ∧ x ≠ h := by
  have hnodup : s.dom.held.Nodup := hparts.of_map _
  obtain ⟨r, hr⟩ : ∃ r, byRank s.dom.held = h :: r := sortBy_first hmem hnodup fun x hx hne => by
    have := hlow x hx hne
    constructor
    · simp [this]
    · simp only [Bool.or_eq_false_iff, Bool.and_eq_false_iff, decide_eq_false_iff_not, beq_eq_false_iff_ne]
      omega
  have hperm : (h :: r).Perm s.dom.held := hr ▸ sortBy_perm _ _
  have hparts' : ((h :: r).map (·.1)).Nodup := (hperm.map _).nodup_iff.mpr hparts
  let z := s.setDom fun d => { d with held := [] }
  have hvote : z.vote h.1 h.2.1 h.2.2 = (z.promise h.1 h.2.1).svc h.1 (.leaseGrant h.2.1 (z.promise h.1 h.2.1).highestGranted) := by
    refine vote_granted (s := z) hv ?_ he hown
    simp only [State.boundTo, z, State.setDom, hp, Bool.or_false, decide_eq_false_iff_not]
    exact Nat.not_lt.mpr hh
  have hrest := voteEach_bound (s := (z.promise h.1 h.2.1).svc h.1 (.leaseGrant h.2.1 (z.promise h.1 h.2.1).highestGranted)) (l := r) hv
    (fun x hx => by
      have hne : h.1 ≠ x.1 := fun heq => (List.nodup_cons.mp hparts').1 (List.mem_map.mpr ⟨x, hx, heq.symm⟩)
      have hlt : s.cycles < s.cycles + s.leaseUp := Nat.lt_add_of_pos_right leaseUp_pos
      have hother : (h.1 != x.1) = true := bne_iff_ne.mpr hne
      exact (Bool.or_eq_true _ _).mpr (.inr ((Bool.and_eq_true _ _).mpr ⟨hother, decide_eq_true hlt⟩)))
    (List.nodup_cons.mp hparts').2
  have hall : s.grantHeld = ((z.promise h.1 h.2.1).svc h.1 (.leaseGrant h.2.1 (z.promise h.1 h.2.1).highestGranted)).setDom
      fun d => { d with held := r } := by
    rw [State.grantHeld, hr, State.voteEach, hvote, hrest]
    rfl
  rw [hall]
  refine ⟨rfl, fun x => ?_⟩
  have hin : x ∈ h :: r ↔ x ∈ s.dom.held := hperm.mem_iff
  have hout : h ∉ r := (List.nodup_cons.mp (hperm.nodup_iff.mpr hnodup)).1
  change x ∈ r ↔ _
  rw [← hin, List.mem_cons]
  constructor
  · exact fun hx => ⟨.inr hx, fun heq => hout (heq ▸ hx)⟩
  · exact fun hx => hx.1.resolve_left hx.2

/-! ### Heartbeats and rounds (R373, R376 to R378) -/

/-- A worker that hears a heartbeat: a row runs it, with the epoch seen. -/
theorem exec_heartbeat {src e rUs ver : Nat} {members : List Nat} (hl : s.listening) (hd : s.inDomain = true)
    (hm : s.isManager = false) {t : State} (h :
      (if (s.see e).isAttached then
        if e < (s.see e).epoch then s.see e
        else if !members.contains (s.see e).ownPart then (s.see e).detach
        else
          (((((s.see e).setDom fun d => { d with
            members := members, attachedUntil := s.cycles + s.skewDown (rUs * cyclesPerUs) }).roundOver e).setFld
              F.FXT_DOM_STAT_MANAGER src).setEpoch e).hbReply src e
      else if e ≤ (s.see e).epoch then s.see e
      else if members.contains (s.see e).ownPart then
        ((s.see e).attach src e (s.cycles + s.skewDown (rUs * cyclesPerUs)) members).hbReply src e
      else ((s.see e).roundOver e).svc src (.join (s.see e).epoch (s.see e).highestGranted)) = t) :
    exec (.heartbeat src e rUs ver members) s = .next (s.traced t) := by
  refine next_traced ((memberMsg_of_listening hl _).trans (.trans ?_ h))
  simp only [execHeartbeat, hd, hm, Bool.not_true, Bool.false_eq_true, or_self, if_false]
  rfl

theorem extendLease_regs : s.extendLease.regs = s.regs := by
  unfold State.extendLease
  split <;> rfl

/-- The lease runs from the heartbeat that a quorum of voters has answered. -/
theorem extendLease_dom : s.extendLease.dom =
    { s.dom with leaseEnd := if s.quorum ≤ s.dom.hbAcks.length then s.dom.hbAt + s.skewDown s.leaseL else s.dom.leaseEnd } := by
  unfold State.extendLease
  split <;> rfl

end

/-- Settles O42: a request is granted, held or passed over by `vote`, and what a free voter holds is voted on in the order of rank. -/
theorem votesAndElections : Obligations.VotesAndElections := by
  refine ⟨fun s src e rank hl hd hv hsrc => ?_, fun s src e highest el hl hel => ?_,
    fun s hlive => ⟨fun h => ?_, fun ha hc hn => ?_, fun el hel ha => ?_, fun p hp => ?_, fun hh => ?_⟩, fun s h => ⟨fun hone => ?_, ?_⟩⟩
  · have hrun : exec (.leaseReq src e rank) s = .next ((s.see e).vote src e rank) :=
      congrArg Host.Outcome.next ((memberMsg_of_listening hl _).trans (if_pos hd))
    refine ⟨fun hb => ?_, fun hb he => ?_, fun hb he => ?_⟩
    · rw [vote_bound (s := s.see e) hv hb] at hrun
      exact ⟨_, hrun, List.mem_append_right _ List.mem_cons_self, rfl, rfl, rfl, rfl⟩
    · rwa [vote_low (s := s.see e) hv hb he] at hrun
    · rw [vote_granted (s := s.see e) hv hb he hsrc] at hrun
      have hpos : 0 < e := Nat.zero_lt_of_lt he
      exact ⟨_, _, _, hrun, rfl, spGet_spSet_same 0 _ _ _, rfl, rfl, rfl, promise_highest hpos, rfl⟩
  · have hrun : exec (.leaseGrant src e highest) s = .next (s.gotGrant src e highest) :=
      congrArg Host.Outcome.next (memberMsg_of_listening hl _)
    intro el' u
    have hgot : s.gotGrant src e highest = if el'.grants.length ≥ u.quorum ∧ !u.isManager then u.elected el' else u := by
      simp only [State.gotGrant, hel, List.contains_eq_mem, Bool.not_eq_true', decide_eq_false_iff_not, u, el']
    refine ⟨fun h => ?_, fun hq hm => ?_⟩
    · rw [hrun, hgot, if_neg]
      rintro ⟨hq, hm⟩
      rcases h with h | h
      · exact Nat.not_le.mpr h hq
      · exact absurd (h.symm.trans (Bool.not_eq_true' _ ▸ hm)) (by decide)
    · rw [hrun, hgot, if_pos ⟨hq, (Bool.not_eq_true' _).mpr hm⟩]
  · have hstays : execElect s = s := if_pos (by simpa using h)
    exact congrArg Host.Outcome.next ((domClock_of_live hlive _).trans hstays)
  · have hasks : execElect s = (s.reach (s.dom.since +
        s.fld F.FXT_DOM_ROLE_RANK * max 1 (s.fld F.FXT_DOM_CFG_ELECT_GAP) * cyclesPerUs)).askLease (epochAfter (max s.dom.seen s.epoch)) :=
      if_neg (by simp [ha, hc, hn])
    exact congrArg Host.Outcome.next ((domClock_of_live hlive _).trans hasks)
  · have hasks : execElectAgain s = (s.reach (el.sentAt + s.leaseUp)).askLease (epochAfter el.highest) := by
      simp only [execElectAgain, hel, ha, if_true]
    exact congrArg Host.Outcome.next ((domClock_of_live hlive _).trans hasks)
  · have hlapses : execPromiseLapse s = ((s.reach p.until_).setDom fun d => { d with promise := none }).grantHeld := by
      simp only [execPromiseLapse, hp]
    exact congrArg Host.Outcome.next ((domClock_of_live hlive _).trans hlapses)
  · exact congrArg Host.Outcome.next ((domClock_of_live hlive _).trans (if_neg hh))
  · rw [State.grantHeld, hone]
    rfl
  · intro hmem hlow hparts hv hp hh he hown
    exact grantHeld_of_lowest hmem hlow hparts hv hp hh he hown

/-- Settles O43, by the branches of the heartbeat at a worker and of its acknowledgement at the manager. -/
theorem heartbeatsHoldTheDomain : Obligations.HeartbeatsHoldTheDomain := by
  refine ⟨?_, ?_, fun s src hl hm => ?_, fun s => ⟨fun h => ?_, fun h => ?_, fun h => ?_, fun h => ?_⟩⟩
  · intro s hlive hm u r v
    have hrun : exec .heartbeatTimer s = .next (if s.dom.leaseEnd ≤ u.cycles then u else
        (v.svcAll (.heartbeat v.epoch ((v.dom.leaseEnd - v.cycles) / cyclesPerUs) v.dom.mapVer v.dom.members) v.otherParts).extendLease) := by
      refine congrArg Host.Outcome.next ((domClock_of_live hlive _).trans ?_)
      simp only [execBeat, hm, Bool.not_true, Bool.false_eq_true, if_false]
      rfl
    exact ⟨fun h => by rw [hrun, if_pos h], fun h => by rw [hrun, if_neg (Nat.not_le.mpr h)]⟩
  · intro s src e rUs ver members hl hd hm hb u
    have hrun {t : State} := exec_heartbeat (src := src) (e := e) (rUs := rUs) (ver := ver) (members := members) hl hd hm (t := t)
    have hown : u.ownPart = s.ownPart := rfl
    refine ⟨fun ha he => hrun ?_, fun ha he hout => hrun ?_, fun ha he => hrun ?_, fun ha he hout => hrun ?_,
      fun ha he hin => hrun ?_, ?_⟩
    · rw [if_pos (show u.isAttached = true from ha), if_pos (show e < u.epoch from he)]
    · rw [if_pos (show u.isAttached = true from ha), if_neg (show ¬ e < u.epoch from Nat.not_lt.mpr he),
        if_pos (show (!members.contains u.ownPart) = true by simpa [hown] using hout)]
    · rw [if_neg (show ¬ u.isAttached = true from Bool.eq_false_iff.mp ha), if_pos (show e ≤ u.epoch from he)]
    · rw [if_neg (show ¬ u.isAttached = true from Bool.eq_false_iff.mp ha),
        if_neg (show ¬ e ≤ u.epoch from Nat.not_le.mpr he), if_neg (show ¬ members.contains u.ownPart = true by simpa [hown] using hout)]
    · rw [if_neg (show ¬ u.isAttached = true from Bool.eq_false_iff.mp ha),
        if_neg (show ¬ e ≤ u.epoch from Nat.not_le.mpr he), if_pos (show members.contains u.ownPart = true by simpa [hown] using hin)]
    · intro ha he hin v
      refine hrun ?_
      rw [if_pos (show u.isAttached = true from ha), if_neg (show ¬ e < u.epoch from Nat.not_lt.mpr he),
        if_neg (show ¬ (!members.contains u.ownPart) = true by simpa [hown] using hin)]
  · let z := s.setDom fun d => { d with
      acked := spSet 0 d.acked src s.cycles
      hbAcks := if s.voters.contains src && !d.hbAcks.contains src then d.hbAcks ++ [src] else d.hbAcks }
    have hrun : exec (.hbAck src s.epoch) s = .next z.extendLease := by
      refine congrArg Host.Outcome.next ((memberMsg_of_listening hl _).trans (if_neg ?_))
      simp [hm]
    refine ⟨_, hrun, ?_, ?_, extendLease_regs, ?_, fun hvoter => ?_, ?_⟩
    · rw [extendLease_dom]
      exact spGet_spSet_same 0 _ _ _
    · rw [extendLease_dom]
      rfl
    · rw [extendLease_dom]
      intro y hy
      simp only [z, State.setDom]
      split
      · exact List.mem_append_left _ hy
      · exact hy
    · rw [extendLease_dom]
      simp only [z, State.setDom]
      split
      · exact List.mem_append_right _ List.mem_cons_self
      · next h => simpa [hvoter] using h
    · rw [extendLease_dom]
      rfl
  · exact next_traced (if_pos h)
  · exact next_traced (if_neg (Bool.eq_false_iff.mp h))
  · exact next_traced (if_pos h)
  · exact next_traced (if_neg (Bool.eq_false_iff.mp h))

/-- Settles O44, by the row of each message of a round. -/
theorem admissionRounds : Obligations.AdmissionRounds := by
  refine ⟨fun s p hlive hm hn => ⟨fun hown hmem => ?_, fun hout => ?_⟩, fun s p a hlive hm ha hown hmem => ?_,
    ?_, fun s src e ps hl hd hm => ⟨fun he => ?_, fun he => ?_⟩, fun s src a hl hm ha => ?_, ?_⟩
  · have hround : execMemberLost p s = s.roundFor (s.dom.members.filter (· ≠ p)) := by
      simp [execMemberLost, State.declareLost, hm, hown, hn, hmem]
    exact next_traced ((domClock_of_live hlive _).trans hround)
  · have hstays : execMemberLost p s = s := by
      rcases hout with hout | hout <;> simp [execMemberLost, State.declareLost, hm, hn, hout]
    exact next_traced ((domClock_of_live hlive _).trans hstays)
  · let b : Admission := { a with confirmed := a.confirmed.filter (· ≠ p), lost := a.lost.filter (· ≠ p) ++ [p] }
    have hleft : execMemberLost p s = s.setDom fun d => { d with admission := some b } := by
      simp [execMemberLost, State.declareLost, hm, hown, ha, hmem, b]
    refine ⟨_, b, next_traced ((domClock_of_live hlive _).trans hleft), congrArg Dom.admission traced_dom, ?_, ?_, rfl⟩
    · simp [b]
    · simp [b]
  · intro s src last highest hl hm hmem u
    have hrun : exec (.join src last highest) s = .next (match s.dom.admission with
        | some a => if a.confirmed.contains src then u.setDom fun d => { d with joins := d.joins.filter fun x => x.1 ≠ src } else u
        | none => u.roundFor u.dom.members) := by
      refine congrArg Host.Outcome.next ((memberMsg_of_listening hl _).trans (if_neg ?_))
      simp [hm, hmem]
    refine ⟨fun hn => ?_, fun a ha hout => ?_⟩
    · rw [hrun, hn]
    · rw [hrun, ha]
      simp [hout]
  · exact congrArg Host.Outcome.next ((memberMsg_of_listening hl _).trans (if_pos (by simp [he])))
  · let z := ((s.see e).setDom fun d => { d with admission := some ⟨e, s.cycles, [], [], false⟩ }).setFld F.FXT_DOM_STAT_ADMITTING 1
    have hrun : exec (.admitMsg src e ps) s = .next (z.svc src (.admitReply e)) := by
      refine congrArg Host.Outcome.next ((memberMsg_of_listening hl _).trans (if_neg ?_))
      simp [hd, hm, he]
    obtain ⟨m, hmsgs, hdst, hcarry⟩ := svc_msgs (s := z) src (.admitReply e)
    refine ⟨_, m, hrun, ?_, ?_, hmsgs, hdst, hcarry, rfl⟩
    · exact fld_setFld_same ((s.see e).setDom _) F.FXT_DOM_STAT_ADMITTING 1 0 0
    · exact fld_setFld_global (f := F.FXT_DOM_STAT_ADMITTING) (g := F.FXT_DOM_STAT_EPOCH) (by decide) (by decide) (by decide) 1
  · have hrun : exec (.admitReply src a.epoch) s = .next (execAdmitReply src a.epoch s) :=
      congrArg Host.Outcome.next (memberMsg_of_listening hl _)
    by_cases hnew : src ∉ a.confirmed ∧ src ∉ a.lost
    · let b : Admission := { a with confirmed := a.confirmed ++ [src] }
      have hnoted : execAdmitReply src a.epoch s = s.setDom fun d => { d with admission := some b } := by
        simp [execAdmitReply, ha, hm, hnew, b]
      refine ⟨_, b, hrun.trans (congrArg _ hnoted), rfl, fun _ => ?_, fun hlost => absurd hlost hnew.2, rfl, fun x hx => ?_, fun x hx => ?_, rfl⟩
      · exact List.mem_append_right _ List.mem_cons_self
      · exact (List.mem_append.mp hx).symm.imp_left List.mem_singleton.mp
      · exact List.mem_append_left _ hx
    · have hstays : execAdmitReply src a.epoch s = s := by
        simp only [execAdmitReply, ha]
        exact if_neg (by simpa [hm] using hnew)
      refine ⟨_, a, hrun.trans (congrArg _ hstays), ha, fun hlost => ?_, fun _ => rfl, rfl, fun x hx => .inr hx, fun x hx => hx, rfl⟩
      exact not_not.mp fun hout => hnew ⟨hout, hlost⟩
  · intro s a hlive hm ha u v y w
    have hends : execRoundEnd s = if w.dom.joins = [] ∧ a.lost = [] then w else w.roundFor w.dom.members := by
      simp only [execRoundEnd, ha, hm, List.contains_eq_mem, List.isEmpty_iff, ← decide_not, Bool.not_true, Bool.false_eq_true, if_false]
      rfl
    exact next_traced ((domClock_of_live hlive _).trans hends)

end Sys2Proof.Machine
end

section
/-! PROOFS. Chapters 6 and 10: what goes between parts for the prefix index, for pages and for the cascade (R243 to R247, R380 to R393). -/

namespace Sys2Proof.Machine

/-- Settles O45: each message runs its exchange, and each reply joins what waits for it. -/
theorem prefixExchanges : Obligations.PrefixExchanges := by
  refine ⟨fun s src req sdom mprof cam items ho => ?_, fun s src req cam n hits l ho hl hw => ?_, fun s c l hl hw => ?_,
    fun s src req fill items key l ho => ⟨fun ha => ⟨?_, ?_, ?_⟩, fun ha => ⟨?_, ?_, ?_⟩⟩, ?_, ?_⟩
  · exact congrArg Host.Outcome.next (peerMsg_of_open ho _)
  · have hjoins : execLookupResp req cam hits s = (s.setLookup l.id fun y => { y with
        hits := y.hits ++ hits, searched := y.searched + n, cam := y.cam + min cam hits.length,
        dir := y.dir + (hits.length - cam), wait := y.wait.filter fun w => w.1 ≠ req }).settleLookup l.id := by
      simp only [execLookupResp, hl, hw, Option.map_some, Option.getD_some]
    exact next_traced ((peerMsg_of_open ho _).trans hjoins)
  · have hends : execRemoteTimeout c s =
        (((s.reach (l.doneAt + max 1 (s.fld F.FXT_DOM_CFG2_REMOTE_TIMEOUT) * cyclesPerUs)).setLookup c fun y =>
          { y with wait := [], incomplete := true }).settleLookup c) := by
      simp only [execRemoteTimeout, hl]
      exact if_neg (by simpa using hw)
    exact next_traced hends
  · exact congrArg Host.Outcome.next ((peerMsg_of_open ho _).trans (if_neg (Bool.eq_false_iff.mp ha)))
  · exact next_traced ((peerMsg_of_open ho _).trans (if_pos (by simp [ha])))
  · exact congrArg Host.Outcome.next ((peerMsg_of_open ho _).trans (if_neg (Bool.eq_false_iff.mp ha)))
  · exact congrArg Host.Outcome.next ((peerMsg_of_open ho _).trans (if_pos ha))
  · exact next_traced ((peerMsg_of_open ho _).trans (if_neg (by simp [ha])))
  · exact congrArg Host.Outcome.next ((peerMsg_of_open ho _).trans (if_pos ha))
  · intro s src req h sts refs u a items ho hu hb ha r v w
    have hends : execInsertReply req sts refs s = match r.2 with
        | some st => v.pubDone w (some st)
        | none => v.pubStep w a.sdom a.mprof (((v.cmd? w.id).map (·.ctx)).getD 0) (w.todo.length + 1) := by
      simp only [execInsertReply, State.batchEnd, hu, hb, ha]
      rfl
    refine ⟨fun st hst => ?_, fun hst => ?_⟩ <;> rw [hst] at hends <;> exact next_traced ((peerMsg_of_open ho _).trans hends)
  · intro s src req st n home r ho z hr hw settled
    have hends (t : State) (h : (if st = St.ok then z.retiredAt r.key (· == home)
        else match r.key with
          | .anchor h _ fr => match z.anchor? h with
            | some a => if (z.keyDepth r.key a).isSome then z.missHomes a.idx fr [home] else z
            | none => z
          | .domain _ _ _ => z) = t) : exec (.retireReply src req st n) s = .next (s.traced (settled t)) := by
      subst h
      refine next_traced ((peerMsg_of_open ho _).trans ?_)
      have hok : (some st == some St.ok) = decide (st = St.ok) := by
        rw [Bool.eq_iff_iff]
        simp
      simp only [execRetireReply, State.retireEnd, Option.map_some, Option.getD_some, hok, hr, hw, z, decide_eq_true_eq]
      rfl
    refine ⟨fun hst => hends _ (if_pos hst), fun h p fr a hst hkey ha hd => hends _ ?_, fun x y w hst hkey => hends _ ?_⟩
    · rw [if_neg hst]
      simp only [hkey, ha] at hd ⊢
      exact if_pos hd
    · rw [if_neg hst, hkey]

section
variable {s : State}

/-! ### Pages of a peer (R388 to R391) -/

/-- A request for the rows of a live reference is answered with those of its first `n` blocks, and pins the anchor. -/
theorem execRowsReq_rows {src req len n : Nat} {ref : Word64} {a : Anchor} (ha : s.liveRef ref.toNat = some a)
    (hn : ((s.prof? a.mprof).map fun p => p.blocks len).getD 0 = n) (hlen : len ≠ 0) : execRowsReq src req ref len s =
      ((s.setAnchor a.idx fun x => { x with forks := x.forks + 1 }).setDom fun d => { d with
        rowPins := d.rowPins ++ [(src, req, a.handle)] }).svc src (.rowsResp req St.ok a.mprof a.sdom
          ((a.ptes.filter fun e => decide (e.lpi < n)).map fun e =>
            (⟨e.lpi, e.layer, e.head, e.pfh, e.ver, ((s.frame? e.pfh).map (·.st)).getD .dropped⟩ : RowPage)) []) := by
  unfold execRowsReq
  rw [ha]
  subst hn
  exact if_neg hlen

section
variable {src req st mprof sdom : Nat} {rows : List RowPage} {digests : List Nat} {r : RowsReq} {k : Cmd} {x : Ctx}
  (hr : (s.dom.rows.find? fun y => y.req == req) = some r) (hk : (s.dropRows_ req).cmd? r.id = some k)
  (hx : (s.dropRows_ req).ctx? k.ctx = some x)
include hr hk hx

theorem execRowsResp_asked : execRowsResp src req st mprof sdom rows digests s =
    if st ≠ St.ok then (s.dropRows_ req).finish k.id st
    else if r.ask then (s.dropRows_ req).setCmd k.id fun c => { c with refInfo := some ⟨sdom, mprof, digests⟩ }
    else (s.dropRows_ req).forkRows src req k x mprof sdom rows := by
  simp only [execRowsResp, hr, hk, hx]

end

/-- The rows of a fork whose checks pass make its child. -/
theorem forkRows_passes {src req mprof sdom pin len lim : Nat} {rows : List RowPage} {k : Cmd} {x : Ctx} {p : Profile}
    {m : State × List Nat} {u : State}
    (hdom : x.sdomOk sdom = true) (hp : s.prof? mprof = some p)
    (hlen : dForkLen k.desc = len) (hlim : refDepth (dF k.desc 8 8) = lim)
    (hcheck : s.forkCheck x mprof len (lim * p.B) = none) (hfit : s.framesFit (s.newProxies src rows) = true)
    (hm : s.makeProxies src x.r.part sdom mprof p.tiles rows = m) (hpin : refAnchor (dF k.desc 8 8) = pin)
    (hu : m.1.svcFor k.ctx src (.rowsDone req pin m.2) = u) :
    s.forkRows src req k x mprof sdom rows =
      u.forkChild k x p sdom len (u.partDefaults x.r.part) (u.rowPtes src rows) := by
  unfold State.forkRows
  rw [hdom, hp, hlen, hlim, hpin]
  refine (if_neg Bool.false_ne_true).trans ?_
  simp only [hcheck, hfit, hm, hu, Bool.not_true, Bool.false_eq_true, if_false]

section
variable {src pfh ver : Nat} {f g : Frame} (hf : s.frame? pfh = some f) (hg : s.holder? f = some g)
include hf hg

theorem execPageReq_held : execPageReq src pfh ver s =
    if pgUnavailable g.st then s.svc src (.pageData (noPage pfh ver))
    else if g.reread.isSome then s
    else match g.t1 with
      | some c => match (s.verifyCopy g .t1 c none).2 with
        | none => (s.verifyCopy g .t1 c none).1.givePage src f g
        | some why => (s.verifyCopy g .t1 c none).1.copyFailed g .t1 why
      | none =>
        if g.st ≠ .t2Only then s
        else if g.readOk then (s.givePage src f g).setFrame g.pfh fun x => { x with readOk := false }
        else if g.reading then s
        else s.setFrame g.pfh fun x => { x with ladder := s.firstStep x, ladderFail := none, reader := none, forced := none } := by
  simp only [execPageReq, hf, hg] <;> rfl

end

theorem execPageReq_none {src pfh ver : Nat} (h : (s.frame? pfh).bind s.holder? = none) :
    execPageReq src pfh ver s = s.svc src (.pageData (noPage pfh ver)) := by
  unfold execPageReq
  cases hf : s.frame? pfh with
  | none => rfl
  | some f =>
    rw [hf] at h
    simp only [show s.holder? f = none from h]

theorem execReleaseAgain_owed {peer : Nat} (h : ∃ o ∈ s.tier.owed, o.1 = peer) : execReleaseAgain peer s =
    s.svc peer (.refRelease ((s.tier.owed.filter fun o => o.1 == peer).flatMap (·.2))) := by
  have hany : (s.tier.owed.any fun o => o.1 == peer) = true := by simpa using h
  simp only [execReleaseAgain, hany, if_true, State.svcAll]

theorem execReleaseAgain_none {peer : Nat} (h : ∀ o ∈ s.tier.owed, o.1 ≠ peer) : execReleaseAgain peer s = s := by
  have hany : (s.tier.owed.any fun o => o.1 == peer) = false := by simpa using h
  simp only [execReleaseAgain, hany, Bool.false_eq_true, if_false, State.svcAll]

end

/-- Settles O46: each message between the parts runs its exchange. -/
theorem pageExchanges : Obligations.PageExchanges := by
  have hrow {s : State} (ho : s.open_) (op : State → State) {t : State} (h : op s = t) :
      (Host.Outcome.next (s.traced (s.peerMsg op)) : Host.Outcome State Fault Refusal) = .next (s.traced t) :=
    next_traced ((peerMsg_of_open ho op).trans h)
  refine ⟨fun s src req len ref ho => ⟨fun hn => hrow ho _ ?_, fun a ha hlen => hrow ho _ ?_, fun a p ha hp hlen => ?_⟩, ?_,
    fun s src req anchor frames ho => ⟨fun hpin => hrow ho _ (if_pos ?_), fun hpin => hrow ho _ (if_neg ?_)⟩,
    fun s src pfh ver ho => ⟨fun hn => hrow ho _ (execPageReq_none hn), fun f g hf hg => ?_⟩,
    fun s src b ho => ⟨fun hb => hrow ho _ (if_pos hb), fun f hb hf hp => hrow ho _ ?_, fun f hb hf hp => hrow ho _ ?_⟩,
    fun s src pfh h st ho => ⟨fun he hst => hrow ho _ ?_, ?_⟩, fun s src frames ho => ⟨hrow ho _ rfl, fun p f hf hn => ?_⟩,
    fun s peer hlive => ⟨fun ho => ?_, fun ho => ?_⟩⟩
  · simp only [execRowsReq, hn]
  · simp only [execRowsReq, ha, if_pos hlen]
  · have hn : ((s.prof? a.mprof).map fun p => p.blocks len).getD 0 = p.blocks len := by rw [hp]; rfl
    refine ⟨_, _, _, hrow ho _ (execRowsReq_rows ha hn hlen), rfl, rfl, rfl, List.mem_append_right _ List.mem_cons_self, ?_⟩
    rw [List.map_map]
    rfl
  · intro s src req st mprof sdom rows digests r k x p ho hr hk hx i z m
    have hasked := execRowsResp_asked (src := src) (st := st) (mprof := mprof) (sdom := sdom) (rows := rows) (digests := digests) hr hk hx
    refine ⟨fun hst => hrow ho _ (hasked.trans (if_pos hst)), fun hst hask => hrow ho _ (hasked.trans ?_), ?_⟩
    · rw [if_neg (not_not.mpr hst), if_pos hask]
    · intro hst hask hdom hp hcheck hfit u
      refine hrow ho _ (hasked.trans ?_)
      rw [if_neg (not_not.mpr hst), if_neg (Bool.eq_false_iff.mp hask)]
      exact forkRows_passes hdom hp rfl rfl hcheck hfit rfl rfl rfl
  · simpa using hpin
  · simp only [List.any_eq_true, Bool.and_eq_true, beq_iff_eq, not_exists, not_and]
    exact fun r hr => not_and.mp (hpin r hr)
  · have hheld := execPageReq_held (src := src) (ver := ver) hf hg
    refine ⟨fun hu => hrow ho _ (hheld.trans (if_pos hu)), ?_, fun hst hre ht1 => ⟨fun hok => hrow ho _ (hheld.trans ?_),
      fun hok hreading => hrow ho _ (hheld.trans ?_)⟩⟩
    · intro c hu hre ht1 v
      refine ⟨fun hv => hrow ho _ (hheld.trans ?_), fun why hv => hrow ho _ (hheld.trans ?_)⟩ <;>
        simp only [hu, hre, ht1, Option.isSome_none, Bool.false_eq_true, if_false] <;>
        rw [show (s.verifyCopy g .t1 c none).2 = _ from hv]
    · have hu : pgUnavailable g.st = false := hst ▸ rfl
      simp only [hu, hre, ht1, hok, if_neg (not_not.mpr hst), Option.isSome_none, Bool.false_eq_true, if_false, if_true]
    · have hu : pgUnavailable g.st = false := hst ▸ rfl
      simp only [hu, hre, ht1, hok, hreading, if_neg (not_not.mpr hst), Option.isSome_none, Bool.false_eq_true, if_false]
  · simp only [execPageData, hb, hf, hp, Bool.false_eq_true, if_false, if_true]
  · simp only [execPageData, hb, hf, hp, Bool.false_eq_true, if_false]
  · simp only [execPageAck, he, if_pos hst]
  · intro e he t
    refine ⟨fun hst => hrow ho _ ?_, fun hst hf => hrow ho _ ?_, fun f hst hf => ⟨fun hfit => hrow ho _ ?_, ?_⟩⟩
    · simp only [execPageAck, he, if_pos hst]
    · simp only [execPageAck, he, if_neg (not_not.mpr hst)]
      rw [show (s.exportOver e true).frame? e.pfh = none from hf]
    · simp only [execPageAck, he, if_neg (not_not.mpr hst)]
      rw [show (s.exportOver e true).frame? e.pfh = some f from hf]
      exact if_pos (by simpa using hfit)
    · intro hfit n x v
      refine hrow ho _ ?_
      simp only [execPageAck, he, if_neg (not_not.mpr hst)]
      rw [show (s.exportOver e true).frame? e.pfh = some f from hf]
      exact if_neg (by simpa using hfit)
  · simp only [State.dropRemote, hf, if_neg hn]
  · have hagain := execReleaseAgain_owed ho
    obtain ⟨m, hmsgs, hdst, hcarry⟩ := svc_msgs (s := s) peer
      (.refRelease ((s.tier.owed.filter fun o => o.1 == peer).flatMap (·.2)))
    exact ⟨_, m, congrArg Host.Outcome.next ((domClock_of_live hlive _).trans hagain), hmsgs, hdst, hcarry⟩
  · exact congrArg Host.Outcome.next ((domClock_of_live hlive _).trans (execReleaseAgain_none ho))

section
variable {s : State}

/-! ### Rounds of the cascade (R243 to R246) -/

/-- A command claims a free line. -/
theorem execClaim_free {k : Cmd} {rivals : List Nat} (hk : s.cmd? k.id = some k) (hst : k.st = .running)
    (hfree : s.pxi.casc.owner = none) (hgroup : s.inCascade = true) :
    let u := s.claimTime
    let t (n : Nat) : State := (u.setCasc fun y =>
      { y with owner := some s.cascPos, cmd := some k.id, rdy := false, round := n, await := false, since := u.cycles }).bump F.PXI_CASC_STAT_ROUNDS
    let r := (t s.pxi.nextReq).newReq
    execClaim k.id rivals s = match s.lookup? k.id with
      | some l =>
        if !l.casc then u
        else if rivals.any fun p => decide (s.cascPos < p) then u.bump F.PXI_CASC_STAT_CLAIMS_LOST
        else (r.1.setLookup k.id fun y => { y with round := r.2 }).sendQuery k.ctx
          (.cascQuery r.2 (((s.ctx? k.ctx).map fun x => x.sdomOf (dF k.desc 18 2)).getD 0) (dF k.desc 16 2) 16777215 (dFlag k.desc 0)
            l.query) s.cascOthers
      | none => match u.stepCursor? k with
        | some c => if rivals.any fun p => decide (s.cascPos < p) then u.bump F.PXI_CASC_STAT_CLAIMS_LOST
          else t ((c.casc.map (·.1)).getD 0)
        | none => u := by
  have hgo : (s.pxi.casc.owner.isSome || !s.inCascade || k.st != .running) = false := by simp [hfree, hgroup, hst]
  simp only [execClaim, hk, hgo, Bool.false_eq_true, if_false]
  rfl

section
variable {o : Nat} (h : s.pxi.casc.owner = some o)
include h

theorem execStrobe_held : execStrobe s = if o = s.cascPos then s
    else ((s.reach (s.pxi.casc.since + max 1 (s.fld F.PXI_CASC_CFG_STB_TIMEOUT) * cyclesPerUs)).setCasc fun x =>
      { x with rdy := false, round := 0 }).bump F.PXI_CASC_STAT_TIMEOUTS := by
  simp only [execStrobe, h]

theorem execStuck_held : execStuck s = if o = s.cascPos then s
    else ((((s.reach (s.pxi.casc.since + 1000 * cyclesPerUs)).setFld F.PXI_CASC_STAT_STUCK 1).setCasc fun x =>
      { x with stuck := true }).bump F.PXI_CASC_STAT_TIMEOUTS).cascGiveUp s.pxi.lookups := by
  simp only [execStuck, h]
  rfl

theorem execReleased_held : execReleased s = if o = s.cascPos then s
    else s.setCasc fun x => { x with owner := none, rdy := false, round := 0, stuck := false, since := s.cycles } := by
  simp only [execReleased, h]

end

end

/-- Settles O47: each step of a round, of its initiator or of another member. -/
theorem cascadeRounds : Obligations.CascadeRounds := by
  refine ⟨?_, fun s p query hon => ⟨fun hfree => ?_, fun hheld => ?_⟩, ?_, fun s hrdy hawake => ⟨fun hr => ?_, fun hr => ?_⟩, ?_, ?_,
    fun s src ref ho => ⟨fun ha => ?_, fun ha => ?_⟩, fun s how => ⟨?_, ?_, ?_, ?_⟩, fun s o how hne => ⟨?_, ?_, ?_, ?_⟩⟩
  · intro s k rivals hk hst hfree hgroup u t r
    have hclaim {x : State} (h : execClaim k.id rivals s = x) : exec (.cascClaim ⟨k.id, rivals⟩) s = .next x := congrArg _ h
    have hrun := execClaim_free (rivals := rivals) hk hst hfree hgroup
    refine ⟨fun hlost hwho => hclaim (hrun.trans ?_), fun hwins => ⟨fun l x hl hcasc hx => hclaim (hrun.trans ?_),
      fun c hl hc => hclaim (hrun.trans ?_)⟩⟩
    · have hany : (rivals.any fun p => decide (s.cascPos < p)) = true := by simpa using hlost
      rcases hwho with ⟨l, hl, hcasc⟩ | ⟨hl, hc⟩
      · simp only [hl, hcasc, hany, Bool.not_true, Bool.false_eq_true, if_false, if_true]
        rfl
      · obtain ⟨c, hc⟩ := Option.isSome_iff_exists.mp hc
        simp only [hl, show s.claimTime.stepCursor? k = some c from hc, hany, if_true]
        rfl
    · have hany : (rivals.any fun p => decide (s.cascPos < p)) = false := by simpa using hwins
      simp only [hl, hcasc, hany, hx, Bool.not_true, Bool.false_eq_true, if_false, Option.map_some, Option.getD_some]
      rfl
    · have hany : (rivals.any fun p => decide (s.cascPos < p)) = false := by simpa using hwins
      simp only [hl, show s.claimTime.stepCursor? k = some c from hc, hany, Bool.false_eq_true, if_false]
      rfl
  · exact congrArg Host.Outcome.next (if_neg (by simp [hon, hfree]))
  · exact congrArg Host.Outcome.next (if_pos (.inr (Option.isSome_iff_ne_none.mpr hheld)))
  · intro s src req sdom mprof limit cam items hon u r
    have hrun : execCascQ src req sdom mprof limit cam items s = if limit = 0 then u else r.1.setCasc fun x => { x with
        kept := x.kept ++ [⟨src, req, limit + 1, matchesOf r.2.1, u.keepUntil⟩],
        round := if x.round = 0 ∧ (x.owner.map u.cascPart) = some src then req else x.round } := if_neg hon
    exact ⟨fun h => congrArg Host.Outcome.next (hrun.trans (if_pos h)), fun h => congrArg Host.Outcome.next (hrun.trans (if_neg h))⟩
  · exact congrArg Host.Outcome.next (if_pos (.inr (.inr hr)))
  · exact congrArg Host.Outcome.next (if_neg (by simp [hrdy, hawake, hr]))
  · intro s others how hrdy mine win late
    have hrun : execArb others s = if s.queryOut then s else if late then (s.bump F.PXI_CASC_STAT_TIMEOUTS).cascEnd none true
        else if win.1 ≠ 0 ∧ mine ≠ some win then s.setCasc fun x => { x with await := true } else s.cascEnd none false := by
      simp only [execArb, how, hrdy, Bool.false_eq_true, if_false, if_true]
      rfl
    have hnext {x : State} (h : execArb others s = x) : exec (.cascArbitration others) s = .next x := congrArg _ h
    refine ⟨fun hout => hnext (hrun.trans (if_pos hout)), fun hout hlate => hnext (hrun.trans ?_),
      fun hout hlate hwin hother => hnext (hrun.trans ?_), fun hout hlate hown => hnext (hrun.trans ?_)⟩
    · rw [if_neg (Bool.eq_false_iff.mp hout), if_pos hlate]
    · rw [if_neg (Bool.eq_false_iff.mp hout), if_neg hlate, if_pos ⟨hwin, hother⟩]
    · rw [if_neg (Bool.eq_false_iff.mp hout), if_neg hlate, if_neg]
      rintro ⟨hwin, hother⟩
      exact hown.elim hwin hother
  · intro s o others how hne hrdy mine win t
    have hrun : execArb others s = match s.contender with
        | some m => if mine = some win then t.svc (s.cascPart o) (.cascResult m.ref) else t
        | none => t := by
      simp only [execArb, how, hrdy, if_neg hne, Bool.false_eq_true, if_false]
      rfl
    refine ⟨fun m hm hwin => congrArg Host.Outcome.next (hrun.trans ?_), fun hlost => congrArg Host.Outcome.next (hrun.trans ?_)⟩
    · rw [hm]
      exact if_pos hwin
    · cases hm : s.contender with
      | none => rfl
      | some m => exact if_neg (hlost.resolve_left (by simp [hm]))
  · exact congrArg Host.Outcome.next ((peerMsg_of_open ho _).trans (if_pos ha))
  · exact congrArg Host.Outcome.next ((peerMsg_of_open ho _).trans (if_neg (Bool.eq_false_iff.mp ha)))
  · exact congrArg Host.Outcome.next (if_pos how)
  · exact congrArg Host.Outcome.next (execStrobe_held how |>.trans (if_pos rfl))
  · exact congrArg Host.Outcome.next (execStuck_held how |>.trans (if_pos rfl))
  · exact congrArg Host.Outcome.next (execReleased_held how |>.trans (if_pos rfl))
  · exact congrArg Host.Outcome.next (if_neg (by simpa [how] using hne))
  · exact congrArg Host.Outcome.next (execStrobe_held how |>.trans (if_neg hne))
  · exact congrArg Host.Outcome.next (execStuck_held how |>.trans (if_neg hne))
  · exact congrArg Host.Outcome.next (execReleased_held how |>.trans (if_neg hne))

end Sys2Proof.Machine
end

section
/-! PROOFS. Chapter 7: promotions, the recovery ladder, programs, T1 pressure, the endurance budget and the map journal (R262 to R284, R323,
R526). -/

namespace Sys2Proof.Machine

section
variable {s : State}

/-! ### Reads and the ladder (R262, R278 to R281, R323) -/

section
variable {p : Nat} {f : Frame} (h : s.frame? p = some f)
include h

theorem execPromo_promoting {c : FlashCopy} (hst : f.st = .promoting) (hok : f.readOk = true) (hc : f.t2 = some c) :
    let u := (s.setFrame p fun x => { x with
      st := .cleanT1, prom := false, t1 := some ⟨c.hdr.withChunks x.fill, f.fixed.getD (s.flashBytes c)⟩, fill := [],
      readOk := false, reader := none }).bump F.TIER_MOVE_STAT_PROMOTIONS
    execPromo p s = (((u.hotFill p u.att.ents).freeIfIdle p).startWanted p).clearRetired [] := by
  simp only [execPromo, h, hst, hok, hc, and_self, if_true]

theorem execPromo_else (hno : f.st ≠ .promoting ∨ f.readOk = false) : execPromo p s = s := by
  simp only [execPromo, h]
  exact if_neg fun hyes => hno.elim (fun hst => hst hyes.1) fun hok => Bool.false_ne_true (hok.symm.trans hyes.2)

theorem execFlashRead_of (e : LadderEnd) : execFlashRead p e s = if f.reading then s.ladderEnd f e else s := by
  simp only [execFlashRead, h]

theorem execLower_t2 (e : Option FailKind) (hre : f.reread = some .t2) : execLower p e s = s.ladderEnd f (match e with
    | some k => .badCopy k
    | none => .pass) := by
  simp only [execLower, h, hre] <;> rfl

/-- The re-read of a copy in T0 or T1 ends as its bytes verify. -/
theorem execLower_held {t : Tier} {e : Option FailKind} {c : Copy} (hre : f.reread = some t) (ht : t ≠ .t2)
    (hc : (if t = .t0 then f.stg else f.t1) = some c) : execLower p e s = match (s.verifyCopy f t c e).2 with
      | none => (s.verifyCopy f t c e).1.readPassed p
      | some k => ((s.verifyCopy f t c e).1.setFrame p fun x => { x with reread := none }).copyFailed f t k := by
  cases t with
  | t2 => exact absurd rfl ht
  | t0 =>
    have hstg : f.stg = some c := hc
    simp only [execLower, h, hre, hstg, if_true] <;> rfl
  | t1 =>
    have ht1 : f.t1 = some c := hc
    simp only [execLower, h, hre, ht1, reduceCtorEq, if_false] <;> rfl

end

section
variable {f : Frame}

theorem ladderStep_moves {n : Nat} (h : s.nextLadder f (f.t2.any s.copyLate) = some n) :
    s.ladderStep f .uncorrectable = s.setFrame f.pfh fun x => { x with ladder := n } := by
  simp only [State.ladderStep, h]

theorem ladderStep_exhausted (h : s.nextLadder f (f.t2.any s.copyLate) = none) : s.ladderStep f .uncorrectable = s.exhausted f := by
  simp only [State.ladderStep, h]

theorem ladderStep_pass : s.ladderStep f .pass =
    (if f.ladder = 2 then s.bump F.FLS_LADDER_STAT_RETRIED
      else if f.ladder = 3 then (s.bump F.FLS_LADDER_STAT_PARITY).repair f (((s.stepCopy f).map (·.2)).getD [])
      else if f.ladder = 4 then (s.bump F.FLS_LADDER_STAT_COPY2).repair f (((s.stepCopy f).map (·.2)).getD []) else s).readPassed
        f.pfh := rfl

end

/-- Marking a group as failed: its bit of FLS_GROUPS.FAILED is set. -/
theorem markBit_set {b g : Nat} (hg : g < 4) : (if b / 2 ^ g % 2 = 1 then b else b + 2 ^ g) % 2 ^ 4 / 2 ^ g % 2 = 1 := by
  obtain rfl | rfl | rfl | rfl : g = 0 ∨ g = 1 ∨ g = 2 ∨ g = 3 := by omega
  all_goals split <;> omega

theorem mem_addOnce (l : List (Nat × Nat)) (a : Nat × Nat) : a ∈ if l.contains a then l else l ++ [a] := by
  split
  · next h => exact List.contains_iff_mem.mp h
  · exact List.mem_append_right _ List.mem_cons_self

/-- A target that has not become ready is marked failed. -/
theorem execRb_marks (ch target p : Nat) (hch : ch < 64) : ∃ u : State,
    (execRb ch target p s = match u.frame? p with
      | none => u
      | some f => if f.reading then u.ladderStep f .uncorrectable else u) ∧
    u.fld F.FLS_GROUPS_FAILED / 2 ^ (ch / 16) % 2 = 1 ∧ (ch, target) ∈ u.tier.failedTargets ∧ u.tier.frames = s.tier.frames := by
  refine ⟨_, rfl, ?_, mem_addOnce s.tier.failedTargets (ch, target), rfl⟩
  exact (congrArg (fun v => v / 2 ^ (ch / 16) % 2) (fld_setFld_same _ F.FLS_GROUPS_FAILED _ 0 0)).trans (markBit_set (by omega))

end

/-- Settles O48, by what ends each read and each step of the ladder. -/
theorem readsAndLadder : Obligations.ReadsAndLadder := by
  refine ⟨fun s p f h => ⟨?_, fun hno => next_traced (execPromo_else h hno),
    fun e hr => next_traced ((execFlashRead_of h e).trans (if_pos hr)),
    fun e hr => next_traced ((execFlashRead_of h e).trans (if_neg (Bool.eq_false_iff.mp hr))),
    fun e hre => ⟨next_traced (execLower_t2 h none hre), next_traced (execLower_t2 h (some e) hre)⟩,
    fun t e c u hre ht hc hv => ?_, fun t e c u k hre ht hc hv => ?_⟩, ?_, fun s ch target p hch => ?_⟩
  · intro c hst hok hc u
    exact next_traced (execPromo_promoting h hst hok hc)
  · have hrun := execLower_held (e := e) h hre ht hc
    rw [hv] at hrun
    exact next_traced hrun
  · have hrun := execLower_held (e := e) h hre ht hc
    rw [hv] at hrun
    exact next_traced hrun
  · intro s f straight b
    refine ⟨fun h hs => ladderStep_moves ?_, fun h hs => ladderStep_moves ?_, fun h => ladderStep_moves ?_,
      fun h hb hc => ladderStep_moves ?_, fun h hno => ladderStep_exhausted ?_, fun h => ladderStep_exhausted ?_, fun h => ?_,
      fun h => ?_, fun h => ?_, fun h => ?_⟩
    · rw [State.nextLadder, if_pos h, if_neg (fun hyes => hs hyes.symm)]
    · rw [State.nextLadder, if_pos h, if_pos hs.symm]
    · simp [State.nextLadder, h]
    · simp [State.nextLadder, h, hb, hc]
    · rw [State.nextLadder, if_neg (by omega), if_neg (by omega), if_neg]
      rintro ⟨-, hb, hc⟩
      exact hno.elim (fun hno => Bool.false_ne_true (hno.symm.trans hb)) fun hno => Bool.false_ne_true (hno.symm.trans hc)
    · simp [State.nextLadder, h]
    · simp [ladderStep_pass, h]
    · simp [ladderStep_pass, h]
    · simp [ladderStep_pass, h, b]
    · simp [ladderStep_pass, h, b]
  · obtain ⟨u, hrun, hbit, hmem, hframes⟩ := execRb_marks (s := s) ch target p hch
    have hsame : u.frame? p = s.frame? p := congrArg (List.find? fun x : Frame => x.pfh == p) hframes
    rw [hsame] at hrun
    refine ⟨fun h => ⟨u, next_traced ?_, hbit, hmem, hframes⟩, fun f h hr => ⟨u, next_traced ?_, hbit, hmem, hframes⟩⟩
    · rw [hrun, h]
    · rw [hrun, h]
      exact if_pos hr

section
variable {s : State}

/-! ### Programs (R262, R263, R275) -/

theorem execProg_of {p : Nat} {f : Frame} {g : Program} (h : s.frame? p = some f) (hg : f.prog = some g) :
    let u := { s with sch := { s.sch with groups := s.sch.groups.map (SGroup.programEnds p s.cycles) } }
    let v := (u.bump F.TIER_MOVE_STAT_DEMOTIONS).chargeMove f g.kind
    execProg p s = ((v.setFrame p (programDone (v.keepsSecond f) g)).burlUpdate p).clearRetired [] := by
  intro u v
  unfold execProg
  extract_lets sch z
  rw [show z.frame? p = some f from h]
  simp only [hg]
  rfl

theorem execProg_none {p : Nat} {f : Frame} (h : s.frame? p = some f) (hg : f.prog = none) :
    execProg p s = { s with sch := { s.sch with groups := s.sch.groups.map (SGroup.programEnds p s.cycles) } } := by
  unfold execProg
  extract_lets sch z
  rw [show z.frame? p = some f from h]
  simp only [hg]
  rfl

theorem execEager_of {p : Nat} {f : Frame} (h : s.frame? p = some f) : execEager p s =
    if f.st = .dirtyT1 ∧ f.wbAct = 2 ∧ f.peer.isNone ∧ s.canProgram f .writeBack f.discretionary then
      (s.reach (f.lastWrite + s.fld F.TIER_WB_CFG_DELAY * cyclesPerUs)).startProgram p .writeBack f.discretionary
    else s := by
  simp only [execEager, h]

/-! A program that ends (Table 7.3). -/

section
variable {f : Frame} {g : Program} (second : Bool)

theorem settle_prog (x : Frame) : x.settle.prog = x.prog := by
  unfold Frame.settle
  split <;> rfl

theorem programDone_prog : (programDone second g f).prog = none := by
  simp only [programDone]
  split
  · rfl
  · cases g.kind with
    | demote => simp only; split <;> simp [settle_prog]
    | writeBack => simp only; split <;> rfl
    | second => simp only; split <;> rfl
    | moveFirst => simp only; split <;> rfl
    | moveSecond => simp only; split <;> rfl

theorem programDone_discarded (h : g.ver ≠ f.ver ∨ f.st = .writing) : programDone second g f = { f with prog := none } := if_pos h

theorem programDone_demoted (hv : g.ver = f.ver) (hk : g.kind = .demote) (hst : f.st = .demoting) (hpins : f.pins = 0) :
    programDone second g f = { f with prog := none, st := .t2Only, t1 := none, stg := none, t2 := some g.dest } := by
  simp [programDone, Frame.settle, hv, hk, hst, hpins]

theorem programDone_written (hv : g.ver = f.ver) (hk : g.kind = .writeBack) (hst : f.st = .dirtyT1) :
    programDone second g f = { f with prog := none, st := .cleanT1, t2 := some g.dest } := by
  simp [programDone, hv, hk, hst]

end

/-! ### Waiting allocations, reclaim and credit (R272, R273, R277) -/

theorem execAllocEnd_of {k : Cmd} {w : Nat} (hk : s.cmd? k.id = some k) (hw : k.alloc = some w) :
    let u := s.reach (w + s.fld F.TIER_T1_WM_ALLOC_WAIT * cyclesPerUs)
    execAllocEnd k.id s = if dOp k.desc = Op.attend then u.failAttend k.id St.noSpace
      else if dOp k.desc = Op.stepPlan then (u.giveUpStaging k.id).setCmd k.id fun x => { x with alloc := none }
      else if dOp k.desc = Op.pagesPlace then
        u.setCmd k.id fun x => { x with alloc := none, todo := x.todo.drop 1, count := x.count + 1 }
      else (u.finish k.id St.noSpace).clearRetired [] := by
  simp only [execAllocEnd, hk, hw]

theorem reclaim_standing (h : s.flashReserve ≤ s.flashFree) (l : List Nat) : s.reclaim l = s := by
  cases l with
  | nil => rfl
  | cons p t => exact if_pos h

/-! ### Uncorrectable errors (R282, R526) -/

theorem execHbmErr_away {pc pfh : Nat} {bad : List Nat} (hpc : pc < 1024) (h : s.frame? pfh = none) :
    let v := s.bump F.HBM_ECC_STAT_UNCORRECTED
    let u := { v with tier := { v.tier with pcErrors := spSet 0 v.tier.pcErrors pc (s.pcCount pc + 1) } }
    execHbmErr pc pfh bad s =
      if max 1 (s.fld F.HBM_RETIRE_CFG_THRESHOLD) ≤ s.pcCount pc + 1 then u.retireAll pc (pfh :: bad) else u := by
  intro v u
  have hcount : u.pcCount pc = s.pcCount pc + 1 := by
    simp only [State.pcCount, u, spGet_spSet_same]
  have hlimit : u.fld F.HBM_RETIRE_CFG_THRESHOLD = s.fld F.HBM_RETIRE_CFG_THRESHOLD :=
    fld_setFld_global (f := F.HBM_ECC_STAT_UNCORRECTED) (g := F.HBM_RETIRE_CFG_THRESHOLD) (by decide) (by decide) (by decide) _
  have hframe : u.frame? pfh = none := h
  rw [← hcount, ← hlimit]
  unfold execHbmErr
  rw [if_neg (Nat.not_le.mpr hpc)]
  extract_lets a b c d
  have hb : b = u := rfl
  have hd : d = u := by
    simp only [d, hb, hframe]
  rw [hd]
  simp only [c, hb, decide_eq_true_eq]

/-! ### The map journal (R284) -/

theorem execCommit_begins (hc : s.mapChanged = true) (hg : s.flashGroups ≠ []) (hb : s.jrnl.busy = none) :
    let segs := s.changedSegs.map fun i => (i, s.jrnl.target i, s.segNow i)
    let u := s.chargeProgram (256 * segs.length + 1)
    let at_ := max s.cycles (s.jrnl.lastAt + max 1 (s.fld F.FLS_JRNL_CFG_INTERVAL) * 1000 * cyclesPerUs)
    execCommit s = { u with cycles := at_, jrnl := { s.jrnl with
      busy := some ⟨s.fld F.FLS_JRNL_STAT_COMMIT_SEQ + 1, segs⟩, lastAt := at_ } } := by
  intro segs u at_
  have hgo : (s.mapChanged && !s.flashGroups.isEmpty) = true := by simp [hc, hg]
  let z : State := { s with cycles := at_, jrnl := { s.jrnl with lastAt := at_ } }
  have hstart : execCommit s = z.startCommit := if_pos hgo
  have hsegs : (z.changedSegs.map fun i => (i, z.jrnl.target i, z.segNow i)) = segs := rfl
  rw [hstart, State.startCommit, if_neg (by simp [z, hb]), hsegs]
  rfl

theorem endCommit_of {c : Commit} (h : s.jrnl.busy = some c) : s.endCommit =
    { ((s.setFld F.FLS_JRNL_STAT_COMMIT_SEQ c.num).bump F.TIER_MOVE_STAT_DEMOTIONS (c.segs.length + 1)) with
      jrnl := { (s.jrnl.putSegs c.num c.segs).putRoot (c.num % 2) (RootBank.of s.kmapKey s.mapSegs c.num) with busy := none } } := by
  simp only [State.endCommit, h]

end

/-- Settles O49: programs, pressure on T1, the budget, errors of a pseudo-channel, and commits of the map. -/
theorem programsBudgetJournal : Obligations.ProgramsBudgetJournal := by
  refine ⟨fun s p f h => ⟨?_, fun hg => ⟨_, next_traced (execProg_none h hg), rfl, rfl, rfl⟩,
      fun hst hwb hp hcan => next_traced ((execEager_of h).trans (if_pos ⟨hst, hwb, Option.isNone_iff_eq_none.mpr hp, hcan⟩)),
      fun hno => next_traced ((execEager_of h).trans (if_neg ?_))⟩, ?_, ?_, ?_,
    fun s => ⟨rfl, fun h l => reclaim_standing h l, fun us => ⟨_, rfl, rfl, rfl, rfl⟩⟩, ?_,
    fun s v hs hon => ⟨fun hkey => ?_, fun hkey => ?_⟩, fun s => ⟨fun hno => congrArg Host.Outcome.next (if_neg ?_), ?_,
      fun hb => congrArg Host.Outcome.next ?_, fun c hc => ?_⟩⟩
  · intro g hg u v
    exact next_traced (execProg_of h hg)
  · rintro ⟨hst, hwb, hp, hcan⟩
    rcases hno with hno | hno | hno | hno
    · exact hno hst
    · exact hno hwb
    · exact hno (Option.isNone_iff_eq_none.mp hp)
    · exact Bool.false_ne_true (hno.symm.trans hcan)
  · intro f g second r
    refine ⟨programDone_prog second, fun h => ?_, fun hv hk hst hpins => ?_, fun hv hk hst => ?_⟩
    · rw [show r = _ from programDone_discarded second h]
      exact ⟨rfl, rfl, rfl⟩
    · rw [show r = _ from programDone_demoted second hv hk hst hpins]
      exact ⟨rfl, rfl, rfl⟩
    · rw [show r = _ from programDone_written second hv hk hst]
      exact ⟨rfl, rfl, rfl⟩
  · intro s part low high
    exact ⟨fun h => next_traced (if_neg (Nat.not_lt.mpr h)), fun h => next_traced (if_pos h), rfl⟩
  · intro s k w hk hw u
    have hrun := execAllocEnd_of hk hw
    refine ⟨fun hop => next_traced (hrun.trans (if_pos hop)), fun hop => next_traced (hrun.trans ?_),
      fun hop => next_traced (hrun.trans ?_), fun ha hs hp => next_traced (hrun.trans ?_)⟩
    · rw [if_neg (by rw [hop]; decide), if_pos hop]
    · rw [if_neg (by rw [hop]; decide), if_neg (by rw [hop]; decide), if_pos hop]
    · rw [if_neg ha, if_neg hs, if_neg hp]
  · intro s pc pfh bad hpc h v u
    have hrun := execHbmErr_away (bad := bad) hpc h
    exact ⟨fun hlow => next_traced (hrun.trans (if_neg (Nat.not_le.mpr hlow))), fun hhigh => next_traced (hrun.trans (if_pos hhigh))⟩
  · have hrun : s.pfWrite 0 true (execRetireF 0 v) = execRetireF 0 v s := if_pos ⟨rfl, hs, .inr hon⟩
    exact next_traced (hrun.trans (if_pos ⟨rfl, hon, hkey⟩))
  · have hrun : s.pfWrite 0 true (execRetireF 0 v) = execRetireF 0 v s := if_pos ⟨rfl, hs, .inr hon⟩
    exact next_traced (hrun.trans (if_neg fun hall => hkey hall.2.2))
  · rcases hno with hno | hno <;> simp [hno]
  · intro hc hg hb segs u at_
    exact congrArg Host.Outcome.next (execCommit_begins hc hg hb)
  · simp only [execCommitDone, State.endCommit, hb]
  · refine ⟨_, congrArg Host.Outcome.next (endCommit_of hc), rfl, ?_, rfl, rfl, rfl⟩
    exact (fld_setFld_global (f := F.TIER_MOVE_STAT_DEMOTIONS) (g := F.FLS_JRNL_STAT_COMMIT_SEQ) (by decide) (by decide) (by decide) _).trans
      (fld_setFld_same s F.FLS_JRNL_STAT_COMMIT_SEQ c.num 0 0)

end Sys2Proof.Machine
end

section
/-! PROOFS. Chapters 11 and 16: contexts, staging switches, and the containment of faults (R24, R117, R118, R401 to R413, R525 to R535). -/

namespace Sys2Proof.Machine

section
variable {s : State} {x : Ctx}

/-! ### Contexts (R401 to R403, R442, R494) -/

/-- A write of SCH_CTX_CMD by the PF, with no command under way and the part awake. -/
theorem schCmd_runs {c op : Nat} (hbusy : s.fld F.SCH_CTX_STAT_BUSY ≠ 1) (hawake : s.asleep = false) :
    let u := (s.setFld F.SCH_CTX_CMD_CTX c).setFld F.SCH_CTX_CMD_OP op
    s.schCmd 0 c op = if op = 1 then u.schTeardown c else if op = 2 then u.schBringup c else u := by
  intro u
  have hstate : u.fld F.GLB_PM_STAT_STATE = s.fld F.GLB_PM_STAT_STATE :=
    (fld_setFld_global (by decide) (by decide) (by decide) op).trans (fld_setFld_global (by decide) (by decide) (by decide) c)
  have hu : u.asleep = false := by
    simpa only [State.asleep, hstate] using hawake
  have hgo : ¬ (0 ≠ 0 ∨ s.fld F.SCH_CTX_STAT_BUSY = 1) := by simp [hbusy]
  unfold State.schCmd
  rw [if_neg hgo]
  exact if_neg (Bool.eq_false_iff.mp hu)

theorem schTeardown_of {c : Nat} (h : s.ctx? c = some x) : s.schTeardown c = if x.st ≠ .up then s
    else ((if s.tdiLocked x.r.func then s.setTdi x.r.func 3 else s).tearDown c (some St.ok)).setFld F.SCH_CTX_STAT_BUSY 1 := by
  simp only [State.schTeardown, h]

theorem schBringup_of {c : Nat} (h : s.ctx? c = some x) :
    s.schBringup c = if x.st = .down ∧ !s.tdiLocked x.r.func then s.bringUp c else s := by
  simp only [State.schBringup, h]

theorem clearWindow_ctxs (c : Nat) : (s.clearWindow c).ctxs = s.ctxs := by
  unfold State.clearWindow
  split <;> rfl

theorem bringUp_ctx? {y : Ctx} {c : Nat} (h : s.ctx? c = some x) (hy : (s.bringUp c).ctx? c = some y) :
    y.st = .up ∧ y.r = x.r ∧ y.snap = none ∧ y.stats = { since := s.cycles } := by
  have hx : ((s.clearWindow c).clearSamples c).ctx? c = some x :=
    (congrArg (List.find? fun z : Ctx => z.r.ctx == c) (clearWindow_ctxs c)).trans h
  have hup := ctx?_setCtx_same (f := fun x => { x with
    st := .up, byFlr := false, cause := 0, snap := none, stats := { since := s.cycles }, vt := 0, vtCc := 0,
    thrGap := 0, thrOwed := false, thrLast := 0 }) hx rfl
  obtain rfl := Option.some.inj (hup.symm.trans hy)
  exact ⟨rfl, rfl, rfl, rfl⟩

theorem faultCtx_of {c : Nat} (h : s.ctx? c = some x) : s.faultCtx c =
    if x.st = .up then (s.tearDown c (some St.contextFaulted)).bump F.RAS_ERR_CNT_CONTEXT else s := by
  simp only [State.faultCtx, h]

theorem execReleaseDone_waits {c : Nat} (h : s.ctx? c = some x)
    (hwait : x.st ≠ .tearing ∨ (∃ k ∈ s.att.chunks, k.ctx = c) ∨ ∃ k ∈ s.cmds, k.ctx = c) : execReleaseDone c s = s := by
  have hwait' : x.st ≠ .tearing ∨ (s.att.chunks.any fun k => k.ctx == c) = true ∨ (s.cmds.any fun k => k.ctx == c) = true := by
    simpa using hwait
  simp only [execReleaseDone, h, if_pos hwait']

/-- The release of a context is done: its records are free, its triggers and its window clear, and SCH_CTX_STAT.BUSY falls. -/
theorem execReleaseDone_done {c : Nat} (h : s.ctx? c = some x) (hst : x.st = .tearing) (hchunks : ∀ k ∈ s.att.chunks, k.ctx ≠ c)
    (hcmds : ∀ k ∈ s.cmds, k.ctx ≠ c) :
    let a := s.freeRecs (s.seq.recs.filter fun r => r.ctx == c)
    let b := (a.clearTrigs x.r).clearWindow c
    let u := if b.fld F.SCH_CTX_STAT_BUSY = 1 && b.fld F.SCH_CTX_CMD_CTX == c then b.setFld F.SCH_CTX_STAT_BUSY 0 else b
    execReleaseDone c s = if x.byFlr then u.bringUp c else
      (u.setCtx c fun y => { y with
        st := .down, stats := {}, snap := some { x.stats with since := a.cycles - x.stats.since, egs := a.egsStats c },
        vt := 0, vtCc := 0 }).postEvent u.deviceCtx Ev.contextTornDown c (leBytes 1 x.cause) := by
  have hgo : ¬ (x.st ≠ .tearing ∨ (s.att.chunks.any fun k => k.ctx == c) = true ∨ (s.cmds.any fun k => k.ctx == c) = true) := by
    simpa [hst] using ⟨hchunks, hcmds⟩
  simp only [execReleaseDone, h, if_neg hgo]

theorem wakeUp_keeps (bit : Nat) : (s.wakeUp bit).boot = s.boot ∧ (s.wakeUp bit).ctxs = s.ctxs ∧ (s.wakeUp bit).cmds = s.cmds := by
  simp only [State.wakeUp]
  split <;> exact ⟨rfl, rfl, rfl⟩

end

/-- Settles O50, by the branches of SCH_CTX_CMD, of the release and of an FLR. -/
theorem contextsComeAndGo : Obligations.ContextsComeAndGo := by
  refine ⟨?_, fun s x y h hy => bringUp_ctx? h hy, fun s x h => ⟨fun hst => next_traced ((faultCtx_of h).trans (if_pos hst)),
    fun hst => next_traced ((faultCtx_of h).trans (if_neg hst)), fun hwait => next_traced (execReleaseDone_waits h hwait), ?_⟩,
    fun s f => ⟨fun hm => ?_, fun m hm => ?_⟩⟩
  · intro s x hs hbusy hawake h c u
    have hwrite (op : Nat) (f : State → State) (hf : f = fun s => s.schCmd 0 c op) : s.pfWrite 0 false f =
        if op = 1 then (u op).schTeardown c else if op = 2 then (u op).schBringup c else u op := by
      rw [pfWrite_ready hs, hf]
      exact schCmd_runs hbusy hawake
    have hu (op : Nat) : (u op).ctx? c = some x := h
    have hdown := (hwrite 1 (execTeardownF 0 c) rfl).trans (schTeardown_of (hu 1))
    have hup := (hwrite 2 (execBringupF 0 c) rfl).trans (schBringup_of (hu 2))
    refine ⟨fun hst => next_traced (hdown.trans (if_neg (not_not.mpr hst))), fun hst => next_traced (hdown.trans (if_pos hst)),
      fun hst hl => congrArg Host.Outcome.next (hup.trans (if_pos ⟨hst, by rw [hl]; rfl⟩)),
      fun hno => congrArg Host.Outcome.next (hup.trans (if_neg ?_))⟩
    rintro ⟨hst, hl⟩
    exact hno.elim (fun hno => hno hst) fun hno => by rw [hno] at hl; exact absurd hl (by decide)
  · intro hst hchunks hcmds c a b u
    have hdone := execReleaseDone_done h hst hchunks hcmds
    exact ⟨fun hf => next_traced (hdone.trans (if_pos hf)), fun hf => next_traced (hdone.trans (if_neg (Bool.eq_false_iff.mp hf)))⟩
  · obtain ⟨hboot, -, -⟩ := wakeUp_keeps (s := s) 2
    exact next_traced (if_neg (by rw [hboot, hm]; decide))
  · obtain ⟨hboot, hctxs, hcmds⟩ := wakeUp_keeps (s := s) 2
    refine ⟨_, next_traced (if_pos (by rw [hboot, hm]; rfl)), ?_, hctxs, hcmds⟩
    exact congrArg (fun b : Boot => b.waitFlr ++ [f]) hboot

section
variable {s : State} {g : Nat} {x : SGroup}

/-! ### Staging switches (R408 to R413) -/

theorem execSliceEnd_of {p : Nat} (h : s.group? g = some x) (hp : x.holderPart = some p) :
    let t := x.start + x.len * cyclesPerUs
    let u := (s.reach t).setGroup g fun y => { y with
      phase := if s.fld F.SCH_SLICE_CFG_GRACE = 0 then 2 else 1, out := some (p, t), overrun := 0 }
    execSliceEnd g s = if x.r.members.length ≤ 1 ∨ (x.phase ≠ 0 ∧ x.phase ≠ 3) ∨ x.out.any (fun o => o.2 == x.start + x.len * cyclesPerUs)
      then s else match u.group? g with
        | none => u
        | some y => u.pollGroup y := by
  simp only [execSliceEnd, h, hp] <;> rfl

theorem execFill_of {p : Nat} (h : s.group? g = some x) (hp : x.holderPart = some p) :
    execFill g s = if x.phase ≠ 3 then s else (s.fillHotAll p s.att.ents).setGroup g fun y => { y with phase := 0 } := by
  simp only [execFill, h, hp]

theorem execGrace_of {o : Nat × Nat} (h : s.group? g = some x) (ho : x.out = some o) : execGrace g s = if x.phase ≠ 1 then s
    else ((s.reach (o.2 + s.fld F.SCH_SLICE_CFG_GRACE * cyclesPerUs)).setGroup g fun y => { y with phase := 2 }).pollGroup
      { x with phase := 2 } := by
  simp only [execGrace, h, ho]

theorem pollGroup_of {p n : Nat} (ho : x.out = some (p, n)) : s.pollGroup x =
    if x.phase = 1 ∧ s.boundary p then
      if s.drained p then s.handOver x p n else s.setGroup x.r.group fun y => { y with phase := 2 }
    else if x.phase = 2 ∧ s.drained p then s.handOver x p n
    else s := by
  simp only [State.pollGroup, ho]

end

/-- Settles O51, by the branches of `pollGroup`, which carries a switch on. -/
theorem stagingSwitches : Obligations.StagingSwitches := by
  refine ⟨fun s g p x h hp => ⟨fun hone => next_traced ((execSliceEnd_of h hp).trans (if_pos (.inl hone))), ?_,
      fun hph => next_traced ((execFill_of h hp).trans (if_neg (not_not.mpr hph))),
      fun hph => next_traced ((execFill_of h hp).trans (if_pos hph))⟩,
    fun s g p n x h ho => ⟨fun hph => next_traced ((execGrace_of h ho).trans (if_pos hph)),
      fun hph => next_traced ((execGrace_of h ho).trans (if_neg (not_not.mpr hph)))⟩,
    fun s x p n ho => ⟨fun hph hb => ?_, fun hph hb hd => ?_, fun hph hd => ?_, fun hph hd => ?_⟩⟩
  · intro hmany hph hout t u y hy
    refine next_traced ((execSliceEnd_of h hp).trans ((if_neg ?_).trans ?_))
    · rintro (hone | hph' | hany)
      · exact Nat.not_le.mpr hmany hone
      · exact hph.elim hph'.1 hph'.2
      · cases ho : x.out with
        | none =>
          rw [ho] at hany
          exact absurd hany Bool.false_ne_true
        | some o =>
          rw [ho] at hany
          exact hout o ho (beq_iff_eq.mp hany)
    · rw [show State.group? _ g = some y from hy]
  · rw [pollGroup_of ho, if_neg (by simp [hb]), if_neg (by simp [hph])]
  · rw [pollGroup_of ho, if_pos ⟨hph, hb⟩, if_neg (Bool.eq_false_iff.mp hd)]
  · rw [pollGroup_of ho, if_neg (by simp [hph]), if_neg (by simp [hd])]
  · rw [pollGroup_of ho]
    rcases hph with hph | hph
    · rw [if_pos hph, if_pos hd]
    · rw [if_neg (by simp [hph]), if_pos ⟨hph, hd⟩]

section
variable {s : State}

/-! ### Faults (R528 to R535) -/

section
variable {ae cause : Nat}

theorem execAeFence_else (h : 256 ≤ ae ∨ s.aeOnline ae = false) : execAeFence ae cause s = s :=
  if_pos (h.imp_right fun h => by rw [h]; rfl)

/-- An AE is fenced for another reason than the rate of its expander. -/
theorem execAeFence_online (hae : ae < 256) (hon : s.aeOnline ae = true) (hc : cause ≠ 3) : execAeFence ae cause s =
    match s.att.chunks.find? fun k => k.st == .running ae with
    | none => s.fenceAe ae cause
    | some k =>
      if 2 ≤ k.errors ∧ s.chunkCounts k then
        ({ s with att := { s.att with chunks := s.att.chunks.filter fun x => !x.same k } }.unpinPages k.pages).faultCtx k.ctx
      else (s.sendBack k).fenceAe ae cause := by
  have hgo : ¬ (256 ≤ ae ∨ (!s.aeOnline ae) = true) := by simp [hae, hon]
  simp only [execAeFence, if_neg hgo, if_neg hc] <;> rfl

end

section
variable {cc cause : Nat}

theorem execCcFence_else (h : 128 ≤ cc ∨ s.ccOnline cc = false) : execCcFence cc cause s = s :=
  if_pos (h.imp_right fun h => by rw [h]; rfl)

theorem execCcFence_online (hcc : cc < 128) (hon : s.ccOnline cc = true) :
    let a := if cause = 4 then s.reach (s.cycles + max 1 (s.fld F.RAS_CFG_CC_WDOG) * cyclesPerUs) else s
    let u := (a.clearBit F.RAS_CC_ONLINE_ONLINE cc).logFence (256 + cc) cause 2 cc
    execCcFence cc cause s =
      if u.fld F.RAS_CC_ONLINE_ONLINE 0 = 0 ∧ u.fld F.RAS_CC_ONLINE_ONLINE 1 = 0 then u.deviceErr 6 (cc / 64) else u :=
  if_neg (by simp [hcc, hon])

end

theorem deviceErr_dead {cause die : Nat} (h : s.dead = true) : s.deviceErr cause die = s := if_pos h

end

/-- Settles O52, by the branches of each error and each fence. -/
theorem faultsAreContained : Obligations.FaultsAreContained := by
  refine ⟨fun s cause die => ⟨fun h => next_traced (deviceErr_dead h), ?_, rfl, rfl, fun h => next_traced (if_pos h),
      fun h => next_traced (if_neg (Bool.eq_false_iff.mp h))⟩,
    fun s ir => ⟨fun h => next_traced (if_pos h), fun h => next_traced ?_, fun h => next_traced ?_⟩,
    fun s ae cause => ⟨fun h => next_traced (execAeFence_else h), fun hae hon hc => ?_⟩,
    fun s cc cause => ⟨fun h => next_traced (execCcFence_else h), ?_⟩, ?_⟩
  · intro h a u
    exact next_traced (if_neg (Bool.eq_false_iff.mp h))
  · exact (if_neg (by omega)).trans (if_pos h)
  · exact (if_neg (by omega)).trans (if_neg (by omega))
  · have hrun := execAeFence_online hae hon hc
    refine ⟨fun hnone => next_traced (hrun.trans ?_), fun k hk he => next_traced (hrun.trans ?_), ?_⟩
    · have hfind : (s.att.chunks.find? fun k => k.st == .running ae) = none := by
        simpa [List.find?_eq_none] using hnone
      rw [hfind]
    · rw [hk]
      exact if_neg fun hall => Nat.not_le.mpr he hall.1
    · intro k hk he hcounts u
      refine next_traced (hrun.trans ?_)
      rw [hk]
      exact if_pos ⟨he, hcounts⟩
  · intro hcc hon a u
    have hrun := execCcFence_online (cause := cause) hcc hon
    refine ⟨fun hsome => next_traced (hrun.trans (if_neg ?_)), fun h0 h1 => next_traced (hrun.trans (if_pos ⟨h0, h1⟩))⟩
    exact fun hall => hsome.elim (fun h => h hall.1) fun h => h hall.2
  · intro s n u
    have hcore : execCorrected n 0 s = if !(u.coreError n).2 then (u.coreError n).1
        else if n < 256 then execAeFence n 2 (u.coreError n).1 else execCcFence (n - 256) 2 (u.coreError n).1 := rfl
    refine ⟨fun h => next_traced (hcore.trans (if_pos (by rw [h]; rfl))), fun h hn => next_traced (hcore.trans ?_),
      fun h hn => next_traced (hcore.trans ?_), rfl, rfl, rfl, rfl⟩
    · rw [if_neg (by simp [h]), if_pos hn]
    · rw [if_neg (by simp [h]), if_neg (Nat.not_lt.mpr hn)]

end Sys2Proof.Machine
end

section
/-! PROOFS. Chapter 13: the throttle level and its demands, droop, the brake, telemetry and calibration (R457 to R478). -/

namespace Sys2Proof.Machine

section
variable {s : State}

/-! ### The level (R457, R458, R474) -/

theorem relevel_rises (h : s.level < s.demand) : s.relevel = (s.setLevel s.demand).setPwr fun p => { p with fallFrom := none } := if_pos h

theorem relevel_falls (h : s.demand < s.level) : s.relevel = s.setPwr fun p => { p with fallFrom := some (p.fallFrom.getD s.cycles) } :=
  (if_neg (Nat.lt_asymm h)).trans (if_pos h)

theorem relevel_stays (h : s.demand = s.level) : s.relevel = s.setPwr fun p => { p with fallFrom := none } :=
  (if_neg (Nat.not_lt.mpr h.le)).trans (if_neg (Nat.not_lt.mpr h.ge))

theorem execFall_below (h : s.pwr.fallFrom = none ∨ s.level ≤ s.demand) : execFall s = s := by
  unfold execFall
  split
  · rfl
  · next t ht => exact if_pos (h.resolve_left (by simp [ht]))

theorem execFall_steps {t : Nat} (ht : s.pwr.fallFrom = some t) (h : s.demand < s.level) : execFall s =
    (((s.reach (t + max 1 (s.fld F.PWR_LOOP_CFG_FALL_US) * cyclesPerUs)).setPwr fun p => { p with fallFrom := none }).setLevel
      (s.level - 1)).relevel := by
  simp only [execFall, ht, if_neg (Nat.not_le.mpr h)]
  rfl

theorem execGapEnd_of {c : Nat} {x : Ctx} (h : s.ctx? c = some x) : execGapEnd c s = if !x.thrOwed then s
    else if x.st ≠ .up ∨ x.thrLast = s.level then (s.reach x.thrGap).setCtx c fun y => { y with thrOwed := false }
    else ((s.reach x.thrGap).setCtx c fun y => { y with thrOwed := false }).throttleEvent x := by
  simp only [execGapEnd, h]
  rfl

/-! ### The cap loop (R461, R462) -/

/-- Above the cap, L_cap is the first level from the one in force on whose predicted power is within the cap, and 15 without one. -/
theorem nextCap_above {p ps : Int} (h : (s.capMw : Int) < p) : s.nextCap p ps =
    (((List.range (16 - s.level)).map (s.level + ·)).find? fun x => predOk p ps s.level x s.capMw 1 1).getD 15 := if_pos h

theorem find?_levels_first {n x : Nat} {q : Nat → Bool} (hn : n ≤ x) (hx : x < 16) (hq : q x = true)
    (hfirst : ∀ y, n ≤ y → y < x → q y = false) :
    ((List.range (16 - n)).map (n + ·)).find? q = some x := by
  have hoff : ((List.range (16 - n)).find? (q ∘ (n + ·))) = some (x - n) := by
    refine List.find?_range_eq_some.mpr ⟨?_, List.mem_range.mpr (by omega), fun j hj => ?_⟩
    · simpa [Nat.add_sub_cancel' hn] using hq
    · simpa using hfirst (n + j) (Nat.le_add_right _ _) (by omega)
  rw [List.find?_map, hoff, Option.map_some, Nat.add_sub_cancel' hn]

theorem find?_levels_none {n : Nat} {q : Nat → Bool} (h : ∀ x, n ≤ x → x < 16 → q x = false) :
    ((List.range (16 - n)).map (n + ·)).find? q = none := by
  simp only [List.find?_eq_none, List.mem_map, List.mem_range, Bool.not_eq_true]
  rintro x ⟨i, hi, rfl⟩
  exact h _ (Nat.le_add_right _ _) (by omega)

/-! ### Heat (R465, R466) -/

/-- One run of the thermal loop. -/
theorem execTherm_of :
    let a := s.reach (s.pwr.thermAt + max 100 (s.fld F.PWR_LOOP_CFG_THERM_PERIOD) * cyclesPerUs)
    let b := a.setPwr fun p => { p with thermAt := a.cycles }
    let warn : Int := s.fld F.PWR_THERM_CFG_WARN
    let crit : Int := max (s.fld F.PWR_THERM_CFG_CRIT) (s.fld F.PWR_THERM_CFG_WARN)
    let hot : Int := s.fld F.PWR_THERM_CFG_HBM_HOT
    let hcrit : Int := s.fld F.PWR_THERM_CFG_HBM_CRIT
    let d := if s.dieBlind then max crit s.pwr.tDie else s.pwr.tDie
    let h := s.pwr.tHbm
    let l := s.fld F.PWR_STATUS_L_THERM
    execTherm s = (b.setFld F.PWR_STATUS_L_THERM (if crit ≤ d ∨ hcrit ≤ h then 15 else if warn ≤ d ∨ hot ≤ h then min 15 (l + 1)
      else if d < warn - 5 ∧ h < hot - 5 then l - 1 else l)).relevel := rfl

section
variable {x : Sensor} {v : Int} {moved : Bool}

theorem read_failed (h : x.failed = true) : x.read v moved = x := if_pos h

theorem read_out (h : x.failed = false) (hv : v < -40 ∨ 150 < v) : (x.read v moved).failed = true := by
  rcases hv with hv | hv <;> simp [Sensor.read, h, hv]

theorem read_new (h : x.failed = false) (hlow : -40 ≤ v) (hhigh : v ≤ 150) (hnew : v ≠ x.last) :
    (x.read v moved).failed = false ∧ (x.read v moved).last = v := by
  simp [Sensor.read, h, hnew, Int.not_lt.mpr hlow, Int.not_lt.mpr hhigh]

end

end

/-- The new readings of a list of (number, old, new). -/
theorem map_new_zip {α : Type} {olds : List α} (news : List α) (h : news.length = olds.length) :
    ((List.range olds.length).zip (olds.zip news)).map (·.2.2) = news := by
  have hpairs : ((List.range olds.length).zip (olds.zip news)).map Prod.snd = olds.zip news := List.map_snd_zip (by simp)
  have hnews : (olds.zip news).map Prod.snd = news := List.map_snd_zip h.le
  exact (List.map_map (f := Prod.snd) (g := Prod.snd)).symm.trans ((congrArg (List.map Prod.snd) hpairs).trans hnews)

/-- Settles O53: the branches of the level, of the two loops and of the sensors. -/
theorem levelFollowsDemands : Obligations.LevelFollowsDemands := by
  refine ⟨fun s v hs => ?_, fun s => ⟨relevel_rises, relevel_falls, relevel_stays, fun h => congrArg Host.Outcome.next (execFall_below h),
      fun f hf h => congrArg Host.Outcome.next (execFall_steps hf h)⟩, fun s pm ps => rfl,
    fun s p ps h => ⟨fun x hn hx hq hfirst => ?_, fun hno => ?_⟩,
    ?_, fun x v moved => ⟨read_failed, read_out, read_new⟩, fun s dies hbm => ?_, ?_⟩
  · have hrun : exec (.capWrite 0 v) s = .next (s.capWrite v.toNat) := congrArg Host.Outcome.next (pfWrite_ready hs _)
    refine ⟨_, hrun, ?_, ?_, ?_, rfl, rfl⟩
    · exact (fld_setFld_global (by decide) (by decide) (by decide) _).trans (fld_setFld_same s F.PWR_CAP_CAP_W v.toNat 0 0)
    · exact fld_setFld_same _ F.PWR_CAP_CAP_MARGIN _ 0 0
    · exact (fld_setFld_global (by decide) (by decide) (by decide) _).trans (fld_setFld_global (by decide) (by decide) (by decide) _)
  · rw [nextCap_above h, find?_levels_first hn hx hq hfirst]
    rfl
  · rw [nextCap_above h, find?_levels_none hno]
    rfl
  · intro s a b warn crit hot hcrit d h l go
    have hgo (n : Nat) (hn : (if crit ≤ d ∨ hcrit ≤ h then 15 else if warn ≤ d ∨ hot ≤ h then min 15 (l + 1)
        else if d < warn - 5 ∧ h < hot - 5 then l - 1 else l) = n) : go n :=
      congrArg (fun n => Host.Outcome.next (b.setFld F.PWR_STATUS_L_THERM n).relevel) hn
    refine ⟨fun hc => hgo _ (if_pos hc), fun hd hh hw => hgo _ ?_, fun hd hh hd' hh' => hgo _ ?_, fun hd hh hd' hh' hnear => hgo _ ?_⟩
    · rw [if_neg (by omega), if_pos hw]
    · rw [if_neg (by omega), if_neg (by omega), if_pos ⟨hd', hh'⟩]
    · rw [if_neg (by omega), if_neg (by omega), if_neg (by omega)]
  · refine ⟨_, _, rfl, ?_, rfl, rfl, ?_, rfl⟩
    · simp [State.setPwr]
    · exact map_new_zip _ (by simp)
  · intro s x h u
    have hrun := execGapEnd_of h
    refine ⟨fun ho => congrArg Host.Outcome.next (hrun.trans (if_pos (by rw [ho]; rfl))), fun ho hst => congrArg Host.Outcome.next (hrun.trans ?_),
      fun ho hst hl => congrArg Host.Outcome.next (hrun.trans ?_)⟩
    · rw [if_neg (by rw [ho]; decide), if_pos hst]
    · rw [if_neg (by rw [ho]; decide), if_neg (by simp [hst, hl])]

section
variable {s : State}

/-! ### Droop, the ramp and the brake (R468 to R471) -/

/-- A droop trip of an island of the part. -/
theorem execDroop_of {i : Nat} (hi : i < 48) :
    let w := ((s.pwr.trips.find? fun x => x.1 == i).map (·.2)).getD (s.cycles, 0)
    let v := if w.1 + 100 * cyclesPerUs ≤ s.cycles then (s.cycles, 1) else (w.1, w.2 + 1)
    let u := (s.bump F.PWR_DROOP_STAT_STRETCHES).setPwr fun p => { p with
      stretched := (s.stretchedNow.filter fun x => x.1 ≠ i) ++ [(i, s.cycles)]
      trips := p.trips.filter (fun x => x.1 ≠ i) ++ [(i, v)] }
    let e := u.setPwr fun p => { p with lastEsc := s.cycles }
    let l := s.fld F.PWR_STATUS_L_DROOP
    execDroop i s = if v.2 = max 1 (s.fld F.PWR_DROOP_CFG_DROOP_ESC) + 1 then
      (if l < 4 then ((e.setFld F.PWR_STATUS_L_DROOP (l + 1)).bump F.PWR_DROOP_STAT_ESCALATIONS).relevel else e) else u := by
  intro w v u e l
  let b := s.bump F.PWR_DROOP_STAT_STRETCHES
  have hesc : b.fld F.PWR_DROOP_CFG_DROOP_ESC = s.fld F.PWR_DROOP_CFG_DROOP_ESC :=
    fld_setFld_global (by decide) (by decide) (by decide) _
  have hhold : b.fld F.PWR_DROOP_CFG_DROOP_HOLD = s.fld F.PWR_DROOP_CFG_DROOP_HOLD :=
    fld_setFld_global (by decide) (by decide) (by decide) _
  have hl : b.fld F.PWR_STATUS_L_DROOP = l := fld_setFld_global (by decide) (by decide) (by decide) _
  have hnow : b.stretchedNow = s.stretchedNow := by
    simp only [State.stretchedNow, hhold]
    rfl
  let u' := b.setPwr fun p => { p with
    stretched := (b.stretchedNow.filter fun x => x.1 ≠ i) ++ [(i, s.cycles)]
    trips := p.trips.filter (fun x => x.1 ≠ i) ++ [(i, v)] }
  have hu : u' = u := by simp only [u', u, b, hnow]
  have hbody : execDroop i s = if v.2 = max 1 (b.fld F.PWR_DROOP_CFG_DROOP_ESC) + 1 then
      (if b.fld F.PWR_STATUS_L_DROOP < 4 then (((u'.setPwr fun p => { p with lastEsc := s.cycles }).setFld F.PWR_STATUS_L_DROOP
        (b.fld F.PWR_STATUS_L_DROOP + 1)).bump F.PWR_DROOP_STAT_ESCALATIONS).relevel
      else u'.setPwr fun p => { p with lastEsc := s.cycles }) else u' := if_neg (Nat.not_le.mpr hi)
  rw [hbody, hu, hesc, hl]

/-- Later, and with fewer changes that count, an AE that the ramp limit admits is admitted still, unless a hint lifted the limit. -/
theorem rampOk_later {t : State} {ae : Nat} (hatt : t.att = s.att) (hregs : t.regs = s.regs) (hcycles : s.cycles ≤ t.cycles)
    (hramp : t.sch.ramp.Sublist s.sch.ramp) (hheavy : s.ctxs.all (fun y => y.heavyEnd.isNone) = true) (h : s.rampOk ae = true) :
    t.rampOk ae = true := by
  have hlim (f : Fld) : t.fld f = s.fld f := by simp only [State.fld, hregs]
  have hbusy : t.islandBusy (aeIsland ae) = s.islandBusy (aeIsland ae) := by simp only [State.islandBusy, State.busyAes, hatt]
  have hnone : s.heavyDie (aeDie ae) = false := by
    simp only [State.heavyDie, List.any_eq_false, Bool.and_eq_true, not_and]
    intro x hx hany
    rw [Option.isNone_iff_eq_none.mp (List.all_eq_true.mp hheavy x hx)] at hany
    exact absurd hany Bool.false_ne_true
  have hcount : t.rampCount (aeDie ae) ≤ s.rampCount (aeDie ae) := by
    refine (List.Sublist.filter _ ((List.Sublist.filter _ hramp).trans (List.monotone_filter_right _ fun x hx => ?_))).length_le
    rw [hlim] at hx
    exact decide_eq_true ((hcycles.trans_lt (of_decide_eq_true hx)))
  simp only [State.rampOk, hbusy, hlim, hnone, Bool.or_false, Bool.or_eq_true, decide_eq_true_eq] at h ⊢
  exact h.imp Or.inl hcount.trans_lt

theorem execBrkEnd_of {a : Nat} {told : Bool} (h : s.pwr.brk = some (a, told)) : execBrkEnd s = if told then s
    else (((s.reach (a + max 1 (s.fld F.PWR_BRK_CFG_BRK_TIMEOUT) * 1000 * cyclesPerUs)).setPwr fun p =>
      { p with brk := some (a, true) }).setFld F.PWR_STATUS_BRK_STUCK 1).deviceEvent (devDetail 9 0 0) := by
  simp only [execBrkEnd, h]

/-! ### Telemetry and calibration (R464, R478) -/

theorem goodPoll_lastPoll (r mw : Nat) : (s.goodPoll r mw).lastPoll r = (mw, s.cycles) := by
  have hpolls : (s.goodPoll r mw).pwr.polls = s.pwr.polls.filter (fun x => x.1 ≠ r) ++ [(r, mw, s.cycles)] := by
    simp only [State.goodPoll]
    split <;> rfl
  have hold := find?_filter_ne_same s.pwr.polls (fun x => x.1) r
  simp only [State.lastPoll, hpolls, List.find?_append, hold, List.find?_singleton, beq_self_eq_true, if_true, Option.none_or, Option.map_some,
    Option.getD_some]

theorem execCalWin_of {c : CalRun} {m e : List Nat} (h : s.pwr.cal = some c) :
    let v := s.reach (c.start + (c.wins.length + 1) * 10000 * cyclesPerUs)
    let c' : CalRun := { c with
      left := c.left - 1, wins := c.wins ++ [v.calWindow c m e], since := v.cycles, model := List.replicate 8 0,
      telem := List.replicate 8 0 }
    let u := v.setPwr fun p => { p with cal := some c' }
    execCalWin m e s = if c.left - 1 = 0 then u.endCal c' else u := by
  simp only [execCalWin, h]

end

/-- Settles O54: the branches of each of these happenings. -/
theorem droopBrakeAndTelemetry : Obligations.DroopBrakeAndTelemetry := by
  refine ⟨⟨fun s i => ⟨fun hi => congrArg Host.Outcome.next (if_pos hi), ?_⟩, fun s i => ?_,
      fun s => ⟨fun h => congrArg Host.Outcome.next (if_pos h), ?_⟩,
      fun s die => ⟨fun hno => ?_, fun x hx => ?_⟩, fun s => ⟨fun h => ?_,
        fun h => congrArg Host.Outcome.next (if_pos (Option.isSome_iff_ne_none.mpr h)), rfl,
        fun a h => congrArg Host.Outcome.next ((execBrkEnd_of h).trans (if_pos rfl)),
        fun a h => congrArg Host.Outcome.next ((execBrkEnd_of h).trans (if_neg Bool.false_ne_true))⟩⟩,
    ?_, fun s v hs hv => ⟨fun hb => ?_, fun hb => ?_⟩, ?_⟩
  · intro hi w v u e l
    have hrun := execDroop_of (s := s) hi
    refine ⟨List.mem_append_right _ List.mem_cons_self, fun hv => congrArg Host.Outcome.next (hrun.trans (if_neg hv)),
      fun hv hl => congrArg Host.Outcome.next (hrun.trans ((if_pos hv).trans (if_neg (Nat.not_lt.mpr hl)))),
      fun hv hl => congrArg Host.Outcome.next (hrun.trans ((if_pos hv).trans (if_pos hl)))⟩
  · refine ⟨_, rfl, fun x hx => ?_, fun x hx => ?_, rfl⟩
    · simpa using (List.mem_filter.mp hx).2
    · simp only [execStretchEnd, State.setPwr, State.stretchedNow, List.mem_filter, decide_eq_true_eq]
      exact ⟨fun h => h.1, fun h => ⟨h, hx⟩⟩
  · intro h u
    exact congrArg Host.Outcome.next (if_neg h)
  · have hnone : s.sch.ramp.find? (fun y => y.1 == die) = none := by simpa [List.find?_eq_none] using hno
    have hrun : execRamp die s = s := by simp only [execRamp, hnone]
    exact congrArg Host.Outcome.next hrun
  · have hrun : execRamp die s = { s.reach (x.2 + nsToCycles (s.fld F.PWR_DROOP_CFG_RAMP_NS)) with
        sch := { s.sch with ramp := s.sch.ramp.erase x } } := by
      simp only [execRamp, hx]
      rfl
    exact ⟨_, congrArg Host.Outcome.next hrun, Nat.le_max_right _ _, rfl,
      fun ae _ hok hheavy => rampOk_later (s := s) rfl rfl (Nat.le_max_left _ _) List.erase_sublist hheavy hok, rfl, rfl⟩
  · exact congrArg Host.Outcome.next (if_neg (by simp [h]))
  · intro s r mw w due
    refine ⟨fun h => ⟨congrArg Host.Outcome.next (if_pos h), congrArg Host.Outcome.next (if_pos h)⟩,
      fun h hmw => congrArg Host.Outcome.next ((if_neg (Nat.not_le.mpr h)).trans ?_),
      fun h => ⟨congrArg Host.Outcome.next (if_neg (Nat.not_le.mpr h)), congrArg Host.Outcome.next (if_neg (Nat.not_le.mpr h))⟩,
      fun h hmw => congrArg Host.Outcome.next ((if_neg (Nat.not_le.mpr h)).trans ?_), rfl, fun _ => goodPoll_lastPoll r mw⟩
    · simp only [hmw, decide_true, Bool.and_self, if_true]
      rfl
    · simp only [Nat.not_le.mpr hmw, decide_false, Bool.and_false, Bool.false_eq_true, if_false]
      rfl
  · have hrun : exec (.calStart 0 v) s = .next (execCalStart 0 v s) := congrArg Host.Outcome.next (pfWrite_ready hs _)
    exact hrun.trans (congrArg Host.Outcome.next (if_pos (.inr (.inr hb))))
  · have hrun : exec (.calStart 0 v) s = .next (execCalStart 0 v s) := congrArg Host.Outcome.next (pfWrite_ready hs _)
    have hstart : execCalStart 0 v s = s.startCal (v.toNat / 256 % 256) false := if_neg (by simp [hv, hb])
    exact ⟨_, _, hrun.trans (congrArg Host.Outcome.next hstart), fld_setFld_same s F.PWR_CAL_STAT_BUSY 1 0 0, rfl, rfl, rfl, rfl, rfl, rfl⟩
  · intro s c m e h v c' u
    have hrun := execCalWin_of (m := m) (e := e) h
    exact ⟨fun hc => congrArg Host.Outcome.next (hrun.trans (if_neg (by omega))),
      fun hc => congrArg Host.Outcome.next (hrun.trans (if_pos (by omega)))⟩

end Sys2Proof.Machine
end

section
/-! PROOFS. Chapter 14: what a reset leaves (R492, R499), and the low-power states (R495 to R498). -/

namespace Sys2Proof.Machine

/-! ### Resets (R492, R499) -/

/-- Refutes O55: a reset starts the commit interval of the journal anew (`lastAt` becomes the time of the reset), so after a reset at cycle
1 of a part whose journal last committed at cycle 0 the journal is not the cut journal alone. -/
theorem not_resetsAndBringUp : ¬ Obligations.ResetsAndBringUp := by
  rintro ⟨-, hwiped, -⟩
  obtain ⟨-, -, -, -, -, -, -, -, -, -, -, -, -, -, -, hjrnl⟩ := hwiped State.reset 0 1
  have hlast : (1 : Nat) = 0 := congrArg Journal.lastAt hjrnl
  exact absurd hlast (by decide)

section
variable {s : State}

/-! ### Entering and waking (R495, R496) -/

theorem actTarget_running {g : Nat} (hg : g = 1 ∨ g = 2) (h : s.fld F.GLB_PM_STAT_STATE ≤ 1) : s.actTarget g = s.startEntry g := by
  have h4 : ¬ 4 ≤ s.fld F.GLB_PM_STAT_STATE := by omega
  have h2 : s.fld F.GLB_PM_STAT_STATE ≠ 2 := by omega
  have h3 : s.fld F.GLB_PM_STAT_STATE ≠ 3 := by omega
  rcases hg with rfl | rfl <;> simp [State.actTarget, h4, h2, h3]

theorem actTarget_changing {g : Nat} (h : 4 ≤ s.fld F.GLB_PM_STAT_STATE) : s.actTarget g = s.setPm fun p => { p with held := some g } := if_pos h

theorem actTarget_running_wakes (h : s.fld F.GLB_PM_STAT_STATE < 4) : s.actTarget 0 = s.wakeUp 3 := by
  have h4 : ¬ 4 ≤ s.fld F.GLB_PM_STAT_STATE := Nat.not_le.mpr h
  simp [State.actTarget, h4]

theorem actHeld_none (h : s.pm.held = none) : s.actHeld = s := by simp only [State.actHeld, h]

theorem startEntry_state (g : Nat) : (s.startEntry g).fld F.GLB_PM_STAT_STATE = 4 := fld_setFld_same s F.GLB_PM_STAT_STATE 4 0 0

/-- A wake from HOLD or PARK starts the exit and records its cause. -/
theorem wakeUp_exits {bit : Nat} (hbit : bit ≤ 3) (h : s.fld F.GLB_PM_STAT_STATE = 2 ∨ s.fld F.GLB_PM_STAT_STATE = 3) :
    (s.wakeUp bit).fld F.GLB_PM_STAT_STATE = 5 ∧ (s.wakeUp bit).fld F.GLB_PM_STAT_WAKE = 2 ^ bit := by
  have hexit : s.wakeUp bit = { ((s.setFld F.GLB_PM_STAT_STATE 5).setFld F.GLB_PM_STAT_WAKE (2 ^ bit)) with
      pm := { s.pm with after := none } } := if_pos (.inr h)
  rw [hexit]
  constructor
  · calc ((s.setFld F.GLB_PM_STAT_STATE 5).setFld F.GLB_PM_STAT_WAKE (2 ^ bit)).fld F.GLB_PM_STAT_STATE
        = (s.setFld F.GLB_PM_STAT_STATE 5).fld F.GLB_PM_STAT_STATE :=
          fld_setFld_global (by decide) (by decide) (by decide) _
      _ = 5 := fld_setFld_same s F.GLB_PM_STAT_STATE 5 0 0
  · have hpow : 2 ^ bit < 2 ^ 4 := Nat.pow_lt_pow_right (by decide) (by omega)
    calc ((s.setFld F.GLB_PM_STAT_STATE 5).setFld F.GLB_PM_STAT_WAKE (2 ^ bit)).fld F.GLB_PM_STAT_WAKE
        = 2 ^ bit % 2 ^ 4 := fld_setFld_same _ F.GLB_PM_STAT_WAKE (2 ^ bit) 0 0
      _ = 2 ^ bit := Nat.mod_eq_of_lt hpow

/-! ### The end of an entry (R495) -/

theorem startCommit_pm_cmds (s : State) : s.startCommit.pm = s.pm ∧ s.startCommit.cmds = s.cmds := by
  unfold State.startCommit
  split <;> exact ⟨rfl, rfl⟩

theorem endCommit_pm_cmds (s : State) : s.endCommit.pm = s.pm ∧ s.endCommit.cmds = s.cmds := by
  unfold State.endCommit
  split <;> exact ⟨rfl, rfl⟩

theorem commitNow_pm_cmds (s : State) : s.commitNow.pm = s.pm ∧ s.commitNow.cmds = s.cmds := by
  obtain ⟨hpm, hcmds⟩ := endCommit_pm_cmds s
  obtain ⟨hpm', hcmds'⟩ := startCommit_pm_cmds s.endCommit
  obtain ⟨hpm'', hcmds''⟩ := endCommit_pm_cmds s.endCommit.startCommit
  simp only [State.commitNow]
  split
  · exact ⟨hpm, hcmds⟩
  · exact ⟨hpm''.trans (hpm'.trans hpm), hcmds''.trans (hcmds'.trans hcmds)⟩

theorem park_pm (s : State) : s.park.pm = s.pm := (commitNow_pm_cmds s).1

theorem park_cmds (s : State) : s.park.cmds = s.cmds := (commitNow_pm_cmds s).2

/-- PARK lets the CAM, the hot set and the copies in T0 go. -/
theorem park_drops (s : State) : s.park.pxi.cam = [] ∧ s.park.att.hot = [] ∧ ∀ f ∈ s.park.tier.frames, f.stg = none := by
  refine ⟨rfl, rfl, fun f hf => ?_⟩
  obtain ⟨g, -, rfl⟩ := List.mem_map.mp hf
  rfl

/-- The part enters HOLD (1) or PARK (2). -/
def State.enterRest (s : State) (g : Nat) : State :=
  (((s.setFld F.GLB_PM_STAT_STATE (g + 1)).setFld F.GLB_PM_STAT_RESULT St.ok).bump F.GLB_PM_STAT_ENTRIES).setPm
    fun p => { p with entering := none }

theorem enterRest_state {g : Nat} (hg : g ≤ 2) : (s.enterRest g).fld F.GLB_PM_STAT_STATE = g + 1 := by
  have hmod : (g + 1) % 2 ^ 3 = g + 1 := Nat.mod_eq_of_lt (by omega)
  calc (s.enterRest g).fld F.GLB_PM_STAT_STATE
      = ((s.setFld F.GLB_PM_STAT_STATE (g + 1)).setFld F.GLB_PM_STAT_RESULT St.ok).fld F.GLB_PM_STAT_STATE :=
        fld_setFld_global (by decide) (by decide) (by decide) _
    _ = (s.setFld F.GLB_PM_STAT_STATE (g + 1)).fld F.GLB_PM_STAT_STATE :=
        fld_setFld_global (by decide) (by decide) (by decide) _
    _ = (g + 1) % 2 ^ 3 := fld_setFld_same s F.GLB_PM_STAT_STATE (g + 1) 0 0
    _ = g + 1 := hmod

theorem enterRest_result (g : Nat) : (s.enterRest g).fld F.GLB_PM_STAT_RESULT = St.ok :=
  calc (s.enterRest g).fld F.GLB_PM_STAT_RESULT
      = ((s.setFld F.GLB_PM_STAT_STATE (g + 1)).setFld F.GLB_PM_STAT_RESULT St.ok).fld F.GLB_PM_STAT_RESULT :=
        fld_setFld_global (by decide) (by decide) (by decide) _
    _ = St.ok := fld_setFld_same _ F.GLB_PM_STAT_RESULT St.ok 0 0

/-- The entry under way, in a part with nothing held back and no staging switch or mount to wait for. -/
structure Entering (s : State) (g at_ : Nat) : Prop where
  entry : s.pm.entering = some (g, at_)
  state : s.fld F.GLB_PM_STAT_STATE = 4
  waits : s.entryWaits = false
  held : s.pm.held = none

theorem execDrainDone_enters {g at_ : Nat} (e : Entering s g at_) (h : s.cmdsDrained = true) :
    execDrainDone s = (if g = 2 then s.park else s).enterRest g := by
  have hgo : ¬ (s.fld F.GLB_PM_STAT_STATE ≠ 4 ∨ s.entryWaits = true ∨ (!s.cmdsDrained) = true) := by
    simp [e.state, e.waits, h]
  have hheld : (if g = 2 then s.park else s).pm.held = none := by
    split
    · exact (congrArg Pm.held (park_pm s)).trans e.held
    · exact e.held
  simp only [execDrainDone, e.entry]
  rw [if_neg hgo]
  exact actHeld_none hheld

theorem execDrainDone_waits {g at_ : Nat} (e : Entering s g at_) (h : s.cmdsDrained = false) : execDrainDone s = s := by
  simp only [execDrainDone, e.entry]
  exact if_pos (.inr (.inr (by rw [h]; rfl)))

/-- An entry is abandoned: the part runs on. -/
def State.abandoned (s : State) : State :=
  (((s.setFld F.GLB_PM_STAT_STATE 0).setFld F.GLB_PM_STAT_RESULT St.timeout).setFld F.GLB_PM_CTL_TARGET 0).setPm
    fun p => { p with entering := none }

theorem abandoned_state : s.abandoned.fld F.GLB_PM_STAT_STATE = 0 :=
  calc s.abandoned.fld F.GLB_PM_STAT_STATE
      = (((s.setFld F.GLB_PM_STAT_STATE 0).setFld F.GLB_PM_STAT_RESULT St.timeout).setFld F.GLB_PM_CTL_TARGET 0).fld F.GLB_PM_STAT_STATE := rfl
    _ = ((s.setFld F.GLB_PM_STAT_STATE 0).setFld F.GLB_PM_STAT_RESULT St.timeout).fld F.GLB_PM_STAT_STATE :=
        fld_setFld_global (by decide) (by decide) (by decide) _
    _ = (s.setFld F.GLB_PM_STAT_STATE 0).fld F.GLB_PM_STAT_STATE := fld_setFld_global (by decide) (by decide) (by decide) _
    _ = 0 := fld_setFld_same s F.GLB_PM_STAT_STATE 0 0 0

theorem abandoned_result : s.abandoned.fld F.GLB_PM_STAT_RESULT = St.timeout :=
  calc s.abandoned.fld F.GLB_PM_STAT_RESULT
      = (((s.setFld F.GLB_PM_STAT_STATE 0).setFld F.GLB_PM_STAT_RESULT St.timeout).setFld F.GLB_PM_CTL_TARGET 0).fld F.GLB_PM_STAT_RESULT := rfl
    _ = ((s.setFld F.GLB_PM_STAT_STATE 0).setFld F.GLB_PM_STAT_RESULT St.timeout).fld F.GLB_PM_STAT_RESULT :=
        fld_setFld_global (by decide) (by decide) (by decide) _
    _ = St.timeout := fld_setFld_same _ F.GLB_PM_STAT_RESULT St.timeout 0 0

theorem abandoned_target : s.abandoned.fld F.GLB_PM_CTL_TARGET = 0 := fld_setFld_same _ F.GLB_PM_CTL_TARGET 0 0 0

theorem execDrainEnd_abandons {g at_ : Nat} (e : Entering s g at_) (h : s.cmdsDrained = false) :
    execDrainEnd s = (s.reach (at_ + max 1 (s.fld F.GLB_PM_CFG_DRAIN) * 1000 * cyclesPerUs)).abandoned := by
  have hgo : ¬ (s.fld F.GLB_PM_STAT_STATE ≠ 4 ∨ s.entryWaits = true ∨ s.cmdsDrained = true) := by simp [e.state, e.waits, h]
  simp only [execDrainEnd, e.entry]
  rw [if_neg hgo]
  exact actHeld_none e.held

/-! ### Wake events and the end of an exit (R496 to R498) -/

/-- A wake event starts the exit and records its cause. -/
def Wakes (s : State) (c : Nat) : Prop :=
  ∃ t, exec (.wake c) s = .next (s.traced t) ∧ t.fld F.GLB_PM_STAT_STATE = 5 ∧ t.fld F.GLB_PM_STAT_WAKE = 2 ^ c ∧ t.cmds = s.cmds

theorem wakes_of {c : Nat} {u : State} (hc : c ≤ 3) (hev : execWakeEvent c s = u.wakeUp c) (hcmds : u.cmds = s.cmds)
    (hu : u.fld F.GLB_PM_STAT_STATE = 2 ∨ u.fld F.GLB_PM_STAT_STATE = 3) : Wakes s c := by
  obtain ⟨hstate, hcause⟩ := wakeUp_exits hc hu
  exact ⟨u.wakeUp c, next_traced hev, hstate, hcause, (wakeUp_cmds u c).trans hcmds⟩

theorem wakeDb_armed (h : s.fld F.GLB_PM_CTL_WAKE_DB = 1) : s.wakeDb = s.wakeUp 0 := if_pos (.inr h)

theorem wakeDb_masked (hst : s.fld F.GLB_PM_STAT_STATE ≠ 1) (h : s.fld F.GLB_PM_CTL_WAKE_DB = 0) : s.wakeDb = s :=
  if_neg (by simp [hst, h])

theorem wakeFab_armed (h : s.fld F.GLB_PM_CTL_WAKE_FABRIC = 1) : s.wakeFab = s.wakeUp 1 := if_pos (.inr h)

theorem wakeFab_masked (hst : s.fld F.GLB_PM_STAT_STATE ≠ 1) (h : s.fld F.GLB_PM_CTL_WAKE_FABRIC = 0) : s.wakeFab = s :=
  if_neg (by simp [hst, h])

/-- Writing 0 to TARGET wakes a part at rest. -/
theorem target_zero_wakes (h : s.fld F.GLB_PM_STAT_STATE = 2 ∨ s.fld F.GLB_PM_STAT_STATE = 3) : Wakes s 3 := by
  have hstate : (s.setFld F.GLB_PM_CTL_TARGET 0).fld F.GLB_PM_STAT_STATE = s.fld F.GLB_PM_STAT_STATE :=
    fld_setFld_global (by decide) (by decide) (by decide) _
  refine wakes_of (u := s.setFld F.GLB_PM_CTL_TARGET 0) (by decide) (actTarget_running_wakes ?_) rfl ?_
  · rw [hstate]
    omega
  · rw [hstate]
    exact h

theorem execExitDone_of (hst : s.fld F.GLB_PM_STAT_STATE = 5) (hafter : s.pm.after = none) :
    execExitDone s =
      (let u := (s.setFld F.GLB_PM_STAT_STATE 0).setPm fun p => { p with after := none, deferred := [], reqs := [] }
       let v := (u.runDeferred s.pm.deferred).answerReqs s.pm.reqs
       if v.pm.held.isSome then v.actHeld else v) := by
  unfold execExitDone
  rw [if_neg (not_not.mpr hst), hafter]

end

/-- Settles O56: entry and abandonment of IDLE, HOLD and PARK, wake events, and the end of an exit, a lemma for each. -/
theorem lowPowerStates : Obligations.LowPowerStates := by
  refine ⟨fun s => ⟨fun hauto hst hquiet => ?_, fun h => ?_⟩, ?_, fun s g hg => ⟨fun h => ?_, fun h => ?_⟩,
    fun s g at_ hentry hst hwaits hheld => ?_, fun s h => ?_, ?_⟩
  · refine ⟨(s.reach (s.cycles + max 1 (s.fld F.GLB_PM_CTL_IDLE_US) * cyclesPerUs)).setFld F.GLB_PM_STAT_STATE 1,
      congrArg Host.Outcome.next (if_pos ⟨hauto, hst, hquiet⟩ : execIdle s = _), fld_setFld_same _ F.GLB_PM_STAT_STATE 1 0 0, rfl, rfl⟩
  · refine congrArg Host.Outcome.next (if_neg ?_ : execIdle s = s)
    rintro ⟨hauto, hst, hquiet⟩
    rcases h with h | h | h
    · exact h hauto
    · exact h hst
    · exact absurd hquiet (Bool.eq_false_iff.mp h)
  · intro s v hs u
    exact next_traced (pfWrite_ready hs fun s => s.pmCtl v.toNat)
  · exact ⟨_, actTarget_running hg h, startEntry_state g, rfl⟩
  · exact actTarget_changing (by omega)
  · have e : Entering s g at_ := ⟨hentry, hst, hwaits, hheld⟩
    refine ⟨fun hdone hg => ?_, fun hdone hg => ?_, fun hdone => ⟨next_traced (execDrainDone_waits e hdone), ?_⟩⟩
    · subst hg
      exact ⟨s.enterRest 1, next_traced (execDrainDone_enters e hdone), enterRest_state (by decide), enterRest_result 1, rfl, rfl, rfl⟩
    · subst hg
      obtain ⟨hcam, hhot, hcopies⟩ := park_drops s
      exact ⟨s.park.enterRest 2, next_traced (execDrainDone_enters e hdone), enterRest_state (by decide), rfl, hcam, hhot, hcopies,
        park_cmds s⟩
    · exact ⟨_, congrArg Host.Outcome.next (execDrainEnd_abandons e hdone), abandoned_state, abandoned_result, abandoned_target, rfl, rfl,
        le_max_right _ _⟩
  · have hst : s.fld F.GLB_PM_STAT_STATE ≠ 1 := by omega
    exact ⟨fun ha => wakes_of (by decide) (wakeDb_armed ha) rfl h, fun hm => next_traced (wakeDb_masked hst hm),
      fun ha => wakes_of (by decide) (wakeFab_armed ha) rfl h, fun hm => next_traced (wakeFab_masked hst hm),
      wakes_of (by decide) rfl rfl h, target_zero_wakes h⟩
  · intro s hst hheld hafter u
    exact next_traced (execExitDone_of hst hafter)

end Sys2Proof.Machine
end

section
/-! PROOFS. Chapters 12 and 15: device interfaces, IDE keys, SPDM, debug tokens and the management link (R440 to R443, R451 to R453,
R514, R517, R519). -/

namespace Sys2Proof.Machine

section
variable {s : State}

/-! ### Device interfaces (R441, R442) -/

theorem tdi_vf {v : Nat} (h : 1 ≤ v) : s.tdi v = s.fld F.SEC_TDI_STATE_STATE v := if_neg (by omega)

theorem setTdi_vf {v : Nat} (h1 : 1 ≤ v) (h2 : v ≤ 255) (t : Nat) : s.setTdi v t = s.setFld F.SEC_TDI_STATE_STATE t v := if_neg (by omega)

theorem setTdi_ctxs_cmds (v t : Nat) : (s.setTdi v t).ctxs = s.ctxs ∧ (s.setTdi v t).cmds = s.cmds := by
  unfold State.setTdi
  split <;> exact ⟨rfl, rfl⟩

theorem setTdi_state_same {v t : Nat} (h1 : 1 ≤ v) (h2 : v ≤ 255) (ht : t < 4) : (s.setTdi v t).fld F.SEC_TDI_STATE_STATE v = t := by
  rw [setTdi_vf h1 h2, fld_setFld_same]
  exact Nat.mod_eq_of_lt ht

/-- The records of two functions lie apart. -/
theorem setTdi_state_other {v w : Nat} (h : w ≠ v) (t : Nat) :
    (s.setTdi v t).fld F.SEC_TDI_STATE_STATE w = s.fld F.SEC_TDI_STATE_STATE w := by
  unfold State.setTdi
  split
  · rfl
  · refine fld_setFld_ne s F.SEC_TDI_STATE_STATE F.SEC_TDI_STATE_STATE t v 0 w 0 ?_
    simp only [Fld.key, Fld.at, F.SEC_TDI_STATE_STATE, Bool.false_eq_true, if_false]
    omega

theorem setTdi_keeps_tdiLocked {v w : Nat} (h : w ≠ v) (t : Nat) : (s.setTdi v t).tdiLocked w = s.tdiLocked w := by
  simp only [State.tdiLocked, State.tdi, setTdi_state_other h t]

theorem execLock_mounting {m : Mount} (h : s.boot.mount = some m) (v : Nat) :
    execLock v s = { s with boot := { s.boot with waitLock := s.boot.waitLock ++ [v] } } := if_pos (by rw [h]; rfl)

theorem execLock_mounted (h : s.boot.mount = none) (v : Nat) : execLock v s = s.doLock v := if_neg (by rw [h]; decide)

/-- What `doLock` asks of an interface. -/
theorem doLock_locks {v : Nat} (h1 : 1 ≤ v) (h2 : v ≤ 255) (hst : s.fld F.SEC_TDI_STATE_STATE v = 0) (hb : s.fld F.SEC_TDI_STATE_BOUND v = 1)
    (hup : ∃ x ∈ s.ctxs, x.r.func = v ∧ x.st = .up) : s.doLock v = s.setTdi v 1 := by
  obtain ⟨x, hx, hf, hu⟩ := hup
  refine if_pos ⟨h1, h2, (tdi_vf h1).trans hst, hb, List.any_eq_true.mpr ⟨x, hx, ?_⟩⟩
  rw [hf, hu]
  simp

theorem doLock_refuses {v : Nat} (h1 : 1 ≤ v)
    (h : s.fld F.SEC_TDI_STATE_STATE v ≠ 0 ∨ s.fld F.SEC_TDI_STATE_BOUND v ≠ 1 ∨ ∀ x ∈ s.ctxs, x.r.func = v → x.st ≠ .up) :
    s.doLock v = s := by
  refine if_neg ?_
  rintro ⟨-, -, hst, hb, hup⟩
  rcases h with h | h | h
  · exact h ((tdi_vf h1).symm.trans hst)
  · exact h hb
  · obtain ⟨x, hx, hxv⟩ := List.any_eq_true.mp hup
    rw [Bool.and_eq_true, beq_iff_eq, beq_iff_eq] at hxv
    exact h x hx hxv.1 hxv.2

theorem execStart_locked {v : Nat} (h1 : 1 ≤ v) (h : s.fld F.SEC_TDI_STATE_STATE v = 1) : execStart v s = s.setTdi v 2 :=
  if_pos ((tdi_vf h1).trans h)

theorem execStart_other {v : Nat} (h1 : 1 ≤ v) (h : s.fld F.SEC_TDI_STATE_STATE v ≠ 1) : execStart v s = s :=
  if_neg fun hst => h ((tdi_vf h1).symm.trans hst)

/-! ### Interfaces go to ERROR (R440) -/

theorem tdisToError_ctxs_cmds (p : Nat → Bool) (l : List Nat) (s : State) :
    (s.tdisToError p l).ctxs = s.ctxs ∧ (s.tdisToError p l).cmds = s.cmds := by
  induction l generalizing s with
  | nil => exact ⟨rfl, rfl⟩
  | cons v l ih =>
    rw [State.tdisToError]
    split
    · obtain ⟨hctxs, hcmds⟩ := setTdi_ctxs_cmds (s := s) v 3
      exact ⟨(ih _).1.trans hctxs, (ih _).2.trans hcmds⟩
    · exact ih s

theorem tdisToError_state_other (p : Nat → Bool) {l : List Nat} {v : Nat} (h : v ∉ l) (s : State) :
    (s.tdisToError p l).fld F.SEC_TDI_STATE_STATE v = s.fld F.SEC_TDI_STATE_STATE v := by
  induction l generalizing s with
  | nil => rfl
  | cons w l ih =>
    obtain ⟨hne, hl⟩ := List.ne_and_not_mem_of_not_mem_cons h
    rw [State.tdisToError, ih hl]
    split
    · exact setTdi_state_other hne 3
    · rfl

/-- Of the listed interfaces those that are locked and satisfy `p` go to ERROR, the others stay. -/
theorem tdisToError_state (p : Nat → Bool) {l : List Nat} (hl : l.Nodup) {v : Nat} (hv : v ∈ l) (h1 : 1 ≤ v) (h2 : v ≤ 255) (s : State) :
    (s.tdisToError p l).fld F.SEC_TDI_STATE_STATE v =
      if s.tdiLocked v = true ∧ p v = true then 3 else s.fld F.SEC_TDI_STATE_STATE v := by
  induction l generalizing s with
  | nil => cases hv
  | cons w l ih =>
    obtain ⟨hw, hl⟩ := List.nodup_cons.mp hl
    rw [State.tdisToError]
    by_cases hvw : v = w
    · subst hvw
      rw [tdisToError_state_other p hw]
      simp only [Bool.and_eq_true]
      split
      · exact setTdi_state_same h1 h2 (by decide)
      · rfl
    · rw [ih hl ((List.mem_cons.mp hv).resolve_left hvw)]
      split
      · rw [setTdi_keeps_tdiLocked hvw, setTdi_state_other hvw]
      · rfl

theorem mem_allVfs {v : Nat} (h1 : 1 ≤ v) (h2 : v ≤ 255) : v ∈ allVfs :=
  List.mem_map.mpr ⟨v - 1, List.mem_range.mpr (by omega), by omega⟩

theorem allVfs_nodup : allVfs.Nodup := List.nodup_range.map fun _ _ h => Nat.succ.inj h

/-! ### Keys of a stream (R440) -/

theorem execIde_without_session (h : 2 ∉ s.sec.spdm) (stream : Nat) (r : Option Nat) (go : Bool) : execIde stream r go s = s :=
  if_pos (by simpa using h)

theorem execIde_no_room {stream : Nat} (h : 16 ≤ stream) (v : Nat) : execIde stream (some v) false s = s := by
  have hroom : s.ideRoom stream (some v) = false := decide_eq_false (Nat.not_lt.mpr h)
  simp [execIde, hroom]

/-- The keys of a selective stream are programmed. -/
def State.withKeys (s : State) (stream v : Nat) : State :=
  s.setSec fun x => { x with ide := x.ide.filter (fun y => y.1 ≠ stream) ++ [(stream, some v)] }

theorem execIde_programs (hs : 2 ∈ s.sec.spdm) {stream : Nat} (h : stream < 16) (v : Nat) :
    execIde stream (some v) false s = s.withKeys stream v := by
  have hroom : s.ideRoom stream (some v) = true := decide_eq_true h
  simp [execIde, hs, hroom, State.withKeys]

theorem withKeys_find (stream v : Nat) : ((s.withKeys stream v).sec.ide.find? fun y => y.1 == stream) = some (stream, some v) := by
  have hnone : ((s.sec.ide.filter fun y => decide (y.1 ≠ stream)).find? fun y => y.1 == stream) = none := by
    refine List.find?_eq_none.mpr fun y hy => ?_
    have hne : y.1 ≠ stream := of_decide_eq_true (List.mem_filter.mp hy).2
    simpa using hne
  change ((s.sec.ide.filter fun y => decide (y.1 ≠ stream)) ++ [(stream, some v)]).find? (fun y => y.1 == stream) = _
  rw [List.find?_append, hnone]
  simp

/-- The stream is bound to its requester. -/
def State.bindStream (s : State) (stream v : Nat) : State :=
  (s.setFld F.SEC_TDI_STATE_STREAM stream v).setFld F.SEC_TDI_STATE_BOUND 1 v

theorem execIde_go {stream v : Nat} (hs : 2 ∈ s.sec.spdm) (hk : (s.sec.ide.find? fun y => y.1 == stream) = some (stream, some v))
    (h1 : 1 ≤ v) (h2 : v ≤ 255) (h : stream < 16) (r : Option Nat) : execIde stream r true s = s.bindStream stream v := by
  simp [execIde, hs, hk, h1, h2, h, State.bindStream]

theorem bindStream_stream {stream : Nat} (h : stream < 16) (v : Nat) : (s.bindStream stream v).fld F.SEC_TDI_STATE_STREAM v = stream :=
  calc (s.bindStream stream v).fld F.SEC_TDI_STATE_STREAM v
      = (s.setFld F.SEC_TDI_STATE_STREAM stream v).fld F.SEC_TDI_STATE_STREAM v :=
        fld_setFld_ne _ _ _ _ _ _ _ _ (by simp only [Fld.key, Fld.at, F.SEC_TDI_STATE_STREAM, F.SEC_TDI_STATE_BOUND]; omega)
    _ = stream % 2 ^ 5 := fld_setFld_same s F.SEC_TDI_STATE_STREAM stream v 0
    _ = stream := Nat.mod_eq_of_lt (by omega)

/-! ### Debug tokens (R451) -/

theorem checkSig_rejects {signer : Nat} {g : Signed} (h : (s.checkSig signer g).2 = false) :
    s.checkSig signer g = (s.bump F.SEC_AUTH_STAT_SIG_FAIL, false) := by
  unfold State.checkSig at h ⊢
  split at h
  · cases h
  · next hok => rw [if_neg hok]

theorem checkSig_accepts {signer : Nat} {g : Signed} (h : (s.checkSig signer g).2 = true) : s.checkSig signer g = (s, true) := by
  unfold State.checkSig at h ⊢
  split at h
  · next hok => rw [if_pos hok]
  · cases h

theorem execUnlockF_bad_signature {ch dev sig : Nat} (h : s.checkSig 0 (tokenOf ch dev sig) = (s.bump F.SEC_AUTH_STAT_SIG_FAIL, false)) :
    execUnlockF ch dev sig s = s.bump F.SEC_AUTH_STAT_SIG_FAIL := by
  simp only [execUnlockF, State.tryToken, h]

theorem execUnlockF_other_part {ch dev sig : Nat} (h : s.checkSig 0 (tokenOf ch dev sig) = (s, true))
    (hne : ch ≠ s.sec.challenge ∨ dev ≠ s.deviceId) : execUnlockF ch dev sig s = s := by
  simp only [execUnlockF, State.tryToken, h]
  rw [if_pos hne]

theorem execUnlockF_unlocks {ch dev sig : Nat} (h : s.checkSig 0 (tokenOf ch dev sig) = (s, true)) (hch : ch = s.sec.challenge)
    (hdev : dev = s.deviceId) : execUnlockF ch dev sig s = (if s.fld F.SEC_STATUS_DEBUG = 1 then s else s.unlockDebug).newChallenge := by
  have hthis : ¬ (ch ≠ s.sec.challenge ∨ dev ≠ s.deviceId) := by
    rintro (hne | hne)
    · exact hne hch
    · exact hne hdev
  simp only [execUnlockF, State.tryToken, h]
  rw [if_neg hthis]

/-! ### SPDM (R443) -/

theorem execSpdm_silent {tr : Nat} (h : s.sec.booted = false ∨ s.fld F.SEC_STATUS_RECOVERY = 1 ∨ 3 ≤ tr) (code param : Nat) :
    execSpdm tr code param s = s := by
  refine if_pos (h.imp (fun hb => ?_) id)
  rw [hb]
  rfl

section
variable {tr : Nat} (hb : s.sec.booted = true) (hr : s.fld F.SEC_STATUS_RECOVERY ≠ 1) (htr : tr < 3)
include hb hr htr

theorem execSpdm_measurements {param : Nat} {b : List Nat} (h : s.spdmMeasures param = some b) :
    execSpdm tr Spdm.getMeasurements param s = s.emit (.spdm tr 0x60 b) := by
  have htr' : ¬ 3 ≤ tr := Nat.not_le.mpr htr
  simp [execSpdm, hb, hr, htr', h, Spdm.getMeasurements, Spdm.getVersion]

theorem execSpdm_opens (h : s.sec.spdm.length < 4) (param : Nat) :
    execSpdm tr Spdm.keyExchange param s = (s.setSec fun x => { x with spdm := x.spdm ++ [tr] }).emit (.spdm tr 0x64 []) := by
  have htr' : ¬ 3 ≤ tr := Nat.not_le.mpr htr
  simp [execSpdm, hb, hr, htr', h, Spdm.getMeasurements, Spdm.getVersion, Spdm.keyExchange]

theorem execSpdm_full (h : 4 ≤ s.sec.spdm.length) (param : Nat) :
    execSpdm tr Spdm.keyExchange param s = s.emit (.spdm tr Spdm.error [Spdm.sessionLimit]) := by
  have htr' : ¬ 3 ≤ tr := Nat.not_le.mpr htr
  have hfull : ¬ s.sec.spdm.length < 4 := Nat.not_lt.mpr h
  simp [execSpdm, hb, hr, htr', hfull, Spdm.getMeasurements, Spdm.getVersion, Spdm.keyExchange]

theorem execSpdm_ends (param : Nat) :
    execSpdm tr Spdm.endSession param s = (s.setSec fun x => { x with spdm := x.spdm.erase tr }).emit (.spdm tr 0x6C []) := by
  have htr' : ¬ 3 ≤ tr := Nat.not_le.mpr htr
  simp [execSpdm, hb, hr, htr', Spdm.getMeasurements, Spdm.getVersion, Spdm.keyExchange, Spdm.endSession]

end

/-! ### Sessions of the management port (R452, R453) -/

/-- Among one more number than are used, one is unused. -/
theorem firstUnused_not_mem (used : List Nat) : firstUnused used ∉ used := by
  have hex : ∃ n ∈ (List.range (used.length + 1)).map (· + 1), n ∉ used := by
    by_contra hall
    push Not at hall
    have hsub : ((List.range (used.length + 1)).map (· + 1)).Subperm used :=
      (List.nodup_range.map fun _ _ h => Nat.succ.inj h).subperm hall
    have hlen := hsub.length_le
    rw [List.length_map, List.length_range] at hlen
    omega
  obtain ⟨n, hn, hfree⟩ := hex
  have hsome : (((List.range (used.length + 1)).map (· + 1)).find? fun n => !used.contains n).isSome :=
    List.find?_isSome.mpr ⟨n, hn, by simpa using hfree⟩
  obtain ⟨m, hm⟩ := Option.isSome_iff_exists.mp hsome
  have hm' : (!used.contains m) = true := List.find?_some (p := fun n => !used.contains n) hm
  have hfirst : firstUnused used = m := congrArg (Option.getD · 1) hm
  rw [hfirst]
  simpa using hm'

/-- A session with the given role is opened; `p` is the second under count and the handshakes in it. -/
def State.openSession (s : State) (p : Nat × Nat) (role : Nat) : State :=
  s.setSec fun x => { x with hands := p, sessions := x.sessions ++ [⟨firstUnused (x.sessions.map (·.id)), role, s.cycles⟩] }

theorem execTls_admits {ca serial role : Nat} {p : Nat × Nat} (hon : s.mgmtOn = true) (hup : s.fld F.MGT_IO_STAT_LINK_UP = 1)
    (hrole : s.clientRole ca serial = some role)
    (hp : (if s.sec.hands.1 + cyclesPerS ≤ s.cycles ∨ s.sec.hands.2 = 0 then (s.cycles, 0) else s.sec.hands) = p) (hfew : p.2 < 10)
    (hroom : s.sec.sessions.length < 4) : execTls ca serial true s = s.openSession (p.1, p.2 + 1) role := by
  have hgo : ¬ ((!s.mgmtOn) = true ∨ s.fld F.MGT_IO_STAT_LINK_UP = 0) := by rw [hon, hup]; decide
  have hrole' : (s.setSec fun x => { x with hands := (p.1, p.2 + 1) }).clientRole ca serial = some role := hrole
  unfold execTls
  rw [if_neg hgo]
  simp only [hp]
  rw [if_neg (Nat.not_le.mpr hfew), hrole']
  exact if_pos ⟨trivial, hroom⟩

theorem snd_ite_lt {c : Prop} [Decidable c] {a b : Nat × Nat} {n : Nat} (ha : a.2 < n) (hb : b.2 < n) : (if c then a else b).2 < n := by
  split
  · exact ha
  · exact hb

/-- A second that has begun anew or counts fewer than ten handshakes has room for one. -/
theorem execTls_opens {ca serial role : Nat} (hon : s.mgmtOn = true) (hup : s.fld F.MGT_IO_STAT_LINK_UP = 1)
    (hrole : s.clientRole ca serial = some role) (hhands : s.sec.hands.2 < 10) (hroom : s.sec.sessions.length < 4) :
    ∃ p, execTls ca serial true s = s.openSession p role :=
  ⟨_, execTls_admits hon hup hrole rfl (snd_ite_lt (Nat.zero_lt_succ 9) hhands) hroom⟩

theorem execTls_off (h : s.mgmtOn = false ∨ s.fld F.MGT_IO_STAT_LINK_UP = 0) (ca serial : Nat) (ok : Bool) : execTls ca serial ok s = s := by
  refine if_pos (h.imp (fun hoff => ?_) id)
  rw [hoff]
  rfl

theorem execTlsIdle_of {i : Nat} {x : Session} (h : (s.sec.sessions.find? fun y => y.id == i) = some x) :
    execTlsIdle i s = (s.reach (x.lastAt + 300 * cyclesPerS)).setSec fun y => { y with sessions := y.sessions.filter fun z => z.id ≠ i } := by
  simp only [execTlsIdle, h]

theorem execMgmtLoss_up (h : s.sec.linkDown = none) : execMgmtLoss s = s := by simp only [execMgmtLoss, h]

theorem execMgmtLoss_down {at_ : Nat} (h : s.sec.linkDown = some at_) :
    execMgmtLoss s = ((s.reach (at_ + max 1 (s.fld F.MGT_IO_CFG_LINK_LOSS) * 1000 * cyclesPerUs)).setSec fun x =>
      { x with sessions := [], linkDown := none }).bump F.MGT_IO_STAT_LINK_LOSSES := by
  simp only [execMgmtLoss, h]

/-! ### The PHY (R519) -/

theorem phyRead_up (h : s.mgmtOn = true) :
    s.phyRead true = (s.setFld F.MGT_IO_STAT_LINK_UP 1).setSec fun x => { x with linkDown := none } := by simp [State.phyRead, h]

theorem phyRead_still_down (h : s.mgmtOn = true) (hdown : s.fld F.MGT_IO_STAT_LINK_UP = 0) : s.phyRead false = s := by
  simp [State.phyRead, h, hdown]

theorem phyRead_goes_down (h : s.mgmtOn = true) (hup : s.fld F.MGT_IO_STAT_LINK_UP = 1) :
    s.phyRead false = (s.setFld F.MGT_IO_STAT_LINK_UP 0).setSec fun x => { x with linkDown := some s.cycles } := by
  simp [State.phyRead, h, hup]

/-- A report of the PHY, by its interrupt or by a poll, is a reading at that time. -/
theorem phy_report (h : s.mgmtOn = true) (up : Bool) {i : Instr} (hi : i = .mgmtPhyInt up ∨ i = .mgmtPhyPoll up) :
    ∃ r : State, exec i s = .next (r.phyRead up) ∧ r.regs = s.regs ∧ r.sec.linkDown = s.sec.linkDown ∧ r.sec.sessions = s.sec.sessions := by
  rcases hi with rfl | rfl
  · exact ⟨s, rfl, rfl, rfl, rfl⟩
  · have hgo : ¬ (!s.mgmtOn) = true := by rw [h]; decide
    exact ⟨_, congrArg Host.Outcome.next (if_neg hgo : execPhyPoll up s = _), rfl, rfl, rfl⟩

/-! ### Stalls and timeouts (R514, R517) -/

theorem fld_bump_saturating {f : Fld} (hf : f.sat = true) :
    (s.bump f).fld f = min (s.fld f + 1) (2 ^ f.width - 1) := by
  have hlt : min (s.fld f + 1) (2 ^ f.width - 1) < 2 ^ f.width := by
    have hpos : 0 < 2 ^ f.width := Nat.two_pow_pos _
    omega
  have hbump : s.bump f = s.setFld f (min (s.fld f + 1) (2 ^ f.width - 1)) := by simp only [State.bump, hf, if_true]
  rw [hbump, fld_setFld_same]
  exact Nat.mod_eq_of_lt hlt

theorem execSpiBusy_idle (h : s.sec.staging = none) : execSpiBusy s = s := if_neg (by rw [h]; decide)

theorem execSpiBusy_busy {g : Staging} (h : s.sec.staging = some g) : execSpiBusy s =
    (((s.reach (s.cycles + max 1 (s.fld F.MGT_IO_CFG_SPI_BUSY) * 1000 * cyclesPerUs)).setSec fun x =>
      { x with staging := none }).bump F.MGT_IO_STAT_SPI_TIMEOUTS).emit .spiReset := if_pos (by rw [h]; rfl)

/-! ### The clauses -/

theorem interfaceLocksRunsStops {v : Nat} (h1 : 1 ≤ v) (h2 : v ≤ 255) :
    (∀ m, s.boot.mount = some m → ∃ t, exec (.lockInterface v) s = .next t ∧ t.boot.waitLock = s.boot.waitLock ++ [v] ∧ t.regs = s.regs) ∧
    (s.boot.mount = none →
      (s.fld F.SEC_TDI_STATE_STATE v = 0 → s.fld F.SEC_TDI_STATE_BOUND v = 1 → (∃ x ∈ s.ctxs, x.r.func = v ∧ x.st = .up) →
        ∃ t, exec (.lockInterface v) s = .next t ∧ t.fld F.SEC_TDI_STATE_STATE v = 1 ∧ t.ctxs = s.ctxs) ∧
      (s.fld F.SEC_TDI_STATE_STATE v ≠ 0 ∨ s.fld F.SEC_TDI_STATE_BOUND v ≠ 1 ∨ (∀ x ∈ s.ctxs, x.r.func = v → x.st ≠ .up) →
        exec (.lockInterface v) s = .next s)) ∧
    (s.fld F.SEC_TDI_STATE_STATE v = 1 → ∃ t, exec (.startInterface v) s = .next t ∧ t.fld F.SEC_TDI_STATE_STATE v = 2 ∧
      t.ctxs = s.ctxs) ∧
    (s.fld F.SEC_TDI_STATE_STATE v ≠ 1 → exec (.startInterface v) s = .next s) ∧
    ∃ t, exec (.stopInterface v) s = .next t ∧ t.fld F.SEC_TDI_STATE_STATE v = 0 ∧ t.ctxs = s.ctxs := by
  have hset : ∀ n < 4, (s.setTdi v n).fld F.SEC_TDI_STATE_STATE v = n ∧ (s.setTdi v n).ctxs = s.ctxs := fun n hn =>
    ⟨setTdi_state_same h1 h2 hn, (setTdi_ctxs_cmds v n).1⟩
  refine ⟨fun m hm => ⟨_, congrArg Host.Outcome.next (execLock_mounting hm v), rfl, rfl⟩,
    fun hm => ⟨fun hst hb hup => ?_, fun h => ?_⟩, fun h => ?_, fun h => ?_, ⟨_, rfl, hset 0 (by decide)⟩⟩
  · exact ⟨_, congrArg Host.Outcome.next ((execLock_mounted hm v).trans (doLock_locks h1 h2 hst hb hup)), hset 1 (by decide)⟩
  · exact congrArg Host.Outcome.next ((execLock_mounted hm v).trans (doLock_refuses h1 h))
  · exact ⟨_, congrArg Host.Outcome.next (execStart_locked h1 h), hset 2 (by decide)⟩
  · exact congrArg Host.Outcome.next (execStart_other h1 h)

theorem ideFailureErrs (stream : Nat) : ∃ t, exec (.ideIntegrityFailure stream) s = .next t ∧ t.ctxs = s.ctxs ∧ t.cmds = s.cmds ∧
    ∀ v, 1 ≤ v → v ≤ 255 → t.fld F.SEC_TDI_STATE_STATE v =
      if s.tdiLocked v = true ∧ s.fld F.SEC_TDI_STATE_BOUND v = 1 ∧ s.fld F.SEC_TDI_STATE_STREAM v = stream then 3
      else s.fld F.SEC_TDI_STATE_STATE v := by
  obtain ⟨hctxs, hcmds⟩ := tdisToError_ctxs_cmds
    (fun v => s.fld F.SEC_TDI_STATE_BOUND v == 1 && s.fld F.SEC_TDI_STATE_STREAM v == stream) allVfs s
  refine ⟨execIdeFail stream s, rfl, hctxs, hcmds, fun v h1 h2 => ?_⟩
  refine (tdisToError_state _ allVfs_nodup (mem_allVfs h1 h2) h1 h2 s).trans ?_
  simp only [Bool.and_eq_true, beq_iff_eq]

theorem clientGetsSession {ca serial role : Nat} (hon : s.mgmtOn = true) (hup : s.fld F.MGT_IO_STAT_LINK_UP = 1)
    (hrole : s.clientRole ca serial = some role) (hhands : s.sec.hands.2 < 10) (hroom : s.sec.sessions.length < 4) :
    ∃ t x, exec (.tlsHandshake ca serial true) s = .next t ∧ t.sec.sessions = s.sec.sessions ++ [x] ∧ x.role = role ∧
      x.lastAt = s.cycles ∧ (∀ y ∈ s.sec.sessions, y.id ≠ x.id) ∧ t.regs = s.regs := by
  obtain ⟨p, hopen⟩ := execTls_opens hon hup hrole hhands hroom
  refine ⟨_, _, congrArg Host.Outcome.next hopen, rfl, rfl, rfl, fun y hy heq => ?_, rfl⟩
  exact firstUnused_not_mem (s.sec.sessions.map (·.id)) (List.mem_map.mpr ⟨y, hy, heq⟩)

theorem idleSessionCloses {i : Nat} {x : Session} (h : (s.sec.sessions.find? fun y => y.id == i) = some x) :
    ∃ t, exec (.tlsIdleTimeout i) s = .next t ∧ (∀ y ∈ t.sec.sessions, y.id ≠ i) ∧
      (∀ y ∈ s.sec.sessions, y.id ≠ i → y ∈ t.sec.sessions) ∧ x.lastAt + 300 * cyclesPerS ≤ t.cycles :=
  ⟨_, congrArg Host.Outcome.next (execTlsIdle_of h), fun _ hy => of_decide_eq_true (List.mem_filter.mp hy).2,
    fun _ hy hne => List.mem_filter.mpr ⟨hy, decide_eq_true hne⟩, le_max_right _ _⟩

theorem linkIsUp (hon : s.mgmtOn = true) {i : Instr} (hi : i = .mgmtPhyInt true ∨ i = .mgmtPhyPoll true) :
    ∃ t, exec i s = .next t ∧ t.fld F.MGT_IO_STAT_LINK_UP = 1 ∧ t.sec.linkDown = none ∧ t.sec.sessions = s.sec.sessions := by
  obtain ⟨r, hexec, hregs, -, hsess⟩ := phy_report hon true hi
  have hon' : r.mgmtOn = true := by rwa [State.mgmtOn, State.fld, hregs]
  exact ⟨_, hexec.trans (congrArg Host.Outcome.next (phyRead_up hon')), fld_setFld_same r F.MGT_IO_STAT_LINK_UP 1 0 0, rfl, hsess⟩

theorem linkIsDown (hon : s.mgmtOn = true) {i : Instr} (hi : i = .mgmtPhyInt false ∨ i = .mgmtPhyPoll false) :
    (s.fld F.MGT_IO_STAT_LINK_UP = 0 → ∃ t, exec i s = .next t ∧ t.regs = s.regs ∧ t.sec.linkDown = s.sec.linkDown ∧
      t.sec.sessions = s.sec.sessions) ∧
    (s.fld F.MGT_IO_STAT_LINK_UP = 1 → ∃ t, exec i s = .next t ∧ t.fld F.MGT_IO_STAT_LINK_UP = 0 ∧
      t.sec.linkDown = some t.cycles ∧ t.sec.sessions = s.sec.sessions) := by
  obtain ⟨r, hexec, hregs, hdown, hsess⟩ := phy_report hon false hi
  have hon' : r.mgmtOn = true := by rwa [State.mgmtOn, State.fld, hregs]
  have hlink : r.fld F.MGT_IO_STAT_LINK_UP = s.fld F.MGT_IO_STAT_LINK_UP := by rw [State.fld, hregs, State.fld]
  refine ⟨fun h => ?_, fun h => ?_⟩
  · exact ⟨r, hexec.trans (congrArg Host.Outcome.next (phyRead_still_down hon' (hlink.trans h))), hregs, hdown, hsess⟩
  · exact ⟨_, hexec.trans (congrArg Host.Outcome.next (phyRead_goes_down hon' (hlink.trans h))),
      fld_setFld_same r F.MGT_IO_STAT_LINK_UP 0 0 0, rfl, hsess⟩

end

/-- Settles O57: the clauses on the device interfaces, IDE, debug and SPDM, then those on the management link, a lemma for each. -/
theorem interfacesAndManagementLink : Obligations.InterfacesAndManagementLink := by
  refine ⟨⟨fun s v h1 h2 => interfaceLocksRunsStops h1 h2, fun s stream v => ?_, fun s stream => ideFailureErrs stream, ?_,
    fun s tr param => ?_⟩, ?_, ?_, ?_, fun s => ?_, fun s i hi hon => linkIsUp hon hi, fun s i hi hon => linkIsDown hon hi, fun s => ?_⟩
  · refine ⟨fun h r go => congrArg Host.Outcome.next (execIde_without_session h stream r go),
      fun h => congrArg Host.Outcome.next (execIde_no_room h v), fun hs h => ?_, fun hs hk h1 h2 h r => ?_⟩
    · exact ⟨_, congrArg Host.Outcome.next (execIde_programs hs h v), withKeys_find stream v, rfl⟩
    · exact ⟨_, congrArg Host.Outcome.next (execIde_go hs hk h1 h2 h r), bindStream_stream h v,
        fld_setFld_same _ F.SEC_TDI_STATE_BOUND 1 v 0, rfl⟩
  · intro s ch dev sig g v
    refine ⟨fun h => ?_, fun h => ?_⟩
    · have hbad : s.checkSig 0 g = (s.bump F.SEC_AUTH_STAT_SIG_FAIL, false) := checkSig_rejects h
      have hv : v = s.bump F.SEC_AUTH_STAT_SIG_FAIL := congrArg Prod.fst hbad
      exact ⟨hv, next_traced ((execUnlockF_bad_signature hbad).trans hv.symm)⟩
    · have hok : s.checkSig 0 g = (s, true) := checkSig_accepts h
      refine ⟨congrArg Prod.fst hok, fun hne => next_traced (execUnlockF_other_part hok hne), fun hch hdev => ?_⟩
      exact next_traced (execUnlockF_unlocks hok hch hdev)
  · refine ⟨fun h c => congrArg Host.Outcome.next (execSpdm_silent h c param), fun hb hr htr =>
      ⟨fun b h => ?_, fun h => ?_, fun h => ?_, ?_⟩⟩
    · exact congrArg Host.Outcome.next (execSpdm_measurements hb hr htr h)
    · exact ⟨_, congrArg Host.Outcome.next (execSpdm_opens hb hr htr h param), rfl, rfl⟩
    · exact congrArg Host.Outcome.next (execSpdm_full hb hr htr h param)
    · exact ⟨_, congrArg Host.Outcome.next (execSpdm_ends hb hr htr param), rfl, rfl⟩
  · exact fun s ca serial role => clientGetsSession
  · exact fun s ca serial ok h => congrArg Host.Outcome.next (execTls_off h ca serial ok)
  · exact fun s i x => idleSessionCloses
  · exact ⟨fun h => congrArg Host.Outcome.next (execMgmtLoss_up h), fun at_ h =>
      ⟨_, congrArg Host.Outcome.next (execMgmtLoss_down h), rfl, rfl, le_max_right _ _⟩⟩
  · exact ⟨⟨_, rfl, fld_bump_saturating rfl, rfl⟩, fun h => congrArg Host.Outcome.next (execSpiBusy_idle h), fun g h =>
      ⟨_, congrArg Host.Outcome.next (execSpiBusy_busy h), rfl, rfl, rfl, rfl⟩⟩

end Sys2Proof.Machine
end

section
/-! PROOFS. Chapter 15: requests on the management port (R433, R449 to R453, R461, R520, Table 15.8). -/

namespace Sys2Proof.Machine

section
variable {s : State} {sess req : Nat}

/-! ### A request and its role (R452, Table 15.8) -/

/-- The part is in RECOVERY. -/
abbrev State.Recovering (s : State) : Prop := s.fld F.SEC_STATUS_RECOVERY = 1

theorem request_no_session (h : (s.sec.sessions.find? fun y => y.id == sess) = none) (typ role : Nat) (inRec : Bool) (op : State → State) :
    s.request sess req typ role inRec op = s := by simp only [State.request, h]

section
variable {x : Session} (hx : (s.sec.sessions.find? fun y => y.id == sess) = some x)
include hx

/-- A request that the role and the state of the part allow is carried out. -/
theorem request_taken {role : Nat} {inRec : Bool} (hrole : role ≤ x.role) (hrec : s.Recovering → inRec = true) (typ : Nat)
    (op : State → State) : s.request sess req typ role inRec op = op (s.heard sess) := by
  have hgo : ¬ (decide (x.role < role) || (s.fld F.SEC_STATUS_RECOVERY == 1 && !inRec)) = true := by
    rw [Bool.or_eq_true, Bool.and_eq_true, decide_eq_true_eq, beq_iff_eq]
    rintro (hlow | ⟨hr, hno⟩)
    · omega
    · rw [hrec hr] at hno
      cases hno
  simp only [State.request, hx]
  exact if_neg hgo

/-- Any other is answered ACCESS_DENIED. -/
theorem request_denied {role : Nat} {inRec : Bool} (h : (s.Recovering ∧ inRec = false) ∨ x.role < role) (typ : Nat) (op : State → State) :
    s.request sess req typ role inRec op = (s.heard sess).reply sess typ req St.accessDenied := by
  have hgo : (decide (x.role < role) || (s.fld F.SEC_STATUS_RECOVERY == 1 && !inRec)) = true := by
    rw [Bool.or_eq_true, Bool.and_eq_true, decide_eq_true_eq, beq_iff_eq]
    rcases h with ⟨hr, hno⟩ | hlow
    · exact .inr ⟨hr, by rw [hno]; rfl⟩
    · exact .inl hlow
  simp only [State.request, hx]
  exact if_pos hgo

/-- Outside RECOVERY the role alone decides. -/
theorem request_running {role : Nat} {inRec : Bool} (hr : ¬ s.Recovering) (hrole : role ≤ x.role) (typ : Nat) (op : State → State) :
    s.request sess req typ role inRec op = op (s.heard sess) := request_taken hx hrole (fun h => absurd h hr) typ op

/-- What RECOVERY does not allow is denied there, as it is to a lower role. -/
theorem request_barred {role : Nat} (h : s.Recovering ∨ x.role < role) (typ : Nat) (op : State → State) :
    s.request sess req typ role false op = (s.heard sess).reply sess typ req St.accessDenied :=
  request_denied hx (h.imp_left fun hr => ⟨hr, rfl⟩) typ op

/-! ### Registers and the cap (R461) -/

theorem execMgmtRead_reads {l : List (Nat × Nat)} (h : l.length ≤ 64) : execMgmtRead sess req l s =
    ((s.heard sess).mgmtReads l).1.reply sess 0x0001 req St.ok ((s.heard sess).mgmtReads l).2 :=
  (request_taken hx (Nat.zero_le _) (fun _ => rfl) _ _).trans (if_neg (Nat.not_lt.mpr h))

theorem execMgmtRead_too_many {l : List (Nat × Nat)} (h : 64 < l.length) :
    execMgmtRead sess req l s = (s.heard sess).reply sess 0x0001 req St.badField :=
  (request_taken hx (Nat.zero_le _) (fun _ => rfl) _ _).trans (if_pos h)

theorem execSetCap_sets (hr : ¬ s.Recovering) (hrole : 1 ≤ x.role) {w : Nat} (h : w < 2048) :
    execSetCap sess req w s = ((s.heard sess).setFld F.PWR_CAP_CAP_W w).reply sess 0x0010 req St.ok :=
  (request_running hx hr hrole _ _).trans (if_neg (Nat.not_le.mpr h))

theorem execSetCap_out_of_range (hr : ¬ s.Recovering) (hrole : 1 ≤ x.role) {w : Nat} (h : 2048 ≤ w) :
    execSetCap sess req w s = (s.heard sess).reply sess 0x0010 req St.badField :=
  (request_running hx hr hrole _ _).trans (if_pos h)

/-! ### Updates (R433) -/

/-- Who may stage a piece: an operator, and in RECOVERY an owner, of firmware alone. -/
def StageTaken (s : State) (x : Session) (c : Bool) : Prop :=
  (¬ s.Recovering ∧ 1 ≤ x.role) ∨ (s.Recovering ∧ c = false ∧ 2 ≤ x.role)

/-- What a request to stage a piece does once it is taken. -/
def State.stageOp (s : State) (sess req : Nat) (c : Bool) (off len : Nat) (g : Option BankImage) : State :=
  if (if c then 67108864 else 33554432) < off + len then s.reply sess 0x0012 req St.badField
  else (s.stagePiece c off len g).reply sess 0x0012 req St.ok

omit hx in
theorem execStage_request (c : Bool) (off len : Nat) (g : Option BankImage) : execStage sess req c off len g s =
    s.request sess req 0x0012 (if s.fld F.SEC_STATUS_RECOVERY = 1 then 2 else 1) (!c) fun s => s.stageOp sess req c off len g := by
  simp only [execStage, beq_iff_eq]
  rfl

theorem execStage_taken {c : Bool} (h : StageTaken s x c) (off len : Nat) (g : Option BankImage) :
    execStage sess req c off len g s = (s.heard sess).stageOp sess req c off len g := by
  rw [execStage_request]
  rcases h with ⟨hr, hrole⟩ | ⟨hr, rfl, hrole⟩
  · rw [if_neg hr]
    exact request_running hx hr hrole _ _
  · rw [if_pos hr]
    exact request_taken hx hrole (fun _ => rfl) _ _

theorem execStage_denied {c : Bool} (h : ¬ StageTaken s x c) (off len : Nat) (g : Option BankImage) :
    execStage sess req c off len g s = (s.heard sess).reply sess 0x0012 req St.accessDenied := by
  rw [execStage_request]
  refine request_denied hx ?_ _ _
  by_cases hr : s.Recovering
  · rw [if_pos hr]
    cases c
    · exact .inr (Nat.lt_of_not_le fun hrole => h (.inr ⟨hr, rfl, hrole⟩))
    · exact .inl ⟨hr, rfl⟩
  · rw [if_neg hr]
    exact .inr (Nat.lt_of_not_le fun hrole => h (.inl ⟨hr, hrole⟩))

end

/-! ### Mounts (R449) -/

/-- A mount that its checks refuse. -/
def State.mgmtMountFails (s : State) (sess req st : Nat) : State := (s.mountResult st).reply sess 0x0013 req st

/-- What a request to mount does once it is taken. -/
def State.mountOp (s : State) (sess req mode mask : Nat) : State :=
  if 1 < mode ∨ decide (mode = 0) ≠ s.blank.isNone then s.mgmtMountFails sess req St.badField
  else match s.cfgImg?.bind (·.blank) with
    | none => s.mgmtMountFails sess req St.badField
    | some b => match s.mountChecks b (decide (mode = 0)) mask none with
      | (s, some st) => s.mgmtMountFails sess req st
      | (s, none) =>
        if !(decide (mode = 0)) ∧ mask = 0 then s.reply sess 0x0013 req St.okEmpty
        else s.beginMount none (some (sess, req)) b (decide (mode = 0)) mask

theorem execMgmtMount_waits {mode mask : Nat} (h : s.mountWaits (decide (mode = 0)) mask = true) :
    execMgmtMount sess req mode mask s = s := if_pos h

theorem execMgmtMount_request {mode mask : Nat} (h : s.mountWaits (decide (mode = 0)) mask = false) :
    execMgmtMount sess req mode mask s = s.request sess req 0x0013 1 false fun s => s.mountOp sess req mode mask :=
  if_neg (Bool.eq_false_iff.mp h)

theorem mountOp_bad_mode {mode : Nat} (h : 1 < mode ∨ decide (mode = 0) ≠ s.blank.isNone) (mask : Nat) :
    s.mountOp sess req mode mask = s.mgmtMountFails sess req St.badField := if_pos h

section
variable {mode : Nat} (hmode : mode ≤ 1) (hfull : decide (mode = 0) = s.blank.isNone)
include hmode hfull

theorem mountOp_no_blank (h : s.cfgImg?.bind (·.blank) = none) (mask : Nat) :
    s.mountOp sess req mode mask = s.mgmtMountFails sess req St.badField := by
  have hgo : ¬ (1 < mode ∨ decide (mode = 0) ≠ s.blank.isNone) := not_or.mpr ⟨Nat.not_lt.mpr hmode, not_not.mpr hfull⟩
  unfold State.mountOp
  rw [if_neg hgo, h]

theorem mountOp_check_fails {b : Blank} {v : State} {mask st : Nat} (h : s.cfgImg?.bind (·.blank) = some b)
    (hc : s.mountChecks b (decide (mode = 0)) mask none = (v, some st)) : s.mountOp sess req mode mask = v.mgmtMountFails sess req st := by
  have hgo : ¬ (1 < mode ∨ decide (mode = 0) ≠ s.blank.isNone) := not_or.mpr ⟨Nat.not_lt.mpr hmode, not_not.mpr hfull⟩
  unfold State.mountOp
  rw [if_neg hgo, h]
  simp only [hc]

theorem mountOp_checked {b : Blank} {v : State} {mask : Nat} (h : s.cfgImg?.bind (·.blank) = some b)
    (hc : s.mountChecks b (decide (mode = 0)) mask none = (v, none)) : s.mountOp sess req mode mask =
      if (!decide (mode = 0)) = true ∧ mask = 0 then v.reply sess 0x0013 req St.okEmpty
      else v.beginMount none (some (sess, req)) b (decide (mode = 0)) mask := by
  have hgo : ¬ (1 < mode ∨ decide (mode = 0) ≠ s.blank.isNone) := not_or.mpr ⟨Nat.not_lt.mpr hmode, not_not.mpr hfull⟩
  unfold State.mountOp
  rw [if_neg hgo, h]
  simp only [hc]

theorem mountOp_empty {b : Blank} {v : State} (h : s.cfgImg?.bind (·.blank) = some b)
    (hc : s.mountChecks b (decide (mode = 0)) 0 none = (v, none)) (hm : mode = 1) :
    s.mountOp sess req mode 0 = v.reply sess 0x0013 req St.okEmpty :=
  (mountOp_checked hmode hfull h hc).trans (if_pos ⟨by rw [hm]; rfl, rfl⟩)

theorem mountOp_begins {b : Blank} {v : State} {mask : Nat} (h : s.cfgImg?.bind (·.blank) = some b)
    (hc : s.mountChecks b (decide (mode = 0)) mask none = (v, none)) (hm : mode = 0 ∨ mask ≠ 0) :
    s.mountOp sess req mode mask = v.beginMount none (some (sess, req)) b (decide (mode = 0)) mask := by
  refine (mountOp_checked hmode hfull h hc).trans (if_neg ?_)
  rintro ⟨hpart, hmask⟩
  rcases hm with rfl | hne
  · cases hpart
  · exact hne hmask

end

/-! ### The storage epoch (R450) -/

theorem spendEpoch_last (h : s.fld F.SEC_STATUS_EPOCH_LEFT = 0) : s.spendEpoch.sec.fuses = { s.sec.fuses with uds := udsBurned } :=
  congrArg (·.sec.fuses) (if_pos h : s.spendEpoch = _)

theorem spendEpoch_steps (h : s.fld F.SEC_STATUS_EPOCH_LEFT ≠ 0) :
    s.spendEpoch.sec.fuses = { s.sec.fuses with epoch := s.sec.fuses.epoch + 1 } ∧
      s.spendEpoch.fld F.SEC_STATUS_EPOCH_LEFT = (s.fld F.SEC_STATUS_EPOCH_LEFT - 1) % 2 ^ 6 := by
  have hstep : s.spendEpoch = (s.setFld F.SEC_STATUS_EPOCH_LEFT (s.fld F.SEC_STATUS_EPOCH_LEFT - 1)).setSec fun x =>
      { x with fuses := { x.fuses with epoch := x.fuses.epoch + 1 } } := if_neg h
  rw [hstep]
  exact ⟨rfl, fld_setFld_same s F.SEC_STATUS_EPOCH_LEFT _ 0 0⟩

end

/-- Settles O58: each request through `request`, which weighs its role and RECOVERY once for all of them. -/
theorem managementRequests : Obligations.ManagementRequests := by
  refine ⟨?_, ?_, ?_, fun s => ⟨spendEpoch_last, spendEpoch_steps⟩⟩
  · intro s sess req x hx u recovery denied
    refine ⟨fun l h => congrArg Host.Outcome.next (execMgmtRead_reads hx h), fun l h => congrArg Host.Outcome.next (execMgmtRead_too_many hx h),
      fun nonce => congrArg Host.Outcome.next (request_taken hx (Nat.zero_le _) (fun _ => rfl) _ _), fun hr => ?_, fun hr => ?_,
      fun hr hrole => ?_, fun h => ?_, fun c off len g => ?_, fun mode mask hw => ?_, fun hr hrole => ?_, fun h => ?_⟩
    · exact ⟨congrArg Host.Outcome.next (request_running hx hr (Nat.zero_le _) _ _),
        congrArg Host.Outcome.next (request_running hx hr (Nat.zero_le _) _ _)⟩
    · exact ⟨congrArg Host.Outcome.next (request_barred hx (.inl hr) _ _), congrArg Host.Outcome.next (request_barred hx (.inl hr) _ _)⟩
    · exact ⟨fun w h => congrArg Host.Outcome.next (execSetCap_sets hx hr hrole h),
        fun w h => congrArg Host.Outcome.next (execSetCap_out_of_range hx hr hrole h),
        congrArg Host.Outcome.next (request_running hx hr hrole _ _)⟩
    · exact ⟨fun w => congrArg Host.Outcome.next (request_barred hx h _ _), congrArg Host.Outcome.next (request_barred hx h _ _)⟩
    · intro taken size
      exact ⟨fun ht h => congrArg Host.Outcome.next ((execStage_taken hx ht off len g).trans (if_neg (Nat.not_lt.mpr h))),
        fun ht h => congrArg Host.Outcome.next ((execStage_taken hx ht off len g).trans (if_pos h)),
        fun ht => congrArg Host.Outcome.next (execStage_denied hx ht off len g)⟩
    · intro full fails
      refine ⟨fun h => next_traced ((execMgmtMount_request hw).trans (request_barred hx h _ _)), fun hr hrole => ?_⟩
      have htaken : execMgmtMount sess req mode mask s = u.mountOp sess req mode mask :=
        (execMgmtMount_request hw).trans (request_running hx hr hrole _ _)
      refine ⟨fun h => next_traced (htaken.trans (mountOp_bad_mode (s := u) h mask)), fun hmode hfull => ⟨fun h => ?_, fun b v h =>
        ⟨fun st hc => ?_, fun hc => ⟨fun hm hmask => ?_, fun hm => ?_⟩⟩⟩⟩
      · exact next_traced (htaken.trans (mountOp_no_blank (s := u) hmode hfull h mask))
      · exact next_traced (htaken.trans (mountOp_check_fails (s := u) hmode hfull h hc))
      · subst hmask
        exact next_traced (htaken.trans (mountOp_empty (s := u) hmode hfull h hc hm))
      · exact next_traced (htaken.trans (mountOp_begins (s := u) hmode hfull h hc hm))
    · refine ⟨congrArg Host.Outcome.next (request_running hx hr hrole _ _), fun ch dev sig => next_traced (request_running hx hr hrole _ _),
        ?_, next_traced (request_running hx hr hrole _ _)⟩
      intro a b
      exact next_traced (request_running hx hr hrole _ _)
    · exact ⟨congrArg Host.Outcome.next (request_barred hx h _ _), fun ch dev sig => next_traced (request_barred hx h _ _),
        next_traced (request_barred hx h _ _), next_traced (request_barred hx h _ _)⟩
  · intro s sess req h
    have hnone : ∀ typ role inRec op, s.request sess req typ role inRec op = s := request_no_session h
    have hmount : ∀ mode mask, execMgmtMount sess req mode mask s = s := fun mode mask => by
      cases hw : s.mountWaits (decide (mode = 0)) mask
      · exact (execMgmtMount_request hw).trans (hnone _ _ _ _)
      · exact execMgmtMount_waits hw
    exact ⟨fun l => congrArg Host.Outcome.next (hnone _ _ _ _), congrArg Host.Outcome.next (hnone _ _ _ _),
      fun n => congrArg Host.Outcome.next (hnone _ _ _ _), congrArg Host.Outcome.next (hnone _ _ _ _),
      fun w => congrArg Host.Outcome.next (hnone _ _ _ _), congrArg Host.Outcome.next (hnone _ _ _ _),
      fun c off len g => congrArg Host.Outcome.next ((execStage_request c off len g).trans (hnone _ _ _ _)),
      fun mode mask => next_traced (hmount mode mask),
      congrArg Host.Outcome.next (hnone _ _ _ _), fun ch dev sig => next_traced (hnone _ _ _ _), next_traced (hnone _ _ _ _),
      next_traced (hnone _ _ _ _)⟩
  · exact fun s sess req mode mask h => next_traced (execMgmtMount_waits h)

end Sys2Proof.Machine
end
